-- ==== Sys2Proof/Word.lean ====
section
/-! DEFINITION. The widths of the Xothar's data: bytes, 64-bit words, 16-bit instruction words, vector registers
and accumulator tiles (R2, R18, R227, R247). -/

namespace Sys2Proof

/-- A memory byte. -/
abbrev Byte := BitVec 8

/-- A word is 64 bits ("Notation"). -/
abbrev Word := BitVec 64

/-- An instruction word: a prefix or a base word (R18). -/
abbrev Half := BitVec 16

/-- A vector register, 512 bits (R247). -/
abbrev VReg := BitVec 512

/-- An accumulator tile: 64 elements of 32 bits (R227). -/
abbrev Tile := BitVec 2048

end Sys2Proof
end

