-- ==== Sys2Proof/Syntax.lean ====
section
/-! DEFINITION. The syntax of the Xothar: one constructor of `Instr` for each row of the table of operations and
events (spec/opcode_table.json). The first part holds the machine's own indivisible steps ("What each step holds"): each
names, by a serial number, the request, message or command of the state that it carries out, or carries what an
outside agent sends. The second part holds the instructions of pages 0 to 6, with register numbers of 7 bits (R19,
R24), immediates assembled and sign-extended to 34 bits (R23) and the marks of the MOD prefix (R26). -/

namespace Sys2Proof

/-- A register number: a 4-bit field, or 7 bits with a REG prefix (R19, R24). -/
abbrev Reg := BitVec 7

/-- An assembled immediate, sign-extended to the widest chain of Table 2.3 (R23). -/
abbrev Imm := BitVec 34

/-- The scopes of Table 2.5. -/
inductive Scope where
  | core | cluster | die | package | system
  deriving DecidableEq, Repr

/-- The marks of a MOD prefix (Table 2.5); the default is a chain without marks. -/
structure Mod where
  relaxed : Bool := false
  scope   : Scope := .core
  acquire : Bool := false
  release : Bool := false
  check   : Bool := false
  deriving DecidableEq, Repr

/-- The conditions of BR.cc (R20). -/
inductive Cond where
  | eqz | nez | ltz | gez | gtz | lez | always
  deriving DecidableEq, Repr

/-- The directions of NPUT (R75). -/
inductive Dir where
  | north | east | south | west | self
  deriving DecidableEq, Repr

/-- The special registers of Table 2.16. -/
inductive SpReg where
  | vec | epc | cause | info | lvl | id | vx | fmt | sa | sb | band | rcb | asid | win
  | cyc | coreId | owner | ptp | ready
  deriving DecidableEq, Repr

/-- A thread: its core id, its slot and the generation of the slot (R48). -/
structure Tid where
  core : Nat
  slot : Nat
  gen  : Nat
  deriving DecidableEq, Repr

/-- One constructor per row of the table of operations and events. -/
inductive Instr where
  /-- DISPATCH (R67). Places a queued packet's team on a core once the partition has the slots and window space, starting them in one cycle. -/
  | dispatch (pkt core : Nat)
  /-- THREAD_READY (R57). A starting or returning thread becomes ready when its bank delay ends. -/
  | threadReady (t : Tid)
  /-- BANK_RETENTION (R56). A power bank enters retention after its threads have been out of the rotation for 1,024 cyc. -/
  | bankRetention (core : Nat)
  /-- ISSUE_ROTATION (R11). Each cycle the core issues one instruction from the first ready slot after the last issuer. -/
  | issueRotation (core : Nat)
  /-- BANK_REQUEST_ARRIVAL (R105). A request reaches a vault bank, channel or port and is served, queued, held or refused in port order. -/
  | bankRequestArrival (r : Nat)
  /-- HOLD_WRITE_BACK (R133). The holder's write-back is performed, ending the hold and serving the queued requests for the word. -/
  | holdWriteBack (r : Nat)
  /-- REFUSED_REQUEST_RESEND (R103). The core resends a request refused by a full wait list or hold queue 64 cyc after the refusal reaches it. -/
  | refusedRequestResend (r : Nat)
  /-- MEM_REPLY (R97). An access's reply or acknowledgement reaches the core and returns or completes the thread. -/
  | memReply (r : Nat)
  /-- CHANNEL_ADMISSION (R343). An HBM4E channel or CXL port admits the waiting request of smallest start tag. -/
  | channelAdmission (ch : Nat)
  /-- SLEEP_EXPIRY (R63). core.cyc reaches a sleeping thread's wake time and the thread becomes ready. -/
  | sleepExpiry (t : Tid)
  /-- MWAIT_TIMEOUT (R148). An MWAIT's timeout expires and it returns with the timed-out bit. -/
  | mwaitTimeout (t : Tid)
  /-- WAITP_TIME_REACHED (R168). core.cyc reaches a WAITP's promised time and the word check is sent. -/
  | waitpTimeReached (t : Tid)
  /-- YIELD_EXPIRY (R64). 64 cyc after a YIELD the thread becomes eligible again. -/
  | yieldExpiry (t : Tid)
  /-- IFLUSH_EXPIRY (R108). 16 cyc after IFLUSH the thread returns to the rotation. -/
  | iflushExpiry (t : Tid)
  /-- TEAM_BARRIER_COMPLETION (R71). A multi-core team barrier's phase completes 6 cyc after the last arrival. -/
  | teamBarrierCompletion (cl bar : Nat)
  /-- BAR_WAIT_RETURN (R71). Threads parked in BAR.WAIT return 10 cyc after completion. -/
  | barWaitReturn (cl bar : Nat)
  /-- REGISTER_WRITE_ARRIVAL (R73). A SEND or CONT delivery reaches its target register, setting presence or waiting in the inbound buffer. -/
  | registerWriteArrival (msg : Nat)
  /-- NPUT_LINK_ARRIVAL (R75). An NPUT write arrives from the neighbour link at the target core. -/
  | nputLinkArrival (msg : Nat)
  /-- AMSG_ARRIVAL (R76). An active message reaches its target core and creates a thread in the lowest free slot. -/
  | amsgArrival (msg : Nat)
  /-- WAKE_ARRIVAL (R189). A WAKE reaches its target core and is applied by the case table. -/
  | wakeArrival (msg : Nat)
  /-- MIGRATION_ARRIVAL (R79). A migrating thread's message reaches the target core and the thread starts there. -/
  | migrationArrival (msg : Nat)
  /-- IBUF_LINE_FILL (R107). An instruction buffer line fill completes and its parked threads return. -/
  | ibufLineFill (core line : Nat)
  /-- COPY_COMMAND_START (R155). The head copy command leaves the queue and its read stage begins. -/
  | copyCommandStart (core : Nat)
  /-- ENGINE_WRITE_ACK (R123). An engine write's acknowledgement reaches the issuing core and its bytes count against the barrier. -/
  | engineWriteAck (core cmd bytes : Nat)
  /-- ENGINE_COMMAND_COMPLETE (R155). An engine command's last destination word is performed and its bytes counted. -/
  | engineCommandComplete (core cmd : Nat)
  /-- ENGINE_FAULT_IN_FLIGHT (R166). An engine meets an event at a word, stalling the command or deferring a thread trap. -/
  | engineFaultInFlight (core cmd code : Nat) (info : Word)
  /-- GATHER_REQUEST_ACCEPT (R174). The gather engine accepts a request, reads the list and replies with a promise. -/
  | gatherRequestAccept (cl : Nat)
  /-- VECTOR_COMMAND_START (R249). A vector command starts on its unit when accepted, its predecessor complete and the unit free. -/
  | vectorCommandStart (core : Nat)
  /-- VECTOR_RESULT_WRITE (R253). A vector command writes all its destinations in one cycle. -/
  | vectorResultWrite (core cmd : Nat)
  /-- MATRIX_ARITHMETIC_START (R228). A matrix command's arithmetic starts and it leaves the queue. -/
  | matrixArithmeticStart (core : Nat)
  /-- MATRIX_COMMAND_COMPLETE (R228). A matrix command commits 4 cyc after its arithmetic ends and its thread returns. -/
  | matrixCommandComplete (core cmd : Nat)
  /-- RING_FORWARD (R238). A latch entry is forwarded into the successor's free latch entry. -/
  | ringForward (core cmd : Nat)
  /-- FAULT_EVENT_ARRIVAL (R186). A kernel fault reaches the fault unit, which forms its record. -/
  | faultEventArrival (r : Nat)
  /-- FAULT_RECORD_WRITE (R188). The fault unit writes a record once word 0 of the next ring record is empty. -/
  | faultRecordWrite (ctx : Nat)
  /-- MONITOR_FIRE (R147). A bank's fire notice reaches the core and sets the monitor's fired bit. -/
  | monitorFire (t : Tid) (mon : Nat)
  /-- STEAL_PROBE (R274). An idle core's steal unit probes a random core of its region every 32 cyc. -/
  | stealProbe (core : Nat)
  /-- CANCEL_NOTICE (R286). A cancel notice reaches a core, which cancels the region's threads, entries, views and packets. -/
  | cancelNotice (core : Nat) (rcb : Word)
  /-- LAUNCH_TABLE_EVALUATION (R271). The die's launch unit evaluates armed entries and submits, skips or faults releases. -/
  | launchTableEvaluation (die : Nat)
  /-- LAUNCH_TABLE_STORE (R270). A store to a launch table entry, dropped while armed except a disarming store to word 2. -/
  | launchTableStore (r : Nat)
  /-- CONTROL_COUNTER_STORE (R296). A store to a control-window counter clears it if zero, and is dropped otherwise. -/
  | controlCounterStore (r : Nat)
  /-- ASID_DESCRIPTOR_STORE (R297). A kernel's store to words 1-3 of its ASID descriptor; other stores are dropped and counted. -/
  | asidDescriptorStore (r : Nat)
  /-- CONTROL_WINDOW_WRITE (R296). An ordinary store to any other control-window word. -/
  | controlWindowWrite (r : Nat)
  /-- TRANSLATION_FILL (R302). A buffer miss walks the range and page tables and makes the frame ownership check. -/
  | translationFill (r : Nat)
  /-- KEY_FILL (R308). A key missing from the core's slots is filled after 300 cyc. -/
  | keyFill (r : Nat)
  /-- SHOOT_DOWN_ARRIVAL (R314). A shoot-down reaches a core or engine, which drops entries and answers once its accesses are performed. -/
  | shootDownArrival (h : Nat)
  /-- SHOOT_DOWN_COMPLETE (R314). With every answer in, the I/O die zeroes the key where due and replies. -/
  | shootDownComplete (h : Nat)
  /-- FOT_PERFORM (R321). The frame ownership unit performs a frame instruction in arrival order. -/
  | fotPerform (r : Nat)
  /-- REVOCATION (R324). At the end of the recall deadline cycle the frame is revoked from the borrower. -/
  | revocation (frame : Nat)
  /-- NOTICE_WRITE (R340). A notice is written to a kernel's inbox once the next record's word 0 is empty. -/
  | noticeWrite (kern : Nat)
  /-- PCIE_INBOUND_WRITE (R118). An inbound posted write arrives at the ordering point. -/
  | pcieInboundWrite (addr : Word) (data : List Byte) (ro : Bool)
  /-- PCIE_INBOUND_READ (R118). An inbound read request arrives and is sent after earlier posted writes are acknowledged. -/
  | pcieInboundRead (addr : Word) (n : Nat)
  /-- ORDERING_POINT_SEND (R118). A held inbound write is sent to its route once earlier writes to other routes are acknowledged. -/
  | orderingPointSend
  /-- PCIE_INBOUND_ATOMICOP (R352). An inbound AtomicOp is answered with Unsupported Request. -/
  | pcieInboundAtomicop (addr : Word)
  /-- HOT_RESET (R356). A hot reset resets the endpoint, zeroes ring keys, halts rings and posts a notice of kind 10. -/
  | hotReset
  /-- RING_CONTROL_STORE (R353). A store to a ring control block, dropped for words 0-2 while the ring runs. -/
  | ringControlStore (r : Nat)
  /-- RING_ENTRY_LAUNCH (R355). A ring unit reads a kind-1 entry, checks tag and sequence, and launches its packet. -/
  | ringEntryLaunch (ring : Nat)
  /-- RING_ENTRY_FILL (R355). A ring unit reads a kind-2 entry, checks it, and stores the value with STS. -/
  | ringEntryFill (ring : Nat)
  /-- RING_ENTRY_UNKNOWN_KIND (R355). A correctly tagged entry of another kind performs nothing and increments nkind. -/
  | ringEntryUnknownKind (ring : Nat)
  /-- APERTURE_STORE (R358). A store to the Exrin aperture table, dropped with a nonzero zero-field. -/
  | apertureStore (r : Nat)
  /-- EXRIN_FLIT_RECEIVE (R358). An Exrin Link port receives a flit, authenticating it or dropping and retransmitting. -/
  | exrinFlitReceive (port : Nat) (authentic : Bool)
  /-- EXRIN_INBOUND_REQUEST (R358). A request from another package is served as an inbound request of the port. -/
  | exrinInboundRequest (pkg : Nat) (addr : Word) (data : List Byte) (write ordered : Bool)
  /-- COLLECTIVE_CONTRIBUTION (R360). A member's contribution reaches the collective, which commits when all have arrived. -/
  | collectiveContribution (ticket rank : Nat) (data : List Word)
  /-- COLLECTIVE_TIMEOUT (R360). A collective's timeout expires with a contribution missing and it aborts. -/
  | collectiveTimeout (ticket : Nat)
  /-- MEMBERSHIP_VIEW_CHANGE (R363). A join or leave forms a new view, draws a link key and aborts collectives in flight. -/
  | membershipViewChange (members : List (Nat × Option (BitVec 512)))
  /-- GET_VERSION (R361). SPDM GET_VERSION request to the security core. -/
  | getVersion (sess : Nat)
  /-- GET_CAPABILITIES (R361). SPDM GET_CAPABILITIES request. -/
  | getCapabilities (sess : Nat)
  /-- NEGOTIATE_ALGORITHMS (R361). SPDM NEGOTIATE_ALGORITHMS request. -/
  | negotiateAlgorithms (sess : Nat)
  /-- GET_DIGESTS (R361). SPDM GET_DIGESTS request. -/
  | getDigests (sess : Nat)
  /-- GET_CERTIFICATE (R361). SPDM GET_CERTIFICATE request. -/
  | getCertificate (sess : Nat)
  /-- CHALLENGE (R361). SPDM CHALLENGE request. -/
  | challenge (sess : Nat)
  /-- GET_MEASUREMENTS (R361). SPDM GET_MEASUREMENTS request returning the indices of Table 20.4. -/
  | getMeasurements (sess : Nat)
  /-- KEY_EXCHANGE (R361). SPDM KEY_EXCHANGE request. -/
  | keyExchange (sess : Nat)
  /-- FINISH (R361). SPDM FINISH request. -/
  | finish (sess : Nat)
  /-- END_SESSION (R361). SPDM END_SESSION request. -/
  | endSession (sess : Nat)
  /-- BIND (R362). Vendor-defined request binding the session to a context. -/
  | bind (sess : Nat) (payload : List Byte)
  /-- RINGKEY (R362). Vendor-defined request installing a derived key in one of the bound context's rings. -/
  | ringkey (sess : Nat) (payload : List Byte)
  /-- VENDOR_UNKNOWN_OPCODE (R362). A vendor-defined request with an unknown opcode is answered with status 5. -/
  | vendorUnknownOpcode (sess op : Nat)
  /-- RNG_HEALTH_FAILURE (R316). A health test failure makes the random number generator failing until start-up tests pass again. -/
  | rngHealthFailure
  /-- CXL_DEVICE_LOST (R357). A CXL device stops answering and its port completes requests as POISON. -/
  | cxlDeviceLost (port : Nat)
  /-- KERNEL_TERMINATION (R348). An error charged to a kernel stops its fixed context and notifies the other kernel. -/
  | kernelTermination (kern : Nat)
  /-- KERNEL_RESTART (R348). The security core restarts the kernel and sends a notice of kind 9. -/
  | kernelRestart (kern : Nat)
  /-- DRAIN_LIMIT_EXPIRY (R344). A DRAIN's limit expires and the remaining items are force-saved. -/
  | drainLimitExpiry (r : Nat)
  /-- POWER_UP (R365). The security core runs the bring-up stages and sets sys.ready. -/
  | powerUp
  /-- THERMAL_THROTTLE (R366). At 100 °C junction temperature issue is throttled to one cycle in two. -/
  | thermalThrottle
  /-- THERMAL_SHUTDOWN (R366). At 110 °C the module shuts down. -/
  | thermalShutdown
  /-- UNASSIGNED_ENCODING (R44). Issue of a chain whose (page, major, sub) is unassigned, or whose page is 7-63, raises ILLEGAL. -/
  | unassignedEncoding (reason pos : Nat)
  /-- FAR_END_COMPLETION (R119). The CXL device's CXL.mem completion, or the far device's or far package's completion, for an earlier store arrives and releases system-scope release waits. -/
  | farEndCompletion (r : Nat)
  /-- START_UP_TESTS_PASSED (R316). The entropy source passes its start-up tests on 1,024 fresh samples and the generator stops failing. -/
  | startUpTestsPassed
  /-- POWER_REMOVED (R351). Power is removed from the module, ending the mode that the image set and all state. -/
  | powerRemoved
  /-- PCIE_CONFIGURATION_REQUEST (R365). An inbound PCIe configuration request arrives at the endpoint, answered with Request Retry Status until ready is 1. -/
  | pcieConfigurationRequest
  /-- UNCORRECTABLE_CORE_STATE_ERROR (R347). An uncorrectable error in a tenant's small-core state parks that core's threads with POISON and posts their records. -/
  | uncorrectableCoreStateError (core : Nat)
  /-- IEEE_1588_TIMING_MESSAGE (R364). An IEEE 1588 timing message arrives over Exrin Link and disciplines sys.ptp. -/
  | ieee1588TimingMessage (ptp : Word)
  /-- HELD_CORE_RELEASE (R111). The debugger resumes a held core, which starts issuing again. -/
  | heldCoreRelease (core : Nat)
  /-- ADD (R82). Writes W[a] + W[b] modulo 2^64 to W[d]. -/
  | add (d a b : Reg)
  /-- SUB (R82). Writes W[a] - W[b] to W[d]. -/
  | sub (d a b : Reg)
  /-- AND (R82). Writes the bitwise AND of W[a] and W[b] to W[d]. -/
  | and (d a b : Reg)
  /-- OR (R82). Writes the bitwise OR of W[a] and W[b] to W[d]. -/
  | or (d a b : Reg)
  /-- XOR (R82). Writes the bitwise XOR of W[a] and W[b] to W[d]. -/
  | xor (d a b : Reg)
  /-- SHL (R83). Shifts W[a] left by W[b][5:0] into W[d]. -/
  | shl (d a b : Reg)
  /-- SLT (R82). Writes 1 to W[d] when W[a] is less than W[b] as signed values, else 0. -/
  | slt (d a b : Reg)
  /-- ADDI (R88). Writes W[a] plus the sign-extended immediate to W[d]. -/
  | addi (d a : Reg) (imm : Imm)
  /-- LDI (R88). Writes the sign-extended immediate to W[d]. -/
  | ldi (d : Reg) (imm : Imm)
  /-- LD (R97). Loads a 64-bit word into W[d] and parks the thread until the reply arrives. -/
  | ld (m : Mod) (d a : Reg) (imm : Imm)
  /-- ST (R97). Stores W[d] as a 64-bit word and parks the thread until the bank acknowledges the write. -/
  | st (m : Mod) (d a : Reg) (imm : Imm)
  /-- BR_CC (R93). Branches pc-relative when the condition on signed W[a] holds. -/
  | brCc (c : Cond) (a : Reg) (imm : Imm)
  /-- JAL (R94). Writes the link to W[d] and jumps pc-relative. -/
  | jal (d : Reg) (imm : Imm)
  /-- SHR (R82). Shifts W[a] right logically by W[b][5:0] into W[d]. -/
  | shr (d a b : Reg)
  /-- MUL (R82). Writes the low 64 bits of W[a] × W[b] to W[d]. -/
  | mul (d a b : Reg)
  /-- SRA (R82). Shifts W[a] right arithmetically by W[b][5:0] into W[d]. -/
  | sra (d a b : Reg)
  /-- ROT (R82). Rotates W[a] right by W[b][5:0] into W[d]. -/
  | rot (d a b : Reg)
  /-- ANDN (R82). Writes W[a] AND NOT W[b] to W[d]. -/
  | andn (d a b : Reg)
  /-- MULH (R82). Writes the high 64 bits of the signed product of W[a] and W[b] to W[d]. -/
  | mulh (d a b : Reg)
  /-- MULH_Z (R82). Writes the high 64 bits of the unsigned product of W[a] and W[b] to W[d]. -/
  | mulhZ (d a b : Reg)
  /-- DIV (R84). Signed division with fixed results and optional ARITH traps for a zero divisor or overflow. -/
  | div (d a b : Reg)
  /-- DIV_Z (R84). Unsigned division with a fixed result and an optional ARITH trap for a zero divisor. -/
  | divZ (d a b : Reg)
  /-- REM (R84). Signed remainder, which takes the sign of the dividend. -/
  | rem (d a b : Reg)
  /-- REM_Z (R84). Unsigned remainder. -/
  | remZ (d a b : Reg)
  /-- SLT_Z (R82). Writes 1 to W[d] when W[a] is less than W[b] as unsigned values, else 0. -/
  | sltZ (d a b : Reg)
  /-- SEQ (R82). Writes 1 to W[d] when W[a] equals W[b], else 0. -/
  | seq (d a b : Reg)
  /-- MIN (R82). Writes the signed minimum of W[a] and W[b] to W[d]. -/
  | min (d a b : Reg)
  /-- MAX (R82). Writes the signed maximum of W[a] and W[b] to W[d]. -/
  | max (d a b : Reg)
  /-- MIN_Z (R82). Writes the unsigned minimum of W[a] and W[b] to W[d]. -/
  | minZ (d a b : Reg)
  /-- MAX_Z (R82). Writes the unsigned maximum of W[a] and W[b] to W[d]. -/
  | maxZ (d a b : Reg)
  /-- SEL (R85). Writes W[a] to W[d] if W[d] is nonzero, else W[b]. -/
  | sel (d a b : Reg)
  /-- CLZ (R86). Counts the leading zero bits of W[a] into W[d]. -/
  | clz (d a : Reg)
  /-- CTZ (R86). Counts the trailing zero bits of W[a] into W[d]. -/
  | ctz (d a : Reg)
  /-- POPC (R86). Counts the one bits of W[a] into W[d]. -/
  | popc (d a : Reg)
  /-- BSWAP (R86). Reverses the byte order of W[a] into W[d]. -/
  | bswap (d a : Reg)
  /-- EXTR (R87). Extracts a bit field of W[a], sign-extended, into W[d]. -/
  | extr (d a : Reg) (pos len1 : BitVec 6)
  /-- EXTR_Z (R87). Extracts a bit field of W[a], zero-extended, into W[d]. -/
  | extrZ (d a : Reg) (pos len1 : BitVec 6)
  /-- INS (R87). Inserts the low bits of W[a] into a bit field of W[d]. -/
  | ins (d a : Reg) (pos len1 : BitVec 6)
  /-- LDH (R88). Places immediate bits [29:0] above bits [33:0] of W[a] in W[d]. -/
  | ldh (d a : Reg) (imm : Imm)
  /-- PSP (R91). Places a space number in bits [63:57] of W[a] and writes the result to W[d]. -/
  | psp (d a : Reg) (sp : BitVec 3)
  /-- PADD (R92). Adds W[b] to the offset of pointer W[a] with the checks of effective(). -/
  | padd (d a b : Reg)
  /-- JR (R94). Jumps to W[a]. -/
  | jr (a : Reg)
  /-- JALR (R94). Jumps to W[a] and writes the link to W[d]. -/
  | jalr (d a : Reg)
  /-- LD8 (R95). Loads a byte, sign-extended, into W[d]. -/
  | ld8 (m : Mod) (d a : Reg) (imm : Imm)
  /-- LD8_Z (R95). Loads a byte, zero-extended, into W[d]. -/
  | ld8Z (m : Mod) (d a : Reg) (imm : Imm)
  /-- LD16 (R95). Loads 16 bits, sign-extended, into W[d]. -/
  | ld16 (m : Mod) (d a : Reg) (imm : Imm)
  /-- LD16_Z (R95). Loads 16 bits, zero-extended, into W[d]. -/
  | ld16Z (m : Mod) (d a : Reg) (imm : Imm)
  /-- LD32 (R95). Loads 32 bits, sign-extended, into W[d]. -/
  | ld32 (m : Mod) (d a : Reg) (imm : Imm)
  /-- LD32_Z (R95). Loads 32 bits, zero-extended, into W[d]. -/
  | ld32Z (m : Mod) (d a : Reg) (imm : Imm)
  /-- ST8 (R98). Stores the low byte of W[d] by a read-merge-write of the word, held at the bank. -/
  | st8 (m : Mod) (d a : Reg) (imm : Imm)
  /-- ST16 (R98). Stores the low 16 bits of W[d] as a sub-word store. -/
  | st16 (m : Mod) (d a : Reg) (imm : Imm)
  /-- ST32 (R98). Stores the low 32 bits of W[d] as a sub-word store. -/
  | st32 (m : Mod) (d a : Reg) (imm : Imm)
  /-- LDF (R102). Waits until the word is full and then loads it. -/
  | ldf (m : Mod) (d a : Reg) (imm : Imm)
  /-- LDE (R102). Waits until the word is full, loads it and sets it empty. -/
  | lde (m : Mod) (d a : Reg) (imm : Imm)
  /-- STF (R102). Waits until the word is empty, stores W[d] and sets it full. -/
  | stf (m : Mod) (d a : Reg) (imm : Imm)
  /-- STS (R102). Stores W[d] and sets the word full without waiting. -/
  | sts (m : Mod) (d a : Reg) (imm : Imm)
  /-- SETE (R102). Sets the word empty and leaves its data unchanged. -/
  | sete (m : Mod) (a : Reg) (imm : Imm)
  /-- FEQ (R102). Writes 1 to W[d] if the word is full, 0 if it is empty. -/
  | feq (m : Mod) (d a : Reg) (imm : Imm)
  /-- TNEW (R61). Creates a thread on the issuing core with the given entry and window. -/
  | tnew (d a b : Reg)
  /-- TEND (R62). Ends the thread after its relaxed accesses complete, and frees its slot and windows. -/
  | tend
  /-- SLEEP (R63). Takes the thread out of the rotation for W[a] + n cycles, at least 8. -/
  | sleep (a : Reg) (imm : Imm)
  /-- YIELD (R64). Gives up issue turns until every other thread has issued once or 64 cyc pass. -/
  | yield
  /-- MIGRATE (R80). Moves the thread explicitly to a small core or a large core. -/
  | migrate (d a : Reg)
  /-- ROAM (R78). Sets or clears the thread's roaming mark. -/
  | roam (d a : Reg)
  /-- FMTSET (R213). Changes the tag, the rounding mode, or both, can clear sat, and returns the old th.fmt. -/
  | fmtset (d : Reg) (imm : Imm)
  /-- BAR_CFG (R69). Configures or resets a team barrier of the cluster. -/
  | barCfg (d a b : Reg)
  /-- BAR_ARR (R70). Records an arrival at a team barrier, parking at lead 3. -/
  | barArr (m : Mod) (d : Reg)
  /-- BAR_WAIT (R70). Waits until the phase of the thread's last arrival has completed. -/
  | barWait (m : Mod) (d : Reg)
  /-- LAUNCH (R66). Reads a work packet and its region chain and submits it to the die's task queue. -/
  | launch (d a : Reg)
  /-- CANCEL (R285). Sets a region's cancel flag atomically and broadcasts the cancel notice. -/
  | cancel (d a : Reg)
  /-- SEND (R76). Delivers W[b] into a register of thread W[a] across the fabric. -/
  | send (m : Mod) (d a b : Reg)
  /-- NPUT (R75). Writes a register of a slot on a neighbouring core over the dedicated link. -/
  | nput (dir : Dir) (a b : Reg)
  /-- AMSG (R76). Creates a new thread on another core from a 64-byte message. -/
  | amsg (a b : Reg)
  /-- CONT (R76). Delivers W[b] into the register named by a token and ends the target's sleep. -/
  | cont (a b : Reg)
  /-- CONTID (R76). Writes a continuation token for this thread and register W[a][6:0] to W[d]. -/
  | contid (d a : Reg)
  /-- MOV_T (R74). Takes an arrived register value, parking until its presence bit is set, and clears the bit. -/
  | movT (d a : Reg)
  /-- SPAWN (R272). Pushes a continuation onto the caddy, or writes an inline record, and runs the child. -/
  | spawn (d a : Reg)
  /-- BLEND (R275). Ends a child strand, performs due view merges and resumes or ends the thread. -/
  | blend
  /-- JOIN (R276). Ends the frame's continuation and parks until every strand has merged. -/
  | join
  /-- VDECL (R277). Declares a view slot over a range with an operator and element type. -/
  | vdecl (d a b : Reg)
  /-- VDROP (R278). Ends a declared view slot. -/
  | vdrop (d : Reg)
  /-- RSV (R136). Opens a reservation section, holding an 8-byte word at the bank. -/
  | rsv (m : Mod) (d a : Reg)
  /-- REL (R136). Writes back the held word or pair and closes the reservation section. -/
  | rel (m : Mod) (d : Reg)
  /-- RSVX (R136). Opens a reservation section holding a 16-byte pair. -/
  | rsvx (m : Mod) (d a : Reg)
  /-- AADD (R142). Atomically adds W[b] to the word and returns the old value. -/
  | aadd (m : Mod) (d a b : Reg)
  /-- AAND (R142). Atomically ANDs W[b] into the word and returns the old value. -/
  | aand (m : Mod) (d a b : Reg)
  /-- AOR (R142). Atomically ORs W[b] into the word and returns the old value. -/
  | aor (m : Mod) (d a b : Reg)
  /-- AXOR (R142). Atomically XORs W[b] into the word and returns the old value. -/
  | axor (m : Mod) (d a b : Reg)
  /-- AMIN (R142). Atomic signed minimum, returning the old value. -/
  | amin (m : Mod) (d a b : Reg)
  /-- AMAX (R142). Atomic signed maximum, returning the old value. -/
  | amax (m : Mod) (d a b : Reg)
  /-- AMIN_Z (R142). Atomic unsigned minimum, returning the old value. -/
  | aminZ (m : Mod) (d a b : Reg)
  /-- AMAX_Z (R142). Atomic unsigned maximum, returning the old value. -/
  | amaxZ (m : Mod) (d a b : Reg)
  /-- AXCHG (R142). Atomically exchanges W[b] with the word. -/
  | axchg (m : Mod) (d a b : Reg)
  /-- CAS (R142). Compares the word with W[d], swaps in W[b] when equal, and returns the old value. -/
  | cas (m : Mod) (d a b : Reg)
  /-- CAS2 (R142). Compare-and-swap on a 16-byte aligned pair. -/
  | cas2 (m : Mod) (d a b : Reg)
  /-- FENCE (R150). Parks until earlier accesses complete, reports deferred events, then applies the release and acquire effects of its scope. -/
  | fence (m : Mod)
  /-- MON_ARM (R145). Arms monitor m on the 64-byte line of the effective address. -/
  | monArm (d a : Reg) (mon : BitVec 2)
  /-- MON_CLR (R146). Disarms one monitor, or all four, and clears their fired bits. -/
  | monClr (mon : BitVec 3)
  /-- MWAIT (R148). Waits for a fired monitor, a timeout or a wake, and returns the causes. -/
  | mwait (m : Mod) (d a : Reg)
  /-- CPY (R158). Queues a contiguous copy on the copy engine and returns its promised completion time. -/
  | cpy (m : Mod) (d a b : Reg)
  /-- TCPY (R164). Queues a tensor copy shaped by the resident configuration named by the tag. -/
  | tcpy (m : Mod) (d a b : Reg)
  /-- WAITP (R168). Waits until the promised time, then checks that the word is full, raising PROMISE if not. -/
  | waitp (m : Mod) (a b : Reg)
  /-- LCW_C (R163). Writes copy-engine loop register n. -/
  | lcwC (n : BitVec 3) (a : Reg)
  /-- LCW_V (R163). Writes vector-engine loop register n. -/
  | lcwV (n : BitVec 3) (a : Reg)
  /-- LCW_M (R163). Writes matrix-engine loop register n. -/
  | lcwM (n : BitVec 3) (a : Reg)
  /-- LCW_CFG (R163). Loads a 128-byte copy configuration into slot n once no command uses it. -/
  | lcwCfg (n : BitVec 3) (a : Reg)
  /-- LCR_C (R163). Reads copy-engine loop register n into W[d]. -/
  | lcrC (d : Reg) (n : BitVec 3)
  /-- LCR_V (R163). Reads vector-engine loop register n into W[d]. -/
  | lcrV (d : Reg) (n : BitVec 3)
  /-- LCR_M (R163). Reads matrix-engine loop register n into W[d]. -/
  | lcrM (d : Reg) (n : BitVec 3)
  /-- EQRY (R169). Reports an engine's queue occupancy, commands in flight and the thread's stall and trap bits. -/
  | eqry (d a : Reg)
  /-- EFENCE (R170). Parks until the thread's copy, gather and vector commands are complete, reporting deferred traps. -/
  | efence
  /-- EMSG_GATHER_QUERY (R177). Queries the cluster gather engine for queued requests and merged reads. -/
  | emsgGatherQuery (m : Mod) (d a b : Reg)
  /-- EMSG_COLLECTIVE_QUERY (R177). Queries the collective engine for the state of a ticket. -/
  | emsgCollectiveQuery (m : Mod) (d a b : Reg)
  /-- EMSG_ABORT (R177). Aborts a collective ticket that the context owns. -/
  | emsgAbort (m : Mod) (d a b : Reg)
  /-- GATH (R174). Submits a gather of words from a list of addresses to the cluster gather engine. -/
  | gath (m : Mod) (d a b : Reg)
  /-- COLL_ALLREDUCE (R360). Submits an allreduce, a left fold over ranks, to the collective engine. -/
  | collAllreduce (m : Mod) (d a b : Reg)
  /-- COLL_BROADCAST (R360). Submits a broadcast of the root's source to the collective engine. -/
  | collBroadcast (m : Mod) (d a b : Reg)
  /-- COLL_ALLGATHER (R360). Submits an allgather to the collective engine. -/
  | collAllgather (m : Mod) (d a b : Reg)
  /-- TB_INIT (R172). Resets a transaction barrier's phase, posted bit and pending count. -/
  | tbInit (d : Reg)
  /-- TB_EXP (R172). Adds expected bytes to a transaction barrier and posts the expectation. -/
  | tbExp (d a : Reg)
  /-- TB_ARR (R173). Counts an arrival of W[a] bytes against a transaction barrier. -/
  | tbArr (m : Mod) (d a : Reg)
  /-- TB_WAIT (R173). Waits until the barrier's phase of the given parity has completed. -/
  | tbWait (m : Mod) (d a : Reg)
  /-- TB_PHASE (R173). Reads a transaction barrier's state into W[d]. -/
  | tbPhase (d a : Reg)
  /-- VADD (R254). Adds FP32 lanes with one rounding. -/
  | vadd (d a b : Reg)
  /-- VSUB (R254). Subtracts FP32 lanes. -/
  | vsub (d a b : Reg)
  /-- VMUL (R254). Multiplies FP32 lanes. -/
  | vmul (d a b : Reg)
  /-- VFMA (R254). Fused multiply-add of FP32 lanes into V[d]. -/
  | vfma (d a b : Reg)
  /-- VMIN (R217). FP32 lane minimum. -/
  | vmin (d a b : Reg)
  /-- VMAX (R217). FP32 lane maximum. -/
  | vmax (d a b : Reg)
  /-- VABS (R254). Clears the sign of each FP32 lane. -/
  | vabs (d a : Reg)
  /-- VNEG (R254). Flips the sign of each FP32 lane. -/
  | vneg (d a : Reg)
  /-- VCMP_EQ (R254). Compares FP32 lanes for equality into a scalar mask. -/
  | vcmpEq (d a b : Reg)
  /-- VCMP_LT (R254). Compares FP32 lanes for less-than into a scalar mask. -/
  | vcmpLt (d a b : Reg)
  /-- VCMP_LE (R254). Compares FP32 lanes for less-or-equal into a scalar mask. -/
  | vcmpLe (d a b : Reg)
  /-- VRED_SUM (R255). Sums FP32 lanes by the fixed pairwise tree into lane 0. -/
  | vredSum (d a : Reg)
  /-- VRED_MAX (R255). Maximum of FP32 lanes by the fixed tree into lane 0. -/
  | vredMax (d a : Reg)
  /-- VRED_MIN (R255). Minimum of FP32 lanes by the fixed tree into lane 0. -/
  | vredMin (d a : Reg)
  /-- VADD_BF16 (R254). Adds BF16 lanes with one rounding to BF16. -/
  | vaddBf16 (d a b : Reg)
  /-- VSUB_BF16 (R254). Subtracts BF16 lanes. -/
  | vsubBf16 (d a b : Reg)
  /-- VMUL_BF16 (R254). Multiplies BF16 lanes. -/
  | vmulBf16 (d a b : Reg)
  /-- VFMA_BF16 (R254). Fused multiply-add of BF16 lanes. -/
  | vfmaBf16 (d a b : Reg)
  /-- VMIN_BF16 (R217). BF16 lane minimum. -/
  | vminBf16 (d a b : Reg)
  /-- VMAX_BF16 (R217). BF16 lane maximum. -/
  | vmaxBf16 (d a b : Reg)
  /-- VABS_BF16 (R254). Clears the sign of each BF16 lane. -/
  | vabsBf16 (d a : Reg)
  /-- VNEG_BF16 (R254). Flips the sign of each BF16 lane. -/
  | vnegBf16 (d a : Reg)
  /-- VCMP_EQ_BF16 (R254). Compares BF16 lanes for equality into a scalar mask. -/
  | vcmpEqBf16 (d a b : Reg)
  /-- VCMP_LT_BF16 (R254). Compares BF16 lanes for less-than into a scalar mask. -/
  | vcmpLtBf16 (d a b : Reg)
  /-- VCMP_LE_BF16 (R254). Compares BF16 lanes for less-or-equal into a scalar mask. -/
  | vcmpLeBf16 (d a b : Reg)
  /-- VRED_SUM_BF16 (R219). Sums BF16 lanes through FP32 by the fixed tree and rounds the result to BF16. -/
  | vredSumBf16 (d a : Reg)
  /-- VRED_MAX_BF16 (R219). Maximum of BF16 lanes by the fixed tree. -/
  | vredMaxBf16 (d a : Reg)
  /-- VRED_MIN_BF16 (R219). Minimum of BF16 lanes by the fixed tree. -/
  | vredMinBf16 (d a : Reg)
  /-- VIADD (R254). Adds 64-bit integer lanes, wrapping. -/
  | viadd (d a b : Reg)
  /-- VISUB (R254). Subtracts 64-bit integer lanes. -/
  | visub (d a b : Reg)
  /-- VIMUL (R254). Multiplies 64-bit integer lanes, keeping the low 64 bits. -/
  | vimul (d a b : Reg)
  /-- VSHL (R254). Shifts 64-bit lanes left. -/
  | vshl (d a b : Reg)
  /-- VSHR (R254). Shifts 64-bit lanes right, with zeros shifted in. -/
  | vshr (d a b : Reg)
  /-- VAND (R254). Bitwise AND of 64-bit lanes. -/
  | vand (d a b : Reg)
  /-- VOR (R254). Bitwise OR of 64-bit lanes. -/
  | vor (d a b : Reg)
  /-- VXOR (R254). Bitwise XOR of 64-bit lanes. -/
  | vxor (d a b : Reg)
  /-- VMADDM (R257). Modular addition of lanes modulo q from vector lc0. -/
  | vmaddm (d a b : Reg)
  /-- VMSUBM (R257). Modular subtraction of lanes. -/
  | vmsubm (d a b : Reg)
  /-- VMMULM (R257). Modular multiplication of lanes. -/
  | vmmulm (d a b : Reg)
  /-- VBFLY_CT (R257). In-place Cooley-Tukey butterfly writing V[d] and V[a] together. -/
  | vbflyCt (d a b : Reg)
  /-- VBFLY_GS (R257). In-place Gentleman-Sande butterfly writing V[d] and V[a] together. -/
  | vbflyGs (d a b : Reg)
  /-- VTWID (R257). Writes the twiddles W[a]·W[b]^j mod q to the lanes of V[d]. -/
  | vtwid (d a b : Reg)
  /-- VSEL (R258). Selects 32-bit or 16-bit elements of V[a] into V[d] under a scalar mask. -/
  | vsel (d a b : Reg)
  /-- VCVT (R259). Converts lanes between formats by a 4-bit selector. -/
  | vcvt (d a : Reg) (code : BitVec 4)
  /-- VEXP2 (R256). Computes 2^x of each FP32 lane, correctly rounded. -/
  | vexp2 (d a : Reg)
  /-- VRCP (R256). Computes 1/x of each FP32 lane, correctly rounded. -/
  | vrcp (d a : Reg)
  /-- VRSQ (R256). Computes 1/√x of each FP32 lane, correctly rounded. -/
  | vrsq (d a : Reg)
  /-- VSHUF (R258). Permutes the 32-bit elements of V[a] by indices in V[b]. -/
  | vshuf (d a b : Reg)
  /-- VBCAST (R258). Broadcasts W[a] into every 64-bit lane of V[d]. -/
  | vbcast (d a : Reg)
  /-- VMOVX (R258). Moves 64-bit lane i of V[a] into W[d]. -/
  | vmovx (d a : Reg) (i : BitVec 3)
  /-- VMOVV (R258). Moves W[a] into 64-bit lane i of V[d]. -/
  | vmovv (d a : Reg) (i : BitVec 3)
  /-- VLD (R260). Loads 16 × 32-bit elements into V[d] through the load/store unit. -/
  | vld (m : Mod) (d a : Reg) (imm : Imm)
  /-- VST (R260). Stores V[d] as 16 × 32-bit elements, setting the words full. -/
  | vst (m : Mod) (d a : Reg) (imm : Imm)
  /-- VGTH (R260). Gathers 8 × 64-bit lanes from per-lane byte offsets. -/
  | vgth (m : Mod) (d a b : Reg)
  /-- VSCT (R260). Scatters 8 × 64-bit lanes to per-lane byte offsets. -/
  | vsct (m : Mod) (d a b : Reg)
  /-- VADD_M (R39). Masked VADD. -/
  | vaddM (k : Reg) (d a b : Reg)
  /-- VSUB_M (R39). Masked VSUB. -/
  | vsubM (k : Reg) (d a b : Reg)
  /-- VMUL_M (R39). Masked VMUL. -/
  | vmulM (k : Reg) (d a b : Reg)
  /-- VFMA_M (R39). Masked VFMA. -/
  | vfmaM (k : Reg) (d a b : Reg)
  /-- VMIN_M (R39). Masked VMIN. -/
  | vminM (k : Reg) (d a b : Reg)
  /-- VMAX_M (R39). Masked VMAX. -/
  | vmaxM (k : Reg) (d a b : Reg)
  /-- VABS_M (R39). Masked VABS. -/
  | vabsM (k : Reg) (d a : Reg)
  /-- VNEG_M (R39). Masked VNEG. -/
  | vnegM (k : Reg) (d a : Reg)
  /-- VCMP_EQ_M (R248). Masked VCMP.eq, writing 0 for inactive lanes. -/
  | vcmpEqM (k : Reg) (d a b : Reg)
  /-- VCMP_LT_M (R248). Masked VCMP.lt. -/
  | vcmpLtM (k : Reg) (d a b : Reg)
  /-- VCMP_LE_M (R248). Masked VCMP.le. -/
  | vcmpLeM (k : Reg) (d a b : Reg)
  /-- VRED_SUM_M (R255). Masked VRED.sum, with inactive lanes entering as the identity. -/
  | vredSumM (k : Reg) (d a : Reg)
  /-- VRED_MAX_M (R255). Masked VRED.max. -/
  | vredMaxM (k : Reg) (d a : Reg)
  /-- VRED_MIN_M (R255). Masked VRED.min. -/
  | vredMinM (k : Reg) (d a : Reg)
  /-- VADD_BF16_M (R39). Masked VADD.bf16. -/
  | vaddBf16M (k : Reg) (d a b : Reg)
  /-- VSUB_BF16_M (R39). Masked VSUB.bf16. -/
  | vsubBf16M (k : Reg) (d a b : Reg)
  /-- VMUL_BF16_M (R39). Masked VMUL.bf16. -/
  | vmulBf16M (k : Reg) (d a b : Reg)
  /-- VFMA_BF16_M (R39). Masked VFMA.bf16. -/
  | vfmaBf16M (k : Reg) (d a b : Reg)
  /-- VMIN_BF16_M (R39). Masked VMIN.bf16. -/
  | vminBf16M (k : Reg) (d a b : Reg)
  /-- VMAX_BF16_M (R39). Masked VMAX.bf16. -/
  | vmaxBf16M (k : Reg) (d a b : Reg)
  /-- VABS_BF16_M (R39). Masked VABS.bf16. -/
  | vabsBf16M (k : Reg) (d a : Reg)
  /-- VNEG_BF16_M (R39). Masked VNEG.bf16. -/
  | vnegBf16M (k : Reg) (d a : Reg)
  /-- VCMP_EQ_BF16_M (R248). Masked VCMP.eq.bf16. -/
  | vcmpEqBf16M (k : Reg) (d a b : Reg)
  /-- VCMP_LT_BF16_M (R248). Masked VCMP.lt.bf16. -/
  | vcmpLtBf16M (k : Reg) (d a b : Reg)
  /-- VCMP_LE_BF16_M (R248). Masked VCMP.le.bf16. -/
  | vcmpLeBf16M (k : Reg) (d a b : Reg)
  /-- VRED_SUM_BF16_M (R255). Masked VRED.sum.bf16. -/
  | vredSumBf16M (k : Reg) (d a : Reg)
  /-- VRED_MAX_BF16_M (R255). Masked VRED.max.bf16. -/
  | vredMaxBf16M (k : Reg) (d a : Reg)
  /-- VRED_MIN_BF16_M (R255). Masked VRED.min.bf16. -/
  | vredMinBf16M (k : Reg) (d a : Reg)
  /-- VIADD_M (R39). Masked VIADD. -/
  | viaddM (k : Reg) (d a b : Reg)
  /-- VISUB_M (R39). Masked VISUB. -/
  | visubM (k : Reg) (d a b : Reg)
  /-- VIMUL_M (R39). Masked VIMUL. -/
  | vimulM (k : Reg) (d a b : Reg)
  /-- VSHL_M (R39). Masked VSHL. -/
  | vshlM (k : Reg) (d a b : Reg)
  /-- VSHR_M (R39). Masked VSHR. -/
  | vshrM (k : Reg) (d a b : Reg)
  /-- VAND_M (R39). Masked VAND. -/
  | vandM (k : Reg) (d a b : Reg)
  /-- VOR_M (R39). Masked VOR. -/
  | vorM (k : Reg) (d a b : Reg)
  /-- VXOR_M (R39). Masked VXOR. -/
  | vxorM (k : Reg) (d a b : Reg)
  /-- VMADDM_M (R39). Masked VMADDM. -/
  | vmaddmM (k : Reg) (d a b : Reg)
  /-- VMSUBM_M (R39). Masked VMSUBM. -/
  | vmsubmM (k : Reg) (d a b : Reg)
  /-- VMMULM_M (R39). Masked VMMULM. -/
  | vmmulmM (k : Reg) (d a b : Reg)
  /-- VBFLY_CT_M (R248). Masked VBFLY.ct; inactive lanes of both destinations keep their values. -/
  | vbflyCtM (k : Reg) (d a b : Reg)
  /-- VBFLY_GS_M (R248). Masked VBFLY.gs. -/
  | vbflyGsM (k : Reg) (d a b : Reg)
  /-- VTWID_M (R39). Masked VTWID. -/
  | vtwidM (k : Reg) (d a b : Reg)
  /-- VCVT_M (R259). Masked VCVT, writing only the active results. -/
  | vcvtM (k : Reg) (d a : Reg) (code : BitVec 4)
  /-- VEXP2_M (R39). Masked VEXP2. -/
  | vexp2M (k : Reg) (d a : Reg)
  /-- VRCP_M (R39). Masked VRCP. -/
  | vrcpM (k : Reg) (d a : Reg)
  /-- VRSQ_M (R39). Masked VRSQ. -/
  | vrsqM (k : Reg) (d a : Reg)
  /-- VMOVV_M (R258). Writes W[a] into every 64-bit lane whose mask bit is set. -/
  | vmovvM (k : Reg) (d a : Reg)
  /-- VLD_M (R260). Masked VLD at W[a]; inactive lanes are neither read nor checked. -/
  | vldM (m : Mod) (k : Reg) (d a : Reg)
  /-- VST_M (R262). Masked VST at W[a]; partly covered words are merged. -/
  | vstM (m : Mod) (k : Reg) (d a : Reg)
  /-- VGTH_M (R39). Masked VGTH. -/
  | vgthM (m : Mod) (k : Reg) (d a b : Reg)
  /-- VSCT_M (R39). Masked VSCT. -/
  | vsctM (m : Mod) (k : Reg) (d a b : Reg)
  /-- MCFG (R230). Loads matrix configuration slot n from a 64-byte block once no command has captured it. -/
  | mcfg (n : BitVec 3) (a : Reg)
  /-- MZERO (R233). Sets an accumulator tile to +0. -/
  | mzero (d : Reg)
  /-- MMA (R234). Accumulates a local matrix product from the own vault into a tile. -/
  | mma (m : Mod) (d a b : Reg)
  /-- MMR (R237). Takes one ring step with the head latch entry as B and forwards the entry. -/
  | mmr (m : Mod) (d a : Reg)
  /-- MRING (R236). Computes a local product and starts a ring pass by sending B to the successor. -/
  | mring (m : Mod) (d a b : Reg)
  /-- MMOD (R239). Accumulates a 64-bit modular matrix product into a tile pair. -/
  | mmod (m : Mod) (d a b : Reg)
  /-- MST (R242). Stores a tile natively or with conversion. -/
  | mst (d a b : Reg)
  /-- MLDA (R243). Loads a tile natively or with widening. -/
  | mlda (d a b : Reg)
  /-- MQRY (R244). Reads a configuration word, the latch state or the MATCHECK count. -/
  | mqry (d : Reg) (code : BitVec 4)
  /-- TRAP (R184). Raises the kernel fault SYSCALL with a service number and an argument. -/
  | trap (a : Reg) (n : BitVec 12)
  /-- ERET (R183). Returns from a handler to th.epc, clearing th.lvl and arming a pending restart index. -/
  | eret
  /-- RDS (R42). Reads a special register into W[d]. -/
  | rds (d : Reg) (r : SpReg)
  /-- WRS (R43). Writes a special register under the rules of Table 2.18. -/
  | wrs (r : SpReg) (a : Reg)
  /-- XINV_PAGE (R317). Shoots down translations of an ASID covering one V-space address (kind 0). -/
  | xinvPage (d a b : Reg)
  /-- XINV_ASID (R317). Shoots down every translation and RLB entry of an ASID (kind 1). -/
  | xinvAsid (d a b : Reg)
  /-- XINV_RLB (R317). Shoots down every RLB entry of an ASID (kind 2). -/
  | xinvRlb (d a b : Reg)
  /-- XINV_FRAME (R317). Shoots down every translation of a frame and clears its key tag (kind 3). -/
  | xinvFrame (d a b : Reg)
  /-- IFLUSH (R108). Empties the core's instruction buffer and parks for 16 cyc. -/
  | iflush
  /-- BREAK (R185). Raises the BREAK thread trap, or holds the core when exdb has claimed BREAK. -/
  | brk (n : BitVec 8)
  /-- SEQNEW (R313). Creates a sequence with a fresh key from the random number generator. -/
  | seqnew (d : Reg)
  /-- SEQMAP (R313). Maps a frame as a page of a sequence and tags the frame with the sequence. -/
  | seqmap (d a b : Reg)
  /-- SEQUNMAP (R313). Shoots down and removes a sequence page and clears the frame's tag. -/
  | sequnmap (d a : Reg)
  /-- SEQEND (R291). Ends a sequence: shoots down its translations, zeroes the key and releases its frames. -/
  | seqend (d a : Reg)
  /-- SEQQ (R292). Returns a sequence's state word. -/
  | seqq (d a : Reg)
  /-- FOFFER_OFFER (R336). Offers an owned frame to the other kernel after a write-back shoot-down (op 0). -/
  | fofferOffer (d a b : Reg)
  /-- FOFFER_RELEASE (R336). Releases an owned frame to the free pool (op 1). -/
  | fofferRelease (d a b : Reg)
  /-- FOFFER_WITHDRAW (R336). Withdraws an offer and returns the frame to state owned (op 2). -/
  | fofferWithdraw (d a b : Reg)
  /-- FACCEPT (R336). Accepts a frame offered to the issuer's kernel, or a free frame. -/
  | faccept (d a : Reg)
  /-- FLEND (R323). Lends an owned frame to the other kernel under a lend key id and deadline class. -/
  | flend (d a b : Reg)
  /-- FRECALL (R323). Recalls a lent frame, sets its deadline and posts a recall notice. -/
  | frecall (d a : Reg)
  /-- FRETURN (R336). Returns a borrowed frame, stopping its deadline after a write-back shoot-down. -/
  | freturn (d a : Reg)
  /-- FQUERY (R322). Returns a frame's state word. -/
  | fquery (d a : Reg)
  /-- FSTRIKE_CLEAR (R336). Clears the other kernel's strike count for an owned frame and returns the old count (op 0). -/
  | fstrikeClear (d a b : Reg)
  /-- FSTRIKE_SET_LIMIT (R336). Sets the issuing kernel's strike limit and returns the old limit (op 1). -/
  | fstrikeSetLimit (d a b : Reg)
  /-- WAKE_RESUME (R189). Action 0: restarts stalled commands, resumes a faulted thread, or ends a sleep or MWAIT. -/
  | wakeResume (a b : Reg)
  /-- WAKE_TRAP (R189). Action 1: turns the stalled commands' or parked thread's event into a thread trap. -/
  | wakeTrap (a b : Reg)
  /-- EVICT (R190). Saves a thread parked on a fault into a save block and frees its slot. -/
  | evict (d a b : Reg)
  /-- RESTORE (R191). Brings a saved thread back from its save block into a free slot. -/
  | restore (d a b : Reg)
  /-- DRAIN (R344). Stops dispatch for partitions of a context on a core set and waits or force-saves their threads. -/
  | drain (d a b : Reg)
  /-- DRAIN_RESUME (R344). Drain block with resume set: restarts dispatch and steals and drains nothing. -/
  | drainResume (d a b : Reg)
  /-- PARTSET (R341). Sets a partition's slot mask, bank mask and weight on every core and controller. -/
  | partset (d a b : Reg)
  /-- OWNSET_CREATE (R331). Creates a tenant context with a fresh key and partition 0. -/
  | ownsetCreate (d a b : Reg)
  /-- OWNSET_DESTROY (R331). Destroys a tenant context, ending its sequences and zeroing its key. -/
  | ownsetDestroy (d a b : Reg)
  /-- OWNSET_ASSIGN (R330). Moves empty cores to a target context, clearing each core. -/
  | ownsetAssign (d a b : Reg)
  /-- OWNSET_BINDKEY (R331). Draws a fresh key and binds the lowest free key id to the target. -/
  | ownsetBindkey (d a b : Reg)
  /-- OWNSET_UNBINDKEY (R331). Shoots down translations under a key id, clears its tags, zeroes the key and frees the id. -/
  | ownsetUnbindkey (d a b : Reg)
  /-- OWNSET_BINDASID (R331). Binds an ASID to the target by writing word 0 of its descriptor. -/
  | ownsetBindasid (d a b : Reg)
  /-- OWNSET_UNBINDASID (R331). Unbinds an ASID and shoots down its translations. -/
  | ownsetUnbindasid (d a b : Reg)
  /-- OWNSET_SETRING (R331). Names the target context's fault ring. -/
  | ownsetSetring (d a b : Reg)
  /-- OWNSET_SETINBOX (R331). Names the issuing kernel's notice inbox. -/
  | ownsetSetinbox (d a b : Reg)
  deriving DecidableEq, Repr

end Sys2Proof
end

