-- ==== Sys2Proof/WellFormed.lean ====
section
/-! DEFINITION. When a term of `Instr` is an instruction the Xothar can encode: the encoding tables (Tables 2.9 to
2.15, 9.4, 14.4, 14.5), which fields a form has, which marks it accepts (Table 2.17, R46), and the limit of four
prefixes (R22). The machine's own steps carry no encoding and are well-formed as they stand. -/

namespace Sys2Proof

/-- The code of a condition in field d of BR.cc (R20). -/
def Cond.num : Cond → Reg
  | .eqz => 0 | .nez => 1 | .ltz => 2 | .gez => 3 | .gtz => 4 | .lez => 5 | .always => 6

/-- The code of a direction in field d of NPUT (R75). -/
def Dir.num : Dir → Reg
  | .north => 0 | .east => 1 | .south => 2 | .west => 3 | .self => 4

/-- The number of a special register (Table 2.16). -/
def SpReg.num : SpReg → Imm
  | .vec => 0x00 | .epc => 0x01 | .cause => 0x02 | .info => 0x03 | .lvl => 0x04 | .id => 0x05 | .vx => 0x06
  | .fmt => 0x08 | .sa => 0x09 | .sb => 0x0A | .band => 0x0B | .rcb => 0x0C | .asid => 0x0D | .win => 0x0E
  | .cyc => 0x10 | .coreId => 0x11 | .owner => 0x12 | .ptp => 0x18 | .ready => 0x19

/-- The immediate of EXTR and INS: pos in [5:0], len - 1 in [11:6] (R87). -/
def bitsImm (pos len1 : BitVec 6) : Imm := (len1 ++ pos).setWidth 34

/-- Where an instruction stands in the opcode map and what its fields hold. `d`, `a` and `b` are register numbers,
or the value of a field that names no register; `imm` is present when field b is an immediate; `mask` is present in
a masked vector form (R39). -/
structure Parts where
  page  : Nat
  sub   : Nat
  major : Nat
  d     : Reg := 0
  a     : Reg := 0
  b     : Reg := 0
  imm   : Option Imm := none
  mask  : Option Reg := none
  mod   : Mod := {}
  deriving DecidableEq, Repr

/-- The parts of an instruction's chain; the machine's own steps have none. -/
def Instr.parts : Instr → Option Parts
  | .add d a b => some { page := 0, sub := 0, major := 0, d := d, a := a, b := b }
  | .sub d a b => some { page := 0, sub := 0, major := 1, d := d, a := a, b := b }
  | .and d a b => some { page := 0, sub := 0, major := 2, d := d, a := a, b := b }
  | .or d a b => some { page := 0, sub := 0, major := 3, d := d, a := a, b := b }
  | .xor d a b => some { page := 0, sub := 0, major := 4, d := d, a := a, b := b }
  | .shl d a b => some { page := 0, sub := 0, major := 5, d := d, a := a, b := b }
  | .slt d a b => some { page := 0, sub := 0, major := 6, d := d, a := a, b := b }
  | .addi d a imm => some { page := 0, sub := 0, major := 7, d := d, a := a, imm := some imm }
  | .ldi d imm => some { page := 0, sub := 0, major := 8, d := d, imm := some imm }
  | .ld m d a imm => some { page := 0, sub := 0, major := 9, d := d, a := a, imm := some imm, mod := m }
  | .st m d a imm => some { page := 0, sub := 0, major := 10, d := d, a := a, imm := some imm, mod := m }
  | .brCc c a imm => some { page := 0, sub := 0, major := 11, d := c.num, a := a, imm := some imm }
  | .jal d imm => some { page := 0, sub := 0, major := 12, d := d, imm := some imm }
  | .shr d a b => some { page := 0, sub := 0, major := 13, d := d, a := a, b := b }
  | .mul d a b => some { page := 0, sub := 0, major := 14, d := d, a := a, b := b }
  | .sra d a b => some { page := 0, sub := 1, major := 0, d := d, a := a, b := b }
  | .rot d a b => some { page := 0, sub := 1, major := 1, d := d, a := a, b := b }
  | .andn d a b => some { page := 0, sub := 1, major := 2, d := d, a := a, b := b }
  | .mulh d a b => some { page := 0, sub := 1, major := 3, d := d, a := a, b := b }
  | .mulhZ d a b => some { page := 0, sub := 1, major := 4, d := d, a := a, b := b }
  | .div d a b => some { page := 0, sub := 1, major := 5, d := d, a := a, b := b }
  | .divZ d a b => some { page := 0, sub := 1, major := 6, d := d, a := a, b := b }
  | .rem d a b => some { page := 0, sub := 1, major := 7, d := d, a := a, b := b }
  | .remZ d a b => some { page := 0, sub := 1, major := 8, d := d, a := a, b := b }
  | .sltZ d a b => some { page := 0, sub := 1, major := 9, d := d, a := a, b := b }
  | .seq d a b => some { page := 0, sub := 1, major := 10, d := d, a := a, b := b }
  | .min d a b => some { page := 0, sub := 1, major := 11, d := d, a := a, b := b }
  | .max d a b => some { page := 0, sub := 1, major := 12, d := d, a := a, b := b }
  | .minZ d a b => some { page := 0, sub := 1, major := 13, d := d, a := a, b := b }
  | .maxZ d a b => some { page := 0, sub := 1, major := 14, d := d, a := a, b := b }
  | .sel d a b => some { page := 0, sub := 2, major := 0, d := d, a := a, b := b }
  | .clz d a => some { page := 0, sub := 2, major := 1, d := d, a := a }
  | .ctz d a => some { page := 0, sub := 2, major := 2, d := d, a := a }
  | .popc d a => some { page := 0, sub := 2, major := 3, d := d, a := a }
  | .bswap d a => some { page := 0, sub := 2, major := 4, d := d, a := a }
  | .extr d a pos len1 => some { page := 0, sub := 2, major := 5, d := d, a := a, imm := some (bitsImm pos len1) }
  | .extrZ d a pos len1 => some { page := 0, sub := 2, major := 6, d := d, a := a, imm := some (bitsImm pos len1) }
  | .ins d a pos len1 => some { page := 0, sub := 2, major := 7, d := d, a := a, imm := some (bitsImm pos len1) }
  | .ldh d a imm => some { page := 0, sub := 2, major := 8, d := d, a := a, imm := some imm }
  | .psp d a sp => some { page := 0, sub := 2, major := 9, d := d, a := a, imm := some (sp.setWidth 34) }
  | .padd d a b => some { page := 0, sub := 2, major := 10, d := d, a := a, b := b }
  | .jr a => some { page := 0, sub := 2, major := 11, a := a }
  | .jalr d a => some { page := 0, sub := 2, major := 12, d := d, a := a }
  | .ld8 m d a imm => some { page := 0, sub := 3, major := 0, d := d, a := a, imm := some imm, mod := m }
  | .ld8Z m d a imm => some { page := 0, sub := 3, major := 1, d := d, a := a, imm := some imm, mod := m }
  | .ld16 m d a imm => some { page := 0, sub := 3, major := 2, d := d, a := a, imm := some imm, mod := m }
  | .ld16Z m d a imm => some { page := 0, sub := 3, major := 3, d := d, a := a, imm := some imm, mod := m }
  | .ld32 m d a imm => some { page := 0, sub := 3, major := 4, d := d, a := a, imm := some imm, mod := m }
  | .ld32Z m d a imm => some { page := 0, sub := 3, major := 5, d := d, a := a, imm := some imm, mod := m }
  | .st8 m d a imm => some { page := 0, sub := 3, major := 6, d := d, a := a, imm := some imm, mod := m }
  | .st16 m d a imm => some { page := 0, sub := 3, major := 7, d := d, a := a, imm := some imm, mod := m }
  | .st32 m d a imm => some { page := 0, sub := 3, major := 8, d := d, a := a, imm := some imm, mod := m }
  | .ldf m d a imm => some { page := 0, sub := 3, major := 9, d := d, a := a, imm := some imm, mod := m }
  | .lde m d a imm => some { page := 0, sub := 3, major := 10, d := d, a := a, imm := some imm, mod := m }
  | .stf m d a imm => some { page := 0, sub := 3, major := 11, d := d, a := a, imm := some imm, mod := m }
  | .sts m d a imm => some { page := 0, sub := 3, major := 12, d := d, a := a, imm := some imm, mod := m }
  | .sete m a imm => some { page := 0, sub := 3, major := 13, a := a, imm := some imm, mod := m }
  | .feq m d a imm => some { page := 0, sub := 3, major := 14, d := d, a := a, imm := some imm, mod := m }
  | .tnew d a b => some { page := 1, sub := 0, major := 0, d := d, a := a, b := b }
  | .tend => some { page := 1, sub := 0, major := 1 }
  | .sleep a imm => some { page := 1, sub := 0, major := 2, a := a, imm := some imm }
  | .yield => some { page := 1, sub := 0, major := 3 }
  | .migrate d a => some { page := 1, sub := 0, major := 4, d := d, a := a }
  | .roam d a => some { page := 1, sub := 0, major := 5, d := d, a := a }
  | .fmtset d imm => some { page := 1, sub := 0, major := 6, d := d, imm := some imm }
  | .barCfg d a b => some { page := 1, sub := 0, major := 7, d := d, a := a, b := b }
  | .barArr m d => some { page := 1, sub := 0, major := 8, d := d, mod := m }
  | .barWait m d => some { page := 1, sub := 0, major := 9, d := d, mod := m }
  | .launch d a => some { page := 1, sub := 1, major := 0, d := d, a := a }
  | .cancel d a => some { page := 1, sub := 1, major := 1, d := d, a := a }
  | .send m d a b => some { page := 1, sub := 1, major := 2, d := d, a := a, b := b, mod := m }
  | .nput dir a b => some { page := 1, sub := 1, major := 3, d := dir.num, a := a, b := b }
  | .amsg a b => some { page := 1, sub := 1, major := 4, a := a, b := b }
  | .cont a b => some { page := 1, sub := 1, major := 5, a := a, b := b }
  | .contid d a => some { page := 1, sub := 1, major := 6, d := d, a := a }
  | .movT d a => some { page := 1, sub := 1, major := 7, d := d, a := a }
  | .spawn d a => some { page := 1, sub := 2, major := 0, d := d, a := a }
  | .blend => some { page := 1, sub := 2, major := 1 }
  | .join => some { page := 1, sub := 2, major := 2 }
  | .vdecl d a b => some { page := 1, sub := 2, major := 3, d := d, a := a, b := b }
  | .vdrop d => some { page := 1, sub := 2, major := 4, d := d }
  | .rsv m d a => some { page := 2, sub := 0, major := 0, d := d, a := a, mod := m }
  | .rel m d => some { page := 2, sub := 0, major := 1, d := d, mod := m }
  | .rsvx m d a => some { page := 2, sub := 0, major := 2, d := d, a := a, mod := m }
  | .aadd m d a b => some { page := 2, sub := 0, major := 3, d := d, a := a, b := b, mod := m }
  | .aand m d a b => some { page := 2, sub := 0, major := 4, d := d, a := a, b := b, mod := m }
  | .aor m d a b => some { page := 2, sub := 0, major := 5, d := d, a := a, b := b, mod := m }
  | .axor m d a b => some { page := 2, sub := 0, major := 6, d := d, a := a, b := b, mod := m }
  | .amin m d a b => some { page := 2, sub := 0, major := 7, d := d, a := a, b := b, mod := m }
  | .amax m d a b => some { page := 2, sub := 0, major := 8, d := d, a := a, b := b, mod := m }
  | .aminZ m d a b => some { page := 2, sub := 0, major := 9, d := d, a := a, b := b, mod := m }
  | .amaxZ m d a b => some { page := 2, sub := 0, major := 10, d := d, a := a, b := b, mod := m }
  | .axchg m d a b => some { page := 2, sub := 0, major := 11, d := d, a := a, b := b, mod := m }
  | .cas m d a b => some { page := 2, sub := 0, major := 12, d := d, a := a, b := b, mod := m }
  | .cas2 m d a b => some { page := 2, sub := 0, major := 13, d := d, a := a, b := b, mod := m }
  | .fence m => some { page := 2, sub := 0, major := 14, mod := m }
  | .monArm d a mon => some { page := 2, sub := 1, major := 0, d := d, a := a, imm := some (mon.setWidth 34) }
  | .monClr mon => some { page := 2, sub := 1, major := 1, imm := some (mon.setWidth 34) }
  | .mwait m d a => some { page := 2, sub := 1, major := 2, d := d, a := a, mod := m }
  | .cpy m d a b => some { page := 3, sub := 0, major := 0, d := d, a := a, b := b, mod := m }
  | .tcpy m d a b => some { page := 3, sub := 0, major := 1, d := d, a := a, b := b, mod := m }
  | .waitp m a b => some { page := 3, sub := 0, major := 2, a := a, b := b, mod := m }
  | .lcwC n a => some { page := 3, sub := 0, major := 3, a := a, imm := some ((0#31 ++ n)) }
  | .lcwV n a => some { page := 3, sub := 0, major := 3, a := a, imm := some ((1#31 ++ n)) }
  | .lcwM n a => some { page := 3, sub := 0, major := 3, a := a, imm := some ((2#31 ++ n)) }
  | .lcwCfg n a => some { page := 3, sub := 0, major := 3, a := a, imm := some ((3#31 ++ n)) }
  | .lcrC d n => some { page := 3, sub := 0, major := 4, d := d, imm := some ((0#31 ++ n)) }
  | .lcrV d n => some { page := 3, sub := 0, major := 4, d := d, imm := some ((1#31 ++ n)) }
  | .lcrM d n => some { page := 3, sub := 0, major := 4, d := d, imm := some ((2#31 ++ n)) }
  | .eqry d a => some { page := 3, sub := 0, major := 5, d := d, a := a }
  | .efence => some { page := 3, sub := 0, major := 6 }
  | .emsgGatherQuery m d a b => some { page := 3, sub := 1, major := 0, d := d, a := a, b := b, mod := m }
  | .emsgCollectiveQuery m d a b => some { page := 3, sub := 1, major := 0, d := d, a := a, b := b, mod := m }
  | .emsgAbort m d a b => some { page := 3, sub := 1, major := 0, d := d, a := a, b := b, mod := m }
  | .gath m d a b => some { page := 3, sub := 1, major := 1, d := d, a := a, b := b, mod := m }
  | .collAllreduce m d a b => some { page := 3, sub := 1, major := 2, d := d, a := a, b := b, mod := m }
  | .collBroadcast m d a b => some { page := 3, sub := 1, major := 2, d := d, a := a, b := b, mod := m }
  | .collAllgather m d a b => some { page := 3, sub := 1, major := 2, d := d, a := a, b := b, mod := m }
  | .tbInit d => some { page := 3, sub := 2, major := 0, d := d }
  | .tbExp d a => some { page := 3, sub := 2, major := 1, d := d, a := a }
  | .tbArr m d a => some { page := 3, sub := 2, major := 2, d := d, a := a, mod := m }
  | .tbWait m d a => some { page := 3, sub := 2, major := 3, d := d, a := a, mod := m }
  | .tbPhase d a => some { page := 3, sub := 2, major := 4, d := d, a := a }
  | .vadd d a b => some { page := 4, sub := 0, major := 0, d := d, a := a, b := b }
  | .vsub d a b => some { page := 4, sub := 0, major := 1, d := d, a := a, b := b }
  | .vmul d a b => some { page := 4, sub := 0, major := 2, d := d, a := a, b := b }
  | .vfma d a b => some { page := 4, sub := 0, major := 3, d := d, a := a, b := b }
  | .vmin d a b => some { page := 4, sub := 0, major := 4, d := d, a := a, b := b }
  | .vmax d a b => some { page := 4, sub := 0, major := 5, d := d, a := a, b := b }
  | .vabs d a => some { page := 4, sub := 0, major := 6, d := d, a := a }
  | .vneg d a => some { page := 4, sub := 0, major := 7, d := d, a := a }
  | .vcmpEq d a b => some { page := 4, sub := 0, major := 8, d := d, a := a, b := b }
  | .vcmpLt d a b => some { page := 4, sub := 0, major := 9, d := d, a := a, b := b }
  | .vcmpLe d a b => some { page := 4, sub := 0, major := 10, d := d, a := a, b := b }
  | .vredSum d a => some { page := 4, sub := 0, major := 11, d := d, a := a }
  | .vredMax d a => some { page := 4, sub := 0, major := 12, d := d, a := a }
  | .vredMin d a => some { page := 4, sub := 0, major := 13, d := d, a := a }
  | .vaddBf16 d a b => some { page := 4, sub := 1, major := 0, d := d, a := a, b := b }
  | .vsubBf16 d a b => some { page := 4, sub := 1, major := 1, d := d, a := a, b := b }
  | .vmulBf16 d a b => some { page := 4, sub := 1, major := 2, d := d, a := a, b := b }
  | .vfmaBf16 d a b => some { page := 4, sub := 1, major := 3, d := d, a := a, b := b }
  | .vminBf16 d a b => some { page := 4, sub := 1, major := 4, d := d, a := a, b := b }
  | .vmaxBf16 d a b => some { page := 4, sub := 1, major := 5, d := d, a := a, b := b }
  | .vabsBf16 d a => some { page := 4, sub := 1, major := 6, d := d, a := a }
  | .vnegBf16 d a => some { page := 4, sub := 1, major := 7, d := d, a := a }
  | .vcmpEqBf16 d a b => some { page := 4, sub := 1, major := 8, d := d, a := a, b := b }
  | .vcmpLtBf16 d a b => some { page := 4, sub := 1, major := 9, d := d, a := a, b := b }
  | .vcmpLeBf16 d a b => some { page := 4, sub := 1, major := 10, d := d, a := a, b := b }
  | .vredSumBf16 d a => some { page := 4, sub := 1, major := 11, d := d, a := a }
  | .vredMaxBf16 d a => some { page := 4, sub := 1, major := 12, d := d, a := a }
  | .vredMinBf16 d a => some { page := 4, sub := 1, major := 13, d := d, a := a }
  | .viadd d a b => some { page := 4, sub := 2, major := 0, d := d, a := a, b := b }
  | .visub d a b => some { page := 4, sub := 2, major := 1, d := d, a := a, b := b }
  | .vimul d a b => some { page := 4, sub := 2, major := 2, d := d, a := a, b := b }
  | .vshl d a b => some { page := 4, sub := 2, major := 3, d := d, a := a, b := b }
  | .vshr d a b => some { page := 4, sub := 2, major := 4, d := d, a := a, b := b }
  | .vand d a b => some { page := 4, sub := 2, major := 5, d := d, a := a, b := b }
  | .vor d a b => some { page := 4, sub := 2, major := 6, d := d, a := a, b := b }
  | .vxor d a b => some { page := 4, sub := 2, major := 7, d := d, a := a, b := b }
  | .vmaddm d a b => some { page := 4, sub := 3, major := 0, d := d, a := a, b := b }
  | .vmsubm d a b => some { page := 4, sub := 3, major := 1, d := d, a := a, b := b }
  | .vmmulm d a b => some { page := 4, sub := 3, major := 2, d := d, a := a, b := b }
  | .vbflyCt d a b => some { page := 4, sub := 3, major := 3, d := d, a := a, b := b }
  | .vbflyGs d a b => some { page := 4, sub := 3, major := 4, d := d, a := a, b := b }
  | .vtwid d a b => some { page := 4, sub := 3, major := 5, d := d, a := a, b := b }
  | .vsel d a b => some { page := 4, sub := 4, major := 0, d := d, a := a, b := b }
  | .vcvt d a code => some { page := 4, sub := 4, major := 1, d := d, a := a, b := code.setWidth 7 }
  | .vexp2 d a => some { page := 4, sub := 4, major := 2, d := d, a := a }
  | .vrcp d a => some { page := 4, sub := 4, major := 3, d := d, a := a }
  | .vrsq d a => some { page := 4, sub := 4, major := 4, d := d, a := a }
  | .vshuf d a b => some { page := 4, sub := 4, major := 5, d := d, a := a, b := b }
  | .vbcast d a => some { page := 4, sub := 4, major := 6, d := d, a := a }
  | .vmovx d a i => some { page := 4, sub := 4, major := 7, d := d, a := a, imm := some (i.setWidth 34) }
  | .vmovv d a i => some { page := 4, sub := 4, major := 8, d := d, a := a, imm := some (i.setWidth 34) }
  | .vld m d a imm => some { page := 4, sub := 5, major := 0, d := d, a := a, imm := some imm, mod := m }
  | .vst m d a imm => some { page := 4, sub := 5, major := 1, d := d, a := a, imm := some imm, mod := m }
  | .vgth m d a b => some { page := 4, sub := 5, major := 2, d := d, a := a, b := b, mod := m }
  | .vsct m d a b => some { page := 4, sub := 5, major := 3, d := d, a := a, b := b, mod := m }
  | .vaddM k d a b => some { page := 4, sub := 8, major := 0, d := d, a := a, b := b, mask := some k }
  | .vsubM k d a b => some { page := 4, sub := 8, major := 1, d := d, a := a, b := b, mask := some k }
  | .vmulM k d a b => some { page := 4, sub := 8, major := 2, d := d, a := a, b := b, mask := some k }
  | .vfmaM k d a b => some { page := 4, sub := 8, major := 3, d := d, a := a, b := b, mask := some k }
  | .vminM k d a b => some { page := 4, sub := 8, major := 4, d := d, a := a, b := b, mask := some k }
  | .vmaxM k d a b => some { page := 4, sub := 8, major := 5, d := d, a := a, b := b, mask := some k }
  | .vabsM k d a => some { page := 4, sub := 8, major := 6, d := d, a := a, mask := some k }
  | .vnegM k d a => some { page := 4, sub := 8, major := 7, d := d, a := a, mask := some k }
  | .vcmpEqM k d a b => some { page := 4, sub := 8, major := 8, d := d, a := a, b := b, mask := some k }
  | .vcmpLtM k d a b => some { page := 4, sub := 8, major := 9, d := d, a := a, b := b, mask := some k }
  | .vcmpLeM k d a b => some { page := 4, sub := 8, major := 10, d := d, a := a, b := b, mask := some k }
  | .vredSumM k d a => some { page := 4, sub := 8, major := 11, d := d, a := a, mask := some k }
  | .vredMaxM k d a => some { page := 4, sub := 8, major := 12, d := d, a := a, mask := some k }
  | .vredMinM k d a => some { page := 4, sub := 8, major := 13, d := d, a := a, mask := some k }
  | .vaddBf16M k d a b => some { page := 4, sub := 9, major := 0, d := d, a := a, b := b, mask := some k }
  | .vsubBf16M k d a b => some { page := 4, sub := 9, major := 1, d := d, a := a, b := b, mask := some k }
  | .vmulBf16M k d a b => some { page := 4, sub := 9, major := 2, d := d, a := a, b := b, mask := some k }
  | .vfmaBf16M k d a b => some { page := 4, sub := 9, major := 3, d := d, a := a, b := b, mask := some k }
  | .vminBf16M k d a b => some { page := 4, sub := 9, major := 4, d := d, a := a, b := b, mask := some k }
  | .vmaxBf16M k d a b => some { page := 4, sub := 9, major := 5, d := d, a := a, b := b, mask := some k }
  | .vabsBf16M k d a => some { page := 4, sub := 9, major := 6, d := d, a := a, mask := some k }
  | .vnegBf16M k d a => some { page := 4, sub := 9, major := 7, d := d, a := a, mask := some k }
  | .vcmpEqBf16M k d a b => some { page := 4, sub := 9, major := 8, d := d, a := a, b := b, mask := some k }
  | .vcmpLtBf16M k d a b => some { page := 4, sub := 9, major := 9, d := d, a := a, b := b, mask := some k }
  | .vcmpLeBf16M k d a b => some { page := 4, sub := 9, major := 10, d := d, a := a, b := b, mask := some k }
  | .vredSumBf16M k d a => some { page := 4, sub := 9, major := 11, d := d, a := a, mask := some k }
  | .vredMaxBf16M k d a => some { page := 4, sub := 9, major := 12, d := d, a := a, mask := some k }
  | .vredMinBf16M k d a => some { page := 4, sub := 9, major := 13, d := d, a := a, mask := some k }
  | .viaddM k d a b => some { page := 4, sub := 10, major := 0, d := d, a := a, b := b, mask := some k }
  | .visubM k d a b => some { page := 4, sub := 10, major := 1, d := d, a := a, b := b, mask := some k }
  | .vimulM k d a b => some { page := 4, sub := 10, major := 2, d := d, a := a, b := b, mask := some k }
  | .vshlM k d a b => some { page := 4, sub := 10, major := 3, d := d, a := a, b := b, mask := some k }
  | .vshrM k d a b => some { page := 4, sub := 10, major := 4, d := d, a := a, b := b, mask := some k }
  | .vandM k d a b => some { page := 4, sub := 10, major := 5, d := d, a := a, b := b, mask := some k }
  | .vorM k d a b => some { page := 4, sub := 10, major := 6, d := d, a := a, b := b, mask := some k }
  | .vxorM k d a b => some { page := 4, sub := 10, major := 7, d := d, a := a, b := b, mask := some k }
  | .vmaddmM k d a b => some { page := 4, sub := 11, major := 0, d := d, a := a, b := b, mask := some k }
  | .vmsubmM k d a b => some { page := 4, sub := 11, major := 1, d := d, a := a, b := b, mask := some k }
  | .vmmulmM k d a b => some { page := 4, sub := 11, major := 2, d := d, a := a, b := b, mask := some k }
  | .vbflyCtM k d a b => some { page := 4, sub := 11, major := 3, d := d, a := a, b := b, mask := some k }
  | .vbflyGsM k d a b => some { page := 4, sub := 11, major := 4, d := d, a := a, b := b, mask := some k }
  | .vtwidM k d a b => some { page := 4, sub := 11, major := 5, d := d, a := a, b := b, mask := some k }
  | .vcvtM k d a code => some { page := 4, sub := 12, major := 1, d := d, a := a, b := code.setWidth 7, mask := some k }
  | .vexp2M k d a => some { page := 4, sub := 12, major := 2, d := d, a := a, mask := some k }
  | .vrcpM k d a => some { page := 4, sub := 12, major := 3, d := d, a := a, mask := some k }
  | .vrsqM k d a => some { page := 4, sub := 12, major := 4, d := d, a := a, mask := some k }
  | .vmovvM k d a => some { page := 4, sub := 12, major := 8, d := d, a := a, mask := some k }
  | .vldM m k d a => some { page := 4, sub := 13, major := 0, d := d, a := a, mask := some k, mod := m }
  | .vstM m k d a => some { page := 4, sub := 13, major := 1, d := d, a := a, mask := some k, mod := m }
  | .vgthM m k d a b => some { page := 4, sub := 13, major := 2, d := d, a := a, b := b, mask := some k, mod := m }
  | .vsctM m k d a b => some { page := 4, sub := 13, major := 3, d := d, a := a, b := b, mask := some k, mod := m }
  | .mcfg n a => some { page := 5, sub := 0, major := 0, a := a, imm := some (n.setWidth 34) }
  | .mzero d => some { page := 5, sub := 0, major := 1, d := d }
  | .mma m d a b => some { page := 5, sub := 0, major := 2, d := d, a := a, b := b, mod := m }
  | .mmr m d a => some { page := 5, sub := 0, major := 3, d := d, a := a, mod := m }
  | .mring m d a b => some { page := 5, sub := 0, major := 4, d := d, a := a, b := b, mod := m }
  | .mmod m d a b => some { page := 5, sub := 0, major := 5, d := d, a := a, b := b, mod := m }
  | .mst d a b => some { page := 5, sub := 0, major := 6, d := d, a := a, b := b }
  | .mlda d a b => some { page := 5, sub := 0, major := 7, d := d, a := a, b := b }
  | .mqry d code => some { page := 5, sub := 0, major := 8, d := d, imm := some (code.setWidth 34) }
  | .trap a n => some { page := 6, sub := 0, major := 0, a := a, imm := some (n.setWidth 34) }
  | .eret => some { page := 6, sub := 0, major := 1 }
  | .rds d r => some { page := 6, sub := 0, major := 2, d := d, imm := some r.num }
  | .wrs r a => some { page := 6, sub := 0, major := 3, a := a, imm := some r.num }
  | .xinvPage d a b => some { page := 6, sub := 0, major := 4, d := d, a := a, b := b }
  | .xinvAsid d a b => some { page := 6, sub := 0, major := 4, d := d, a := a, b := b }
  | .xinvRlb d a b => some { page := 6, sub := 0, major := 4, d := d, a := a, b := b }
  | .xinvFrame d a b => some { page := 6, sub := 0, major := 4, d := d, a := a, b := b }
  | .iflush => some { page := 6, sub := 0, major := 5 }
  | .brk n => some { page := 6, sub := 0, major := 6, imm := some (n.setWidth 34) }
  | .seqnew d => some { page := 6, sub := 1, major := 0, d := d }
  | .seqmap d a b => some { page := 6, sub := 1, major := 1, d := d, a := a, b := b }
  | .sequnmap d a => some { page := 6, sub := 1, major := 2, d := d, a := a }
  | .seqend d a => some { page := 6, sub := 1, major := 3, d := d, a := a }
  | .seqq d a => some { page := 6, sub := 1, major := 4, d := d, a := a }
  | .fofferOffer d a b => some { page := 6, sub := 2, major := 0, d := d, a := a, b := b }
  | .fofferRelease d a b => some { page := 6, sub := 2, major := 0, d := d, a := a, b := b }
  | .fofferWithdraw d a b => some { page := 6, sub := 2, major := 0, d := d, a := a, b := b }
  | .faccept d a => some { page := 6, sub := 2, major := 1, d := d, a := a }
  | .flend d a b => some { page := 6, sub := 2, major := 2, d := d, a := a, b := b }
  | .frecall d a => some { page := 6, sub := 2, major := 3, d := d, a := a }
  | .freturn d a => some { page := 6, sub := 2, major := 4, d := d, a := a }
  | .fquery d a => some { page := 6, sub := 2, major := 5, d := d, a := a }
  | .fstrikeClear d a b => some { page := 6, sub := 2, major := 6, d := d, a := a, b := b }
  | .fstrikeSetLimit d a b => some { page := 6, sub := 2, major := 6, d := d, a := a, b := b }
  | .wakeResume a b => some { page := 6, sub := 3, major := 0, a := a, b := b }
  | .wakeTrap a b => some { page := 6, sub := 3, major := 0, a := a, b := b }
  | .evict d a b => some { page := 6, sub := 3, major := 1, d := d, a := a, b := b }
  | .restore d a b => some { page := 6, sub := 3, major := 2, d := d, a := a, b := b }
  | .drain d a b => some { page := 6, sub := 3, major := 3, d := d, a := a, b := b }
  | .drainResume d a b => some { page := 6, sub := 3, major := 3, d := d, a := a, b := b }
  | .partset d a b => some { page := 6, sub := 3, major := 4, d := d, a := a, b := b }
  | .ownsetCreate d a b => some { page := 6, sub := 3, major := 5, d := d, a := a, b := b }
  | .ownsetDestroy d a b => some { page := 6, sub := 3, major := 5, d := d, a := a, b := b }
  | .ownsetAssign d a b => some { page := 6, sub := 3, major := 5, d := d, a := a, b := b }
  | .ownsetBindkey d a b => some { page := 6, sub := 3, major := 5, d := d, a := a, b := b }
  | .ownsetUnbindkey d a b => some { page := 6, sub := 3, major := 5, d := d, a := a, b := b }
  | .ownsetBindasid d a b => some { page := 6, sub := 3, major := 5, d := d, a := a, b := b }
  | .ownsetUnbindasid d a b => some { page := 6, sub := 3, major := 5, d := d, a := a, b := b }
  | .ownsetSetring d a b => some { page := 6, sub := 3, major := 5, d := d, a := a, b := b }
  | .ownsetSetinbox d a b => some { page := 6, sub := 3, major := 5, d := d, a := a, b := b }
  | .dispatch _ _ | .threadReady _ | .bankRetention _ | .issueRotation _ | .bankRequestArrival _ | .holdWriteBack _
  | .refusedRequestResend _ | .memReply _ | .channelAdmission _ | .sleepExpiry _ | .mwaitTimeout _ | .waitpTimeReached _
  | .yieldExpiry _ | .iflushExpiry _ | .teamBarrierCompletion _ _ | .barWaitReturn _ _ | .registerWriteArrival _ | .nputLinkArrival _
  | .amsgArrival _ | .wakeArrival _ | .migrationArrival _ | .ibufLineFill _ _ | .copyCommandStart _ | .engineWriteAck _ _ _
  | .engineCommandComplete _ _ | .engineFaultInFlight _ _ _ _ | .gatherRequestAccept _ | .vectorCommandStart _ | .vectorResultWrite _ _ | .matrixArithmeticStart _
  | .matrixCommandComplete _ _ | .ringForward _ _ | .faultEventArrival _ | .faultRecordWrite _ | .monitorFire _ _ | .stealProbe _
  | .cancelNotice _ _ | .launchTableEvaluation _ | .launchTableStore _ | .controlCounterStore _ | .asidDescriptorStore _ | .controlWindowWrite _
  | .translationFill _ | .keyFill _ | .shootDownArrival _ | .shootDownComplete _ | .fotPerform _ | .revocation _
  | .noticeWrite _ | .pcieInboundWrite _ _ _ | .pcieInboundRead _ _ | .orderingPointSend | .pcieInboundAtomicop _ | .hotReset
  | .ringControlStore _ | .ringEntryLaunch _ | .ringEntryFill _ | .ringEntryUnknownKind _ | .apertureStore _ | .exrinFlitReceive _ _
  | .exrinInboundRequest _ _ _ _ _ | .collectiveContribution _ _ _ | .collectiveTimeout _ | .membershipViewChange _ | .getVersion _ | .getCapabilities _
  | .negotiateAlgorithms _ | .getDigests _ | .getCertificate _ | .challenge _ | .getMeasurements _ | .keyExchange _
  | .finish _ | .endSession _ | .bind _ _ | .ringkey _ _ | .vendorUnknownOpcode _ _ | .rngHealthFailure
  | .cxlDeviceLost _ | .kernelTermination _ | .kernelRestart _ | .drainLimitExpiry _ | .powerUp | .thermalThrottle
  | .thermalShutdown | .unassignedEncoding _ _ | .farEndCompletion _ | .startUpTestsPassed | .powerRemoved | .pcieConfigurationRequest
  | .uncorrectableCoreStateError _ | .ieee1588TimingMessage _ | .heldCoreRelease _ => none

/-- The rows of Table 2.17, and the instructions outside it. -/
inductive ModRow where
  /-- No MOD prefix is taken. -/
  | none
  /-- Loads: relaxed, scope, acquire. -/
  | load
  /-- Stores: relaxed, scope, release. -/
  | store
  /-- Fills, takes and waits: scope, acquire. -/
  | acq
  /-- Puts, commands and arrivals: scope, release. -/
  | rel
  /-- Atomics and FENCE: scope, acquire, release. -/
  | both
  /-- Matrix products: check. -/
  | check
  deriving DecidableEq, Repr

/-- The row of Table 2.17 an instruction belongs to. -/
def Instr.modRow : Instr → ModRow
  | .ld _ _ _ _ | .ld8 _ _ _ _ | .ld8Z _ _ _ _ | .ld16 _ _ _ _ | .ld16Z _ _ _ _ | .ld32 _ _ _ _ | .ld32Z _ _ _ _ | .vld _ _ _ _ | .vgth _ _ _ _ | .vldM _ _ _ _ | .vgthM _ _ _ _ _ => .load
  | .st _ _ _ _ | .st8 _ _ _ _ | .st16 _ _ _ _ | .st32 _ _ _ _ | .vst _ _ _ _ | .vsct _ _ _ _ | .vstM _ _ _ _ | .vsctM _ _ _ _ _ => .store
  | .ldf _ _ _ _ | .lde _ _ _ _ | .feq _ _ _ _ | .barWait _ _ | .rsv _ _ _ | .rsvx _ _ _ | .mwait _ _ _ | .waitp _ _ _ | .tbWait _ _ _ => .acq
  | .stf _ _ _ _ | .sts _ _ _ _ | .sete _ _ _ | .barArr _ _ | .send _ _ _ _ | .rel _ _ | .cpy _ _ _ _ | .tcpy _ _ _ _ | .emsgGatherQuery _ _ _ _ | .emsgCollectiveQuery _ _ _ _ | .emsgAbort _ _ _ _ | .gath _ _ _ _ | .collAllreduce _ _ _ _ | .collBroadcast _ _ _ _ | .collAllgather _ _ _ _ | .tbArr _ _ _ => .rel
  | .aadd _ _ _ _ | .aand _ _ _ _ | .aor _ _ _ _ | .axor _ _ _ _ | .amin _ _ _ _ | .amax _ _ _ _ | .aminZ _ _ _ _ | .amaxZ _ _ _ _ | .axchg _ _ _ _ | .cas _ _ _ _ | .cas2 _ _ _ _ | .fence _ => .both
  | .mma _ _ _ _ | .mmr _ _ _ | .mring _ _ _ _ | .mmod _ _ _ _ => .check
  | _ => .none

/-- Whether a row of Table 2.17 accepts every mark that is set. -/
def ModRow.accepts : ModRow → Mod → Bool
  | .none, m => m == {}
  | .load, m => !m.release && !m.check
  | .store, m => !m.acquire && !m.check
  | .acq, m => !m.relaxed && !m.release && !m.check
  | .rel, m => !m.relaxed && !m.acquire && !m.check
  | .both, m => !m.relaxed && !m.check
  | .check, m => !m.relaxed && m.scope == .core && !m.acquire && !m.release

/-- The combinations that R46 allows: relaxed with neither mark, and a scope other than core only with a mark. -/
def Mod.combines (m : Mod) : Bool :=
  !(m.relaxed && (m.acquire || m.release)) && (m.scope == .core || m.acquire || m.release)

/-- The values that an instruction's chapter assigns to its fields (R20). -/
def Instr.fieldsOk : Instr → Bool
  | .extr _ _ pos len1 | .extrZ _ _ pos len1 | .ins _ _ pos len1 => decide (pos.toNat + len1.toNat + 1 ≤ 64)
  | .psp _ _ sp => decide (sp.toNat ≤ 4)
  | .brCc c a _ => c != .always || a == 0
  | .fmtset _ v =>
      v.extractLsb' 9 25 == 0 && !v.getLsbD 3 && (v.getLsbD 6 || v.extractLsb' 0 3 == 0) &&
        (v.getLsbD 7 || v.extractLsb' 4 2 == 0)
  | .monClr m => decide (m.toNat ≤ 4)
  | .mqry _ code => decide (code.toNat ≤ 9)
  | .vbflyCt d a _ | .vbflyGs d a _ | .vbflyCtM _ d a _ | .vbflyGsM _ d a _ => d != a
  | _ => true

/-- The number of IMM prefixes that a value needs: the smallest whose width in Table 2.3 holds it (R372). -/
def immCount (v : Imm) : Nat :=
  let x := v.toInt
  if -8 ≤ x ∧ x < 8 then 0 else if -8192 ≤ x ∧ x < 8192 then 1 else if -8388608 ≤ x ∧ x < 8388608 then 2 else 3

/-- The number of IMM prefixes of a chain: one for a mask (R39), as many as the immediate needs otherwise. -/
def Parts.imms (p : Parts) : Nat :=
  match p.mask, p.imm with
  | some _, _ => 1
  | none, some v => immCount v
  | none, none => 0

/-- Whether a chain needs a REG prefix: some register number is 16 or more (R372). -/
def Parts.wide (p : Parts) : Bool :=
  !(decide (p.d.toNat < 16) && decide (p.a.toNat < 16) && decide (p.b.toNat < 16))

/-- The number of prefixes of the shortest chain (R372). -/
def Parts.prefixes (p : Parts) : Nat :=
  (if p.page = 0 ∧ p.sub = 0 then 0 else 1) + (if p.wide then 1 else 0) + (if p.mod = {} then 0 else 1) + p.imms

/-- An instruction is well-formed when its field values are assigned, its row takes its marks, the marks combine,
and its chain has at most four prefixes (R20, R22, R45, R46). -/
def Instr.wf (i : Instr) : Bool :=
  match i.parts with
  | none => true
  | some p => i.fieldsOk && i.modRow.accepts p.mod && p.mod.combines && decide (p.prefixes ≤ 4)

/-- Whether a term is an instruction of pages 0 to 6, and not one of the machine's own steps. -/
def Instr.encodable (i : Instr) : Bool := i.parts.isSome

end Sys2Proof
end

