-- ==== Sys2Proof/Decode.lean ====
section
/-! DEFINITION. Decoding, total on any words, rejecting by the reasons of Table 2.6 with the position in the chain,
and after it the encoder that writes the shortest chain (R32, R372). -/

namespace Sys2Proof

/-- Why a chain is rejected: the reason of Table 2.6 and the position of the word it names (R30). -/
structure Reject where
  reason : Nat
  pos    : Nat
  deriving DecidableEq, Repr

/-- What decode finds: an instruction and the number of words of its chain, a rejection, or too few words. -/
inductive Decoded where
  | instr (i : Instr) (len : Nat)
  | reject (r : Reject)
  | short
  deriving DecidableEq, Repr

/-- A chain as it is read: the prefixes seen and where, and the base word (R18, R21 to R26). -/
structure Chain where
  len     : Nat := 0
  page    : Nat := 0
  sub     : Nat := 0
  major   : Nat := 0
  dN      : BitVec 4 := 0
  aN      : BitVec 4 := 0
  bN      : BitVec 4 := 0
  ext     : BitVec 10 := 0
  bits    : BitVec 10 := 0
  chunks  : List (BitVec 10) := []
  pagePos : Option Nat := none
  regPos  : Option Nat := none
  modPos  : Option Nat := none
  immPos  : List Nat := []
  badPage : Option Nat := none
  repeated : Option Nat := none
  deriving DecidableEq, Repr

/-- The first of two positions. -/
def firstOf (x : Option Nat) (y : Nat) : Option Nat := some (x.getD y)

/-- Reads one prefix into the chain (Table 2.2). R22 does not say which of two PAGE prefixes gives the chain its page and
sub-page: the first one does, and a second one of 7 to 63 counts as an unassigned page (DEDUCED, log 96). -/
def Chain.push (c : Chain) (w : Half) : Chain :=
  let p := w.extractLsb' 0 10
  let k := w.extractLsb' 10 2
  if k = 0 then
    if c.immPos.length < 3 then { c with len := c.len + 1, chunks := c.chunks ++ [p], immPos := c.immPos ++ [c.len] }
    else { c with len := c.len + 1, repeated := firstOf c.repeated c.len }
  else if k = 1 then
    if c.regPos.isNone then { c with len := c.len + 1, ext := p, regPos := some c.len }
    else { c with len := c.len + 1, repeated := firstOf c.repeated c.len }
  else if k = 2 then
    let bad := if 7 ≤ (p.extractLsb' 4 6).toNat then firstOf c.badPage c.len else c.badPage
    if c.pagePos.isNone then
      { c with len := c.len + 1, page := (p.extractLsb' 4 6).toNat, sub := (p.extractLsb' 0 4).toNat,
               pagePos := some c.len, badPage := bad }
    else { c with len := c.len + 1, repeated := firstOf c.repeated c.len, badPage := bad }
  else
    if c.modPos.isNone then { c with len := c.len + 1, bits := p, modPos := some c.len }
    else { c with len := c.len + 1, repeated := firstOf c.repeated c.len }

/-- Puts the base word into the chain (Table 2.1). -/
def Chain.base (c : Chain) (w : Half) : Chain :=
  { c with major := (w.extractLsb' 12 4).toNat, dN := w.extractLsb' 8 4, aN := w.extractLsb' 4 4, bN := w.extractLsb' 0 4 }

/-- What reading the words of a chain finds: the whole chain, a fifth word that is still a prefix (R27), or no end. -/
inductive Scan where
  | whole (c : Chain)
  | tooLong (c : Chain)
  | short
  deriving DecidableEq, Repr

/-- Whether a word is a prefix (R21). -/
def isPrefix (w : Half) : Bool := w.extractLsb' 12 4 == 15

/-- Reads words in ascending address order up to the base word (R27). -/
def scan : Chain → List Half → Scan
  | _, [] => .short
  | c, w :: ws =>
    if isPrefix w then
      if c.len = 4 then .tooLong (c.push w) else scan (c.push w) ws
    else .whole (c.base w)

/-- The immediate of a chain (R23). -/
def assemble (chunks : List (BitVec 10)) (b : BitVec 4) : Imm :=
  let v := chunks.foldl (fun (v : Imm) p => (v <<< 10) ||| p.setWidth 34) 0
  let v := (v <<< 4) ||| b.setWidth 34
  let s := 30 - 10 * chunks.length
  (v <<< s).sshiftRight s

/-- An immediate read as an unsigned field of `n` bits; none when a higher bit is set. -/
def narrow (n : Nat) (v : Imm) : Option (BitVec n) :=
  if v.toNat < 2 ^ n then some (v.setWidth n) else none

/-- The condition with a code (R20). -/
def Cond.ofNum (x : Reg) : Option Cond :=
  if x = 0 then some .eqz else if x = 1 then some .nez else if x = 2 then some .ltz else if x = 3 then some .gez
  else if x = 4 then some .gtz else if x = 5 then some .lez else if x = 6 then some .always else none

/-- The direction with a code (R75). -/
def Dir.ofNum (x : Reg) : Option Dir :=
  if x = 0 then some .north else if x = 1 then some .east else if x = 2 then some .south else if x = 3 then some .west
  else if x = 4 then some .self else none

/-- The special register with a number (Table 2.16). -/
def SpReg.ofNum (x : Imm) : Option SpReg :=
  match x.toNat with
  | 0x00 => some .vec | 0x01 => some .epc | 0x02 => some .cause | 0x03 => some .info | 0x04 => some .lvl
  | 0x05 => some .id | 0x06 => some .vx | 0x08 => some .fmt | 0x09 => some .sa | 0x0A => some .sb | 0x0B => some .band
  | 0x0C => some .rcb | 0x0D => some .asid | 0x0E => some .win | 0x10 => some .cyc | 0x11 => some .coreId
  | 0x12 => some .owner | 0x18 => some .ptp | 0x19 => some .ready
  | _ => none

/-- The scope with a code; 5 to 7 are reserved (Table 2.5) and rejected beside this. -/
def Scope.ofBits (x : BitVec 3) : Scope :=
  match x.toNat with
  | 0 => .core | 1 => .cluster | 2 => .die | 3 => .package | _ => .system

/-- The code of a scope (Table 2.5). -/
def Scope.bits : Scope → BitVec 3
  | .core => 0 | .cluster => 1 | .die => 2 | .package => 3 | .system => 4

/-- The marks of a MOD payload (Table 2.5). -/
def Mod.ofBits (p : BitVec 10) : Mod :=
  { relaxed := p.getLsbD 9, scope := Scope.ofBits (p.extractLsb' 6 3), acquire := p.getLsbD 5, release := p.getLsbD 4,
    check := p.getLsbD 3 }

/-- The MOD payload of the marks (Table 2.5). -/
def Mod.bits (m : Mod) : BitVec 10 :=
  (BitVec.ofBool m.relaxed ++ m.scope.bits ++ BitVec.ofBool m.acquire ++ BitVec.ofBool m.release ++
    BitVec.ofBool m.check ++ 0#3)

/-- What a field of a form holds. -/
inductive Field where
  /-- a register number, extended by REG -/
  | reg
  /-- a value that names no register -/
  | plain
  /-- the low bits of the immediate -/
  | imm
  /-- nothing: it must be zero -/
  | zero
  deriving DecidableEq, Repr

/-- The form of an instruction's chain. -/
structure Form where
  d      : Field
  a      : Field
  b      : Field
  masked : Bool := false
  mod    : ModRow := .none
  deriving DecidableEq, Repr

/-- The values of a chain's fields, as its form reads them. -/
structure Fields where
  d    : Reg
  a    : Reg
  b    : Reg
  imm  : Imm
  mask : Reg
  mod  : Mod

/-- A row of the opcode map: the form, and the instruction its fields make, if the values are assigned (R20). -/
structure Row where
  form : Form
  make : Fields → Option Instr

/-- A field's value: 7 bits where it names a register (R24), its own 4 bits otherwise. -/
def fieldValue (k : Field) (x : BitVec 3) (n : BitVec 4) : Reg :=
  match k with
  | .reg => x ++ n
  | _ => n.setWidth 7

/-- Page 0, sub 0 (R33 to R41). -/
def row0s0 (c : Chain) (j : Nat) : Option Row :=
  match j with
  | 0 => some { form := { d := .reg, a := .reg, b := .reg }, make := fun f => some (.add f.d f.a f.b) }
  | 1 => some { form := { d := .reg, a := .reg, b := .reg }, make := fun f => some (.sub f.d f.a f.b) }
  | 2 => some { form := { d := .reg, a := .reg, b := .reg }, make := fun f => some (.and f.d f.a f.b) }
  | 3 => some { form := { d := .reg, a := .reg, b := .reg }, make := fun f => some (.or f.d f.a f.b) }
  | 4 => some { form := { d := .reg, a := .reg, b := .reg }, make := fun f => some (.xor f.d f.a f.b) }
  | 5 => some { form := { d := .reg, a := .reg, b := .reg }, make := fun f => some (.shl f.d f.a f.b) }
  | 6 => some { form := { d := .reg, a := .reg, b := .reg }, make := fun f => some (.slt f.d f.a f.b) }
  | 7 => some { form := { d := .reg, a := .reg, b := .imm }, make := fun f => some (.addi f.d f.a f.imm) }
  | 8 => some { form := { d := .reg, a := .zero, b := .imm }, make := fun f => some (.ldi f.d f.imm) }
  | 9 => some { form := { d := .reg, a := .reg, b := .imm, mod := .load }, make := fun f => some (.ld f.mod f.d f.a f.imm) }
  | 10 => some { form := { d := .reg, a := .reg, b := .imm, mod := .store }, make := fun f => some (.st f.mod f.d f.a f.imm) }
  | 11 => some { form := { d := .plain, a := if c.dN = 6 then .zero else .reg, b := .imm }, make := fun f => (Cond.ofNum f.d).map fun c => .brCc c f.a f.imm }
  | 12 => some { form := { d := .reg, a := .zero, b := .imm }, make := fun f => some (.jal f.d f.imm) }
  | 13 => some { form := { d := .reg, a := .reg, b := .reg }, make := fun f => some (.shr f.d f.a f.b) }
  | 14 => some { form := { d := .reg, a := .reg, b := .reg }, make := fun f => some (.mul f.d f.a f.b) }
  | _ => none

/-- Page 0, sub 1 (R33 to R41). -/
def row0s1 (j : Nat) : Option Row :=
  match j with
  | 0 => some { form := { d := .reg, a := .reg, b := .reg }, make := fun f => some (.sra f.d f.a f.b) }
  | 1 => some { form := { d := .reg, a := .reg, b := .reg }, make := fun f => some (.rot f.d f.a f.b) }
  | 2 => some { form := { d := .reg, a := .reg, b := .reg }, make := fun f => some (.andn f.d f.a f.b) }
  | 3 => some { form := { d := .reg, a := .reg, b := .reg }, make := fun f => some (.mulh f.d f.a f.b) }
  | 4 => some { form := { d := .reg, a := .reg, b := .reg }, make := fun f => some (.mulhZ f.d f.a f.b) }
  | 5 => some { form := { d := .reg, a := .reg, b := .reg }, make := fun f => some (.div f.d f.a f.b) }
  | 6 => some { form := { d := .reg, a := .reg, b := .reg }, make := fun f => some (.divZ f.d f.a f.b) }
  | 7 => some { form := { d := .reg, a := .reg, b := .reg }, make := fun f => some (.rem f.d f.a f.b) }
  | 8 => some { form := { d := .reg, a := .reg, b := .reg }, make := fun f => some (.remZ f.d f.a f.b) }
  | 9 => some { form := { d := .reg, a := .reg, b := .reg }, make := fun f => some (.sltZ f.d f.a f.b) }
  | 10 => some { form := { d := .reg, a := .reg, b := .reg }, make := fun f => some (.seq f.d f.a f.b) }
  | 11 => some { form := { d := .reg, a := .reg, b := .reg }, make := fun f => some (.min f.d f.a f.b) }
  | 12 => some { form := { d := .reg, a := .reg, b := .reg }, make := fun f => some (.max f.d f.a f.b) }
  | 13 => some { form := { d := .reg, a := .reg, b := .reg }, make := fun f => some (.minZ f.d f.a f.b) }
  | 14 => some { form := { d := .reg, a := .reg, b := .reg }, make := fun f => some (.maxZ f.d f.a f.b) }
  | _ => none

/-- Page 0, sub 2 (R33 to R41). -/
def row0s2 (j : Nat) : Option Row :=
  match j with
  | 0 => some { form := { d := .reg, a := .reg, b := .reg }, make := fun f => some (.sel f.d f.a f.b) }
  | 1 => some { form := { d := .reg, a := .reg, b := .zero }, make := fun f => some (.clz f.d f.a) }
  | 2 => some { form := { d := .reg, a := .reg, b := .zero }, make := fun f => some (.ctz f.d f.a) }
  | 3 => some { form := { d := .reg, a := .reg, b := .zero }, make := fun f => some (.popc f.d f.a) }
  | 4 => some { form := { d := .reg, a := .reg, b := .zero }, make := fun f => some (.bswap f.d f.a) }
  | 5 => some { form := { d := .reg, a := .reg, b := .imm }, make := fun f => (narrow 12 f.imm).map fun x => .extr f.d f.a (x.extractLsb' 0 6) (x.extractLsb' 6 6) }
  | 6 => some { form := { d := .reg, a := .reg, b := .imm }, make := fun f => (narrow 12 f.imm).map fun x => .extrZ f.d f.a (x.extractLsb' 0 6) (x.extractLsb' 6 6) }
  | 7 => some { form := { d := .reg, a := .reg, b := .imm }, make := fun f => (narrow 12 f.imm).map fun x => .ins f.d f.a (x.extractLsb' 0 6) (x.extractLsb' 6 6) }
  | 8 => some { form := { d := .reg, a := .reg, b := .imm }, make := fun f => some (.ldh f.d f.a f.imm) }
  | 9 => some { form := { d := .reg, a := .reg, b := .imm }, make := fun f => (narrow 3 f.imm).map fun sp => .psp f.d f.a sp }
  | 10 => some { form := { d := .reg, a := .reg, b := .reg }, make := fun f => some (.padd f.d f.a f.b) }
  | 11 => some { form := { d := .zero, a := .reg, b := .zero }, make := fun f => some (.jr f.a) }
  | 12 => some { form := { d := .reg, a := .reg, b := .zero }, make := fun f => some (.jalr f.d f.a) }
  | _ => none

/-- Page 0, sub 3 (R33 to R41). -/
def row0s3 (j : Nat) : Option Row :=
  match j with
  | 0 => some { form := { d := .reg, a := .reg, b := .imm, mod := .load }, make := fun f => some (.ld8 f.mod f.d f.a f.imm) }
  | 1 => some { form := { d := .reg, a := .reg, b := .imm, mod := .load }, make := fun f => some (.ld8Z f.mod f.d f.a f.imm) }
  | 2 => some { form := { d := .reg, a := .reg, b := .imm, mod := .load }, make := fun f => some (.ld16 f.mod f.d f.a f.imm) }
  | 3 => some { form := { d := .reg, a := .reg, b := .imm, mod := .load }, make := fun f => some (.ld16Z f.mod f.d f.a f.imm) }
  | 4 => some { form := { d := .reg, a := .reg, b := .imm, mod := .load }, make := fun f => some (.ld32 f.mod f.d f.a f.imm) }
  | 5 => some { form := { d := .reg, a := .reg, b := .imm, mod := .load }, make := fun f => some (.ld32Z f.mod f.d f.a f.imm) }
  | 6 => some { form := { d := .reg, a := .reg, b := .imm, mod := .store }, make := fun f => some (.st8 f.mod f.d f.a f.imm) }
  | 7 => some { form := { d := .reg, a := .reg, b := .imm, mod := .store }, make := fun f => some (.st16 f.mod f.d f.a f.imm) }
  | 8 => some { form := { d := .reg, a := .reg, b := .imm, mod := .store }, make := fun f => some (.st32 f.mod f.d f.a f.imm) }
  | 9 => some { form := { d := .reg, a := .reg, b := .imm, mod := .acq }, make := fun f => some (.ldf f.mod f.d f.a f.imm) }
  | 10 => some { form := { d := .reg, a := .reg, b := .imm, mod := .acq }, make := fun f => some (.lde f.mod f.d f.a f.imm) }
  | 11 => some { form := { d := .reg, a := .reg, b := .imm, mod := .rel }, make := fun f => some (.stf f.mod f.d f.a f.imm) }
  | 12 => some { form := { d := .reg, a := .reg, b := .imm, mod := .rel }, make := fun f => some (.sts f.mod f.d f.a f.imm) }
  | 13 => some { form := { d := .zero, a := .reg, b := .imm, mod := .rel }, make := fun f => some (.sete f.mod f.a f.imm) }
  | 14 => some { form := { d := .reg, a := .reg, b := .imm, mod := .acq }, make := fun f => some (.feq f.mod f.d f.a f.imm) }
  | _ => none

/-- Page 1, sub 0 (R33 to R41). -/
def row1s0 (j : Nat) : Option Row :=
  match j with
  | 0 => some { form := { d := .reg, a := .reg, b := .reg }, make := fun f => some (.tnew f.d f.a f.b) }
  | 1 => some { form := { d := .zero, a := .zero, b := .zero }, make := fun _ => some .tend }
  | 2 => some { form := { d := .zero, a := .reg, b := .imm }, make := fun f => some (.sleep f.a f.imm) }
  | 3 => some { form := { d := .zero, a := .zero, b := .zero }, make := fun _ => some .yield }
  | 4 => some { form := { d := .reg, a := .reg, b := .zero }, make := fun f => some (.migrate f.d f.a) }
  | 5 => some { form := { d := .reg, a := .reg, b := .zero }, make := fun f => some (.roam f.d f.a) }
  | 6 => some { form := { d := .reg, a := .zero, b := .imm }, make := fun f => some (.fmtset f.d f.imm) }
  | 7 => some { form := { d := .reg, a := .reg, b := .reg }, make := fun f => some (.barCfg f.d f.a f.b) }
  | 8 => some { form := { d := .reg, a := .zero, b := .zero, mod := .rel }, make := fun f => some (.barArr f.mod f.d) }
  | 9 => some { form := { d := .reg, a := .zero, b := .zero, mod := .acq }, make := fun f => some (.barWait f.mod f.d) }
  | _ => none

/-- Page 1, sub 1 (R33 to R41). -/
def row1s1 (j : Nat) : Option Row :=
  match j with
  | 0 => some { form := { d := .reg, a := .reg, b := .zero }, make := fun f => some (.launch f.d f.a) }
  | 1 => some { form := { d := .reg, a := .reg, b := .zero }, make := fun f => some (.cancel f.d f.a) }
  | 2 => some { form := { d := .reg, a := .reg, b := .reg, mod := .rel }, make := fun f => some (.send f.mod f.d f.a f.b) }
  | 3 => some { form := { d := .plain, a := .reg, b := .reg }, make := fun f => (Dir.ofNum f.d).map fun dir => .nput dir f.a f.b }
  | 4 => some { form := { d := .zero, a := .reg, b := .reg }, make := fun f => some (.amsg f.a f.b) }
  | 5 => some { form := { d := .zero, a := .reg, b := .reg }, make := fun f => some (.cont f.a f.b) }
  | 6 => some { form := { d := .reg, a := .reg, b := .zero }, make := fun f => some (.contid f.d f.a) }
  | 7 => some { form := { d := .reg, a := .reg, b := .zero }, make := fun f => some (.movT f.d f.a) }
  | _ => none

/-- Page 1, sub 2 (R33 to R41). -/
def row1s2 (j : Nat) : Option Row :=
  match j with
  | 0 => some { form := { d := .reg, a := .reg, b := .zero }, make := fun f => some (.spawn f.d f.a) }
  | 1 => some { form := { d := .zero, a := .zero, b := .zero }, make := fun _ => some .blend }
  | 2 => some { form := { d := .zero, a := .zero, b := .zero }, make := fun _ => some .join }
  | 3 => some { form := { d := .reg, a := .reg, b := .reg }, make := fun f => some (.vdecl f.d f.a f.b) }
  | 4 => some { form := { d := .reg, a := .zero, b := .zero }, make := fun f => some (.vdrop f.d) }
  | _ => none

/-- Page 2, sub 0 (R33 to R41). -/
def row2s0 (j : Nat) : Option Row :=
  match j with
  | 0 => some { form := { d := .reg, a := .reg, b := .zero, mod := .acq }, make := fun f => some (.rsv f.mod f.d f.a) }
  | 1 => some { form := { d := .reg, a := .zero, b := .zero, mod := .rel }, make := fun f => some (.rel f.mod f.d) }
  | 2 => some { form := { d := .reg, a := .reg, b := .zero, mod := .acq }, make := fun f => some (.rsvx f.mod f.d f.a) }
  | 3 => some { form := { d := .reg, a := .reg, b := .reg, mod := .both }, make := fun f => some (.aadd f.mod f.d f.a f.b) }
  | 4 => some { form := { d := .reg, a := .reg, b := .reg, mod := .both }, make := fun f => some (.aand f.mod f.d f.a f.b) }
  | 5 => some { form := { d := .reg, a := .reg, b := .reg, mod := .both }, make := fun f => some (.aor f.mod f.d f.a f.b) }
  | 6 => some { form := { d := .reg, a := .reg, b := .reg, mod := .both }, make := fun f => some (.axor f.mod f.d f.a f.b) }
  | 7 => some { form := { d := .reg, a := .reg, b := .reg, mod := .both }, make := fun f => some (.amin f.mod f.d f.a f.b) }
  | 8 => some { form := { d := .reg, a := .reg, b := .reg, mod := .both }, make := fun f => some (.amax f.mod f.d f.a f.b) }
  | 9 => some { form := { d := .reg, a := .reg, b := .reg, mod := .both }, make := fun f => some (.aminZ f.mod f.d f.a f.b) }
  | 10 => some { form := { d := .reg, a := .reg, b := .reg, mod := .both }, make := fun f => some (.amaxZ f.mod f.d f.a f.b) }
  | 11 => some { form := { d := .reg, a := .reg, b := .reg, mod := .both }, make := fun f => some (.axchg f.mod f.d f.a f.b) }
  | 12 => some { form := { d := .reg, a := .reg, b := .reg, mod := .both }, make := fun f => some (.cas f.mod f.d f.a f.b) }
  | 13 => some { form := { d := .reg, a := .reg, b := .reg, mod := .both }, make := fun f => some (.cas2 f.mod f.d f.a f.b) }
  | 14 => some { form := { d := .zero, a := .zero, b := .zero, mod := .both }, make := fun f => some (.fence f.mod) }
  | _ => none

/-- Page 2, sub 1 (R33 to R41). -/
def row2s1 (j : Nat) : Option Row :=
  match j with
  | 0 => some { form := { d := .reg, a := .reg, b := .imm }, make := fun f => (narrow 2 f.imm).map fun mon => .monArm f.d f.a mon }
  | 1 => some { form := { d := .zero, a := .zero, b := .imm }, make := fun f => (narrow 3 f.imm).map fun mon => .monClr mon }
  | 2 => some { form := { d := .reg, a := .reg, b := .zero, mod := .acq }, make := fun f => some (.mwait f.mod f.d f.a) }
  | _ => none

/-- Page 3, sub 0 (R33 to R41). -/
def row3s0 (j : Nat) : Option Row :=
  match j with
  | 0 => some { form := { d := .reg, a := .reg, b := .reg, mod := .rel }, make := fun f => some (.cpy f.mod f.d f.a f.b) }
  | 1 => some { form := { d := .reg, a := .reg, b := .reg, mod := .rel }, make := fun f => some (.tcpy f.mod f.d f.a f.b) }
  | 2 => some { form := { d := .zero, a := .reg, b := .reg, mod := .acq }, make := fun f => some (.waitp f.mod f.a f.b) }
  | 3 => some { form := { d := .zero, a := .reg, b := .imm }, make := fun f => (narrow 5 f.imm).bind fun x => if x.extractLsb' 3 2 = 0 then some (.lcwC (x.setWidth 3) f.a) else if x.extractLsb' 3 2 = 1 then some (.lcwV (x.setWidth 3) f.a) else if x.extractLsb' 3 2 = 2 then some (.lcwM (x.setWidth 3) f.a) else some (.lcwCfg (x.setWidth 3) f.a) }
  | 4 => some { form := { d := .reg, a := .zero, b := .imm }, make := fun f => (narrow 5 f.imm).bind fun x => if x.extractLsb' 3 2 = 0 then some (.lcrC f.d (x.setWidth 3)) else if x.extractLsb' 3 2 = 1 then some (.lcrV f.d (x.setWidth 3)) else if x.extractLsb' 3 2 = 2 then some (.lcrM f.d (x.setWidth 3)) else none }
  | 5 => some { form := { d := .reg, a := .reg, b := .zero }, make := fun f => some (.eqry f.d f.a) }
  | 6 => some { form := { d := .zero, a := .zero, b := .zero }, make := fun _ => some .efence }
  | _ => none

/-- Page 3, sub 1 (R33 to R41). -/
def row3s1 (j : Nat) : Option Row :=
  match j with
  | 0 => some { form := { d := .reg, a := .reg, b := .reg, mod := .rel }, make := fun f => some (.emsgGatherQuery f.mod f.d f.a f.b) }
  | 1 => some { form := { d := .reg, a := .reg, b := .reg, mod := .rel }, make := fun f => some (.gath f.mod f.d f.a f.b) }
  | 2 => some { form := { d := .reg, a := .reg, b := .reg, mod := .rel }, make := fun f => some (.collAllreduce f.mod f.d f.a f.b) }
  | _ => none

/-- Page 3, sub 2 (R33 to R41). -/
def row3s2 (j : Nat) : Option Row :=
  match j with
  | 0 => some { form := { d := .reg, a := .zero, b := .zero }, make := fun f => some (.tbInit f.d) }
  | 1 => some { form := { d := .reg, a := .reg, b := .zero }, make := fun f => some (.tbExp f.d f.a) }
  | 2 => some { form := { d := .reg, a := .reg, b := .zero, mod := .rel }, make := fun f => some (.tbArr f.mod f.d f.a) }
  | 3 => some { form := { d := .reg, a := .reg, b := .zero, mod := .acq }, make := fun f => some (.tbWait f.mod f.d f.a) }
  | 4 => some { form := { d := .reg, a := .reg, b := .zero }, make := fun f => some (.tbPhase f.d f.a) }
  | _ => none

/-- Page 4, sub 0 (R33 to R41). -/
def row4s0 (j : Nat) : Option Row :=
  match j with
  | 0 => some { form := { d := .reg, a := .reg, b := .reg }, make := fun f => some (.vadd f.d f.a f.b) }
  | 1 => some { form := { d := .reg, a := .reg, b := .reg }, make := fun f => some (.vsub f.d f.a f.b) }
  | 2 => some { form := { d := .reg, a := .reg, b := .reg }, make := fun f => some (.vmul f.d f.a f.b) }
  | 3 => some { form := { d := .reg, a := .reg, b := .reg }, make := fun f => some (.vfma f.d f.a f.b) }
  | 4 => some { form := { d := .reg, a := .reg, b := .reg }, make := fun f => some (.vmin f.d f.a f.b) }
  | 5 => some { form := { d := .reg, a := .reg, b := .reg }, make := fun f => some (.vmax f.d f.a f.b) }
  | 6 => some { form := { d := .reg, a := .reg, b := .zero }, make := fun f => some (.vabs f.d f.a) }
  | 7 => some { form := { d := .reg, a := .reg, b := .zero }, make := fun f => some (.vneg f.d f.a) }
  | 8 => some { form := { d := .reg, a := .reg, b := .reg }, make := fun f => some (.vcmpEq f.d f.a f.b) }
  | 9 => some { form := { d := .reg, a := .reg, b := .reg }, make := fun f => some (.vcmpLt f.d f.a f.b) }
  | 10 => some { form := { d := .reg, a := .reg, b := .reg }, make := fun f => some (.vcmpLe f.d f.a f.b) }
  | 11 => some { form := { d := .reg, a := .reg, b := .zero }, make := fun f => some (.vredSum f.d f.a) }
  | 12 => some { form := { d := .reg, a := .reg, b := .zero }, make := fun f => some (.vredMax f.d f.a) }
  | 13 => some { form := { d := .reg, a := .reg, b := .zero }, make := fun f => some (.vredMin f.d f.a) }
  | _ => none

/-- Page 4, sub 1 (R33 to R41). -/
def row4s1 (j : Nat) : Option Row :=
  match j with
  | 0 => some { form := { d := .reg, a := .reg, b := .reg }, make := fun f => some (.vaddBf16 f.d f.a f.b) }
  | 1 => some { form := { d := .reg, a := .reg, b := .reg }, make := fun f => some (.vsubBf16 f.d f.a f.b) }
  | 2 => some { form := { d := .reg, a := .reg, b := .reg }, make := fun f => some (.vmulBf16 f.d f.a f.b) }
  | 3 => some { form := { d := .reg, a := .reg, b := .reg }, make := fun f => some (.vfmaBf16 f.d f.a f.b) }
  | 4 => some { form := { d := .reg, a := .reg, b := .reg }, make := fun f => some (.vminBf16 f.d f.a f.b) }
  | 5 => some { form := { d := .reg, a := .reg, b := .reg }, make := fun f => some (.vmaxBf16 f.d f.a f.b) }
  | 6 => some { form := { d := .reg, a := .reg, b := .zero }, make := fun f => some (.vabsBf16 f.d f.a) }
  | 7 => some { form := { d := .reg, a := .reg, b := .zero }, make := fun f => some (.vnegBf16 f.d f.a) }
  | 8 => some { form := { d := .reg, a := .reg, b := .reg }, make := fun f => some (.vcmpEqBf16 f.d f.a f.b) }
  | 9 => some { form := { d := .reg, a := .reg, b := .reg }, make := fun f => some (.vcmpLtBf16 f.d f.a f.b) }
  | 10 => some { form := { d := .reg, a := .reg, b := .reg }, make := fun f => some (.vcmpLeBf16 f.d f.a f.b) }
  | 11 => some { form := { d := .reg, a := .reg, b := .zero }, make := fun f => some (.vredSumBf16 f.d f.a) }
  | 12 => some { form := { d := .reg, a := .reg, b := .zero }, make := fun f => some (.vredMaxBf16 f.d f.a) }
  | 13 => some { form := { d := .reg, a := .reg, b := .zero }, make := fun f => some (.vredMinBf16 f.d f.a) }
  | _ => none

/-- Page 4, sub 2 (R33 to R41). -/
noncomputable def row4s2 (j : Nat) : Option Row :=
  match j with
  | 0 => some { form := { d := .reg, a := .reg, b := .reg }, make := fun f => some (.viadd f.d f.a f.b) }
  | 1 => some { form := { d := .reg, a := .reg, b := .reg }, make := fun f => some (.visub f.d f.a f.b) }
  | 2 => some { form := { d := .reg, a := .reg, b := .reg }, make := fun f => some (.vimul f.d f.a f.b) }
  | 3 => some { form := { d := .reg, a := .reg, b := .reg }, make := fun f => some (.vshl f.d f.a f.b) }
  | 4 => some { form := { d := .reg, a := .reg, b := .reg }, make := fun f => some (.vshr f.d f.a f.b) }
  | 5 => some { form := { d := .reg, a := .reg, b := .reg }, make := fun f => some (.vand f.d f.a f.b) }
  | 6 => some { form := { d := .reg, a := .reg, b := .reg }, make := fun f => some (.vor f.d f.a f.b) }
  | 7 => some { form := { d := .reg, a := .reg, b := .reg }, make := fun f => some (.vxor f.d f.a f.b) }
  | _ => none

/-- Page 4, sub 3 (R33 to R41). -/
noncomputable def row4s3 (j : Nat) : Option Row :=
  match j with
  | 0 => some { form := { d := .reg, a := .reg, b := .reg }, make := fun f => some (.vmaddm f.d f.a f.b) }
  | 1 => some { form := { d := .reg, a := .reg, b := .reg }, make := fun f => some (.vmsubm f.d f.a f.b) }
  | 2 => some { form := { d := .reg, a := .reg, b := .reg }, make := fun f => some (.vmmulm f.d f.a f.b) }
  | 3 => some { form := { d := .reg, a := .reg, b := .reg }, make := fun f => some (.vbflyCt f.d f.a f.b) }
  | 4 => some { form := { d := .reg, a := .reg, b := .reg }, make := fun f => some (.vbflyGs f.d f.a f.b) }
  | 5 => some { form := { d := .reg, a := .reg, b := .reg }, make := fun f => some (.vtwid f.d f.a f.b) }
  | _ => none

/-- Page 4, sub 4 (R33 to R41). -/
noncomputable def row4s4 (j : Nat) : Option Row :=
  match j with
  | 0 => some { form := { d := .reg, a := .reg, b := .reg }, make := fun f => some (.vsel f.d f.a f.b) }
  | 1 => some { form := { d := .reg, a := .reg, b := .plain }, make := fun f => some (.vcvt f.d f.a (f.b.setWidth 4)) }
  | 2 => some { form := { d := .reg, a := .reg, b := .zero }, make := fun f => some (.vexp2 f.d f.a) }
  | 3 => some { form := { d := .reg, a := .reg, b := .zero }, make := fun f => some (.vrcp f.d f.a) }
  | 4 => some { form := { d := .reg, a := .reg, b := .zero }, make := fun f => some (.vrsq f.d f.a) }
  | 5 => some { form := { d := .reg, a := .reg, b := .reg }, make := fun f => some (.vshuf f.d f.a f.b) }
  | 6 => some { form := { d := .reg, a := .reg, b := .zero }, make := fun f => some (.vbcast f.d f.a) }
  | 7 => some { form := { d := .reg, a := .reg, b := .imm }, make := fun f => (narrow 3 f.imm).map fun i => .vmovx f.d f.a i }
  | 8 => some { form := { d := .reg, a := .reg, b := .imm }, make := fun f => (narrow 3 f.imm).map fun i => .vmovv f.d f.a i }
  | _ => none

/-- Page 4, sub 5 (R33 to R41). -/
noncomputable def row4s5 (j : Nat) : Option Row :=
  match j with
  | 0 => some { form := { d := .reg, a := .reg, b := .imm, mod := .load }, make := fun f => some (.vld f.mod f.d f.a f.imm) }
  | 1 => some { form := { d := .reg, a := .reg, b := .imm, mod := .store }, make := fun f => some (.vst f.mod f.d f.a f.imm) }
  | 2 => some { form := { d := .reg, a := .reg, b := .reg, mod := .load }, make := fun f => some (.vgth f.mod f.d f.a f.b) }
  | 3 => some { form := { d := .reg, a := .reg, b := .reg, mod := .store }, make := fun f => some (.vsct f.mod f.d f.a f.b) }
  | _ => none

/-- Page 4, sub 8 (R33 to R41). -/
noncomputable def row4s8 (j : Nat) : Option Row :=
  match j with
  | 0 => some { form := { d := .reg, a := .reg, b := .reg, masked := true }, make := fun f => some (.vaddM f.mask f.d f.a f.b) }
  | 1 => some { form := { d := .reg, a := .reg, b := .reg, masked := true }, make := fun f => some (.vsubM f.mask f.d f.a f.b) }
  | 2 => some { form := { d := .reg, a := .reg, b := .reg, masked := true }, make := fun f => some (.vmulM f.mask f.d f.a f.b) }
  | 3 => some { form := { d := .reg, a := .reg, b := .reg, masked := true }, make := fun f => some (.vfmaM f.mask f.d f.a f.b) }
  | 4 => some { form := { d := .reg, a := .reg, b := .reg, masked := true }, make := fun f => some (.vminM f.mask f.d f.a f.b) }
  | 5 => some { form := { d := .reg, a := .reg, b := .reg, masked := true }, make := fun f => some (.vmaxM f.mask f.d f.a f.b) }
  | 6 => some { form := { d := .reg, a := .reg, b := .zero, masked := true }, make := fun f => some (.vabsM f.mask f.d f.a) }
  | 7 => some { form := { d := .reg, a := .reg, b := .zero, masked := true }, make := fun f => some (.vnegM f.mask f.d f.a) }
  | 8 => some { form := { d := .reg, a := .reg, b := .reg, masked := true }, make := fun f => some (.vcmpEqM f.mask f.d f.a f.b) }
  | 9 => some { form := { d := .reg, a := .reg, b := .reg, masked := true }, make := fun f => some (.vcmpLtM f.mask f.d f.a f.b) }
  | 10 => some { form := { d := .reg, a := .reg, b := .reg, masked := true }, make := fun f => some (.vcmpLeM f.mask f.d f.a f.b) }
  | 11 => some { form := { d := .reg, a := .reg, b := .zero, masked := true }, make := fun f => some (.vredSumM f.mask f.d f.a) }
  | 12 => some { form := { d := .reg, a := .reg, b := .zero, masked := true }, make := fun f => some (.vredMaxM f.mask f.d f.a) }
  | 13 => some { form := { d := .reg, a := .reg, b := .zero, masked := true }, make := fun f => some (.vredMinM f.mask f.d f.a) }
  | _ => none

/-- Page 4, sub 9 (R33 to R41). -/
noncomputable def row4s9 (j : Nat) : Option Row :=
  match j with
  | 0 => some { form := { d := .reg, a := .reg, b := .reg, masked := true }, make := fun f => some (.vaddBf16M f.mask f.d f.a f.b) }
  | 1 => some { form := { d := .reg, a := .reg, b := .reg, masked := true }, make := fun f => some (.vsubBf16M f.mask f.d f.a f.b) }
  | 2 => some { form := { d := .reg, a := .reg, b := .reg, masked := true }, make := fun f => some (.vmulBf16M f.mask f.d f.a f.b) }
  | 3 => some { form := { d := .reg, a := .reg, b := .reg, masked := true }, make := fun f => some (.vfmaBf16M f.mask f.d f.a f.b) }
  | 4 => some { form := { d := .reg, a := .reg, b := .reg, masked := true }, make := fun f => some (.vminBf16M f.mask f.d f.a f.b) }
  | 5 => some { form := { d := .reg, a := .reg, b := .reg, masked := true }, make := fun f => some (.vmaxBf16M f.mask f.d f.a f.b) }
  | 6 => some { form := { d := .reg, a := .reg, b := .zero, masked := true }, make := fun f => some (.vabsBf16M f.mask f.d f.a) }
  | 7 => some { form := { d := .reg, a := .reg, b := .zero, masked := true }, make := fun f => some (.vnegBf16M f.mask f.d f.a) }
  | 8 => some { form := { d := .reg, a := .reg, b := .reg, masked := true }, make := fun f => some (.vcmpEqBf16M f.mask f.d f.a f.b) }
  | 9 => some { form := { d := .reg, a := .reg, b := .reg, masked := true }, make := fun f => some (.vcmpLtBf16M f.mask f.d f.a f.b) }
  | 10 => some { form := { d := .reg, a := .reg, b := .reg, masked := true }, make := fun f => some (.vcmpLeBf16M f.mask f.d f.a f.b) }
  | 11 => some { form := { d := .reg, a := .reg, b := .zero, masked := true }, make := fun f => some (.vredSumBf16M f.mask f.d f.a) }
  | 12 => some { form := { d := .reg, a := .reg, b := .zero, masked := true }, make := fun f => some (.vredMaxBf16M f.mask f.d f.a) }
  | 13 => some { form := { d := .reg, a := .reg, b := .zero, masked := true }, make := fun f => some (.vredMinBf16M f.mask f.d f.a) }
  | _ => none

/-- Page 4, sub 10 (R33 to R41). -/
noncomputable def row4s10 (j : Nat) : Option Row :=
  match j with
  | 0 => some { form := { d := .reg, a := .reg, b := .reg, masked := true }, make := fun f => some (.viaddM f.mask f.d f.a f.b) }
  | 1 => some { form := { d := .reg, a := .reg, b := .reg, masked := true }, make := fun f => some (.visubM f.mask f.d f.a f.b) }
  | 2 => some { form := { d := .reg, a := .reg, b := .reg, masked := true }, make := fun f => some (.vimulM f.mask f.d f.a f.b) }
  | 3 => some { form := { d := .reg, a := .reg, b := .reg, masked := true }, make := fun f => some (.vshlM f.mask f.d f.a f.b) }
  | 4 => some { form := { d := .reg, a := .reg, b := .reg, masked := true }, make := fun f => some (.vshrM f.mask f.d f.a f.b) }
  | 5 => some { form := { d := .reg, a := .reg, b := .reg, masked := true }, make := fun f => some (.vandM f.mask f.d f.a f.b) }
  | 6 => some { form := { d := .reg, a := .reg, b := .reg, masked := true }, make := fun f => some (.vorM f.mask f.d f.a f.b) }
  | 7 => some { form := { d := .reg, a := .reg, b := .reg, masked := true }, make := fun f => some (.vxorM f.mask f.d f.a f.b) }
  | _ => none

/-- Page 4, sub 11 (R33 to R41). -/
noncomputable def row4s11 (j : Nat) : Option Row :=
  match j with
  | 0 => some { form := { d := .reg, a := .reg, b := .reg, masked := true }, make := fun f => some (.vmaddmM f.mask f.d f.a f.b) }
  | 1 => some { form := { d := .reg, a := .reg, b := .reg, masked := true }, make := fun f => some (.vmsubmM f.mask f.d f.a f.b) }
  | 2 => some { form := { d := .reg, a := .reg, b := .reg, masked := true }, make := fun f => some (.vmmulmM f.mask f.d f.a f.b) }
  | 3 => some { form := { d := .reg, a := .reg, b := .reg, masked := true }, make := fun f => some (.vbflyCtM f.mask f.d f.a f.b) }
  | 4 => some { form := { d := .reg, a := .reg, b := .reg, masked := true }, make := fun f => some (.vbflyGsM f.mask f.d f.a f.b) }
  | 5 => some { form := { d := .reg, a := .reg, b := .reg, masked := true }, make := fun f => some (.vtwidM f.mask f.d f.a f.b) }
  | _ => none

/-- Page 4, sub 12 (R33 to R41). -/
noncomputable def row4s12 (j : Nat) : Option Row :=
  match j with
  | 1 => some { form := { d := .reg, a := .reg, b := .plain, masked := true }, make := fun f => some (.vcvtM f.mask f.d f.a (f.b.setWidth 4)) }
  | 2 => some { form := { d := .reg, a := .reg, b := .zero, masked := true }, make := fun f => some (.vexp2M f.mask f.d f.a) }
  | 3 => some { form := { d := .reg, a := .reg, b := .zero, masked := true }, make := fun f => some (.vrcpM f.mask f.d f.a) }
  | 4 => some { form := { d := .reg, a := .reg, b := .zero, masked := true }, make := fun f => some (.vrsqM f.mask f.d f.a) }
  | 8 => some { form := { d := .reg, a := .reg, b := .zero, masked := true }, make := fun f => some (.vmovvM f.mask f.d f.a) }
  | _ => none

/-- Page 4, sub 13 (R33 to R41). -/
noncomputable def row4s13 (j : Nat) : Option Row :=
  match j with
  | 0 => some { form := { d := .reg, a := .reg, b := .zero, masked := true, mod := .load }, make := fun f => some (.vldM f.mod f.mask f.d f.a) }
  | 1 => some { form := { d := .reg, a := .reg, b := .zero, masked := true, mod := .store }, make := fun f => some (.vstM f.mod f.mask f.d f.a) }
  | 2 => some { form := { d := .reg, a := .reg, b := .reg, masked := true, mod := .load }, make := fun f => some (.vgthM f.mod f.mask f.d f.a f.b) }
  | 3 => some { form := { d := .reg, a := .reg, b := .reg, masked := true, mod := .store }, make := fun f => some (.vsctM f.mod f.mask f.d f.a f.b) }
  | _ => none

/-- Page 5, sub 0 (R33 to R41). -/
noncomputable def row5s0 (j : Nat) : Option Row :=
  match j with
  | 0 => some { form := { d := .zero, a := .reg, b := .imm }, make := fun f => (narrow 3 f.imm).map fun n => .mcfg n f.a }
  | 1 => some { form := { d := .reg, a := .zero, b := .zero }, make := fun f => some (.mzero f.d) }
  | 2 => some { form := { d := .reg, a := .reg, b := .reg, mod := .check }, make := fun f => some (.mma f.mod f.d f.a f.b) }
  | 3 => some { form := { d := .reg, a := .reg, b := .zero, mod := .check }, make := fun f => some (.mmr f.mod f.d f.a) }
  | 4 => some { form := { d := .reg, a := .reg, b := .reg, mod := .check }, make := fun f => some (.mring f.mod f.d f.a f.b) }
  | 5 => some { form := { d := .reg, a := .reg, b := .reg, mod := .check }, make := fun f => some (.mmod f.mod f.d f.a f.b) }
  | 6 => some { form := { d := .reg, a := .reg, b := .reg }, make := fun f => some (.mst f.d f.a f.b) }
  | 7 => some { form := { d := .reg, a := .reg, b := .reg }, make := fun f => some (.mlda f.d f.a f.b) }
  | 8 => some { form := { d := .reg, a := .zero, b := .imm }, make := fun f => (narrow 4 f.imm).map fun code => .mqry f.d code }
  | _ => none

/-- Page 6, sub 0 (R33 to R41). -/
noncomputable def row6s0 (j : Nat) : Option Row :=
  match j with
  | 0 => some { form := { d := .zero, a := .reg, b := .imm }, make := fun f => (narrow 12 f.imm).map fun n => .trap f.a n }
  | 1 => some { form := { d := .zero, a := .zero, b := .zero }, make := fun _ => some .eret }
  | 2 => some { form := { d := .reg, a := .zero, b := .imm }, make := fun f => (SpReg.ofNum f.imm).map fun r => .rds f.d r }
  | 3 => some { form := { d := .zero, a := .reg, b := .imm }, make := fun f => (SpReg.ofNum f.imm).map fun r => .wrs r f.a }
  | 4 => some { form := { d := .reg, a := .reg, b := .reg }, make := fun f => some (.xinvPage f.d f.a f.b) }
  | 5 => some { form := { d := .zero, a := .zero, b := .zero }, make := fun _ => some .iflush }
  | 6 => some { form := { d := .zero, a := .zero, b := .imm }, make := fun f => (narrow 8 f.imm).map fun n => .brk n }
  | _ => none

/-- Page 6, sub 1 (R33 to R41). -/
noncomputable def row6s1 (j : Nat) : Option Row :=
  match j with
  | 0 => some { form := { d := .reg, a := .zero, b := .zero }, make := fun f => some (.seqnew f.d) }
  | 1 => some { form := { d := .reg, a := .reg, b := .reg }, make := fun f => some (.seqmap f.d f.a f.b) }
  | 2 => some { form := { d := .reg, a := .reg, b := .zero }, make := fun f => some (.sequnmap f.d f.a) }
  | 3 => some { form := { d := .reg, a := .reg, b := .zero }, make := fun f => some (.seqend f.d f.a) }
  | 4 => some { form := { d := .reg, a := .reg, b := .zero }, make := fun f => some (.seqq f.d f.a) }
  | _ => none

/-- Page 6, sub 2 (R33 to R41). -/
noncomputable def row6s2 (j : Nat) : Option Row :=
  match j with
  | 0 => some { form := { d := .reg, a := .reg, b := .reg }, make := fun f => some (.fofferOffer f.d f.a f.b) }
  | 1 => some { form := { d := .reg, a := .reg, b := .zero }, make := fun f => some (.faccept f.d f.a) }
  | 2 => some { form := { d := .reg, a := .reg, b := .reg }, make := fun f => some (.flend f.d f.a f.b) }
  | 3 => some { form := { d := .reg, a := .reg, b := .zero }, make := fun f => some (.frecall f.d f.a) }
  | 4 => some { form := { d := .reg, a := .reg, b := .zero }, make := fun f => some (.freturn f.d f.a) }
  | 5 => some { form := { d := .reg, a := .reg, b := .zero }, make := fun f => some (.fquery f.d f.a) }
  | 6 => some { form := { d := .reg, a := .reg, b := .reg }, make := fun f => some (.fstrikeClear f.d f.a f.b) }
  | _ => none

/-- Page 6, sub 3 (R33 to R41). -/
noncomputable def row6s3 (j : Nat) : Option Row :=
  match j with
  | 0 => some { form := { d := .zero, a := .reg, b := .reg }, make := fun f => some (.wakeResume f.a f.b) }
  | 1 => some { form := { d := .reg, a := .reg, b := .reg }, make := fun f => some (.evict f.d f.a f.b) }
  | 2 => some { form := { d := .reg, a := .reg, b := .reg }, make := fun f => some (.restore f.d f.a f.b) }
  | 3 => some { form := { d := .reg, a := .reg, b := .reg }, make := fun f => some (.drain f.d f.a f.b) }
  | 4 => some { form := { d := .reg, a := .reg, b := .reg }, make := fun f => some (.partset f.d f.a f.b) }
  | 5 => some { form := { d := .reg, a := .reg, b := .reg }, make := fun f => some (.ownsetCreate f.d f.a f.b) }
  | _ => none

/-- The opcode map: the row at (page, major, sub), if one is assigned (R33 to R41, R44). -/
noncomputable def lookup (c : Chain) : Option Row :=
  match c.page, c.sub with
  | 0, 0 => row0s0 c c.major
  | 0, 1 => row0s1 c.major
  | 0, 2 => row0s2 c.major
  | 0, 3 => row0s3 c.major
  | 1, 0 => row1s0 c.major
  | 1, 1 => row1s1 c.major
  | 1, 2 => row1s2 c.major
  | 2, 0 => row2s0 c.major
  | 2, 1 => row2s1 c.major
  | 3, 0 => row3s0 c.major
  | 3, 1 => row3s1 c.major
  | 3, 2 => row3s2 c.major
  | 4, 0 => row4s0 c.major
  | 4, 1 => row4s1 c.major
  | 4, 2 => row4s2 c.major
  | 4, 3 => row4s3 c.major
  | 4, 4 => row4s4 c.major
  | 4, 5 => row4s5 c.major
  | 4, 8 => row4s8 c.major
  | 4, 9 => row4s9 c.major
  | 4, 10 => row4s10 c.major
  | 4, 11 => row4s11 c.major
  | 4, 12 => row4s12 c.major
  | 4, 13 => row4s13 c.major
  | 5, 0 => row5s0 c.major
  | 6, 0 => row6s0 c.major
  | 6, 1 => row6s1 c.major
  | 6, 2 => row6s2 c.major
  | 6, 3 => row6s3 c.major
  | _, _ => none

/-- The values of a chain's fields under a form. -/
def Chain.fields (c : Chain) (f : Form) : Fields :=
  { d := fieldValue f.d (c.ext.extractLsb' 7 3) c.dN
    a := fieldValue f.a (c.ext.extractLsb' 4 3) c.aN
    b := fieldValue f.b (c.ext.extractLsb' 1 3) c.bN
    imm := assemble c.chunks c.bN
    mask := (c.chunks.headD 0).setWidth 7
    mod := Mod.ofBits c.bits }

/-- The lowest position among those whose condition holds. -/
def lowest : List (Bool × Nat) → Option Nat
  | [] => none
  | (x, p) :: rest =>
    match lowest rest with
    | none => if x then some p else none
    | some q => if x then some (min p q) else some q

/-- Reason 0x05: a prefix that the form does not take, or a masked form without exactly one IMM (R23, R24, R39); the check
bit on page 2, to which R151 gives this reason, the smaller of the two that apply (R30; DEDUCED, log 95). -/
def Chain.prefixNotTaken (c : Chain) (f : Form) : Option Nat :=
  lowest
    [ (!f.masked && f.b != .imm && c.chunks != [], c.immPos.headD 0),
      (f.masked && c.chunks == [], c.len),
      (f.masked && decide (2 ≤ c.chunks.length), (c.immPos.drop 1).headD 0),
      (f.mod == .none && c.modPos.isSome || c.page == 2 && (Mod.ofBits c.bits).check, c.modPos.getD 0),
      ((f.d != .reg && c.ext.extractLsb' 7 3 != 0) || (f.a != .reg && c.ext.extractLsb' 4 3 != 0) ||
        (f.b != .reg && c.ext.extractLsb' 1 3 != 0), c.regPos.getD 0) ]

/-- Reason 0x06: a MOD bit that the row does not accept, or a combination that R46 forbids. -/
def Chain.modNotAccepted (c : Chain) (f : Form) : Option Nat :=
  let m := Mod.ofBits c.bits
  if f.mod.accepts m && m.combines then none else some (c.modPos.getD 0)

/-- Reason 0x07: a reserved bit, an unused field, or a field value that is not assigned (R20, R24, R30, R39, R46). -/
def Chain.badValue (c : Chain) (r : Row) : Option Nat :=
  lowest
    [ (c.ext.getLsbD 0, c.regPos.getD 0),
      (c.bits.extractLsb' 0 3 != 0 || decide (5 ≤ (c.bits.extractLsb' 6 3).toNat), c.modPos.getD 0),
      (r.form.masked && (c.chunks.headD 0).extractLsb' 7 3 != 0, c.immPos.headD 0),
      ((r.form.d == .zero && c.dN != 0) || (r.form.a == .zero && c.aN != 0) || (r.form.b == .zero && c.bN != 0), c.len),
      (match r.make (c.fields r.form) with | none => true | some i => !i.fieldsOk, c.len) ]

/-- Decodes a whole chain: the smallest reason that applies, at its lowest position, or the instruction (R30). -/
noncomputable def Chain.decode (c : Chain) : Decoded :=
  match c.badPage with
  | some p => .reject { reason := 1, pos := p }
  | none =>
    match lookup c with
    | none => .reject { reason := 2, pos := c.len }
    | some r =>
      match c.repeated with
      | some p => .reject { reason := 4, pos := p }
      | none =>
        match c.prefixNotTaken r.form with
        | some p => .reject { reason := 5, pos := p }
        | none =>
          match c.modNotAccepted r.form with
          | some p => .reject { reason := 6, pos := p }
          | none =>
            match c.badValue r with
            | some p => .reject { reason := 7, pos := p }
            | none =>
              match r.make (c.fields r.form) with
              | some i => .instr i (c.len + 1)
              | none => .reject { reason := 7, pos := c.len }

/-- Decodes from the first of some words (R27). A fifth word that is still a prefix is reason 0x03; a page of 7 or
more in such a chain has the smaller code 0x01 (R30). -/
noncomputable def decode (ws : List Half) : Decoded :=
  match scan {} ws with
  | .short => .short
  | .tooLong c =>
    match c.badPage with
    | some p => .reject { reason := 1, pos := p }
    | none => .reject { reason := 3, pos := 4 }
  | .whole c => c.decode

/-- The 16-bit words that bytes hold, little-endian (R18). -/
def halves : List Byte → List Half
  | lo :: hi :: rest => (hi ++ lo) :: halves rest
  | _ => []

/-- Decodes from the first of some bytes, total on any bytes. -/
noncomputable def decodeBytes (bs : List Byte) : Decoded := decode (halves bs)

/-! ### The encoder -/

/-- The REG prefix of register numbers (Table 2.4). -/
def regWord (d a b : Reg) : Half :=
  0b111101#6 ++ d.extractLsb' 4 3 ++ a.extractLsb' 4 3 ++ b.extractLsb' 4 3 ++ 0#1

/-- The PAGE prefix (R25). -/
def pageWord (page sub : Nat) : Half := 0b111110#6 ++ BitVec.ofNat 6 page ++ BitVec.ofNat 4 sub

/-- An IMM prefix (R23). -/
def immWord (chunk : BitVec 10) : Half := 0b111100#6 ++ chunk

/-- The MOD prefix (R26). -/
def modWord (m : Mod) : Half := 0b111111#6 ++ m.bits

/-- The IMM chunks of a value in `n` prefixes, most significant first (R23). -/
def chunksOf (v : Imm) : Nat → List (BitVec 10)
  | 0 => []
  | n + 1 => v.extractLsb' (4 + 10 * n) 10 :: chunksOf v n

/-- The IMM chunks of a chain. -/
def Parts.chunks (p : Parts) : List (BitVec 10) :=
  match p.mask, p.imm with
  | some k, _ => [k.setWidth 10]
  | none, some v => chunksOf v (immCount v)
  | none, none => []

/-- The base word of a chain (R18). -/
def Parts.baseWord (p : Parts) : Half :=
  BitVec.ofNat 4 p.major ++ p.d.extractLsb' 0 4 ++ p.a.extractLsb' 0 4 ++
    (match p.imm with | some v => v.extractLsb' 0 4 | none => p.b.extractLsb' 0 4)

/-- The words of a chain, in the order PAGE, REG, MOD, IMM, base (R32). -/
def Parts.words (p : Parts) : List Half :=
  (if p.page = 0 ∧ p.sub = 0 then [] else [pageWord p.page p.sub]) ++
  (if p.wide then [regWord p.d p.a p.b] else []) ++
  (if p.mod = {} then [] else [modWord p.mod]) ++
  p.chunks.map immWord ++ [p.baseWord]

/-- The words of an instruction, the shortest chain that encodes it; none for a step of the machine. -/
def encode (i : Instr) : List Half :=
  match i.parts with
  | none => []
  | some p => p.words

/-- The instruction that a decoder can know: rows that share one word, and differ only in what a register holds when
it issues, decode to the first of them (log 8). -/
noncomputable def Instr.canon : Instr → Instr
  | .emsgCollectiveQuery m d a b => .emsgGatherQuery m d a b
  | .emsgAbort m d a b => .emsgGatherQuery m d a b
  | .collBroadcast m d a b => .collAllreduce m d a b
  | .collAllgather m d a b => .collAllreduce m d a b
  | .xinvAsid d a b => .xinvPage d a b
  | .xinvRlb d a b => .xinvPage d a b
  | .xinvFrame d a b => .xinvPage d a b
  | .fofferRelease d a b => .fofferOffer d a b
  | .fofferWithdraw d a b => .fofferOffer d a b
  | .fstrikeSetLimit d a b => .fstrikeClear d a b
  | .wakeTrap a b => .wakeResume a b
  | .drainResume d a b => .drain d a b
  | .ownsetDestroy d a b => .ownsetCreate d a b
  | .ownsetAssign d a b => .ownsetCreate d a b
  | .ownsetBindkey d a b => .ownsetCreate d a b
  | .ownsetUnbindkey d a b => .ownsetCreate d a b
  | .ownsetBindasid d a b => .ownsetCreate d a b
  | .ownsetUnbindasid d a b => .ownsetCreate d a b
  | .ownsetSetring d a b => .ownsetCreate d a b
  | .ownsetSetinbox d a b => .ownsetCreate d a b
  | i => i

/-- The 16-bit words of a chain whose bits are numbered, in memory order. The table numbers the first word of a chain as
the most significant (log 9). The last word of a chain is no prefix, and the others are: bits whose least significant word
is a prefix are numbered from the first word on. -/
def tableWords (nbits w : Nat) : List Half :=
  let n := (nbits + 15) / 16
  let ws : List Half := (List.range n).map fun k => BitVec.ofNat 16 (w >>> (16 * (n - 1 - k)))
  if ws.getLast?.any isPrefix then ws.reverse else ws

/-- The instruction the decoder reads from the bits of a row of the table, numbered as the table numbers them (log 9). -/
noncomputable def decodeTableWord (nbits w : Nat) : Option Instr :=
  match decode (tableWords nbits w) with
  | .instr i _ => some i
  | _ => none

end Sys2Proof
end

