-- ==== Sys2Proof/Config.lean ====
section
/-! DEFINITION. What one Xothar fixes and the manual leaves open: free values and functions the manual names but
does not define. None of them has a body, so that nothing can be proved of a particular value (log 5, log 6, log 7). -/

namespace Sys2Proof

/-- DESIGN CHOICE (log 5): a fresh word for each value of the model's counter `State.free`: what a device behind the
PCIe endpoint or another package returns to a load (R352, R358). -/
opaque Config.freeWord : Nat → Word

/-- DESIGN CHOICE (log 5): a fresh choice for each value of the counter: whether a decode of a stale buffered word
sees the word before or after the store (R29). -/
opaque Config.freeBit : Nat → Bool

/-- DESIGN CHOICE (log 5): a fresh number for each value of the counter: the victim of a steal probe, "chosen
uniformly at random" (R274). -/
opaque Config.freeNat : Nat → Nat

/-- DESIGN CHOICE (log 5): a fresh choice for each value of the counter: the stage of Table 20.6, counted from 0, that
fails as power comes up, if one does (R365). -/
opaque Config.failedStage : Nat → Option (Fin 7)

/-- DESIGN CHOICE (log 5): a fresh choice for each value of the counter: the CXL ports, and the Exrin Link ports, that fail
training as power comes up and are left down (R357, R358, R365). -/
opaque Config.downPorts : Nat → List Nat × List Nat

/-- DESIGN CHOICE (log 6): the 128-bit key of the n-th draw from the generator (R316). -/
opaque Config.drawnKey : Nat → BitVec 128

/-- DESIGN CHOICE (log 6): what a word enciphered under the key of draw `stored` deciphers to under the key of
draw `used`, for a tweak and a plaintext (R306, R307): the cipher is not defined by the manual. -/
opaque Config.foreignWord : (stored used : BitVec 128) → (tweak plain : Word) → Word

/-- DESIGN CHOICE (log 7): the export master secret of the n-th secured session (R361). -/
opaque Config.exportSecret : Nat → BitVec 512

/-- DESIGN CHOICE (log 7): the Ed448 signature of a string under this package's signing key (R363). -/
opaque Config.signature : List Byte → BitVec 912

/-- DESIGN CHOICE (log 7): the digest of the image, the firmware or the kernel image that Table 20.4 gives an index from 1 to 4,
where the signed configuration image of the model lists none. -/
opaque Config.imageDigest : Nat → BitVec 512

/-- DESIGN CHOICE (log 7): the device key that is derived from the identity of the signed configuration image, here the image's
digest, and the certificate chain that ends in a device key (R361). -/
opaque Config.deviceKey : BitVec 512 → BitVec 456
opaque Config.certificates : BitVec 456 → List Byte

/-- DESIGN CHOICE (log 7): the standards-body and the vendor identifier that the leaf certificate names in its subject (R362). -/
opaque Config.standardsBody : BitVec 16
opaque Config.vendorName : List Byte

/-- DESIGN CHOICE (log 7): what SPDM draws afresh for each value of the counter: a nonce, a secp384r1 key for a key exchange, and the
transcript that a response signs (R361). -/
opaque Config.nonce : Nat → BitVec 256
opaque Config.exchangeKey : Nat → BitVec 768
opaque Config.transcript : Nat → List Byte

end Sys2Proof
end

