-- ==== Sys2Proof/Machine/Maps.lean ====
section
/-! DEFINITION. Sparse tables: lists of number and value pairs, sorted by number without repeats. -/

namespace Sys2Proof.Machine

/-- A sparse table from numbers to values. -/
abbrev Map (α : Type) := List (Nat × α)

variable {α β : Type}

/-- The value at a number, if there is one. -/
def Map.find : Map α → Nat → Option α
  | [], _ => none
  | (k, v) :: rest, n => if k = n then some v else Map.find rest n

/-- Whether a number has a value. -/
def Map.has (m : Map α) (n : Nat) : Bool := (m.find n).isSome

/-- Sets the value at a number. -/
def Map.put : Map α → Nat → α → Map α
  | [], n, v => [(n, v)]
  | (k, w) :: rest, n, v =>
    if n < k then (n, v) :: (k, w) :: rest
    else if n = k then (n, v) :: rest
    else (k, w) :: Map.put rest n v

/-- Removes a number. -/
def Map.drop : Map α → Nat → Map α
  | [], _ => []
  | (k, w) :: rest, n => if k = n then rest else (k, w) :: Map.drop rest n

/-- Removes the numbers in a range that starts at `lo` and holds `n` of them. -/
def Map.dropRange (m : Map α) (lo n : Nat) : Map α := m.filter fun e => !(decide (lo ≤ e.1) && decide (e.1 < lo + n))

/-- Changes the value at a number, if there is one. -/
def Map.adjust (m : Map α) (n : Nat) (f : α → α) : Map α :=
  m.map fun e => if e.1 = n then (e.1, f e.2) else e

/-- Changes every value. -/
def Map.mapVals (m : Map α) (f : α → β) : Map β := m.map fun e => (e.1, f e.2)

/-- The lowest number of a range `lo, lo+1, …` of `n` numbers that a test accepts. -/
def firstFrom (p : Nat → Bool) : Nat → Nat → Option Nat
  | _, 0 => none
  | lo, n + 1 => if p lo then some lo else firstFrom p (lo + 1) n

/-- Whether no number appears twice and the numbers rise. -/
def Map.sorted : Map α → Bool
  | [] => true
  | [_] => true
  | (k, _) :: (k', v') :: rest => decide (k < k') && Map.sorted ((k', v') :: rest)

/-- The numbers a list of numbers holds, without the one given. -/
def without (n : Nat) (l : List Nat) : List Nat := l.filter (fun x => !(x == n))

/-- The sum of a list's numbers. -/
def total (l : List Nat) : Nat := l.foldl (· + ·) 0

end Sys2Proof.Machine
end

