-- ==== Sys2Proof/Machine/State.lean ====
section
/-! DEFINITION. The state of the Xothar: plain data, holding every piece of state the manual gives the machine, the
machine's pending steps (the agenda), and the state right after reset (sys.ready). -/

namespace Sys2Proof.Machine

/-- Why the model stops. -/
inductive Fault where
  /-- Raised by the meaning of an instruction of pages 0 to 6 when no slot has been selected to issue it: only
  ISSUE_ROTATION selects one, so no run meets it. Safe: nothing is claimed of such a state. -/
  | noIssue
  deriving DecidableEq, Repr

/-- Why the model has no meaning. -/
inductive Refusal where
  /-- An arm of `exec` that has no meaning yet. Safe. -/
  | notModelled (mnemonic : String)
  deriving DecidableEq, Repr

/-! ### Memory -/

/-- What a word holds beside its data: the full/empty bit (R102), the error it carries (R101: 0 none, 1 single-bit,
2 uncorrectable) and the key it was enciphered under (R306), by the serial number of its draw; `none`: written by
bring-up and zero under every key (log 6). -/
structure WordAttr where
  empty : Bool := false
  error : Nat := 0
  key   : Option Nat := none
  deriving DecidableEq, Repr

/-- The memory of vaults, HBM4E and the CXL tier. `bytes` lists the plaintext bytes by physical address (vault words
above 2^57, see `vaultAddr`), addresses rising, no byte zero; an unlisted byte is zero, as bring-up leaves it (R365).
`attrs` lists, by word number, the words whose attributes are not those bring-up leaves. -/
structure Memory where
  bytes : List Host.Cell := []
  attrs : Map WordAttr := []
  deriving DecidableEq, Repr

/-! ### Requests to memory and to the I/O die -/

/-- The one-instruction atomics of Table 7.3, CAS2 apart. -/
inductive AtomOp where
  | aadd | aand | aor | axor | amin | amax | aminZ | amaxZ | axchg | acas
  deriving DecidableEq, Repr

/-- The element operators of Table 15.5. -/
inductive ViewOp where
  | fadd | iadd | modadd | vmin | vmax | vand | vor | vxor
  deriving DecidableEq, Repr

/-- A view slot's element type, operator, rounding mode and modulus (R277). -/
structure Merge where
  elem : Nat
  op   : ViewOp
  rm   : Nat
  q    : Word
  deriving DecidableEq, Repr

/-- What a request asks of the place that serves it. -/
inductive MemOp where
  /-- an ordinary load of `width` bytes (R95) -/
  | load (width : Nat) (signed : Bool)
  /-- an ordinary store of a whole word (R95) -/
  | store (v : Word)
  /-- a sub-word store (R98); `full`: it also sets the word full (R159) -/
  | sub (width : Nat) (v : Word) (full : Bool)
  | ldf | lde | stf (v : Word) | sts (v : Word) | sete | feq
  /-- a one-instruction atomic on a word (R142) -/
  | atom (op : AtomOp) (e x : Word)
  /-- CAS2 (R142) -/
  | cas2 (e0 e1 x0 x1 : Word)
  /-- RSV, or RSVX for a pair (R136) -/
  | rsv (pair : Bool)
  /-- the write-back that ends a section (R136) -/
  | rel (pair : Bool) (v0 v1 : Word)
  /-- the return of an abandoned section's word (R140) -/
  | giveBack (pair : Bool) (v0 v1 : Word)
  /-- arming a monitor (R145) -/
  | arm (mon : Nat)
  /-- a read of `n` consecutive words: a packet, a block, a list, a line -/
  | block (n : Nat)
  /-- a write of consecutive words, setting them full where `full` -/
  | write (ws : List Word) (full : Bool)
  /-- a write-back of the dirty words of a large-core line: offset in words and value (R120) -/
  | dirty (ws : List (Nat × Word))
  /-- WAITP's look at the full/empty bit (R168) -/
  | probe
  /-- the fault unit's and the notice writers' wait for an empty word (R188, R340) -/
  | waitEmpty
  /-- one word of a view merge under a hold (R282) -/
  | merge (m : Merge) (v : Word)
  /-- the walker's hold of a leaf before the first write to a clean page: the entry for the dirty log (R304) -/
  | leaf (entry : Word)
  /-- CANCEL's atomic or of the cancel flag (R285) -/
  | cancel
  /-- the place in a held word's queue of a unit that reads or writes the word in one step of its own, which is run when its
  turn has come: the word is the unit's for that step (R133) -/
  | turn
  /-- a request that a unit of the I/O die, the security core or the fabric performs: the instruction's own operands
  are in the request -/
  | unit
  deriving DecidableEq, Repr

/-- What becomes of a request's answer. -/
inductive Use where
  /-- W[d] receives it, and the thread goes on at the next instruction -/
  | reg (d : Nat)
  /-- nothing is written, and the thread goes on at the next instruction -/
  | done
  /-- W[d] receives the answer of a relaxed load, or nothing does (R99) -/
  | relaxed (d : Option Nat)
  /-- the instruction that asked goes on with the words read -/
  | stage (n : Nat)
  /-- a word of a copy or gather command: part number, and whether it is the write -/
  | copy (cmd part : Nat) (write : Bool)
  /-- words of a gather's list, from an entry on -/
  | list (cmd i : Nat)
  /-- a lane of a vector command -/
  | lane (cmd part : Nat)
  /-- a word of a tile that MST or MLDA moves -/
  | part (id i : Nat)
  /-- a piece of a matrix command's operands -/
  | matrix (cmd i : Nat)
  /-- a word of a merge: its slot's number, its place in the slot, its turn, and whether it is the hold of the target -/
  | merge (num i turn : Nat) (hold : Bool)
  /-- a fault record or a notice -/
  | record (who : Nat)
  /-- a line of the instruction buffer -/
  | fetch
  /-- a line of the large cores' caches, for the access `r` -/
  | line (r : Nat)
  /-- the hold of a leaf, for the write `r` -/
  | leaf (r : Nat)
  /-- a write-back that nobody awaits -/
  | none
  deriving DecidableEq, Repr

/-- Where a request stands. -/
inductive Stage where
  /-- `last`: the write of a copy's last destination word waits for the acknowledgements of the others (R123) -/
  | translating | logging | keying | last | sent | queued | waiting | held | refused | served | stalled
  deriving DecidableEq, Repr

/-- How a request was translated: not at all, through a page of an address space (its base and size), or through a
sequence. -/
inductive Route where
  | plain
  | page (asid base : Nat) (size : Nat := 65536)
  | seq (id page : Nat)
  deriving DecidableEq, Repr

/-- A request in flight. -/
structure Req where
  /-- the thread that asked, if a thread did -/
  tid    : Option Tid := none
  core   : Nat := 0
  ctx    : Nat := 0
  part   : Nat := 0
  asid   : Nat := 0
  op     : MemOp
  use    : Use := .none
  /-- the instruction that asked, if one did -/
  instr  : Option Instr := none
  /-- operands the instruction captured -/
  args   : List Word := []
  ptr    : Word := 0
  pa     : Nat := 0
  key    : Nat := 0
  atom   : Nat := 0
  lat    : Nat := 0
  route  : Route := .plain
  stage  : Stage := .sent
  /-- the address of the instruction, and of the one after it -/
  epc    : Word := 0
  npc    : Word := 0
  acq    : Option Scope := none
  /-- what the issue asked of the alignment and the restart index: the index from which it runs (R192) -/
  index  : Nat := 0
  /-- the view whose word the access is redirected to (R281) -/
  view   : Option Merge := none
  /-- the words of the answer -/
  ans    : List Word := []
  /-- the event met, with its information -/
  event  : Option (Nat × Word) := none
  /-- set when the thread that asked no longer awaits it -/
  orphan : Bool := false
  /-- the cycle before which it is not sent (R155) -/
  since  : Nat := 0
  /-- the read with which a combining node has merged it (R175) -/
  lead   : Option Nat := none
  /-- the cores that wrote the dirty words that a write-back carries (R115, R120) -/
  owners : List Nat := []
  /-- requests that have to be performed before it is sent: the write-backs of its line (R121) -/
  after  : List Nat := []
  /-- the cycle in which its bank's port takes it, once it has reached a busy port (R105) -/
  portAt : Option Nat := none
  /-- it comes from the cluster's gather engine, over the mesh (R105) -/
  mesh   : Bool := false
  /-- it waits, before its translation, for a hold on a word of the view that it would allocate (R133, R280) -/
  placing : Bool := false
  deriving DecidableEq, Repr

/-! ### Threads -/

/-- Park reasons (Table 3.4). -/
inductive Park where
  | mem | empty | engine | queue | sleep | mwait | barrier | presence | launch | fault
  deriving DecidableEq, Repr

/-- What ends a park. -/
inductive Wait where
  /-- the instruction has issued, and goes on when what it waits for may have come -/
  | retry
  /-- a scalar or vector register that the next instruction names is to be written: the instruction issues then -/
  | pending (w v : List Nat)
  /-- the answer to a request -/
  | reply (r : Nat)
  /-- SLEEP's wake time, CONT or WAKE (R63); the next instruction -/
  | sleep (npc : Word)
  /-- a monitor, a time or a wake (R148): destination, issue time plus timeout, acquire, whether a wake has come -/
  | mwait (d : Nat) (limit : Option Nat) (npc : Word) (acq : Option Scope) (woken : Bool)
  /-- a time, after which WAITP checks its word (R168) -/
  | promise (p npc : Word) (acq : Option Scope)
  /-- IFLUSH's 16 cyc (R108) -/
  | flush (npc : Word)
  /-- a presence bit (R74): destination and source -/
  | presence (d a : Nat) (npc : Word)
  /-- a place in the link (R75) -/
  | link (msg : Nat) (npc : Word)
  /-- a lead of a team barrier below 3 (R70) -/
  | arrive (bar : Nat) (npc : Word)
  /-- the phase of a team barrier (R70) -/
  | phase (bar ph : Nat) (npc : Word)
  /-- the phase bit of a transaction barrier (R173) -/
  | tbar (n : Nat) (q : Bool) (npc : Word)
  /-- an entry of an engine's queue, in the order of parking (R155) -/
  | queue (engine : Nat)
  /-- a matrix command (R228) -/
  | matrix (cmd : Nat)
  /-- the words of a tile (R242, R243) -/
  | moving
  /-- the words of a view (R283) -/
  | merging
  /-- the merges of a frame (R276) -/
  | join (frame : Nat) (npc : Word)
  /-- the relaxed accesses of a cancelled thread, which then ends (R195) -/
  | ending
  /-- a held store that a WAKE has sent again, which is performed before its reporter resumes (R99) -/
  | held (r : Nat) (resume : Word)
  /-- a wake from the kernel (R189): the record's resume point, code, info, instruction and restart index -/
  | fault (resume : Word) (code : Nat) (info epc vx : Word) (held : Option Nat)
  deriving DecidableEq, Repr

/-- The state of a thread in its slot (Table 3.4). -/
inductive Status where
  | starting
  | ready
  | parked (why : Park) (till : Wait)
  deriving DecidableEq, Repr

/-- An open reservation section (R136 to R140). -/
structure Sect where
  ptr    : Word
  pa     : Nat
  pair   : Bool
  key    : Nat
  v0     : Word
  v1     : Word
  issued : Nat
  pc     : Word
  lat    : Nat
  route  : Route := .plain
  deriving DecidableEq, Repr

/-- An armed monitor (R145): the pointer it was armed through, its physical line, how it was translated, its fired
bit, and the key of its translation. -/
structure Mon where
  ptr   : Word
  line  : Nat
  route : Route
  fired : Bool
  key   : Nat := 0
  deriving DecidableEq, Repr

/-- Who deferred an event. -/
inductive Origin where
  | relaxed | copy | gather | vector
  deriving DecidableEq, Repr

/-- A deferred event (R99, R167, R194): what it is, the instruction that met it, its restart index or count, and for
a relaxed access its word, its register and the held request. -/
structure Deferred where
  origin : Origin
  code   : Nat
  info   : Word
  epc    : Word
  vx     : Word
  word   : Nat := 0
  reg    : Option Nat := none
  held   : Option Nat := none
  /-- a WAKE of action 1 has made a kernel's event of a stalled command a thread trap (R189) -/
  trap   : Bool := false
  /-- the serial number of what met it: deferred events are reported in the order of issue (R196) -/
  issue  : Nat := 0
  /-- a lane of a vector command waits for its word: the next instruction reports it (R99, R263) -/
  due    : Bool := false
  deriving DecidableEq, Repr

/-- What a thread's region gives it (R265, R266): the chain of block addresses from the thread's own block to the root
with each block's budgets and fault domain, and the resolved values. -/
structure Region where
  chain   : List Word := []
  /-- per block of the chain: nslots, ncores, pool budget, resolved fault domain -/
  budgets : List (Nat × Nat × Nat × Nat) := []
  /-- per block of the chain: its physical address and its key -/
  places  : List (Nat × Nat) := []
  asid    : Nat := 0
  cls     : Nat := 0
  fdom    : Nat := 0
  cores   : Word := 0
  weight  : Nat := 1
  pool    : Word := 0
  size    : Nat := 0
  deriving DecidableEq, Repr

/-- An MST or MLDA under way (R242, R243): what it moves, the words that have still to be sent (pointer, bytes, value and
row), those sent and not answered, the values read, and the first word that met an event. -/
structure Moving where
  id    : Nat
  npc   : Word
  load  : Bool
  tile  : Nat
  base  : Word
  ctl   : Word
  sat   : Bool
  start : Nat
  todo  : List (Word × Nat × Word × Nat)
  sent  : Nat := 0
  left  : List Nat := []
  got   : Map Word := []
  met   : Option (Nat × Nat × Word) := none
  deriving DecidableEq, Repr

/-- A translation buffer entry (R302). -/
structure TEntry where
  /-- an address space and a page base, or a sequence and a page -/
  route : Route
  /-- the size of the page in bytes -/
  size  : Nat
  /-- the physical address of the page -/
  pa    : Nat
  tier  : Nat
  kid   : Nat
  r     : Bool
  w     : Bool
  x     : Bool
  clean : Bool
  atom  : Nat
  /-- physical address of the leaf, for the dirty log -/
  leaf  : Nat
  deriving DecidableEq, Repr

/-- What stands in a core's engines as an instruction issues: the loop registers of the copy engine, the vector engine and the
matrix engine, the resident configurations, and the core's translation buffer. An instruction that has issued and waits uses them as
they stood (R156, R157, R229, R230). -/
structure Resident where
  copyLc  : Map Word := []
  copyCfg : Map (List Word) := []
  vecLc   : Map Word := []
  matLc   : Map Word := []
  matCfg  : Map (List Word) := []
  matMu   : Map Nat := []
  tlb     : List TEntry := []
  deriving DecidableEq, Repr

/-- A thread: its pc, its special registers and everything it waits for. -/
structure Thread where
  pc       : Word := 0
  win      : Word := 0
  vec      : Word := 0
  epc      : Word := 0
  cause    : Word := 0
  info     : Word := 0
  lvl      : Bool := false
  vx       : Word := 0
  fmt      : Word := 0
  sa       : Word := 0
  sb       : Word := 0
  band     : Word := 0
  rcb      : Word := 0
  asid     : BitVec 12 := 0
  part     : Nat := 0
  region   : Region := {}
  roaming  : Bool := false
  /-- the restart index that ERET or RESTORE left pending (R183, R191) -/
  restart  : Option (BitVec 40) := none
  sect     : Option Sect := none
  mons     : Map Mon := []
  /-- the tile that an MST or MLDA of it moves -/
  moving   : Option Moving := none
  /-- relaxed accesses outstanding, in issue order: the request, its instruction count (R99) -/
  relaxed  : List Nat := []
  /-- relaxed accesses of the thread completed (R99) -/
  passed   : Nat := 0
  deferred : List Deferred := []
  /-- the last team-barrier arrival: barrier and phase (R70) -/
  lastArr  : Option (Nat × Nat) := none
  status   : Status := .starting
  /-- the cycle in which a starting or returning thread becomes ready (R57) -/
  readyAt  : Nat := 0
  /-- the 32 cyc that a return through a bank in retention takes have begun (R57) -/
  cold     : Bool := false
  /-- of the instruction that has issued, for it may wait and go on (a park that `.retry` ends): its words, the thread's
  scalar registers and what the core's engines held, as they stood at its issue -/
  chain    : List Half := []
  kept     : Map Word := []
  resident : Resident := {}
  /-- the cycle from which it may issue (R60) -/
  next     : Nat := 0
  /-- the cycle in which it left the rotation (R56) -/
  outSince : Option Nat := some 0
  /-- YIELD (R64): the slots that have still to issue, 64 more for one whose thread has left without an issue, and the cycle that
  ends the wait -/
  yield    : Option (List Nat × Nat) := none
  /-- the wake time of a SLEEP, WAITP or MWAIT, or of the SLEEP that a restored thread goes on with (R191) -/
  wakeAt   : Option Nat := none
  /-- the strand it runs in: frame and number; none: the task has no frame (R199) -/
  strand   : Option (Nat × Nat) := none
  /-- frames of this task, innermost first (R279) -/
  frames   : List Nat := []
  /-- it runs a task that SPAWN began, which BLEND ends (R272, R275) -/
  child    : Bool := false
  /-- set between the end of a strand and the end of its merges (R284) -/
  ended    : Bool := false
  deriving DecidableEq, Repr

/-- A slot of a core (R49, R58): its generation, its thread and its eviction entry (R190). -/
structure Slot where
  gen     : Nat := 0
  thread  : Option Thread := none
  /-- the identifier of the thread evicted last, and its partition; and its address space (R189) -/
  evicted : Option (Word × Nat) := none
  evictedAsid : Nat := 0
  deriving DecidableEq, Repr

/-- A message on the fabric (R76). -/
inductive Msg where
  /-- a write of a register: the identifier, the register, the value, the sender's context, and whether it ends a
  sleep -/
  | word (dest : Word) (reg : Nat) (v : Word) (ctx : Nat) (cont : Bool)
  /-- NPUT on a link (R75) -/
  | nput (frm core slot reg : Nat) (v : Word)
  /-- AMSG: the core, the message's words, the sender's identifier, what the new thread takes from the sender, and the
  sender's context -/
  | spawn (core : Nat) (ws : List Word) (sender : Word) (t : Thread) (ctx : Nat)
  /-- WAKE (R189): the identifier, the action, the sender's context -/
  | wake (dest : Word) (trap : Bool) (ctx : Nat)
  /-- a thread on its way (R79, R80): the slot claimed for it, w0 to w15, and the cycle in which it becomes ready -/
  | move (dest : Tid) (regs : List Word) (ready : Nat)
  /-- a cancel notice (R285) -/
  | notice (rcb : Word)
  deriving DecidableEq, Repr

/-! ### Engines -/

/-- What a copy-engine command copies. -/
inductive CopyKind where
  | cpy | tcpy | gath
  deriving DecidableEq, Repr

/-- A command of a copy engine or a gather engine, with what it captured (R157). -/
structure CopyCmd where
  id      : Nat
  kind    : CopyKind
  tid     : Tid
  /-- the core at whose engine, or in whose cluster, it runs -/
  core    : Nat
  ctx     : Nat
  part    : Nat
  asid    : Nat
  epc     : Word
  npc     : Word
  /-- the register that receives the promise -/
  dreg    : Nat
  dst     : Word
  src     : Word
  /-- words, elements or entries -/
  parts   : Nat
  esize   : Nat
  /-- extent, source stride and destination stride of each dimension, innermost first -/
  dims    : List (Nat × Int × Int) := []
  /-- the source pointers of a gather -/
  list    : List Word := []
  tb      : Option Nat
  beats   : Nat
  /-- the resident configuration that it uses -/
  cfg     : Option Nat := none
  strand  : Option (Nat × Nat)
  promise : Nat := 0
  effect  : Nat := 0
  /-- the part from which it runs (R192) -/
  base    : Nat := 0
  /-- the next part to read, and the cycle in which its reads begin (R155) -/
  reads   : Nat := 0
  start   : Nat := 0
  /-- the next part to write, the values that wait for their turn, and the parts acknowledged -/
  sent    : Nat := 0
  got     : Map Word := []
  acked   : List Nat := []
  /-- writes of its last destination word that wait for the others: the first part and the number of parts (R123) -/
  tail    : List (Nat × Nat) := []
  /-- the first part that met an event, with its code and information -/
  met     : Option (Nat × Nat × Word) := none
  stalled : Bool := false
  /-- whether its source and destination may overlap in memory, and then the values of the parts written, and where the
  parts read and written lie (R160) -/
  chained : Bool := false
  written : Map Word := []
  srcs    : Map Nat := []
  dsts    : Map Nat := []
  /-- every destination word lies in one bank, as its pointers tell; and the banks, channels and ports of the writes sent,
  two at most (R123) -/
  oneHome : Bool := false
  homes   : List Nat := []
  /-- the translation buffer of the issuing core at issue, until the promise is formed (R156) -/
  tlb     : List TEntry := []
  /-- of a gather: whether its thread has its promise, and how many entries of its list have been read (R174) -/
  granted : Bool := false
  known   : Nat := 0
  deriving DecidableEq, Repr

/-- A copy engine (R155, R156, R162, R163): its queue, the commands in flight, the commands of threads that wait for an
entry, the estimate and the actual end of the read stage's work, the resident configurations and the loop registers. -/
structure CopyEngine where
  queue    : List CopyCmd := []
  flight   : List CopyCmd := []
  wants    : List CopyCmd := []
  readFree : Nat := 0
  busy     : Nat := 0
  cfg      : Map (List Word) := []
  lc       : Map Word := []
  deriving DecidableEq, Repr

/-- Lane-wise floating-point operations (Table 14.2). -/
inductive FOp where
  | add | sub | mul | fma | min | max | abs | neg
  deriving DecidableEq, Repr

/-- Comparisons (Table 14.2). -/
inductive Rel where
  | eq | lt | le
  deriving DecidableEq, Repr

/-- Reductions (R219). -/
inductive Red where
  | sum | max | min
  deriving DecidableEq, Repr

/-- Lane-wise integer operations (Table 14.2). -/
inductive IOp where
  | add | sub | mul | shl | shr | and | or | xor
  deriving DecidableEq, Repr

/-- What a vector command does; `half`: on BF16 lanes. -/
inductive VOp where
  | float (op : FOp) (half : Bool)
  | cmp (r : Rel) (half : Bool)
  | red (r : Red) (half : Bool)
  | int (op : IOp)
  | maddm | msubm | mmulm | bflyCt | bflyGs | twid
  | sel | cvt (code : Nat) | exp2 | rcp | rsq | shuf | bcast
  | movx (i : Nat) | movv (i : Nat) | movvAll
  | ld | st | gth | sct
  deriving DecidableEq, Repr

/-- A vector command (R249 to R251), with what it captured. -/
structure VecCmd where
  id      : Nat
  tid     : Tid
  /-- the thread as it issued the command: the results of one that has been evicted since are discarded, restored or not
  (R252) -/
  home    : Tid
  ctx     : Nat
  part    : Nat
  asid    : Nat
  epc     : Word
  npc     : Word
  op      : VOp
  /-- physical numbers of the vector registers that its fields name -/
  d       : Nat
  a       : Nat
  b       : Nat
  /-- the vector registers and the scalar register that it is to write -/
  writes  : List Nat
  scalar  : Option Nat
  /-- captured scalar operands, mask, rounding mode and vector lc0 -/
  args    : List Word
  mask    : Option Word
  rm      : Nat
  modulus : Word
  effect  : Nat := 0
  started : Bool := false
  /-- the results, once computed: registers, the scalar, and whether a conversion saturated -/
  result  : Map VReg := []
  sresult : Word := 0
  sat     : Bool := false
  /-- memory lanes; 0: not a memory command -/
  lanes   : Nat := 0
  /-- the lane from which it runs (R192) -/
  base    : Nat := 0
  /-- the register that it stores or the offsets of its lanes, read as it starts -/
  data    : VReg := 0
  offs    : VReg := 0
  /-- the lanes at which its parts begin: those not sent, and those sent and not answered; and the values read -/
  todo    : List Nat := []
  left    : List Nat := []
  got     : Map Word := []
  /-- the first lane that met an event, with its code and information -/
  met     : Option (Nat × Nat × Word) := none
  stalled : Bool := false
  relaxed : Bool := false
  acq     : Option Scope := none
  strand  : Option (Nat × Nat)
  /-- the words that its lanes have been translated to (R100, R263) -/
  words   : List Nat := []
  deriving DecidableEq, Repr

/-- A vector engine (R249). -/
structure VecEngine where
  queue  : List VecCmd := []
  flight : List VecCmd := []
  /-- commands of threads that wait for an entry, in the order of parking (R155) -/
  wants  : List VecCmd := []
  /-- the cycle from which each of the six units is free (R249) -/
  free   : Map Nat := []
  lc     : Map Word := []
  deriving DecidableEq, Repr

/-- An entry of a ring latch (R235): the B operand's bytes with its block scales and band scale, its format and k, its
origin and its hop count. -/
structure Latched where
  b      : Nat
  blocks : Nat
  band   : Nat
  fmt    : Nat
  k      : Nat
  origin : Nat
  hop    : Nat
  deriving DecidableEq, Repr

/-- What a matrix command does. -/
inductive MatKind where
  | mzero | mma | mring | mmr | mmod
  deriving DecidableEq, Repr

/-- A matrix command (R228), with what it captured. -/
structure MatCmd where
  id     : Nat
  tid    : Tid
  ctx    : Nat
  epc    : Word
  npc    : Word
  kind   : MatKind
  chk    : Bool
  /-- the tile, as a physical number and as its field names it -/
  tile   : Nat
  field  : Nat
  /-- the configuration slot, its format, k, modulus and constant -/
  cfg    : Nat
  fmt    : Nat
  k      : Nat
  q      : Nat
  mu     : Nat
  /-- offsets in the vault of A, B, their block scales and the band scales -/
  offA   : Nat
  offB   : Nat
  offSa  : Nat
  offSb  : Nat
  offBand : Nat
  effect : Nat := 0
  /-- the pieces of its operands that have been read, and those that have still to be; and the first that met an
  uncorrectable error, with the word's address (R228, R232) -/
  got    : Map (List Word) := []
  left   : List Nat := []
  met    : Option (Nat × Word) := none
  /-- the end of its arithmetic, once it has started; and the place in the latch of the entry that MMR uses -/
  done   : Nat := 0
  place  : Nat := 0
  /-- the new tiles, once its operands are there (none before), whether a value was clamped, and what is to be forwarded
  when it commits -/
  result : List Tile := []
  sat    : Bool := false
  send   : Option Latched := none
  /-- MATCHECK is met (R240): its information -/
  check  : Option Word := none
  /-- its tiles are written; and its forward is on its way (R238) -/
  committed : Bool := false
  going  : Bool := false
  deriving DecidableEq, Repr

/-- A matrix engine (R228 to R245). -/
structure MatEngine where
  queue   : List MatCmd := []
  flight  : List MatCmd := []
  wants   : List MatCmd := []
  cfg     : Map (List Word) := []
  mu      : Map Nat := []
  lc      : Map Word := []
  /-- the end of the last command's arithmetic -/
  ePrev   : Nat := 0
  latch   : List Latched := []
  /-- places of the latch that a forward on its way will take -/
  coming  : Nat := 0
  checks  : Nat := 0
  /-- an array fault, by the group along k and the element at which the two computations of a checked command first
  differ (R240); none on a fault-free array -/
  broken  : Option (Nat × Nat) := none
  deriving DecidableEq, Repr

/-- A transaction barrier (R171), with the changes of the running cycle (R172). -/
structure TBar where
  p      : Bool := false
  posted : Bool := false
  c      : BitVec 36 := 0
  init   : Bool := false
  deriving DecidableEq, Repr

/-- A continuation in a caddy (R200, R273). -/
structure Cont where
  pc      : Word
  /-- the register that receives the continuation word, and the word -/
  reg     : Nat
  word    : Word
  win     : Word
  vec     : Word
  fmt     : Word
  sa      : Word
  sb      : Word
  band    : Word
  rcb     : Word
  asid    : BitVec 12
  part    : Nat
  region  : Region
  strand  : Option (Nat × Nat)
  frames  : List Nat
  child   : Bool
  /-- the spawning thread's accesses that must complete before a thief may take it (R130) -/
  waits   : List Nat
  pusher  : Tid
  /-- an inline record, at an offset of the pool, and whether it has been written (R273) -/
  inlined : Option Nat
  written : Bool := true
  /-- the core in whose pool the record lies, where the pool is of L space (R280) -/
  home    : Nat := 0
  deriving DecidableEq, Repr

/-- A line of an instruction buffer (R107): the address space it was fetched for, its pointer, its place and key, its
words as they were read, and how it was translated. -/
structure ILine where
  asid : Nat
  ptr  : Word
  pa   : Nat
  key  : Nat
  ws   : List Word
  route : Route := .plain
  deriving DecidableEq, Repr

/-- What names a key in a slot (R308): a key id with its context, or a sequence. -/
inductive KeyName where
  | id (kid ctx : Nat)
  | seq (s : Nat)
  deriving DecidableEq, Repr

/-- A range lookaside buffer entry (R302). -/
structure REntry where
  asid : Nat
  base : Nat
  ext  : Nat
  leaf : Word
  deriving DecidableEq, Repr

/-! ### Cores -/

/-- A core: a small core, or a large core in the fields it has (R47, R48). -/
structure Core where
  owner   : Word
  slots   : Map Slot := []
  regs    : Map Word := []
  present : List Nat := []
  vregs   : Map VReg := []
  accs    : Map Tile := []
  /-- the slot that issued last (R11) -/
  last    : Option Nat := none
  /-- the cycle for which an ISSUE_ROTATION is on the agenda -/
  issueAt : Option Nat := none
  /-- the cycle of the last issue of a small core -/
  issued  : Option Nat := none
  held    : Bool := false
  /-- the model's own: the slots whose YIELD waited for the slot that issued last (R64) -/
  owed    : List Nat := []
  /-- exdb has claimed BREAK on the core (R185) -/
  claimed : Bool := false
  ibuf    : List ILine := []
  /-- writes in the inbound register buffer (R73): slot, register, value; and messages that wait for a place in it -/
  inbound : List (Nat × Nat × Word) := []
  pressed : List Nat := []
  /-- active messages that wait for a free slot (R76) -/
  doors   : List Nat := []
  /-- writes on their way in each direction's link (R75) -/
  links   : Map (List Nat) := []
  drops   : Nat := 0
  fixed   : Nat := 0
  copy    : CopyEngine := {}
  vector  : VecEngine := {}
  matrix  : MatEngine := {}
  tbars   : Map TBar := []
  caddy   : List Cont := []
  /-- bindings of a strand to a view in the view table (R280): frame, strand and slot number -/
  binds   : List (Nat × Nat × Nat) := []
  keys    : List KeyName := []
  rlb     : List REntry := []
  tlb     : List TEntry := []
  /-- banks of registers in retention (R56): 0 to 15 scalar, 16 to 19 vector, 20 to 23 accumulators -/
  retain  : List Nat := []
  probing : Bool := false
  /-- partitions for which a DRAIN stopped placement (R344) -/
  stopped : List Nat := []
  deriving DecidableEq, Repr

/-! ### Places that serve requests -/

/-- A hold (R133): the first byte held, the number of bytes and the request that holds; a reservation section's hold
with its thread and context (R136). -/
structure Hold where
  pa   : Nat
  size : Nat
  req  : Nat
  sect : Option (Tid × Nat) := none
  deriving DecidableEq, Repr

/-- A watch (R145). -/
structure Watch where
  line : Nat
  tid  : Tid
  mon  : Nat
  lat  : Nat
  deriving DecidableEq, Repr

/-- A request that waits for admission (R343): the request, its start tag and its region tag. -/
structure Waiting where
  req   : Nat
  ctx   : Nat
  part  : Nat
  cls   : Nat
  region : Nat
  start : Nat
  sub   : Nat
  deriving DecidableEq, Repr

/-- A vault bank, an HBM4E channel or a CXL port (R103, R133, R145, R343). -/
structure Bank where
  holds   : List Hold := []
  queue   : List Nat := []
  waiters : List Nat := []
  watches : List Watch := []
  arrived : List Waiting := []
  vtime   : Nat := 0
  tags    : Map Nat := []
  /-- per port of a vault bank, the last cycle that it has given away, and to whom (R105) -/
  ports   : Map (Nat × Nat) := []
  deriving DecidableEq, Repr

/-- A team barrier (R69 to R72). -/
structure TeamBar where
  members : Nat := 0
  count   : Nat := 0
  phase   : Nat := 0
  arr     : Map Nat := []
  lead    : Map Nat := []
  /-- the cycles of the completions on the agenda (R71) -/
  due     : List Nat := []
  /-- the phases below this number have returned their waiting threads; and the cycles of the coming returns -/
  freed   : Nat := 0
  backs   : List Nat := []
  deriving DecidableEq, Repr

/-- A cluster: its team barriers, its gather engine and its combining node (R69, R174, R175). -/
structure Cluster where
  bars   : Map TeamBar := []
  /-- gather requests held, and those that wait in the fabric -/
  gather : List CopyCmd := []
  wants  : List CopyCmd := []
  /-- the cycle in which the gather engine's read stage is free (R156, R174) -/
  readFree : Nat := 0
  /-- reads merged since the last query (R177) -/
  merged : Nat := 0
  /-- lines read lately: line, context, cycle of the first read, and its request (R175) -/
  lines  : List (Nat × Nat × Nat × Nat) := []
  deriving DecidableEq, Repr

/-- A packet in a task queue (R65, R268). -/
structure Packet where
  id     : Nat
  ptr    : Word
  ws     : List Word
  ctx    : Nat
  part   : Nat
  region : Region
  /-- cores on which it has still to be dispatched -/
  todo   : List Nat
  /-- relaxed accesses of the launching thread that were outstanding (R129) -/
  waits  : List Nat := []
  deriving DecidableEq, Repr

/-- A compute die: its task queues and its launch table (R268, R270). -/
structure Die where
  queues : Map (List Packet) := []
  /-- threads that wait for room in a queue: request numbers -/
  wants  : List Nat := []
  table  : Map Word := []
  /-- entries of the launch table whose status word is empty, and requests that wait for one to become full -/
  taken  : List Nat := []
  readers : List Nat := []
  /-- entries whose present occurrence has been missed, and counted, and is still to be submitted (R271) -/
  late    : List Nat := []
  /-- a LAUNCH_TABLE_EVALUATION is on the agenda -/
  ticking : Bool := false
  deriving DecidableEq, Repr

/-- A line of the large cores' caches (R120, R382): its physical address, its words, the dirty words with the core
that wrote each last, the stale mark, the key and the route of the access that filled it. -/
structure CLine where
  line  : Nat
  ws    : List Word
  dirty : List (Nat × Nat)
  stale : Bool
  key   : Nat
  route : Route
  /-- words that the fill found with an uncorrectable error, which the line does not hold (R101) -/
  bad   : List Nat := []
  deriving DecidableEq, Repr

/-! ### Kernels, contexts and frames -/

/-- A ring in memory (R188, R340). -/
structure RingRef where
  base : Nat
  log2 : Nat
  key  : Nat
  prod : Nat
  deriving DecidableEq, Repr

/-- A partition of a context (R341). -/
structure Part where
  slots  : Nat := 0
  banks  : Nat := 0
  weight : Nat := 0
  deriving DecidableEq, Repr

/-- A context (R328). -/
structure Context where
  /-- 1 the host kernel owns it, 2 the array kernel, 0 the security core -/
  kern     : Nat
  conf     : Bool := false
  key      : Nat
  parts    : Map Part := [(0, { slots := 2 ^ 64 - 1, banks := 255, weight := 1 })]
  ring     : Option RingRef := none
  records  : List Nat := []
  writing  : Bool := false
  /-- the operations that extend its measurement (R361): W[a], W[b] and the result -/
  measured : List (Word × Word × Word) := []
  deriving DecidableEq, Repr

/-- Who owns or borrows a frame (Table 19.3). -/
inductive Owner where
  | free | host | array | security
  deriving DecidableEq, Repr

/-- The state of a frame (Table 19.3). -/
inductive FrameState where
  | owned | offered | lent | recalling
  deriving DecidableEq, Repr

/-- A key tag (R310). -/
inductive Tag where
  | id (kid ctx : Nat)
  | seq (s : Nat)
  deriving DecidableEq, Repr

/-- An entry of the frame ownership table (Table 19.3). -/
structure Frame where
  owner    : Owner := .free
  state    : FrameState := .owned
  borrower : Owner := .free
  tag      : Option Tag := none
  rvh      : Bool := false
  rva      : Bool := false
  shost    : Nat := 0
  sarr     : Nat := 0
  lkey     : Nat := 0
  cls      : Nat := 0
  deadline : Nat := 0
  /-- a FRETURN has stopped the deadline and its shoot-down runs (R339) -/
  stopped  : Bool := false
  deriving DecidableEq, Repr

/-- A page of a sequence (R311). -/
structure SPage where
  pa   : Nat
  w    : Bool
  atom : Nat
  kern : Nat
  deriving DecidableEq, Repr

/-- A cache translation entry that has been used (R311). -/
structure Seq where
  owner : Nat
  live  : Bool
  key   : Nat
  made  : Nat
  gone  : Nat
  pages : Map SPage
  deriving DecidableEq, Repr

/-- A kernel fault record (Table 10.4). -/
structure FRec where
  ctx    : Nat
  source : Nat
  code   : Nat
  tid    : Word
  resume : Word
  info   : Word
  arg    : Word
  asid   : Nat
  epc    : Word
  formed : Nat
  /-- the cycle in which the event was met (R196) -/
  met    : Nat := 0
  deriving DecidableEq, Repr

/-- Why translations are shot down (R291, R313, R317, R324, R331, R338). -/
inductive ShootKind where
  | xinvPage | xinvAsid | xinvRlb | xinvFrame
  | seqPage | seqAll
  | offer | release | giveBack | revoke
  | unbindKey | unbindAsid | destroy
  deriving DecidableEq, Repr

/-- What a shoot-down drops, and what is done when every answer has arrived (R314, R317, R338). -/
structure Shoot where
  /-- the instruction's request, if one awaits the answers -/
  req    : Option Nat
  kind   : ShootKind
  ctx    : Nat := 0
  asid   : Nat := 0
  va     : Nat := 0
  seq    : Nat := 0
  pages  : List Nat := []
  frame  : Nat := 0
  kern   : Nat := 0
  kid    : Nat := 0
  /-- requests that were translated through dropped entries and are not performed -/
  waits  : List Nat := []
  /-- the nominal cycle of its completion -/
  due    : Nat := 0
  deriving DecidableEq, Repr

/-- What a kernel owns on the I/O die: inbox, notices, strike limit, counters (R336, R340, R296). -/
structure Kernel where
  inbox    : Option RingRef := none
  notices  : List (Nat × Word × Word × Nat) := []
  writing  : Bool := false
  limit    : Nat := 3
  errors   : Nat := 0
  down     : Bool := false
  deriving DecidableEq, Repr

/-- A frame record (R279, R280): the slots declared, the strands of the serial order. -/
structure VSlot where
  slot  : Nat
  base  : Word
  ext   : Nat
  merge : Merge
  deriving DecidableEq, Repr

/-- A strand of a frame's serial order (R199). -/
structure Strand where
  ended  : Bool := false
  merged : Bool := false
  /-- it was cancelled: neither it nor a later strand is merged (R286) -/
  cut    : Bool := false
  /-- accesses of its thread under way as it ended: it merges when they have completed (R130, R199) -/
  waits  : List Nat := []
  /-- per visible slot, numbered 8 × frame + slot: the view's pointer and size, if one has been allocated -/
  views  : Map (Word × Nat) := []
  /-- the thread that was bound to the view, for EVICT and RESTORE (R284) -/
  core   : Nat := 0
  deriving DecidableEq, Repr

/-- What is kept of a saved thread under its save block's address beside the block (R99, R178, R280, R284): its identifier,
region, strand, frames and bindings, and its deferred events with what reports them. -/
structure Saved where
  /-- none of a saved continuation, which is no thread yet -/
  tid    : Option Tid
  deferred : List Deferred
  /-- traps that its commands have met since -/
  late   : List Deferred := []
  rcb    : Word
  region : Region
  strand : Option (Nat × Nat)
  frames : List Nat
  child  : Bool
  binds  : List (Nat × Nat × Nat)
  /-- its inline records (R273) -/
  inlined : List Cont
  deriving DecidableEq, Repr

/-- A merge under way (R282, R283): the strand, the words not yet sent, the number sent, the cycle in which it began, and the
first word that met an event: its turn, slot number, place, restart index, and the event. -/
structure Merging where
  strand : Nat
  todo   : List (Nat × Nat)
  sent   : Nat := 0
  start  : Nat
  /-- the words before the cursor from which it began -/
  skip   : Nat := 0
  met    : Option (Nat × Nat × Nat × Nat × Nat × Word) := none
  deriving DecidableEq, Repr

/-- A frame of a task (R199, R279). -/
structure TFrame where
  slots   : List VSlot := []
  /-- the enclosing frame and strand -/
  outer   : Option (Nat × Nat) := none
  strands : Map Strand := [(0, {})]
  /-- strands spawned since the last JOIN -/
  spawned : Bool := false
  /-- merge cursor: strand, slot and element (R284) -/
  cursor  : Option (Nat × Nat × Nat) := none
  /-- the thread that performs the merges now due -/
  merger  : Option Tid := none
  merging : Option Merging := none
  depth   : Nat := 1
  region  : Region := {}
  ctx     : Nat := 0
  /-- the core that opened it, and its task's partition (R280, R289) -/
  core    : Nat := 0
  part    : Nat := 0
  /-- its task was cancelled: it stays for strands that still run, and goes with the last (R286) -/
  dead    : Bool := false
  deriving DecidableEq, Repr

/-! ### Links -/

/-- A ring control block (Table 20.1), with its key and the slot it reads next. -/
structure Ring where
  ws   : Map Word := []
  key  : Option (BitVec 256) := none
  i    : Nat := 0
  /-- the entry as it was read, until it has been judged -/
  entry : List Word := []
  /-- an accepted launch waits for room in its queue -/
  due  : Bool := false
  deriving DecidableEq, Repr

/-- A collective (R359, R360). -/
structure Ticket where
  ctx     : Nat
  part    : Nat
  tid     : Tid
  core    : Nat
  ws      : List Word
  tb      : Option Nat
  rm      : Nat
  asid    : Nat
  view    : Nat
  /-- contributions by rank -/
  parts   : Map (List Word) := []
  state   : Nat := 0
  failed  : Nat := 0
  started : Option Nat := none
  deriving DecidableEq, Repr

/-- A secured session of the security core (R361, R362). -/
structure Session where
  /-- how far the session has come: 0 opened, 1 key exchanged, 2 finished -/
  stage  : Nat := 0
  bound  : Option Nat := none
  /-- a vendor-defined request has come since FINISH -/
  asked  : Bool := false
  secret : BitVec 512 := 0
  deriving DecidableEq, Repr

/-- The algorithms of the security core (R361). -/
inductive SpdmAlgorithm where
  | ed448 | sha3 | secp384r1 | aes256gcm
  deriving DecidableEq, Repr

/-- What a response of the security core carries (R361, R362). -/
inductive SpdmItem where
  | version (v : Nat)
  | request (code : Nat)
  | algorithm (a : SpdmAlgorithm)
  | digest (d : BitVec 512)
  | certificates (chain : List Byte)
  | nonce (n : BitVec 256)
  | exchange (key : BitVec 768)
  | signature (sig : BitVec 912)
  /-- a measurement, with its index -/
  | measurement (index : Nat) (d : BitVec 512)
  /-- the standards-body and the vendor identifier -/
  | names (body : BitVec 16) (vendor : List Byte)
  | opcode (op : Nat)
  deriving DecidableEq, Repr

/-- What leaves the module, as the outside agents see it. -/
inductive Sent where
  /-- a write to an address behind the endpoint, or in another package -/
  | write (pkg : Option Nat) (addr : Nat) (ws : List Word)
  /-- a read request of some words -/
  | read (pkg : Option Nat) (addr n : Nat)
  /-- completion of an inbound request: the data, or Unsupported Request -/
  | completion (ws : List Word)
  | unsupported
  | retry
  /-- an SPDM response: request number, session, status and payload -/
  | spdm (request sess status : Nat) (payload : List SpdmItem)
  /-- a contribution to a collective -/
  | contribution (ticket : Nat) (ws : List Word)
  /-- a collective is aborted -/
  | abort (ticket : Nat)
  /-- the leader publishes a view's number, the root of its tree and the signature (R363) -/
  | root (view : Word) (root : List Byte) (sig : BitVec 912)
  deriving DecidableEq, Repr

/-- An inbound posted write or read request that waits at the ordering point (R118): the order of its arrival, its
pointer, the bytes it writes or how many it reads, whether it is relaxed, and its source: 0 the endpoint, and one more
than a package's id. -/
structure Inbound where
  seq  : Nat
  addr : Word
  data : List Byte
  read : Nat
  ro   : Bool
  src  : Nat
  /-- the cycle from which its key is at hand, once it waits for a key fill (R308) -/
  ready : Option Nat := none
  /-- its write, while the procedure of a first write to a clean page runs (R304) -/
  req  : Option Nat := none
  deriving DecidableEq, Repr

/-! ### The module -/

/-- The signed configuration image (R333, R351, R357, R363, R365, R379): what it assigns (log 3). -/
structure Image where
  attached   : Bool := false
  /-- runs of small cores that belong to context 1: first core id and number -/
  hostCores  : List (Nat × Nat) := []
  /-- runs of frames: first frame, number and owner -/
  frames     : List (Nat × Nat × Owner) := [(0, 0x600000, .host), (0x600000, 0x5FF400, .array)]
  /-- the CXL ports with a device, the ports that training has left down, the frames of each device, and those of the
  tier (R357) -/
  cxlPorts   : Nat := 8
  cxlDown    : List Nat := []
  cxlDevices : List Nat := List.replicate 8 0x1000000
  cxlFrames  : Nat := 0x8000000
  hostEntry  : Word := 0x0800000000000000
  arrayEntry : Word := 0x0200000000000000
  package    : Nat := 0
  /-- the address space assigned to the endpoint function (R309, R351) -/
  endpoint   : Nat := 0
  /-- the groups of which the package is a member, with the contexts permitted on each (R359) -/
  groups     : Map (List Nat) := [(0, [1, 2])]
  /-- the first-level digests of Table 20.4, indices 1 to 4 -/
  digests    : List (BitVec 512) := []
  deriving DecidableEq, Repr

/-- One coming step of the machine: the cycle, its rank among the steps of that cycle, and the step. -/
structure Due where
  time : Nat
  rank : Nat
  ev   : Instr
  deriving DecidableEq, Repr

/-- The slot that issues next, the length of its chain, and the slot that issued before it. -/
structure Hand where
  core : Nat
  slot : Nat
  len  : Nat
  was  : Option Nat := none
  deriving DecidableEq, Repr

/-- A DRAIN under way (R344): its context, its partition if not all, its cores, the cycle of its limit, its save area (0:
none) and the blocks that the area holds, the blocks saved, and the address and the key of its drain block's count. -/
structure Drain where
  ctx    : Nat
  part   : Option Nat
  cores  : List Nat
  limit  : Nat
  area   : Nat
  blocks : Nat
  saved  : Nat := 0
  dpa    : Nat
  dkey   : Nat
  /-- the drain block lies in a view (R281) -/
  seen   : Bool := false
  deriving DecidableEq, Repr

/-- The I/O die: translation tables, contexts, sequences, frames and units. -/
structure IoDie where
  /-- words of the address-space table by word number (R297) -/
  asids    : Map Word := []
  /-- producer counts of the dirty logs (R304) -/
  logs     : Map Nat := []
  ctxs     : Map Context := []
  /-- key ids: the context each is bound to and its key (R308) -/
  kids     : Map (Nat × Nat) := []
  seqs     : Map Seq := []
  frames   : Map Frame := []
  kernels  : Map Kernel := []
  recs     : Map FRec := []
  shoots   : Map Shoot := []
  /-- frame instructions that wait at the unit, in the order in which they reached it (R321): request numbers -/
  fotWaits : List Nat := []
  /-- by request number -/
  drains   : Map Drain := []
  /-- the generator is failing (R316) -/
  rngFails : Bool := false
  /-- keys drawn (R316) -/
  draws    : Nat := 3
  /-- the large-core drop counter (R296) -/
  bigDrops : Nat := 0
  /-- stores to the tables that were dropped (R297) -/
  asidDrops : Nat := 0
  deriving DecidableEq, Repr

/-- The links of the module: endpoint, CXL ports, Exrin Link, rings, collectives, sessions. -/
structure Links where
  rings     : Map Ring := []
  apertures : Map Word := []
  tickets   : Map Ticket := []
  nextTicket : Nat := 0
  /-- contributions that have come before this package's own COLL: the ticket, the rank, the cycle and the data (R360) -/
  early     : List (Nat × Nat × Nat × List Word) := []
  members   : List Nat := [0]
  /-- the groups of which this package is a member, with the contexts permitted on each (R359) -/
  groups    : Map (List Nat) := []
  viewNo    : Nat := 0
  /-- the link key of the view, by the serial number of its draw -/
  linkKey   : Option Nat := none
  sessions  : Map Session := []
  inbound   : List Inbound := []
  /-- inbound writes sent and not acknowledged: request, order of arrival, route and source -/
  sending   : List (Nat × Nat × Nat × Nat) := []
  /-- stores whose far end is not complete (R119): the thread for which it is made, the request, and whether the
  endpoint has it -/
  farWrites : List (Tid × Nat × Bool) := []
  lost      : List Nat := []
  downPorts : List Nat := []
  failures  : Map Nat := []
  outbox    : List Sent := []
  /-- the address space of the endpoint function, which the upstream host assigns in attached mode and the host kernel in
  self-hosted mode (R309, R351) -/
  asid      : Nat := 0
  deriving DecidableEq, Repr

/-- Readiness, time, power (R364 to R366). -/
structure Sys where
  ready    : Word := 1
  /-- sys.ptp, as it stood in a cycle (R364) -/
  ptp      : Word := 0
  ptpAt    : Nat := 0
  throttle : Bool := false
  powered  : Bool := true
  image    : Image := {}
  deriving DecidableEq, Repr

/-- The machine. -/
structure State where
  /-- the cycle counter core.cyc (R2), which counts without wrap in the model -/
  cyc      : Nat := 0
  /-- the model's own: coming steps, in order of time and rank -/
  agenda   : List Due := []
  /-- the slot that issues in this step -/
  hand     : Option Hand := none
  /-- the model's own: the next serial number, and the counter of free values (log 5) -/
  serial   : Nat := 1
  free     : Nat := 0
  /-- the small and large cores that have left the state bring-up gives them -/
  cores    : Map Core := []
  mem      : Memory := {}
  banks    : Map Bank := []
  reqs     : Map Req := []
  msgs     : Map Msg := []
  /-- cancel notices sent (R285): context, region block, sending core and cycle; a core has received one when the
  message time has passed -/
  cancels  : List (Nat × Word × Nat × Nat) := []
  clusters : Map Cluster := []
  dies     : Map Die := []
  /-- the large cores' caches, most recently used first, and how many lines they hold (log 4) -/
  cache    : List CLine := []
  cacheMax : Nat := 65536
  frames   : Map TFrame := []
  /-- what the view unit keeps of saved threads, by the physical address of the save block (R284) -/
  saved    : Map Saved := []
  /-- transaction barriers that an event of this cycle touched: core and number (R172) -/
  touched  : List (Nat × Nat) := []
  io       : IoDie := {}
  links    : Links := {}
  sys      : Sys := {}
  deriving DecidableEq, Repr

/-! ### Reset -/

/-- The word of core.owner (Table 19.1). -/
def ownerWord (kcore conf : Bool) (kern ctx : Nat) : Word :=
  BitVec.ofNat 64 (kcore.toNat * 2 ^ 19 + conf.toNat * 2 ^ 18 + kern * 2 ^ 16 + ctx)

/-- The thread that starts at a kernel's entry, with a window of 128 scalar registers. -/
def bootThread (entry : Word) (ctxBanks : Word) : Thread :=
  { pc := entry, win := ctxBanks, status := .ready, outSince := none }

/-- The machine at sys.ready for an image (R365): every word full and zero, the kernels' threads at the image's
entries, the contexts, keys and frames as the image assigns them. The contexts' keys are the draws from `k` on; `free` is
the counter of free values. What the manual gives no value is named in log 3. -/
def State.boot (im : Image) (k free : Nat) : State :=
  { cores :=
      [ (0, { owner := ownerWord true false 2 2, issueAt := some 0,
              slots := [(0, { thread := some (bootThread im.arrayEntry 0x1000) })], keys := [.id 0 2] }),
        (0x0FF00, { owner := ownerWord true false 1 1, issueAt := some 0,
                    slots := [(0, { thread := some (bootThread im.hostEntry 0x1000) })], keys := [.id 0 1] }) ]
    agenda := [ { time := 0, rank := 50, ev := .issueRotation 0 },
                { time := 0, rank := 50, ev := .issueRotation 0x0FF00 } ]
    free := free
    io := { ctxs := [ (0, { kern := 0, key := k }), (1, { kern := 1, key := k + 1 }), (2, { kern := 2, key := k + 2 }) ]
            kernels := [ (1, {}), (2, {}) ]
            draws := k + 3 }
    links := { members := [im.package], groups := im.groups, asid := im.endpoint }
    sys := { ready := if im.attached then 5 else 1, image := im } }

/-- The machine right after reset: at sys.ready for the image of log 3. -/
def State.reset : State := State.boot {} 0 0

end Sys2Proof.Machine
end

