-- ==== Sys2Proof/Machine/Ops.lean ====
section
/-! DEFINITION. The named operations over the state: places and latencies, memory words, cores and threads, the
agenda, the rotation, parks and wakes, taking a trap and returning from one, kernel fault records. -/

namespace Sys2Proof.Machine

/-! ### Outcomes -/

/-- What a step answers. -/
abbrev Out := Host.Outcome State Fault Refusal

/-! ### Identifiers (R48) -/

/-- The die of a core id. -/
def dieOf (core : Nat) : Nat := core / 65536

/-- The row of a core id. -/
def rowOf (core : Nat) : Nat := core / 256 % 256

/-- The column of a core id. -/
def colOf (core : Nat) : Nat := core % 256

/-- Whether an id names a small core (R48, R89). -/
def isSmall (core : Nat) : Bool := decide (dieOf core < 4) && decide (rowOf core < 160) && decide (colOf core < 160)

/-- Whether an id names a large core (R48). -/
def isLarge (core : Nat) : Bool := decide (0x0FF00 ≤ core) && decide (core < 0x0FF10)

/-- Whether an id names a core. -/
def isCore (core : Nat) : Bool := isSmall core || isLarge core

/-- Whether a small core is a kernel core: cluster 0 of its die (R7). -/
def isKernelCore (core : Nat) : Bool := isSmall core && decide (rowOf core < 4) && decide (colOf core < 4)

/-- The cluster of a small core, numbered over the module. -/
def clusterOf (core : Nat) : Nat := dieOf core * 1600 + rowOf core / 4 * 40 + colOf core / 4

/-- The cluster-local index of a small core (R69). -/
def localIndex (core : Nat) : Nat := 4 * (rowOf core % 4) + colOf core % 4

/-- The small core with a local index in a cluster. -/
def clusterCore (cl i : Nat) : Nat :=
  cl / 1600 * 65536 + (4 * (cl % 1600 / 40) + i / 4) * 256 + 4 * (cl % 40) + i % 4

/-- A thread's identifier (Table 3.2). -/
def Tid.word (t : Tid) : Word := BitVec.ofNat 64 (t.core * 2 ^ 14 + t.slot * 256 + t.gen)

/-- The thread an identifier names. -/
def tidOf (w : Word) : Tid :=
  let n := w.toNat % 2 ^ 32
  { core := n / 2 ^ 14, slot := n / 256 % 64, gen := n % 256 }

/-! ### Places (R89, R295, R380, R381) -/

/-- The physical number of a vault byte in the model: above every window of Table 17.1. -/
def vaultAddr (core off : Nat) : Nat := 2 ^ 57 + core * 65536 + off

/-- Where an address is served. -/
inductive Home where
  | bank (core b : Nat)
  | chan (stack ch : Nat)
  | port (n : Nat)
  | pcie
  | exrin
  | asidTable
  | control
  | nowhere
  deriving DecidableEq, Repr

/-- The CXL ports in service, in ascending order (R357). -/
def Image.inService (im : Image) : List Nat := (List.range im.cxlPorts).filter fun p => !im.cxlDown.contains p

/-- The port in service on which a frame of tier 1 lies, if its device has the frame (R357). -/
def Image.portOf (im : Image) (f : Nat) : Option Nat :=
  let ps := im.inService
  (ps.drop (f % ps.length)).head?.filter fun p => decide (f / ps.length < im.cxlDevices.getD p 0)

/-- The place that serves a physical address (Table 17.1, R357, R380, R381). -/
def homeOf (im : Image) (pa : Nat) : Home :=
  if 2 ^ 57 ≤ pa then .bank ((pa - 2 ^ 57) / 65536) (pa % 65536 / 8192)
  else if pa < 0xC000000000 then .chan (pa / (65536 * 786432)) (pa / 1024 % 32)
  else if pa < 0xC000000000 + 65536 * im.cxlFrames then
    match im.portOf ((pa - 0xC000000000) / 65536) with
    | some p => .port p
    | none => .nowhere
  else if decide (0x100000000000 ≤ pa) && decide (pa < 0x200000000000) then .pcie
  else if decide (0x200000000000 ≤ pa) && decide (pa < 0x300000000000) then .exrin
  else if decide (0x300000000000 ≤ pa) && decide (pa < 0x300000040000) then .asidTable
  else if decide (0x300001000000 ≤ pa) && decide (pa < 0x300002000000) then .control
  else .nowhere

/-- The number of the bank, channel or port that serves an address. -/
def Home.num : Home → Nat
  | .bank c b => c * 8 + b
  | .chan st ch => 2 ^ 24 + st * 32 + ch
  | .port n => 2 ^ 25 + n
  | _ => 2 ^ 26

/-- The tier of a physical address; 4 for a vault and for the tables of the I/O die. -/
def tierOf (pa : Nat) : Nat :=
  if 2 ^ 57 ≤ pa then 4
  else if pa < 0xC000000000 then 0
  else if pa < 0x100000000000 then 1
  else if pa < 0x200000000000 then 2
  else if pa < 0x300000000000 then 3
  else 4

/-- The distance of a number from a span of four that starts at `lo`. -/
def beyond (lo n : Nat) : Nat := (lo - n) + (n - (lo + 3))

/-- Hops beyond the cluster of `core` to a vault's core, taken on one die (R4). -/
def hopsTo (core v : Nat) : Nat :=
  beyond (colOf core / 4 * 4) (colOf v) + beyond (rowOf core / 4 * 4) (rowOf v)

/-- Hops from a small core to its die's bridge edge (R4). -/
def hopsToBridge (core : Nat) : Nat := 159 - rowOf core

/-- Hops from a small core to a stack's edge: north, east, south, west (R4, R380). -/
def hopsToEdge (core e : Nat) : Nat :=
  if e = 0 then rowOf core else if e = 1 then 159 - colOf core else if e = 2 then 159 - rowOf core else colOf core

/-- The latency from a core to a place (Table 0.3), for traffic of every class: a far vault on another die may take more by it
than the 900 cyc that Table 0.4 bounds class 0 with (R6; DESIGN CHOICE, log 10). Tiers 2 and 3 have no entry there and take the CXL tier's
(DESIGN CHOICE, log 10); so do units of the I/O die, numbered from 2^18, with the large cores' row. -/
def latency (core : Nat) (h : Home) : Nat :=
  if isLarge core || decide (2 ^ 18 ≤ core) then
    match h with
    | .bank v _ => 200 + 4 * (159 - rowOf v)
    | .chan _ _ => 400
    | .asidTable | .control => 60
    | _ => 1600
  else
    match h with
    | .bank v _ =>
      if v = core then 10
      else
        let near := if dieOf v = dieOf core ∧ clusterOf v = clusterOf core then 24 else 24 + 4 * hopsTo core v
        if dieOf v = dieOf core then near else near + 180
    | .chan st _ =>
      if st / 4 = dieOf core then 380 + 4 * hopsToEdge core (st % 4)
      else 380 + 4 * hopsToBridge core + 180
    | .asidTable | .control => 200 + 4 * hopsToBridge core
    | _ => 1600

/-- Half a latency, down. -/
def half (l : Nat) : Nat := l / 2

/-- Half a latency, up. -/
def halfUp (l : Nat) : Nat := (l + 1) / 2

/-- The time a message takes on the message channel (R76). -/
def messageTime (frm dest : Nat) : Nat :=
  if isLarge frm then
    if isLarge dest then 20 else 100 + hopsToBridge dest
  else if isLarge dest then 100 + hopsToBridge frm
  else
    let t := 12 + hopsTo frm dest
    if dieOf frm = dieOf dest then t else t + 90

/-- The port of a vault bank by which requests of a core arrive (R105): its own pipeline, or the mesh link that faces
the sender: the one along the column where the rows differ; from another die and from the I/O die, the south one. The
manual gives no route on the mesh for a sender that differs in both row and column (DESIGN CHOICE, log 78). -/
def portOf (frm dest : Nat) : Nat :=
  if frm = dest then 0
  else if dieOf frm ≠ dieOf dest ∨ isLarge frm then 5
  else if rowOf frm < rowOf dest then 3
  else if rowOf dest < rowOf frm then 5
  else if colOf dest < colOf frm then 4
  else 6

/-! ### Memory -/

/-- The byte at an address: 0 where the list has none (R365). -/
def cellAt : List Host.Cell → Nat → Byte
  | [], _ => 0
  | (a, b) :: rest, n => if a = n then b else if n < a then 0 else cellAt rest n

/-- Writes a byte, keeping the list sorted and without zeros. -/
def cellSet : List Host.Cell → Nat → Byte → List Host.Cell
  | [], n, v => if v = 0 then [] else [(n, v)]
  | (a, b) :: rest, n, v =>
    if n < a then (if v = 0 then (a, b) :: rest else (n, v) :: (a, b) :: rest)
    else if n = a then (if v = 0 then rest else (n, v) :: rest)
    else (a, b) :: cellSet rest n v

/-- Whether a list of cells rises and holds no zero. -/
def cellsOk : List Host.Cell → Bool
  | [] => true
  | [(_, b)] => b != 0
  | (a, b) :: (a', b') :: rest => b != 0 && decide (a < a') && cellsOk ((a', b') :: rest)

/-- Whether a table of attributes rises and holds none that bring-up leaves. -/
def attrsOk : Map WordAttr → Bool
  | [] => true
  | [(_, x)] => x != {}
  | (a, x) :: (a', x') :: rest => x != {} && decide (a < a') && attrsOk ((a', x') :: rest)

/-- The canonical form of memory. -/
def Memory.wf (m : Memory) : Bool := cellsOk m.bytes && attrsOk m.attrs

/-- The byte at an address. -/
def Memory.byte (m : Memory) (a : Nat) : Byte := cellAt m.bytes a

/-- The little-endian value of `n` bytes from an address (R95). -/
def Memory.bytesAt (m : Memory) (a : Nat) : Nat → Nat
  | 0 => 0
  | n + 1 => (m.byte a).toNat + 256 * m.bytesAt (a + 1) n

/-- The plaintext of the word at an address. -/
def Memory.plain (m : Memory) (a : Nat) : Word := BitVec.ofNat 64 (m.bytesAt (a / 8 * 8) 8)

/-- Writes `n` bytes of a value, lowest first. -/
def Memory.putBytes (m : Memory) (a : Nat) : Nat → Nat → Memory
  | 0, _ => m
  | n + 1, v => Memory.putBytes { m with bytes := cellSet m.bytes a (BitVec.ofNat 8 v) } (a + 1) n (v / 256)

/-- The attributes of the word that holds an address. -/
def Memory.attr (m : Memory) (a : Nat) : WordAttr := (m.attrs.find (a / 8)).getD {}

/-- Sets a word's attributes, keeping the canonical form. -/
def attrSet : Map WordAttr → Nat → WordAttr → Map WordAttr
  | [], n, v => if v = {} then [] else [(n, v)]
  | (a, b) :: rest, n, v =>
    if n < a then (if v = {} then (a, b) :: rest else (n, v) :: (a, b) :: rest)
    else if n = a then (if v = {} then rest else (n, v) :: rest)
    else (a, b) :: attrSet rest n v

/-- Sets the attributes of the word that holds an address. -/
def Memory.setAttr (m : Memory) (a : Nat) (x : WordAttr) : Memory := { m with attrs := attrSet m.attrs (a / 8) x }

/-- The tweak of a word (R307). -/
def tweakOf (a : Nat) : Word :=
  if 2 ^ 57 ≤ a then BitVec.ofNat 64 (2 ^ 63 + (a - 2 ^ 57) / 8) else BitVec.ofNat 64 (a / 8)

/-- What a word deciphers to under a key (R306, log 6): its plaintext under the key that enciphered it. -/
def Memory.read (m : Memory) (key a : Nat) : Word :=
  match (m.attr a).key with
  | none => m.plain a
  | some k =>
    if k = key then m.plain a
    else Config.foreignWord (Config.drawnKey k) (Config.drawnKey key) (tweakOf (a / 8 * 8)) (m.plain a)

/-- Whether a write of a word puts back what is stored: a word of another key that deciphers to it under this one (R306). -/
def Memory.same (m : Memory) (key a : Nat) (v : Word) : Bool :=
  match (m.attr a).key with
  | some k => k != key && m.read key a == v
  | none => false

/-- Writes a whole word under a key with new check bits (R101, R306); the full/empty bit as given. A word written back as it
deciphered is stored as it was, under whichever key. -/
def Memory.write (m : Memory) (key a : Nat) (v : Word) (empty : Bool) : Memory :=
  if m.same key a v then m.setAttr a { empty := empty, error := 0, key := (m.attr a).key }
  else (m.putBytes (a / 8 * 8) 8 v.toNat).setAttr a { empty := empty, error := 0, key := some key }

/-- Whether a word is full; words of the CXL tier always are (R104). -/
def Memory.full (m : Memory) (a : Nat) : Bool := tierOf a == 1 || !(m.attr a).empty

/-- Sets or clears a word's full/empty bit; none is kept on the CXL tier (R104). -/
def Memory.setEmpty (m : Memory) (a : Nat) (e : Bool) : Memory :=
  if tierOf a = 1 then m else m.setAttr a { m.attr a with empty := e }

/-- Replaces the low `w` bytes at an address by those of `v`, within the word as it deciphers (R98). -/
def mergeBytes (old : Word) (a w : Nat) (v : Word) : Word :=
  let sh := 8 * (a % 8)
  let mask : Word := BitVec.ofNat 64 (2 ^ (8 * w) - 1)
  (old &&& ~~~(mask <<< sh)) ||| ((v &&& mask) <<< sh)

/-- The `w` bytes at an address within its word, extended (R95). -/
def extractBytes (word : Word) (a w : Nat) (signed : Bool) : Word :=
  let n := (word.toNat / 2 ^ (8 * (a % 8))) % 2 ^ (8 * w)
  if signed ∧ 2 ^ (8 * w - 1) ≤ n then BitVec.ofInt 64 ((n : Int) - 2 ^ (8 * w)) else BitVec.ofNat 64 n

/-! ### Contexts and cores -/

/-- The context the image gives a small core (R379). -/
def imageCtx (im : Image) (core : Nat) : Nat :=
  if isKernelCore core then 2
  else if isLarge core then 1
  else if im.hostCores.any fun r => decide (r.1 ≤ core) && decide (core < r.1 + r.2) then 1 else 2

/-- A core as bring-up leaves it. -/
def freshCore (im : Image) (core : Nat) : Core :=
  let ctx := imageCtx im core
  { owner := ownerWord (isKernelCore core || isLarge core) false ctx ctx, keys := [.id 0 ctx] }

/-- A core of the machine. -/
def State.core (s : State) (c : Nat) : Core := (s.cores.find c).getD (freshCore s.sys.image c)

/-- Sets a core. -/
def State.setCore (s : State) (c : Nat) (x : Core) : State := { s with cores := s.cores.put c x }

/-- Changes a core. -/
def State.upCore (s : State) (c : Nat) (f : Core → Core) : State := s.setCore c (f (s.core c))

/-- The context of a core (R329). -/
def State.ctxOf (s : State) (c : Nat) : Nat := (s.core c).owner.toNat % 65536

/-- A context; one that does not exist has no owner. -/
def State.context (s : State) (ctx : Nat) : Context := (s.io.ctxs.find ctx).getD { kern := 0, key := 0, parts := [] }

/-- The kernel that owns a context: 1 host, 2 array, 0 none. -/
def State.kernOf (s : State) (ctx : Nat) : Nat := (s.context ctx).kern

/-- Whether a context is one of the two kernels' fixed contexts. -/
def isKernelCtx (ctx : Nat) : Bool := ctx == 1 || ctx == 2

/-- Sets the I/O die. -/
def State.upIo (s : State) (f : IoDie → IoDie) : State := { s with io := f s.io }

/-- Changes a context that exists. -/
def State.upCtx (s : State) (ctx : Nat) (f : Context → Context) : State :=
  s.upIo fun io => { io with ctxs := io.ctxs.adjust ctx f }

/-- Sets the links. -/
def State.upLinks (s : State) (f : Links → Links) : State := { s with links := f s.links }

/-- Something leaves the module. -/
def State.emit (s : State) (x : Sent) : State := s.upLinks fun l => { l with outbox := l.outbox ++ [x] }

/-- Sets the memory. -/
def State.setMem (s : State) (m : Memory) : State := { s with mem := m }

/-! ### Slots and threads -/

/-- A slot of a core. -/
def Core.slot (c : Core) (k : Nat) : Slot := (c.slots.find k).getD {}

/-- A thread in a slot. -/
def State.thread (s : State) (c k : Nat) : Option Thread := ((s.core c).slot k).thread

/-- The thread an identifier names, if it lives in that generation. -/
def State.threadOf (s : State) (t : Tid) : Option Thread :=
  let sl := (s.core t.core).slot t.slot
  if sl.gen = t.gen then sl.thread else none

/-- Changes a slot. -/
def Core.upSlot (c : Core) (k : Nat) (f : Slot → Slot) : Core := { c with slots := c.slots.put k (f (c.slot k)) }

/-- Changes a thread. -/
def State.upThread (s : State) (c k : Nat) (f : Thread → Thread) : State :=
  s.upCore c fun x => x.upSlot k fun sl => { sl with thread := sl.thread.map f }

/-- A strand whose view stands for the accesses of a strand: the first strand of a serial order sees what the enclosing
strand sees (R279, R281). `fuel` bounds the nesting, at most 8. -/
def State.seenBy (s : State) (f st : Nat) : Nat → Option (Nat × Nat)
  | 0 => none
  | fuel + 1 =>
    if st ≠ 0 then some (f, st)
    else match (s.frames.find f).bind (fun fr => fr.outer) with
      | some (f', st') => s.seenBy f' st' fuel
      | none => none

/-- Changes the thread an identifier names, if it lives. -/
def State.upTid (s : State) (t : Tid) (f : Thread → Thread) : State :=
  if (s.threadOf t).isSome then s.upThread t.core t.slot f else s

/-- The identifier of the thread in a slot. -/
def State.tidAt (s : State) (c k : Nat) : Tid := { core := c, slot := k, gen := ((s.core c).slot k).gen }

/-- The threads of a core, by slot. -/
def Core.threads (c : Core) : List (Nat × Thread) :=
  c.slots.filterMap fun e => e.2.thread.map fun t => (e.1, t)

/-! ### Windows (Table 3.3) -/

/-- First scalar register ÷ 8. -/
def wBase (w : Word) : Nat := (w.extractLsb' 0 8).toNat
/-- Scalar registers ÷ 8. -/
def wSize (w : Word) : Nat := (w.extractLsb' 8 5).toNat
/-- First vector register. -/
def vBase (w : Word) : Nat := (w.extractLsb' 16 7).toNat
/-- Vector registers. -/
def vSize (w : Word) : Nat := (w.extractLsb' 23 6).toNat
/-- First accumulator tile. -/
def aBase (w : Word) : Nat := (w.extractLsb' 32 5).toNat
/-- Accumulator tiles. -/
def aSize (w : Word) : Nat := (w.extractLsb' 37 4).toNat

/-- A window value from its fields. -/
def winWord (wb ws vb vs ab as : Nat) : Word :=
  BitVec.ofNat 64 (wb + ws * 2 ^ 8 + vb * 2 ^ 16 + vs * 2 ^ 23 + ab * 2 ^ 32 + as * 2 ^ 37)

/-- Whether a window value is well-formed (R52). -/
def winOk (w : Word) : Bool :=
  w.extractLsb' 13 3 == 0 && w.extractLsb' 29 3 == 0 && w.extractLsb' 41 23 == 0 &&
  decide (1 ≤ wSize w) && decide (wSize w ≤ 16) && decide (vSize w ≤ 32) && decide (aSize w ≤ 8) &&
  decide (wBase w * 8 + wSize w * 8 ≤ 2048) && decide (vBase w + vSize w ≤ 128) && decide (aBase w + aSize w ≤ 32)

/-- Whether two runs of registers share one (R52). -/
def runsMeet (b n b' n' : Nat) : Bool := decide (0 < n) && decide (0 < n') && decide (b < b' + n') && decide (b' < b + n)

/-- Whether two windows overlap in a file (R52). -/
def winsMeet (x y : Word) : Bool :=
  runsMeet (wBase x) (wSize x) (wBase y) (wSize y) || runsMeet (vBase x) (vSize x) (vBase y) (vSize y) ||
  runsMeet (aBase x) (aSize x) (aBase y) (aSize y)

/-- Whether a window overlaps that of a live thread of a core. -/
def Core.winTaken (c : Core) (w : Word) : Bool := c.threads.any fun e => winsMeet w e.2.win

/-- The banks a run of registers touches. -/
def banksOf (off size b n : Nat) : List Nat :=
  if n = 0 then [] else (List.range ((b + n - 1) / size + 1 - b / size)).map fun i => off + b / size + i

/-- The power banks a window touches (R56). -/
def winBanks (w : Word) : List Nat :=
  banksOf 0 128 (8 * wBase w) (8 * wSize w) ++ banksOf 16 32 (vBase w) (vSize w) ++ banksOf 20 8 (aBase w) (aSize w)

/-- Zeroes the registers of a window and clears their presence bits (R54). -/
def Core.zeroWin (c : Core) (w : Word) : Core :=
  { c with
    regs := c.regs.dropRange (8 * wBase w) (8 * wSize w)
    present := c.present.filter fun r => !(decide (8 * wBase w ≤ r) && decide (r < 8 * wBase w + 8 * wSize w))
    vregs := c.vregs.dropRange (vBase w) (vSize w)
    accs := c.accs.dropRange (aBase w) (aSize w) }

/-- The lowest base, a multiple of one in this unit, at which `n` registers are free of the runs given (R55). -/
def freeBase (runs : List (Nat × Nat)) (n file : Nat) : Option Nat :=
  firstFrom (fun b => decide (b + n ≤ file) && !(runs.any fun r => runsMeet b n r.1 r.2)) 0 (file + 1 - n)

/-- The window a core places for given sizes (R55). -/
def Core.place (c : Core) (ws vs as : Nat) : Option Word :=
  let ts := c.threads.map fun e => e.2.win
  match freeBase (ts.map fun w => (wBase w, wSize w)) ws 256, freeBase (ts.map fun w => (vBase w, vSize w)) vs 128,
    freeBase (ts.map fun w => (aBase w, aSize w)) as 32 with
  | some wb, some vb, some ab => some (winWord wb ws vb vs ab as)
  | _, _, _ => none

/-! ### The agenda -/

/-- Puts a step into the agenda, after those of the same cycle and rank. -/
def insertDue : List Due → Due → List Due
  | [], d => [d]
  | e :: rest, d =>
    if d.time < e.time ∨ (d.time = e.time ∧ d.rank < e.rank) then d :: e :: rest else e :: insertDue rest d

/-- Puts a step on the agenda at a cycle. -/
def State.post (s : State) (time rank : Nat) (ev : Instr) : State :=
  { s with agenda := insertDue s.agenda { time := time, rank := rank, ev := ev } }

/-- Puts a step on the agenda some cycles from now. -/
def State.after (s : State) (d rank : Nat) (ev : Instr) : State := s.post (s.cyc + d) rank ev

/-- The rank, within a cycle, of the arrivals at vault banks by port (R105): the order starts at the port
core.cyc mod 7. -/
def portRank (time port : Nat) : Nat := 10 + (port + 7 - time % 7) % 7

/-- The port of a vault's bank by which a request arrives (R105). What the gather engine of the own cluster sends comes by the
south link, for the manual gives the engine no place on the mesh (DESIGN CHOICE, log 78). -/
def Req.port (r : Req) (v : Nat) : Nat :=
  if r.mesh then (if v = r.core then 5 else portOf r.core v)
  else match r.use with
  | .copy _ _ _ => if v = r.core then 1 else portOf r.core v
  | .matrix _ _ => if v = r.core then 2 else portOf r.core v
  | _ => portOf r.core v

/-- The rank of a request's arrival within its cycle (R105). -/
def State.arrivalRank (s : State) (time : Nat) (r : Req) : Nat :=
  match homeOf s.sys.image r.pa with
  | .bank v _ => portRank time (r.port v)
  | _ => 12

/-- The next serial number. -/
def State.fresh (s : State) : Nat × State := (s.serial, { s with serial := s.serial + 1 })

/-- A free word (log 5). -/
def State.freeWord (s : State) : Word × State := (Config.freeWord s.free, { s with free := s.free + 1 })

/-! ### The rotation (R11, R56 to R60, R366) -/

/-- The cycle from which a thread may issue, if it is in the rotation and not held back by YIELD. -/
def Thread.eligibleAt (t : Thread) : Option Nat :=
  match t.status with
  | .ready => match t.yield with
    | some (_ :: _, _) => none
    | _ => some t.next
  | _ => none

/-- The smaller of two cycles, if any. -/
def soonest (x y : Option Nat) : Option Nat :=
  match x, y with
  | none, y => y
  | x, none => x
  | some a, some b => some (min a b)

/-- The cycle in which a core next issues, if nothing changes. -/
def State.nextIssue (s : State) (c : Nat) : Option Nat :=
  let x := s.core c
  if x.held then none
  else
    let lo := match x.issued with
      | some t => if isLarge c then s.cyc else max s.cyc (t + 1)
      | none => s.cyc
    (x.threads.foldl (fun m e => soonest m e.2.eligibleAt) none).map fun t =>
      let t := max lo t
      if s.sys.throttle ∧ t % 2 = 1 then t + 1 else t

/-- Puts the core's next ISSUE_ROTATION on the agenda. -/
def State.kick (s : State) (c : Nat) : State :=
  match s.nextIssue c with
  | none => s
  | some t =>
    match (s.core c).issueAt with
    | some t' => if t' ≤ t then s else (s.upCore c fun x => { x with issueAt := some t }).post t 50 (.issueRotation c)
    | none => (s.upCore c fun x => { x with issueAt := some t }).post t 50 (.issueRotation c)

/-- A thread enters the rotation (R59); its banks are powered (R56). -/
def State.enter (s : State) (c k : Nat) : State :=
  match s.thread c k with
  | none => s
  | some t =>
    let bs := winBanks t.win
    let s := s.upCore c fun x => { x with retain := x.retain.filter fun b => !(bs.contains b) }
    (s.upThread c k fun t => { t with status := .ready, outSince := none, wakeAt := none, cold := false }).kick c

/-- A thread returns to the rotation: now, or 32 cyc later when a bank of its windows is in retention (R57). -/
def State.wake (s : State) (c k : Nat) : State :=
  match s.thread c k with
  | none => s
  | some t =>
    if isLarge c ∨ ¬ (winBanks t.win).any fun b => (s.core c).retain.contains b then s.enter c k
    else
      let s := s.upThread c k fun t => { t with status := .starting, readyAt := s.cyc + 32, wakeAt := none, cold := true }
      s.after 32 20 (.threadReady (s.tidAt c k))

/-- The cycle since which a thread has been out of the rotation, if it is left now. -/
def State.outFrom (s : State) (c k : Nat) : Nat := ((s.thread c k).bind fun t => t.outSince).getD s.cyc

/-- A thread leaves the rotation (R59); its banks may enter retention 1,024 cyc after it left, before anything that returns a
thread in that cycle (R56; DEDUCED, log 113). -/
def State.park (s : State) (c k : Nat) (why : Park) (till : Wait) : State :=
  let time := max s.cyc (s.outFrom c k + 1024)
  let s := s.upThread c k fun t =>
    { t with status := .parked why till, yield := none, outSince := some (t.outSince.getD s.cyc) }
  if isLarge c then s else s.post time 2 (.bankRetention c)

/-- Commands of the core's vector engine, queued and in flight. -/
def Core.vecCmds (c : Core) : List VecCmd := c.vector.queue ++ c.vector.flight

/-- The vector commands of a thread, those among them that run on a core from which a save has taken it (R178). -/
def State.vectorsOf (s : State) (t : Tid) : List VecCmd := s.cores.flatMap fun e => e.2.vecCmds.filter fun q => q.tid == t

/-- Whether a scalar register of the thread is to be written by a relaxed load (R99). -/
def State.pendingRelaxed (s : State) (t : Thread) (n : Nat) : Bool :=
  n != 0 && t.relaxed.any fun r => match s.reqs.find r with
    | some q => q.use == .relaxed (some n)
    | none => false

/-- Whether a register of the thread is to be written by a command of the vector engine (R250). -/
def State.pendingVector (s : State) (c k : Nat) (t : Thread) (w v : List Nat) : Bool :=
  (s.core c).vecCmds.any fun q => q.home == s.tidAt c k &&
    (w.any (fun r => r != 0 && q.scalar == some (8 * wBase t.win + r)) || v.any fun r => q.writes.contains (vBase t.win + r))

/-- What a thread waits for may have come: an instruction that has issued goes on in this cycle, and one that has not
returns to the rotation. -/
def State.poke (s : State) (t : Tid) : State :=
  match s.threadOf t with
  | some th => match th.status with
    | .parked _ .retry | .parked _ .ending => s.after 0 20 (.threadReady t)
    | .parked _ (.pending w v) =>
      if w.any (s.pendingRelaxed th) || s.pendingVector t.core t.slot th w v then s else s.wake t.core t.slot
    | _ => s
  | none => s

/-- The same for every thread of a core. -/
def State.pokeCore (s : State) (c : Nat) : State :=
  (s.core c).threads.foldl (fun s e => s.poke (s.tidAt c e.1)) s

/-! ### Kernel fault records (R186, R187) -/

/-- The time from a core to the fault unit (R186). -/
def toFaultUnit (core : Nat) : Nat := halfUp (latency core .control)

/-- Keeps a record of an event met in this cycle. -/
def State.putRecord (s : State) (r : FRec) : Nat × State :=
  let (n, s) := s.fresh
  (n, s.upIo fun io => { io with recs := io.recs.put n { r with met := s.cyc } })

/-- Posts a record: it reaches the fault unit after half the latency of the control window. -/
def State.postRecord (s : State) (core : Nat) (r : FRec) : State :=
  let (n, s) := s.putRecord r
  s.after (toFaultUnit core) 5 (.faultEventArrival n)

/-- A kernel fault met by an instruction parks its thread and posts a record (R186). -/
def State.kernelFault (s : State) (c k source code : Nat) (info arg resume epc vx : Word) (held : Option Nat) : State :=
  match s.thread c k with
  | none => s
  | some t =>
    let s := s.park c k .fault (.fault resume code info epc vx held)
    s.postRecord c { ctx := s.ctxOf c, source := source, code := code, tid := Tid.word (s.tidAt c k), resume := resume,
                     info := info, arg := arg, asid := t.asid.toNat, epc := epc, formed := 0 }

/-! ### Reservation sections (R140) -/

/-- Closes an abandoned section: the core sends back the value that RSV returned. -/
def State.abandon (s : State) (c k : Nat) : State :=
  match s.thread c k with
  | none => s
  | some t =>
    match t.sect with
    | none => s
    | some z =>
      let s := s.upThread c k fun t => { t with sect := none }
      let (n, s) := s.fresh
      let r : Req := { core := c, ctx := s.ctxOf c, part := t.part, op := .giveBack z.pair z.v0 z.v1, ptr := z.ptr,
                       args := [Tid.word (s.tidAt c k)], pa := z.pa, key := z.key, lat := z.lat, route := z.route }
      let time := s.cyc + half z.lat
      { s with reqs := s.reqs.put n r }.post time (s.arrivalRank time r) (.holdWriteBack n)

/-! ### Cancel notices (R269, R285, R286) -/

/-- The cores of a context that have left their first state, and so may hold work of it. -/
def State.coresOf (s : State) (ctx : Nat) : List Nat :=
  s.cores.filterMap fun e => if isCore e.1 ∧ e.2.owner.toNat % 65536 = ctx then some e.1 else none

/-- Sends a cancel notice to every core of a context, from a core. A notice acts after what the banks serve in its cycle
(R106, R195) and before the cycle's issue. -/
def State.sendNotices (s : State) (frm ctx : Nat) (rcb : Word) : State :=
  let s := { s with cancels := s.cancels ++ [(ctx, rcb, frm, s.cyc)] }
  (s.coresOf ctx).foldl (fun s c => s.after (if c = frm then 1 else messageTime frm c) 45 (.cancelNotice c rcb)) s

/-- The block that roots a thread's fault domain (R269), with its place and key: the highest of its chain with the
same domain. -/
def Region.domainRoot (g : Region) : Option (Word × Nat × Nat) :=
  if g.fdom = 0 then none
  else ((g.chain.zip g.budgets).zip g.places).foldl
    (fun m e => if e.1.2.2.2.2 = g.fdom then some (e.1.1, e.2.1, e.2.2) else m) none

/-- A thread's abort cancels its fault domain as CANCEL would: the flag is set at the bank, and the notices follow its
acknowledgement, and then the abort's record, kept under a number, is posted (R269, R285). -/
def State.cancelDomain (s : State) (c part rec : Nat) (b : Word) (pa key : Nat) : State :=
  let (n, s) := s.fresh
  let l := latency c (homeOf s.sys.image pa)
  let r : Req := { core := c, ctx := s.ctxOf c, part := part, op := .cancel, args := [b, BitVec.ofNat 64 rec], ptr := b,
                   pa := pa + 0x10, key := key, lat := l }
  let time := s.cyc + half l
  { s with reqs := s.reqs.put n r }.post time (s.arrivalRank time r) (.bankRequestArrival n)

/-- The answer to the cancellation of a fault domain: the notices are sent if the flag is set, and the abort's record is
posted (R269). -/
def State.domainCancelled (s : State) (r : Req) (set : Bool) : State :=
  let s := if set then s.sendNotices r.core r.ctx (r.args.getD 0 0) else s
  s.after (toFaultUnit r.core) 5 (.faultEventArrival (r.args.getD 1 0).toNat)

/-! ### Traps (R181, R183) -/

/-- A second trap, or a trap without a handler: the thread parks at the instruction that raised it, its fault domain is
cancelled, and its kernel receives a record of source 5 (R181, R187, R269). -/
def State.abortToKernel (s : State) (c k code : Nat) (info resume epc : Word) : State :=
  match s.thread c k with
  | none => s
  | some t =>
    let r : FRec := { ctx := s.ctxOf c, source := 5, code := code, tid := Tid.word (s.tidAt c k), resume := resume,
                      info := info, arg := 0, asid := t.asid.toNat, epc := epc, formed := 0 }
    let s := s.park c k .fault (.fault resume code info epc 0 none)
    match t.region.domainRoot with
    | none => s.postRecord c r
    | some (b, pa, key) =>
      let (n, s) := s.putRecord r
      s.cancelDomain c t.part n b pa key

/-- Whether a thread trap aborts a thread to its kernel: at level 1, or without a handler (R181). -/
def Thread.aborts (t : Thread) : Bool := t.lvl || t.vec == 0

/-- Takes a trap: saves pc, cause, info and index, sets the level and enters the handler (R181). The section, if one
is open, is abandoned (R140). The thread keeps its place in the rotation or, if parked, returns to it. -/
def State.trap (s : State) (c k code : Nat) (info epc vx : Word) (deferred : Bool) : State :=
  let s := s.abandon c k
  match s.thread c k with
  | none => s
  | some t =>
    if t.aborts then s.abortToKernel c k code info (if deferred then t.pc else epc) epc
    else
      let s := s.upThread c k fun t =>
        { t with epc := epc, cause := BitVec.ofNat 64 (code + deferred.toNat * 256), info := info, vx := vx,
                 lvl := true, pc := t.vec, restart := none }
      match t.status with
      | .ready => s
      | _ => s.wake c k

/-- Returns from a handler: the pc is th.epc, the level 0, and a restart index of kind 0b01 is pending (R183). -/
def State.eret (s : State) (c k : Nat) : State :=
  s.upThread c k fun t =>
    { t with vx := 0, lvl := false, pc := t.epc,
             restart := if t.vx.extractLsb' 62 2 = 1 then some (t.vx.extractLsb' 0 40) else none }

/-! ### Event codes (Table 10.1) -/

def cILLEGAL : Nat := 0x01
def cALIGN : Nat := 0x02
def cARITH : Nat := 0x03
def cPROMISE : Nat := 0x04
def cMATCHECK : Nat := 0x05
def cATOMROUTE : Nat := 0x06
def cSEQENDED : Nat := 0x07
def cRSVSECT : Nat := 0x08
def cPERM : Nat := 0x09
def cREVOKED : Nat := 0x0A
def cBREAK : Nat := 0x0B
def cSYSCALL : Nat := 0x0C
def cCANCELLED : Nat := 0x0D
def cPAGE : Nat := 0x10
def cDIRTYFULL : Nat := 0x11
def cPOISON : Nat := 0x12
def cFOTDENY : Nat := 0x13
def cKEYPAIR : Nat := 0x14

/-- Whether an event is delivered to the kernel (Table 10.1). -/
def isKernelEvent (code : Nat) : Bool := decide (0x10 ≤ code) || code == cSYSCALL

/-- Whether a deferred event goes to the kernel (R189, R194). -/
def Deferred.toKernel (d : Deferred) : Bool := isKernelEvent d.code && !d.trap

/-- A thread whose deferred event is reported; one that aborts the thread stays due (R191). -/
def Thread.reported (t : Thread) (d : Deferred) : Thread :=
  if t.aborts && !d.toKernel then t else { t with deferred := t.deferred.erase d }

/-! ### What a performed write does beside writing (R120, R147) -/

/-- A bank, channel or port by its number. -/
def State.bank (s : State) (b : Nat) : Bank := (s.banks.find b).getD {}

/-- Changes a bank. -/
def State.upBank (s : State) (b : Nat) (f : Bank → Bank) : State := { s with banks := s.banks.put b (f (s.bank b)) }

/-- Fires the watches of a line: each notice reaches its core after half the latency, up (R147). -/
def State.fireLine (s : State) (b line : Nat) : State :=
  (s.bank b).watches.foldl
    (fun s w => if w.line = line then s.after (halfUp w.lat) 8 (.monitorFire w.tid w.mon) else s) s

/-- Marks every cached copy of a line stale (R120). -/
def State.markStale (s : State) (line : Nat) : State :=
  { s with cache := s.cache.map fun l => if l.line = line then { l with stale := true } else l }

/-- A write has been performed on a word by something other than a large core's write-back. -/
def State.wrote (s : State) (pa : Nat) : State :=
  let line := pa / 64 * 64
  (s.fireLine (homeOf s.sys.image pa).num line).markStale line

/-! ### Drops (R50) -/

/-- Counts a dropped delivery at a core: in its own counter, or in the large-core counter. -/
def State.drop (s : State) (c : Nat) : State :=
  if isLarge c then s.upIo fun io => { io with bigDrops := min (2 ^ 32 - 1) (io.bigDrops + 1) }
  else s.upCore c fun x => { x with drops := min (2 ^ 32 - 1) (x.drops + 1) }

end Sys2Proof.Machine
end

