-- ==== Sys2Proof/Machine/Flags.lean ====
section
/-! DEFINITION. The fields of th.fmt and the flags that instructions compute: the arithmetic traps' enables, the
rounding mode, the configuration tag, the sticky saturation flag (R212). No instruction keeps other flags (R81). -/

namespace Sys2Proof.Machine

/-- Whether a th.fmt value is well-formed (Table 12.6). -/
def fmtOk (f : Word) : Bool :=
  f.extractLsb' 17 47 == 0 && f.extractLsb' 10 6 == 0 && f.extractLsb' 6 2 == 0 && !f.getLsbD 3

/-- The configuration tag. -/
def fmtTag (f : Word) : Nat := (f.extractLsb' 0 3).toNat

/-- The rounding mode: 0 RNE, 1 RTZ, 2 RUP, 3 RDN. -/
def fmtRm (f : Word) : Nat := (f.extractLsb' 4 2).toNat

/-- Whether ARITH is enabled for a zero divisor (R152). -/
def fmtDz (f : Word) : Bool := f.getLsbD 8

/-- Whether ARITH is enabled for a signed divide overflow (R152). -/
def fmtOvf (f : Word) : Bool := f.getLsbD 9

/-- Sets the sticky saturation flag (R222). -/
def fmtSetSat (f : Word) : Word := f ||| 0x10000

/-- What FMTSET makes of th.fmt (R213). -/
def fmtSet (f : Word) (v : Imm) : Word :=
  let f := if v.getLsbD 6 then (f &&& ~~~(7 : Word)) ||| (v.extractLsb' 0 3).setWidth 64 else f
  let f := if v.getLsbD 7 then (f &&& ~~~(0x30 : Word)) ||| ((v.extractLsb' 4 2).setWidth 64 <<< 4) else f
  if v.getLsbD 8 then f &&& ~~~(0x10000 : Word) else f

/-- A comparison's word: 1 when it holds (R82). -/
def flagWord (b : Bool) : Word := if b then 1 else 0

/-- Whether a branch is taken on a value (R93). -/
def condHolds (c : Cond) (v : Word) : Bool :=
  match c with
  | .eqz => v.toInt == 0
  | .nez => v.toInt != 0
  | .ltz => decide (v.toInt < 0)
  | .gez => decide (0 ≤ v.toInt)
  | .gtz => decide (0 < v.toInt)
  | .lez => decide (v.toInt ≤ 0)
  | .always => true

end Sys2Proof.Machine
end

