-- ==== Sys2Proof/Machine/Operands.lean ====
section
/-! DEFINITION. The operand forms: registers of a thread's windows, immediates, effective addresses, and the checks
that every instruction passes as it issues. -/

namespace Sys2Proof.Machine

/-! ### Registers (R53) -/

/-- A scalar register: w0 reads as zero. -/
def Core.regW (c : Core) (t : Thread) (n : Nat) : Word :=
  if n = 0 then 0 else (c.regs.find (8 * wBase t.win + n)).getD 0

/-- A vector register. -/
def Core.regV (c : Core) (t : Thread) (n : Nat) : VReg := (c.vregs.find (vBase t.win + n)).getD 0

/-- An accumulator tile. -/
def Core.regA (c : Core) (t : Thread) (n : Nat) : Tile := (c.accs.find (aBase t.win + n)).getD 0

/-- Writes a scalar register: w0 discards. -/
def State.setW (s : State) (c k n : Nat) (v : Word) : State :=
  if n = 0 then s
  else match s.thread c k with
    | none => s
    | some t => s.upCore c fun x => { x with regs := x.regs.put (8 * wBase t.win + n) v }

/-- Writes a physical vector register. -/
def State.setV (s : State) (c n : Nat) (v : VReg) : State := s.upCore c fun x => { x with vregs := x.vregs.put n v }

/-- Writes a physical accumulator tile. -/
def State.setA (s : State) (c n : Nat) (v : Tile) : State := s.upCore c fun x => { x with accs := x.accs.put n v }

/-- A register number as a natural number. -/
abbrev rn (r : Reg) : Nat := r.toNat

/-- An immediate as a signed number. -/
abbrev immInt (v : Imm) : Int := v.toInt

/-! ### The issue of an instruction -/

/-- The instruction at issue: where, by which thread, its address and that of the next instruction. -/
structure Cx where
  core : Nat
  slot : Nat
  th   : Thread
  /-- the address of the instruction -/
  pc   : Word
  /-- the address of the word after its base word (R28) -/
  npc  : Word
  /-- the position of its base word in the chain -/
  base : Nat
  /-- of an instruction that goes on: the scalar registers, as they stood at its issue -/
  kept : Map Word := []
  /-- what the core's engines held as it issued -/
  res  : Resident := {}
  /-- it issued before, and goes on now -/
  resumed : Bool := false

/-- What a core's engines hold (R157, R229, R230). -/
def Core.resident (c : Core) : Resident :=
  { copyLc := c.copy.lc, copyCfg := c.copy.cfg, vecLc := c.vector.lc, matLc := c.matrix.lc, matCfg := c.matrix.cfg,
    matMu := c.matrix.mu, tlb := c.tlb }

/-- The thread's identifier. -/
def Cx.tid (x : Cx) (s : State) : Tid := s.tidAt x.core x.slot

/-- The context in which the thread runs. -/
def Cx.ctx (x : Cx) (s : State) : Nat := s.ctxOf x.core

/-- A scalar register of the thread, as it stood at the issue. -/
def Cx.w (x : Cx) (s : State) (n : Nat) : Word :=
  match x.kept.find n with
  | some v => v
  | none => (s.core x.core).regW x.th n

/-- A vector register of the thread. -/
def Cx.v (x : Cx) (s : State) (n : Nat) : VReg := (s.core x.core).regV x.th n

/-- The number of bits of a space's offset field (Table 4.2). -/
def offsetBits (sp : Nat) : Nat := if sp = 1 ∨ sp = 2 then 16 else if sp = 3 then 41 else 57

/-- The space number of a pointer. -/
def spaceOf (p : Word) : Nat := (p.extractLsb' 57 7).toNat

/-- The offset of a pointer. -/
def offsetOf (p : Word) : Nat := p.toNat % 2 ^ offsetBits (spaceOf p)

/-- An address some 16-bit words on, within its space (R27, R90): what carries out of the offset field is lost, so that the
address after the last of a space is its first (DESIGN CHOICE, log 79). -/
def stepPc (pc : Word) (n : Nat) : Word :=
  BitVec.ofNat 64 (pc.toNat - offsetOf pc + (offsetOf pc + 2 * n) % 2 ^ offsetBits (spaceOf pc))

/-- The instruction has ended: the thread goes on at an address. -/
def Cx.goTo (x : Cx) (s : State) (pc : Word) : Out := .next (s.upThread x.core x.slot fun t => { t with pc := pc })

/-- The instruction has ended: the thread goes on after it. -/
def Cx.done (x : Cx) (s : State) : Out := x.goTo s x.npc

/-- The instruction writes W[d] and ends. -/
def Cx.ret (x : Cx) (s : State) (d : Reg) (v : Word) : Out := x.done (s.setW x.core x.slot (rn d) v)

/-- The instruction raises a thread trap, and has no effect (R180). -/
def Cx.trap (x : Cx) (s : State) (code : Nat) (info : Word) : Out := .next (s.trap x.core x.slot code info x.pc 0 false)

/-- The instruction raises PERM with a reason. -/
def Cx.perm (x : Cx) (s : State) (reason : Nat) : Out := x.trap s cPERM (BitVec.ofNat 64 reason)

/-- The instruction raises ILLEGAL with a reason that names its base word (R30). -/
def Cx.illegal (x : Cx) (s : State) (reason : Nat) : Out :=
  x.trap s cILLEGAL (BitVec.ofNat 64 (reason + 256 * x.base))

/-- The instruction meets a kernel fault at issue (R186). -/
def Cx.fault (x : Cx) (s : State) (code : Nat) (info : Word) : Out :=
  .next (s.kernelFault x.core x.slot 0 code info 0 x.pc x.pc 0 none)

/-- The instruction has issued, and its thread leaves the rotation until what it waits for may have come: it then goes on
with the operands of its issue. -/
def Cx.again (x : Cx) (s : State) (why : Park) : Out :=
  .next ((s.upThread x.core x.slot fun t => { t with restart := x.th.restart }).park x.core x.slot why .retry)

/-- The instruction has been issued and waits for an entry of an engine's queue; a pending restart index stays, for a save of the
thread there (R155, R190). -/
def Cx.queued (x : Cx) (s : State) (n : Nat) : State :=
  (s.upThread x.core x.slot fun t => { t with restart := x.th.restart }).park x.core x.slot .queue (.queue n)

/-- Whether a thread's instruction has issued and waits to go on. -/
def Thread.resumes (t : Thread) : Bool := match t.status with | .parked _ .retry => true | _ => false

/-- The core takes a turn back from a thread that parks without an issue (R99, R250): another slot may issue, and the threads
in YIELD that wait for its issue still do (R64). -/
def Cx.turnBack (x : Cx) (s : State) (was : Option Nat) : State :=
  let owe (t : Thread) : Thread := { t with yield := t.yield.map fun y => (x.slot :: y.1, y.2) }
  let s := (s.core x.core).owed.foldl (fun s k => s.upThread x.core k owe) s
  (s.upCore x.core fun c => { c with last := was, issued := none, owed := [] }).upThread x.core x.slot fun t => { t with next := s.cyc }

/-- The instruction names a pending register: its thread parks in place of the issue (R99, R250). -/
def Cx.pends (x : Cx) (s : State) (was : Option Nat) (why : Park) (w v : List Nat) : Out :=
  .next (((x.turnBack s was).park x.core x.slot why (.pending w v)).kick x.core)

/-- How an instruction stands to a reservation section (R137). -/
inductive Sec where
  | allowed | barred | opens | closes | ends
  deriving DecidableEq, Repr

/-- The registers an instruction names, by number. -/
structure Names where
  w : List Nat := []
  v : List Nat := []
  a : List Nat := []

/-- What an instruction is to the checks of its issue. -/
structure Kind where
  names  : Names := {}
  sec    : Sec := .barred
  /-- deferred events that it reports (R99, R167, R194) -/
  report : List Origin := []
  /-- it reports them in its own time, when the thread's accesses have completed (R62, R126) -/
  late   : Bool := false
  /-- implemented on large cores (R31) -/
  big    : Bool := true
  /-- a field or immediate that the instruction forbids: ILLEGAL with reason 0x07 -/
  bad    : Bool := false

/-- Whether a register number lies outside the thread's windows (R19, R30). A large core has no window of vector registers
or tiles to lie outside (R31). -/
def outside (c : Nat) (t : Thread) (n : Names) : Bool :=
  n.w.any (fun r => decide (8 * wSize t.win ≤ r)) ||
    !isLarge c && (n.v.any (fun r => decide (vSize t.win ≤ r)) || n.a.any (fun r => decide (aSize t.win ≤ r)))

/-- Whether a deferred event falls due at an instruction (R99, R167, R194). -/
def dueAt (k : Kind) (d : Deferred) : Bool :=
  k.report.contains d.origin || (match d.reg with | some r => r != 0 && k.names.w.contains r | none => false)

/-- Delivers a deferred event at the reporting instruction, which has no effect (R99, R167, R196); a second trap, which aborts
the thread, is still due when the reporting instruction runs again (R191). -/
def Cx.deliver (x : Cx) (s : State) (d : Deferred) : Out :=
  let s := s.upThread x.core x.slot fun t => t.reported d
  if d.toKernel then
    .next (s.kernelFault x.core x.slot 1 d.code d.info (d.vx &&& 0xFFFFFFFFFF) x.pc d.epc d.vx d.held)
  else .next (s.trap x.core x.slot d.code d.info d.epc d.vx true)

/-- The reason for which an instruction may not issue in the section that is open, if any (R137 to R139). -/
def sectReason (z : Sect) (k : Sec) : Option Nat :=
  if k = .closes then none
  else if 15 ≤ z.issued then some 2
  else match k with
    | .allowed => none
    | .opens => some 4
    | .ends => some 5
    | _ => some 1

/-- The RSVSECT reason of an instruction, if it raises one (Table 7.2). -/
def Cx.sectTrap (x : Cx) (k : Sec) : Option Nat :=
  match x.th.sect with
  | some z => sectReason z k
  | none => if k = .closes then some 3 else none

/-- The deferred event that falls due as an instruction issues, the first in order of issue (R196). An instruction that
reports in its own time does so here only where a section bars it. What a vector command's lane waits for is reported by
whichever instruction is next. -/
def Cx.due (x : Cx) (k : Kind) : Option Deferred :=
  (x.th.deferred.find? fun d => d.due).orElse fun _ => if k.late && (x.sectTrap k.sec).isNone then none else x.th.deferred.find? (dueAt k)

/-- The thread of an instruction that has gone on and ended returns to the rotation (R57). -/
def State.resumed (s : State) (t : Tid) : State :=
  match s.threadOf t with
  | some th => if th.status = .ready then s.wake t.core t.slot else s
  | none => s

/-- An instruction has its effect: its restart index is used up, and the section counts it. -/
def Cx.run (x : Cx) (s : State) (body : State → Cx → Out) : Out :=
  body (s.upThread x.core x.slot fun t =>
    { t with restart := none, sect := t.sect.map fun z => { z with issued := z.issued + 1 } }) x

/-- An instruction that has issued and waited goes on with the operands of its issue (R59). -/
def Cx.goOn (x : Cx) (s : State) (body : State → Cx → Out) : Out :=
  match body (s.upThread x.core x.slot fun t => { t with restart := none, status := .ready }) x with
  | .next s' => .next (s'.resumed (x.tid s))
  | o => o

/-- Issues an instruction: deferred events that fall due are reported first (R196), it is decoded against the thread's
windows and the kind of core (R30, R31), the section's rules hold (R137, R138), and an instruction that names a pending
register waits (R99). Then its own effect follows. An instruction that issued before goes on instead. -/
def issue (k : Kind) (s : State) (body : State → Cx → Out) : Out :=
  match s.hand with
  | none => .fault .noIssue
  | some h =>
    let s := { s with hand := none }
    match s.thread h.core h.slot with
    | none => .fault .noIssue
    | some t =>
      let x : Cx := { core := h.core, slot := h.slot, th := t, pc := t.pc, npc := stepPc t.pc h.len, base := h.len - 1,
                      kept := if t.resumes then t.kept else [], res := if t.resumes then t.resident else (s.core h.core).resident,
                      resumed := t.resumes }
      if t.resumes then
        match t.deferred.find? fun d => d.due with
        | some d => x.deliver s d
        | none => x.goOn s body
      else
        match x.due k with
        | some d => x.deliver s d
        | none =>
          if k.bad then x.illegal s 7
          else if outside h.core t k.names then x.illegal s 8
          else if !k.big && isLarge h.core then x.illegal s 9
          else match x.sectTrap k.sec with
            | some r => x.trap s cRSVSECT (BitVec.ofNat 64 r)
            | none =>
              if k.names.w.any (s.pendingRelaxed t) then x.pends s h.was .mem k.names.w []
              else if s.pendingVector h.core h.slot t k.names.w k.names.v then x.pends s h.was .engine k.names.w k.names.v
              else x.run s body

/-! ### Effective addresses (R89, R90) -/

/-- The core a C-space pointer names. -/
def ptrCore (p : Word) : Nat := p.toNat / 65536 % 2 ^ 18

/-- The sequence an S-space pointer names. -/
def ptrSeq (p : Word) : Nat := p.toNat / 2 ^ 41 % 65536

/-- Whether a pointer's must-be-zero bits are zero and the core it names exists (R90). -/
def ptrOk (p : Word) : Bool :=
  match spaceOf p with
  | 1 => p.toNat / 65536 % 2 ^ 41 == 0
  | 2 => p.toNat / 2 ^ 34 % 2 ^ 23 == 0 && isSmall (ptrCore p)
  | _ => true

/-- The pointer at a displacement, or the PERM reason (R90). -/
def effective (p : Word) (delta : Int) : Except Nat Word :=
  if 4 < spaceOf p then .error 1
  else if !ptrOk p then .error 2
  else
    let n : Nat := 2 ^ offsetBits (spaceOf p)
    let off : Int := (offsetOf p : Int) + delta
    if off < 0 ∨ (n : Int) ≤ off then .error 3
    else .ok (BitVec.ofNat 64 (p.toNat / n * n + off.toNat))

/-- Issues an instruction of a large core or a small core that only computes: registers in, one register out. -/
def issueRet (k : Kind) (s : State) (d : Reg) (f : State → Cx → Word) : Out :=
  issue k s fun s x => x.ret s d (f s x)

/-- The kind of an integer instruction of page 0, allowed in a section. -/
def pageZero (ws : List Reg) : Kind := { names := { w := ws.map rn }, sec := .allowed }

/-- The kind of an instruction barred from sections that names scalar registers only. -/
def plainKind (ws : List Reg) : Kind := { names := { w := ws.map rn } }

/-- The same, not implemented on a large core. -/
def smallKind (ws : List Reg) : Kind := { names := { w := ws.map rn }, big := false }

end Sys2Proof.Machine
end

