-- ==== Sys2Proof/Machine/Translate.lean ====
section
/-! DEFINITION. Translation of V and S pointers, the frame ownership check, keys and key slots, the dirty log
(R297 to R311, R334). -/

namespace Sys2Proof.Machine

/-! ### Keys (R308, R309) -/

/-- The key that a key name names, by the serial number of its draw. -/
def State.keyOf (s : State) (n : KeyName) : Nat :=
  match n with
  | .id 0 ctx => (s.context ctx).key
  | .id kid _ => match s.io.kids.find kid with
    | some (_, k) => k
    | none => 0
  | .seq q => match s.io.seqs.find q with
    | some e => e.key
    | none => 0

/-- Whether a key id is being unbound: a fill sees the state that results (R331). -/
def State.kidGoing (s : State) (kid ctx : Nat) : Bool :=
  s.io.shoots.any fun e => (e.2.kind == .unbindKey && e.2.kid == kid) || (e.2.kind == .destroy && e.2.ctx == ctx)

/-- Whether a key id is bound to a context (R308). -/
def State.kidBound (s : State) (kid ctx : Nat) : Bool :=
  match s.io.kids.find kid with
  | some (c, _) => c == ctx && !s.kidGoing kid c
  | none => false

/-- Puts a key in a core's slots, most recently used first; 16 of them (R308). -/
def State.useKey (s : State) (c : Nat) (n : KeyName) : State :=
  s.upCore c fun x => { x with keys := (n :: x.keys.filter (fun m => !(m == n))).take 16 }

/-- Whether a core holds a key. -/
def State.hasKey (s : State) (c : Nat) (n : KeyName) : Bool := (s.core c).keys.contains n

/-! ### Frames (R310, R333, R334) -/

/-- The frame number of an address of tier 0 or 1 in one numbering. -/
def frameOf (pa : Nat) : Nat := pa / 65536

/-- The frames that the frame ownership table itself occupies (R333). -/
def fotFrame (im : Image) (f : Nat) : Bool :=
  (decide (0xBFF400 ≤ f) && decide (f < 0xC00000)) ||
  (decide (0xC00000 + im.cxlFrames - im.cxlFrames / 4096 ≤ f) && decide (f < 0xC00000 + im.cxlFrames))

/-- The entry bring-up gives a frame (R333). -/
def imageFrame (im : Image) (f : Nat) : Frame :=
  if fotFrame im f then { owner := .security }
  else match im.frames.find? (fun r => decide (r.1 ≤ f) && decide (f < r.1 + r.2.1)) with
    | some r => { owner := r.2.2 }
    | none => {}

/-- A frame's entry. -/
def State.frame (s : State) (f : Nat) : Frame := (s.io.frames.find f).getD (imageFrame s.sys.image f)

/-- Sets a frame's entry. -/
def State.setFrame (s : State) (f : Nat) (e : Frame) : State := s.upIo fun io => { io with frames := io.frames.put f e }

/-- The owner value of a kernel number. -/
def ownerOf (kern : Nat) : Owner := if kern = 1 then .host else if kern = 2 then .array else .security

/-- The kernel number of an owner value. -/
def Owner.kern : Owner → Nat
  | .host => 1
  | .array => 2
  | .security => 3
  | .free => 0

/-- Whether a frame's revoked bit is set for a kernel. -/
def Frame.revoked (f : Frame) (kern : Nat) : Bool := if kern = 1 then f.rvh else if kern = 2 then f.rva else false

/-- The frame ownership check passes (R334). -/
def Frame.passes (f : Frame) (kern : Nat) : Bool :=
  let o := ownerOf kern
  (f.owner == o && f.state != .offered) || (f.borrower == o && (f.state == .lent || f.state == .recalling))

/-- The event of the frame ownership check for a kernel, if any (R334). -/
def Frame.check (f : Frame) (kern : Nat) : Option Nat :=
  if f.passes kern then none else if f.revoked kern then some cREVOKED else some cFOTDENY

/-- Whether a kernel is giving a frame up: its shoot-down runs (R338). -/
def State.givingUp (s : State) (n kern : Nat) : Bool :=
  s.io.shoots.any fun e => (e.2.kind == .offer || e.2.kind == .release || e.2.kind == .giveBack) &&
    e.2.frame == n && e.2.kern == kern

/-- The event of the frame ownership check of a fill, if any: a fill sees the state that the instructions performed
before it result in (R321, R334). -/
def State.frameEvent (s : State) (n kern : Nat) : Option Nat :=
  if s.givingUp n kern then some cFOTDENY else (s.frame n).check kern

/-- The key check of a fill under a key id (R303, R310): the key id must be bound to the context or lent with the
frame, a borrower's must be the lend key id (R323), and it must agree with the frame's tag; a borrower's fill of a frame
held by a sequence is checked against the lend key id instead (R337). -/
def State.keyCheck (s : State) (f : Frame) (kid ctx : Nat) : Option Nat :=
  let borrows := f.borrower == ownerOf (s.kernOf ctx) && (f.state == .lent || f.state == .recalling)
  if !(kid == 0 || s.kidBound kid ctx || (borrows && kid == f.lkey)) then some cFOTDENY
  else if borrows && kid != f.lkey then some cKEYPAIR
  else match f.tag with
    | none => none
    | some (.id k c) => if k = kid ∧ (kid ≠ 0 ∨ c = ctx) then none else some cKEYPAIR
    | some (.seq _) => if borrows ∧ kid = f.lkey then none else some cKEYPAIR

/-! ### Errors (R101, R347) -/

/-- The words from an address. -/
def wordsFrom (a n : Nat) : List Nat := (List.range n).map fun i => a + 8 * i

/-- The words among some that carry a single-bit error. -/
def State.fixedIn (s : State) (a n : Nat) : Nat := ((wordsFrom a n).filter fun w => (s.mem.attr w).error == 1).length

/-- The worst error among the words a request reads. -/
def State.errorIn (s : State) (a n : Nat) : Nat := (wordsFrom a n).foldl (fun m w => max m (s.mem.attr w).error) 0

/-- The first of some words that carries an uncorrectable error. -/
def State.badWord (s : State) (a n : Nat) : Nat := ((wordsFrom a n).find? fun w => (s.mem.attr w).error == 2).getD a

/-- Counts a corrected error where R101 says: at the vault's core, or at the kernel that owns the frame. -/
def State.countFixed (s : State) (pa n : Nat) : State :=
  match homeOf s.sys.image pa with
  | .bank c _ => s.upCore c fun x => { x with fixed := min (2 ^ 64 - 1) (x.fixed + n) }
  | _ =>
    let k := (s.frame (frameOf pa)).owner.kern
    s.upIo fun io => { io with kernels := io.kernels.adjust k fun x => { x with errors := min (2 ^ 64 - 1) (x.errors + n) } }

/-- The time in which a notice reaches its inbox, which R340 leaves open: that of Program 6 (log 26). -/
def noticeTime : Nat := 316

/-- Puts a notice for a kernel (R340): kind, the two words, and the cycle in which it was formed. -/
def State.notice (s : State) (kern kind : Nat) (w1 w2 : Word) : State :=
  (s.upIo fun io => { io with kernels := io.kernels.adjust kern fun k =>
    { k with notices := k.notices ++ [(kind, w1, w2, s.cyc)] } }).after noticeTime 30 (.noticeWrite kern)

/-- The K-space pointer to a frame. -/
def framePtr (f : Nat) : Word := BitVec.ofNat 64 (4 * 2 ^ 57 + f * 65536)

/-- A poisoned word of a frame is also told to the frame's owner (R347). -/
def State.tellPoison (s : State) (pa : Nat) : State :=
  if tierOf pa < 2 then s.notice (s.frame (frameOf pa)).owner.kern 7 (framePtr (frameOf pa)) (BitVec.ofNat 64 (pa / 8 * 8))
  else s

/-- Counts the corrected errors of some words, each one once. -/
def State.countRead (s : State) (a n : Nat) : State :=
  if s.fixedIn a n = 0 then s else s.countFixed a (s.fixedIn a n)

/-- Whether a hold is a unit's own, for the step in which it reads or writes the word (R133). -/
def State.turnHold (s : State) (h : Hold) : Bool := match s.reqs.find h.req with | some r => r.op == .turn | none => false

/-- Whether a hold stands on one of some words from an address, so that they wait to be read or written (R98, R133). -/
def State.heldIn (s : State) (a n : Nat) : Bool :=
  n != 0 && s.banks.any fun b => b.2.holds.any fun h =>
    decide (a < h.pa + h.size) && decide (h.pa < a + 8 * n) && !s.turnHold h

/-- The first word of some runs on which a hold stands. -/
def State.heldWord (s : State) (runs : List (Nat × Nat)) : Option Nat :=
  (runs.flatMap fun e => if s.heldIn e.1 e.2 then wordsFrom e.1 e.2 else []).find? fun a => s.heldIn a 1

/-- The lost device behind the port that serves an address (R357). -/
def State.lostAt (s : State) (pa : Nat) : Bool :=
  match homeOf s.sys.image pa with
  | .port p => s.links.lost.contains p
  | _ => false

/-! ### Tags (R310) -/

/-- The first fill of a frame sets its tag (R310). -/
def State.tagFrame (s : State) (n : Nat) (t : Tag) : State :=
  let f := s.frame n
  match f.tag with
  | none => s.setFrame n { f with tag := some t }
  | some _ => s

/-! ### Table entries (Table 17.3) -/

/-- The physical base of a frame number within a tier. -/
def tierBase (tier : Nat) : Nat :=
  if tier = 0 then 0 else if tier = 1 then 0xC000000000 else if tier = 2 then 0x100000000000 else 0x200000000000

/-- The number of frames of a tier. -/
def tierFrames (im : Image) (tier : Nat) : Nat :=
  if tier = 0 then 0xC00000 else if tier = 1 then im.cxlFrames else 0x10000000

/-- A leaf that can translate. -/
structure Leaf where
  kid   : Nat
  atom  : Nat
  frame : Nat
  tier  : Nat
  clean : Bool
  x     : Bool
  w     : Bool
  r     : Bool
  deriving DecidableEq, Repr

/-- The leaf that an entry holds, if it can translate (R301). -/
def leafOf (im : Image) (e : Word) : Option Leaf :=
  let l : Leaf :=
    { kid := (e.extractLsb' 52 12).toNat, atom := (e.extractLsb' 48 2).toNat, frame := (e.extractLsb' 20 28).toNat,
      tier := (e.extractLsb' 14 2).toNat, clean := e.getLsbD 7, x := e.getLsbD 5, w := e.getLsbD 4, r := e.getLsbD 3 }
  if e.getLsbD 0 && e.getLsbD 1 && !e.getLsbD 2 && !e.getLsbD 6 && e.extractLsb' 8 6 == 0 && e.extractLsb' 16 4 == 0 &&
      e.extractLsb' 50 2 == 0 && decide (l.atom < 2) && decide (l.frame < tierFrames im l.tier) &&
      (decide (l.tier < 2) || l.kid == 0) then some l else none

/-- The table that a pointer entry names, if it can translate (R301). -/
def pointerOf (e : Word) (align : Nat) : Option Nat :=
  let a := (e.extractLsb' 8 40).toNat * 256
  if e.getLsbD 0 && e.extractLsb' 1 7 == 0 && e.extractLsb' 48 16 == 0 && a % align == 0 then some a else none

/-! ### Walks (R299, R300, R302) -/

/-- A word of an address space's descriptor (Table 17.2). -/
def State.desc (s : State) (asid i : Nat) : Word := (s.io.asids.find (asid * 8 + i)).getD 0

/-- Whether a descriptor is valid and bound to a context (R297, R298). -/
def State.asidBound (s : State) (asid ctx : Nat) : Bool :=
  (s.desc asid 0).getLsbD 63 && (s.desc asid 0).toNat % 65536 == ctx

/-- The kernel that owns a descriptor: 1 host, 2 array. -/
def State.asidKern (s : State) (asid : Nat) : Nat := if (s.desc asid 0).getLsbD 16 then 2 else 1

/-- Whether a walker reaches a word of a table by its kernel's K-space access: the frame is the kernel's (R300, R310). -/
def State.tableReach (s : State) (kern a : Nat) : Bool := decide (tierOf a < 2) && (s.frame (frameOf a)).passes kern

/-- The first of some table words that carries an uncorrectable error, or lies behind a lost device (R101, R357). -/
def State.tableBad (s : State) (kern a n : Nat) : Option Nat :=
  (wordsFrom a n).find? fun w => s.tableReach kern w && ((s.mem.attr w).error == 2 || s.lostAt w)

/-- A word of a table, read as its kernel's K-space access; none where the access meets an event (R300, R310). -/
def State.tableWord (s : State) (kern a : Nat) : Option Word :=
  if s.tableReach kern a ∧ (s.tableBad kern a 1).isNone then some (s.mem.read (s.context kern).key a) else none

/-- What a walk finds: the leaf, the base of what it maps, its size, the address of the leaf entry, whether a range
maps it, and what was read. -/
structure Walk where
  leaf   : Option Leaf
  base   : Nat
  size   : Nat
  entry  : Nat
  range  : Option REntry
  /-- addresses read on the way (R302) -/
  reads  : List Nat
  /-- a hit in the range lookaside buffer -/
  rlbHit : Bool
  /-- the runs of words read, and the first word that carries an uncorrectable error (R101) -/
  words  : List (Nat × Nat) := []
  bad    : Option Nat := none
  deriving DecidableEq, Repr

/-- The range entries of an address space that are well-formed, searched in order (R299): the first that contains the
address, and how many have been read. `n` entries from number `i` on; a word with an uncorrectable error ends the search. -/
def State.findRange (s : State) (kern asid rng va : Nat) (i : Nat) : Nat → Option REntry × Nat
  | 0 => (none, i)
  | n + 1 =>
    let a := rng + 32 * i
    if (s.tableBad kern a 4).isSome then (none, i + 1)
    else match s.tableWord kern a, s.tableWord kern (a + 8), s.tableWord kern (a + 16), s.tableWord kern (a + 24) with
    | some w0, some w1, some w2, some _ =>
      let base := w0.toNat
      let ext := w1.toNat % 2 ^ 41
      if base ≤ va ∧ va < base + ext * 65536 then
        (some { asid := asid, base := base, ext := ext,
                leaf := if w0.extractLsb' 57 7 = 0 ∧ w0.extractLsb' 0 16 = 0 ∧ w1.extractLsb' 41 23 = 0 then w2 else 0 }, i + 1)
      else s.findRange kern asid rng va (i + 1) n
    | _, _, _, _ => s.findRange kern asid rng va (i + 1) n

/-- The leaf of an address in a range: frames rise with the offset, the whole extent lies in its tier, and clean is
zero (R299). -/
def rangeLeaf (im : Image) (r : REntry) (va : Nat) : Option Leaf :=
  match leafOf im r.leaf with
  | some l =>
    if l.clean ∨ tierFrames im l.tier < l.frame + r.ext then none
    else some { l with frame := l.frame + (va - r.base) / 65536 }
  | none => none

/-- Reads one level of the page table. -/
def State.level (s : State) (kern table idx : Nat) : Option Word := s.tableWord kern (table + 8 * idx)

/-- The walk of the page table from its root (R300). -/
def State.pageWalk (s : State) (kern root va : Nat) : Walk :=
  let a4 := root + 8 * (va / 2 ^ 45 % 4096)
  let runs (rs : List Nat) : List (Nat × Nat) := (rs.filter (s.tableReach kern)).map fun a => (a, 1)
  let fail (rs : List Nat) : Walk := { leaf := none, base := 0, size := 0, entry := 0, range := none, reads := rs, rlbHit := false,
                                       words := runs rs, bad := rs.findSome? fun a => s.tableBad kern a 1 }
  match (s.tableWord kern a4).bind (fun e => pointerOf e 32768) with
  | none => fail [a4]
  | some t3 =>
    let a3 := t3 + 8 * (va / 2 ^ 33 % 4096)
    match (s.tableWord kern a3).bind (fun e => pointerOf e 32768) with
    | none => fail [a4, a3]
    | some t2 =>
      let a2 := t2 + 8 * (va / 2 ^ 21 % 4096)
      match s.tableWord kern a2 with
      | none => fail [a4, a3, a2]
      | some e2 =>
        if e2.getLsbD 1 then
          match leafOf s.sys.image e2 with
          | some l =>
            if l.frame % 32 = 0 then
              { leaf := some { l with frame := l.frame + va / 65536 % 32 }, base := va / 2 ^ 21 * 2 ^ 21, size := 2 ^ 21,
                entry := a2, range := none, reads := [a4, a3, a2], rlbHit := false, words := runs [a4, a3, a2] }
            else fail [a4, a3, a2]
          | none => fail [a4, a3, a2]
        else
          match pointerOf e2 256 with
          | none => fail [a4, a3, a2]
          | some t1 =>
            let a1 := t1 + 8 * (va / 2 ^ 16 % 32)
            match (s.tableWord kern a1).bind (leafOf s.sys.image) with
            | some l => { leaf := some l, base := va / 65536 * 65536, size := 65536, entry := a1, range := none,
                          reads := [a4, a3, a2, a1], rlbHit := false, words := runs [a4, a3, a2, a1] }
            | none => fail [a4, a3, a2, a1]

/-- The walk for an address that misses the translation buffer: the range lookaside buffer, then the range table, then
the page table (R302). -/
def State.walk (s : State) (core asid va : Nat) : Walk :=
  let kern := s.asidKern asid
  let d2 := s.desc asid 2
  let rng := (d2.extractLsb' 8 49).toNat * 256
  let n := min 64 (d2.extractLsb' 0 7).toNat
  let page (r : REntry) (reads : List Nat) (hit : Bool) : Walk :=
    { leaf := rangeLeaf s.sys.image r va, base := va / 65536 * 65536, size := 65536, entry := 0, range := some r,
      reads := reads, rlbHit := hit }
  match (s.core core).rlb.find? (fun r => r.asid == asid && decide (r.base ≤ va) && decide (va < r.base + r.ext * 65536)) with
  | some r => page r [] true
  | none =>
    let f := s.findRange kern asid rng va 0 n
    let seen := (rng, 4 * f.2)
    match f.1 with
    | some r => { page r [rng] false with words := [seen] }
    | none =>
      let w := s.pageWalk kern (((s.desc asid 1).extractLsb' 15 42).toNat * 32768) va
      match s.tableBad kern rng seen.2 with
      | some a => { w with leaf := none, reads := [rng], words := [seen], bad := some a }
      | none => if n = 0 then w else { w with reads := rng :: w.reads, words := seen :: w.words }

/-- The time a core takes to read a place of physical memory. -/
def State.reach (s : State) (core pa : Nat) : Nat := latency core (homeOf s.sys.image pa)

/-- What a fill adds to an access (R302): the reads of tables and the frame ownership check. -/
def State.walkTime (s : State) (core : Nat) (w : Walk) : Nat :=
  total (w.reads.map (s.reach core)) + (if w.rlbHit then 8 else 0) +
    (match w.leaf with
     | some l => if l.tier < 2 then s.reach core (tierBase l.tier + l.frame * 65536) else 0
     | none => 0)

/-! ### Permissions -/

/-- What an access needs of its page. -/
structure Want where
  r : Bool := false
  w : Bool := false
  x : Bool := false
  deriving DecidableEq, Repr

/-- What a request needs of its page (R303). -/
def MemOp.want : MemOp → Want
  | .load _ _ | .ldf | .feq | .arm _ | .block _ | .probe | .waitEmpty => { r := true }
  | .store _ | .stf _ | .sts _ | .sete | .write _ _ | .dirty _ => { w := true }
  | _ => { r := true, w := true }

/-- What a request needs, with instruction fetch apart. -/
def Req.want (r : Req) : Want := if r.use = .fetch then { x := true } else r.op.want

/-- The outcome of a translation: a physical address with its key and atomic class, or an event. -/
inductive Trans where
  | ok (pa : Nat) (key : KeyName) (atom : Nat) (route : Route) (log : Option Nat)
  | event (code : Nat) (info : Word)
  deriving DecidableEq, Repr

/-- Whether permissions suffice. -/
def Want.within (n : Want) (r w x : Bool) : Bool := (!n.r || r) && (!n.w || w) && (!n.x || x)

/-- Whether an entry maps an address. -/
def TEntry.covers (e : TEntry) (asid va : Nat) : Bool :=
  match e.route with
  | .page a b _ => a == asid && decide (b ≤ va) && decide (va < b + e.size)
  | _ => false

/-- The key name of a leaf's key id for an accessing context (R308). -/
def leafKey (kid ctx : Nat) : KeyName := if kid = 0 then .id 0 ctx else .id kid ctx

/-- Translates through an entry that a core holds. -/
def TEntry.use (e : TEntry) (n : Want) (off ctx : Nat) : Trans :=
  if !n.within e.r e.w e.x then .event cPERM 0x06
  else
    let key := match e.route with
      | .seq q _ => KeyName.seq q
      | _ => leafKey e.kid ctx
    .ok (e.pa + off) key e.atom e.route (if n.w ∧ e.clean then some e.leaf else none)

/-- The frames a leaf maps. -/
def Walk.frames (w : Walk) (l : Leaf) : List Nat :=
  let first := tierBase l.tier / 65536 + l.frame
  if w.size = 65536 then [first] else (List.range 32).map fun i => first / 32 * 32 + i

/-- The first event that some frame raises. -/
def firstEvent (p : Nat → Option Nat) : List Nat → Option Nat
  | [] => none
  | f :: rest => match p f with
    | some e => some e
    | none => firstEvent p rest

/-- The event of a fill through a walk, if any, in the order of R303. An uncorrectable error of a table's word, which the walker
reads as its kernel does, is the access's POISON (R101, R300; DEDUCED, log 103). -/
def State.fillEvent (s : State) (ctx asid : Nat) (n : Want) (w : Walk) : Option Nat :=
  if !s.asidBound asid ctx then some cPAGE
  else if w.bad.isSome then some cPOISON
  else match w.leaf with
    | none => some cPAGE
    | some l =>
      if !n.within l.r l.w l.x || (decide (2 ≤ l.tier) && (s.context ctx).conf) then some cPERM
      else if 2 ≤ l.tier then none
      else
        match firstEvent (fun f => s.frameEvent f (s.kernOf ctx)) (w.frames l) with
        | some e => some e
        | none => firstEvent (fun f => s.keyCheck (s.frame f) l.kid ctx) (w.frames l)

/-- Adds an entry to a core's translation buffer, most recently used first (R302). -/
def State.addEntry (s : State) (c : Nat) (e : TEntry) : State :=
  s.upCore c fun x => { x with tlb := (e :: x.tlb.filter fun o => !(o.route == e.route)).take 64 }

/-- Fills from a walk that raises no event: the entry, the range entry, and the tags of its frames (R302, R310). -/
def State.fill (s : State) (c ctx asid : Nat) (w : Walk) (l : Leaf) : State :=
  let off := if w.size = 65536 then 0 else l.frame % 32
  let e : TEntry :=
    { route := .page asid w.base w.size, size := w.size, pa := tierBase l.tier + (l.frame - off) * 65536, tier := l.tier,
      kid := l.kid, r := l.r, w := l.w, x := l.x, clean := l.clean, atom := l.atom, leaf := w.entry }
  let s := s.addEntry c e
  let s := match w.range with
    | some r => s.upCore c fun x => { x with rlb := (r :: x.rlb.filter fun o => !(o == r)).take 16 }
    | none => s
  if 2 ≤ l.tier then s
  else (w.frames l).foldl (fun s f => s.tagFrame f (.id l.kid ctx)) s

/-! ### Sequences (R303, R311) -/

/-- Whether a sequence is being ended, or a page of it removed: a translation after the shoot-down finds it gone
(R314). -/
def State.seqGoing (s : State) (q : Nat) : Bool := s.io.shoots.any fun e => e.2.kind == .seqAll && e.2.seq == q
def State.pageGoing (s : State) (q page : Nat) : Bool :=
  s.io.shoots.any fun e => e.2.kind == .seqPage && e.2.seq == q && e.2.pages.contains page

/-- The events of an S-space access before translation and at it: SEQENDED, PERM, PAGE, PERM (R96, R303). -/
def State.seqEvent (s : State) (ctx : Nat) (n : Want) (p : Word) : Option (Nat × Word) :=
  match s.io.seqs.find (ptrSeq p) with
  | none => some (cPERM, 0x06)
  | some q =>
    if !q.live || s.seqGoing (ptrSeq p) then some (cSEQENDED, p)
    else if q.owner ≠ ctx then some (cPERM, 0x06)
    else match (if s.pageGoing (ptrSeq p) (offsetOf p / 65536) then none else q.pages.find (offsetOf p / 65536)) with
      | none => some (cPAGE, p)
      | some g =>
        if (n.w && !g.w) || n.x then some (cPERM, 0x06)
        else match s.frameEvent (frameOf g.pa) (s.kernOf ctx) with
          | some e => some (e, p)
          | none => none

/-- The entry of a sequence's page. -/
def seqEntry (q : Nat) (p : Word) (g : SPage) : TEntry :=
  { route := .seq q (offsetOf p / 65536), size := 65536, pa := g.pa, tier := tierOf g.pa, kid := 0, r := true, w := g.w,
    x := false, clean := false, atom := g.atom, leaf := 0 }

/-! ### The translation of a pointer -/

/-- What translating a pointer takes: it is known now, or it needs a fill of some time. -/
inductive Lookup where
  | now (t : Trans)
  | later (time : Nat)
  deriving DecidableEq, Repr

/-- Whether the sequence of a pointer belongs to a context (R303). -/
def State.seqOf (s : State) (ctx : Nat) (p : Word) : Bool :=
  match s.io.seqs.find (ptrSeq p) with
  | some q => q.owner == ctx
  | none => false

/-- Translates a pointer through what a core holds, or says how long a fill takes. L, C and K space need none. -/
def State.lookup (s : State) (core ctx asid : Nat) (n : Want) (p : Word) : Lookup :=
  match spaceOf p with
  | 1 => .now (.ok (vaultAddr core (offsetOf p)) (.id 0 ((s.core core).owner.toNat % 65536)) 1 .plain none)
  | 2 => .now (.ok (vaultAddr (ptrCore p) (offsetOf p)) (.id 0 ((s.core core).owner.toNat % 65536)) 1 .plain none)
  | 4 => .now (.ok (offsetOf p) (.id 0 ctx) 0 .plain none)
  | 3 =>
    match (s.core core).tlb.find? (fun e => e.route == .seq (ptrSeq p) (offsetOf p / 65536)) with
    | some e =>
      if s.seqOf ctx p then .now (e.use n (offsetOf p % 65536) ctx) else .now (.event cPERM 0x06)
    | none => .later 300
  | _ =>
    let va := offsetOf p
    match (s.core core).tlb.find? (fun e => e.covers asid va) with
    | some e =>
      match e.route with
      | .page _ b _ => .now (e.use n (va - b) ctx)
      | _ => .now (.event cPAGE p)
    | none => .later (s.walkTime core (s.walk core asid va))

/-- Whether an entry of a translation buffer translates a pointer. -/
def TEntry.serves (e : TEntry) (asid : Nat) (p : Word) : Bool :=
  match spaceOf p with
  | 1 | 2 | 4 => false
  | 3 => e.route == .seq (ptrSeq p) (offsetOf p / 65536)
  | _ => e.covers asid (offsetOf p)

/-- The entry that translates a pointer is the one most recently used (R302). -/
def State.touch (s : State) (core asid : Nat) (p : Word) : State :=
  match (s.core core).tlb.find? fun e => e.serves asid p with
  | none => s
  | some e => s.upCore core fun x => { x with tlb := e :: x.tlb.erase e }

/-- The words that a walk has read: their corrected errors are counted, and an uncorrectable one is told to the frame's owner
(R101, R347). -/
def State.walked (s : State) (w : Walk) : State :=
  let s := w.words.foldl (fun s e => s.countRead e.1 e.2) s
  match w.bad with | some a => s.tellPoison a | none => s

/-- The first word on which a hold stands that a fill would read: it waits for the word (R133, R300). -/
def State.heldWalk (s : State) (core ctx asid : Nat) (n : Want) (p : Word) : Option Nat :=
  match s.lookup core ctx asid n p with
  | .now _ => none
  | .later _ => if spaceOf p = 3 then none else s.heldWord (s.walk core asid (offsetOf p)).words

/-- Whether a fill would read a word on which a hold stands. -/
def State.walkHeld (s : State) (core ctx asid : Nat) (n : Want) (p : Word) : Bool := (s.heldWalk core ctx asid n p).isSome

/-- Performs a fill and translates (R302, R303). -/
def State.refill (s : State) (core ctx asid : Nat) (n : Want) (p : Word) : Trans × State :=
  if spaceOf p = 3 then
    match s.seqEvent ctx n p with
    | some (c, i) => (.event c i, s)
    | none =>
      match (s.io.seqs.find (ptrSeq p)).bind (fun q => q.pages.find (offsetOf p / 65536)) with
      | none => (.event cPAGE p, s)
      | some g =>
        let e := seqEntry (ptrSeq p) p g
        let s := (s.addEntry core e).useKey core (.seq (ptrSeq p))
        (e.use n (offsetOf p % 65536) ctx, s)
  else
    let va := offsetOf p
    let w := s.walk core asid va
    let s := s.walked w
    match s.fillEvent ctx asid n w with
    | some c => (.event c (if c = cPERM then 0x06 else if c = cPOISON then framePtr 0 + BitVec.ofNat 64 (w.bad.getD 0) else p), s)
    | none =>
      match w.leaf with
      | none => (.event cPAGE p, s)
      | some l =>
        let s := s.fill core ctx asid w l
        match s.lookup core ctx asid n p with
        | .now t => (t, s)
        | .later _ => (.event cPAGE p, s)

/-! ### What a shoot-down drops (R314, R317, R331, R338) -/

/-- The kernel of the context whose own key a serial number is; 0 for another key. -/
def State.keyKern (s : State) (key : Nat) : Nat :=
  match s.io.ctxs.find? fun e => e.2.key == key with | some e => e.2.kern | none => 0

/-- Whether a translation of some frames, at a route, under a key and its key id, falls under a shoot-down: a kernel that
loses a frame loses its K-space accesses to it, too (R338). -/
def State.falls (s : State) (h : Shoot) (route : Route) (first count kid key : Nat) (va : Nat → Bool) : Bool :=
  let inFrame : Bool := decide (first ≤ h.frame) && decide (h.frame < first + count)
  match h.kind, route with
  | .xinvPage, .page a _ _ => a == h.asid && va h.va
  | .xinvAsid, .page a _ _ => a == h.asid
  | .unbindAsid, .page a _ _ => a == h.asid
  | .xinvFrame, .page a _ _ => s.asidKern a == h.kern && inFrame
  | .seqPage, .seq q p => q == h.seq && h.pages.contains p
  | .seqAll, .seq q _ => q == h.seq
  | .unbindKey, .page _ _ _ => kid == h.kid && kid != 0
  | .destroy, .page _ _ _ => match s.io.kids.find kid with | some (c, _) => c == h.ctx | none => false
  | .destroy, .seq q _ => match s.io.seqs.find q with | some e => e.owner == h.ctx | none => false
  | .offer, .page a _ _ | .release, .page a _ _ | .giveBack, .page a _ _ | .revoke, .page a _ _ => s.asidKern a == h.kern && inFrame
  | .offer, .seq q _ | .release, .seq q _ | .giveBack, .seq q _ | .revoke, .seq q _ =>
    inFrame && (match s.io.seqs.find q with | some e => s.kernOf e.owner == h.kern | none => false)
  | .offer, .plain | .release, .plain | .giveBack, .plain | .revoke, .plain => inFrame && s.keyKern key == h.kern
  | _, _ => false

/-- The key id whose key a serial number is, if it is one. -/
def State.kidOf (s : State) (key : Nat) : Nat :=
  match s.io.kids.find? fun e => e.2.2 == key with | some e => e.1 | none => 0

/-- The bytes that the translation of a route maps. -/
def Route.size : Route → Nat | .page _ _ z => z | _ => 65536

/-- Whether a translated access falls under a shoot-down: by its route, its key, and the frames that its translation maps, of which
a page of 2 MiB has 32 (R324, R325). -/
def State.accessFalls (s : State) (h : Shoot) (route : Route) (pa key : Nat) : Bool :=
  s.falls h route (frameOf (pa / route.size * route.size)) (if tierOf pa < 2 then route.size / 65536 else 0) (s.kidOf key) key fun va =>
    match route with
    | .page _ b z => decide (b ≤ va) && decide (va < b + z)
    | _ => false

/-- Whether an access falls under a shoot-down that runs: a large core keeps no line of it (R314, R338). -/
def State.shot (s : State) (route : Route) (pa key : Nat) : Bool := s.io.shoots.any fun e => s.accessFalls e.2 route pa key

/-! ### The dirty log (R304) -/

/-- The slot of an address space's dirty log that is written next. -/
def State.logSlot (s : State) (asid : Nat) : Nat :=
  let d := s.desc asid 3
  (d.extractLsb' 6 51).toNat * 64 + 8 * ((s.io.logs.find asid).getD 0 % 2 ^ (d.extractLsb' 0 5).toNat)

/-- Appends an entry to an address space's dirty log; or the event: DIRTYFULL when the ring is full or absent, or its frame is not
its kernel's, POISON when it lies behind a lost device (R304, R334, R357). -/
def State.logAppend (s : State) (asid : Nat) (entry : Word) : Option Nat × State :=
  let d := s.desc asid 3
  let lsz := (d.extractLsb' 0 5).toNat
  if lsz < 6 ∨ 24 < lsz then (some cDIRTYFULL, s)
  else
    let prod := (s.io.logs.find asid).getD 0
    let a := s.logSlot asid
    if s.lostAt a then (some cPOISON, s)
    else if s.mem.full a ∨ (tierOf a < 2 ∧ !(s.frame (frameOf a)).passes (s.asidKern asid)) then (some cDIRTYFULL, s)
    else
      let key := (s.context (s.asidKern asid)).key
      (none, ((s.setMem (s.mem.write key a entry false)).wrote a).upIo fun io => { io with logs := io.logs.put asid (prod + 1) })

/-- The entry of an address space's dirty log for a write to a clean page: the page's base, and whether it is of 2 MiB. -/
def State.logEntry (s : State) (core asid va : Nat) : Word :=
  if (s.core core).tlb.any fun t => t.covers asid va && t.size == 2 ^ 21 then BitVec.ofNat 64 (va / 2 ^ 21 * 2 ^ 21 + 1)
  else BitVec.ofNat 64 (va / 65536 * 65536)

/-- A core's translation buffer records that a page is no longer clean. -/
def State.noteDirty (s : State) (core asid va : Nat) : State :=
  s.upCore core fun x => { x with tlb := x.tlb.map fun t => if t.covers asid va then { t with clean := false } else t }

end Sys2Proof.Machine
end

