-- ==== Sys2Proof/Machine/Bank.lean ====
section
/-! DEFINITION. What vault banks, HBM4E channels and CXL ports do with requests: holds and hold queues, wait lists,
service, watches, admission (R97 to R106, R133 to R145, R282, R343). -/

namespace Sys2Proof.Machine

/-! ### Requests -/

/-- Changes a request. -/
def State.upReq (s : State) (n : Nat) (f : Req → Req) : State := { s with reqs := s.reqs.adjust n f }

/-- Registers a request. -/
def State.addReq (s : State) (r : Req) : Nat × State :=
  let (n, s) := s.fresh
  (n, { s with reqs := s.reqs.put n r })

/-- Forgets a request. -/
def State.dropReq (s : State) (n : Nat) : State := { s with reqs := s.reqs.drop n }

/-- The bytes a request names, from its first (R133). -/
def Req.span (r : Req) : Nat :=
  match r.op with
  | .block n => 8 * n
  | .write ws _ => 8 * ws.length
  | .rsv p | .rel p _ _ | .giveBack p _ _ => if p then 16 else 8
  | .cas2 _ _ _ _ => 16
  | .dirty _ => 64
  | _ => 8

/-- The first byte of the first word a request names. -/
def Req.first (r : Req) : Nat := r.pa / 8 * 8

/-- Whether a request names a word among some bytes: a write-back of a line names its dirty words (R120). -/
def Req.touches (r : Req) (lo size : Nat) : Bool :=
  match r.op with
  | .dirty ws => ws.any fun w => decide (lo ≤ r.first + 8 * w.1) && decide (r.first + 8 * w.1 < lo + size)
  | _ => decide (lo < r.first + r.span) && decide (r.first < lo + size)

/-- Whether a hold covers a word that a request names. -/
def Hold.covers (h : Hold) (r : Req) : Bool := r.touches h.pa h.size

/-- The bank, channel or port that serves a request. -/
def State.bankOf (s : State) (r : Req) : Nat := (homeOf s.sys.image r.pa).num

/-- The entries of a hold queue, a wait list and a watch table (R103, R135, R145). -/
def queueMax (h : Home) : Nat := match h with | .bank _ _ => 64 | .chan _ _ => 1024 | _ => 256
def waitMax (h : Home) : Nat := match h with | .bank _ _ => 256 | _ => 4096
def watchMax (h : Home) : Nat := match h with | .bank _ _ => 64 | _ => 1024

/-- Whether a request fills a line of the large cores' caches. -/
def Req.fillsLine (r : Req) : Bool := match r.use with | .line _ => true | _ => false

/-- The write-backs of a line that have not been performed. -/
def State.writingBack (s : State) (line : Nat) : List Nat :=
  (s.reqs.filter fun e => e.2.pa == line && e.2.stage != .served &&
    (match e.2.op with | .dirty _ => true | _ => false)).map Prod.fst

/-- What waited for a write-back to be performed may be sent, once the last has been (R121); a fill, which is there, is admitted
anew (R120). -/
def State.unblock (s : State) (n : Nat) : State :=
  (s.reqs.filter fun e => e.2.after.contains n).foldl (fun s e =>
    let l := without n e.2.after
    let s := s.upReq e.1 fun r => { r with after := l }
    if l.isEmpty then s.after 0 20 (if e.2.fillsLine then .bankRequestArrival e.1 else .keyFill e.1) else s) s

/-- The answer leaves the place that served the request (R97). -/
def State.reply (s : State) (n : Nat) (ans : List Word) : State :=
  match s.reqs.find n with
  | none => s
  | some r =>
    let s := (s.upReq n fun r => { r with stage := .served, ans := ans }).after (halfUp r.lat) 7
      (if r.use = .fetch then .ibufLineFill r.core n else .memReply n)
    match r.op with
    | .dirty _ => s.unblock n
    | _ => s

/-- The request meets an event where it is served, and has no effect (R101, R180). -/
def State.refuse (s : State) (n code : Nat) (info : Word) : State :=
  (s.upReq n fun r => { r with event := some (code, info) }).reply n []

/-! ### Operators (Table 7.3, Table 15.5) -/

/-- The new value of a one-instruction atomic's word (Table 7.3). -/
def AtomOp.apply (op : AtomOp) (old e x : Word) : Word :=
  match op with
  | .aadd => old + x
  | .aand => old &&& x
  | .aor => old ||| x
  | .axor => old ^^^ x
  | .amin => if old.toInt < x.toInt then old else x
  | .amax => if x.toInt < old.toInt then old else x
  | .aminZ => if old.toNat < x.toNat then old else x
  | .amaxZ => if x.toNat < old.toNat then old else x
  | .axchg => x
  | .acas => if old = e then x else old

/-! ### Errors (R101, R347) -/

/-- The words of a line, by number, that carry an uncorrectable error, as a mask. -/
def State.badMask (s : State) (a : Nat) : Word :=
  BitVec.ofNat 64 (((List.range 8).filter fun i => (s.mem.attr (a + 8 * i)).error == 2).foldl (fun m i => m + 2 ^ i) 0)

/-- The number of words that a request names. -/
def Req.words (r : Req) : Nat := (r.span + 7) / 8

/-- Whether an operation reads its words, so that an uncorrectable error raises POISON (R101). FEQ and SETE, which are
synchronising accesses, neither return nor change a word's data: they count as not reading it (DESIGN CHOICE, log 80). -/
def MemOp.reads : MemOp → Bool
  | .store _ | .sts _ | .sete | .feq | .write _ _ | .dirty _ | .rel _ _ _ | .giveBack _ _ _
  | .probe | .waitEmpty | .unit | .turn => false
  | _ => true

/-! ### Words through a view (R281) -/

/-- The identity element of an operator (Table 15.5), as a word of elements. -/
def Merge.identity (m : Merge) : Word :=
  let rep (w : Nat) (v : Nat) : Word := BitVec.ofNat 64 (if w = 64 then v else if w = 32 then v * 0x100000001 else v * 0x1000100010001)
  let width := if m.elem = 0 ∨ m.elem = 2 then 32 else if m.elem = 1 then 16 else 64
  let fp := m.elem < 2
  match m.op with
  | .fadd => if m.elem = 0 then rep 32 0x80000000 else rep 16 0x8000
  | .vmin => if fp then (if m.elem = 0 then rep 32 0x7F800000 else rep 16 0x7F80) else rep width (2 ^ (width - 1) - 1)
  | .vmax => if fp then (if m.elem = 0 then rep 32 0xFF800000 else rep 16 0xFF80) else rep width (2 ^ (width - 1))
  | .vand => BitVec.allOnes 64
  | _ => 0

/-- A word as a request reads it: of a view, an empty word reads as the identity (R281). -/
def State.readFor (s : State) (r : Req) (a : Nat) : Word :=
  match r.view with
  | some m => if s.mem.full a then s.mem.read r.key a else m.identity
  | none => s.mem.read r.key a

/-- The full/empty bit that a request's write leaves: of a view, full (R281). -/
def State.emptyAfter (s : State) (r : Req) (a : Nat) (full : Bool) : Bool :=
  if full || r.view.isSome then false else (s.mem.attr a).empty

/-- Performs a write of a word for a request. -/
def State.writeFor (s : State) (r : Req) (a : Nat) (v : Word) (full : Bool) : State :=
  (s.setMem (s.mem.write r.key a v (s.emptyAfter r a full))).wrote a

/-- Performs a run of writes. -/
def State.writeRun (s : State) (r : Req) (full : Bool) : Nat → List Word → State
  | _, [] => s
  | a, v :: vs => (s.writeFor r a v full).writeRun r full (a + 8) vs

/-- Performs a large core's write-back of the dirty words of a line: monitors fire, the caches' own copies stay. -/
def State.writeDirty (s : State) (r : Req) : List (Nat × Word) → State
  | [] => s
  | (i, v) :: rest =>
    let a := r.pa / 64 * 64 + 8 * i
    let s := s.setMem (s.mem.write r.key a v (s.mem.attr a).empty)
    (s.fireLine (homeOf s.sys.image a).num (a / 64 * 64)).writeDirty r rest

/-! ### Service -/

/-- Whether a synchronising request can be served on a word in its present state (Table 4.5). -/
def MemOp.canServe (op : MemOp) (full : Bool) : Bool :=
  match op with
  | .ldf | .lde => full
  | .stf _ | .waitEmpty => !full
  | _ => true

/-- Whether a request waits in a wait list where its word does not allow it (Table 4.5). -/
def MemOp.waits : MemOp → Bool
  | .ldf | .lde | .stf _ | .waitEmpty => true
  | _ => false

/-- Whether a request is granted a hold rather than served at once (R98, R133). -/
def MemOp.holds : MemOp → Bool
  | .sub _ _ _ | .atom _ _ _ | .cas2 _ _ _ _ | .rsv _ | .merge _ _ | .leaf _ | .cancel | .turn => true
  | _ => false

/-- Posts the write-back of a hold, some cycles from now: it reaches its bank by its core's port (R105, R134). -/
def State.postBack (s : State) (n : Nat) (r : Req) (d : Nat) : State :=
  s.post (s.cyc + d) (s.arrivalRank (s.cyc + d) r) (.holdWriteBack n)

/-- Grants a hold (R133): the value leaves for the core, which writes back at once, but for a reservation. A unit whose turn has
come has its step, and gives the word back. -/
def State.grant (s : State) (n : Nat) (r : Req) : State :=
  let size := match r.op with | .rsv true | .cas2 _ _ _ _ => 16 | _ => 8
  let sect := match r.op with | .rsv _ => r.tid.map fun t => (t, r.ctx) | _ => none
  let s := s.upBank (s.bankOf r) fun b => { b with holds := b.holds ++ [{ pa := r.first, size := size, req := n, sect := sect }] }
  let v0 := s.readFor r r.first
  let v1 := if size = 16 then s.readFor r (r.first + 8) else 0
  match r.op with
  | .rsv p => s.reply n (if p then [v0, v1] else [v0])
  | .merge _ _ => (s.upReq n fun r => { r with stage := .held, ans := [v0, v1] }).postBack n r (half r.lat)
  | .leaf _ =>
    let s := s.upReq n fun r => { r with stage := .held, ans := [v0, v1] }
    if v0.getLsbD 7 then s.after (halfUp r.lat + 150) 5 (.translationFill n) else s.postBack n r r.lat
  | .turn =>
    let s := s.upReq n fun r => { r with stage := .held }
    (match r.instr with | some ev => s.after 0 r.index ev | none => s).after 0 r.index (.holdWriteBack n)
  | _ => (s.upReq n fun r => { r with stage := .held, ans := [v0, v1] }).postBack n r r.lat

/-- The thread for which a request is made: its own, or that of the collective whose result it writes (R122). -/
def State.madeFor (s : State) (r : Req) : Option Tid :=
  match r.use with
  | .record who => if who / 2 ^ 46 = 1 then (s.links.tickets.find (who - 2 ^ 46)).map fun t => t.tid else none
  | _ => r.tid

/-- A store to a CXL page has been accepted by its port: the device's completion reaches the core with the
acknowledgement (R119). The store of an engine is its thread's (R122). -/
def State.farStore (s : State) (n : Nat) (r : Req) : State :=
  match homeOf s.sys.image r.pa, s.madeFor r with
  | .port _, some t =>
    (s.upLinks fun l => { l with farWrites := l.farWrites ++ [(t, n, false)] }).after (halfUp r.lat) 7
      (.farEndCompletion n)
  | _, _ => s

/-- Whether a shoot-down that has reached the cores awaits a request: its translation has been dropped (R147, R314). -/
def State.shotDown (s : State) (n : Nat) : Bool := s.io.shoots.any fun e => e.2.waits.contains n

/-- Performs a request that needs no hold and can be served: its effect on the word, and its answer. A monitor that is armed through
a translation shot down meanwhile fires (R147). -/
def State.perform (s : State) (n : Nat) (r : Req) : State :=
  let a := r.first
  match r.op with
  | .load w sg => s.reply n [extractBytes (s.readFor r a) r.pa w sg]
  | .store v => ((s.writeFor r a v false).farStore n r).reply n []
  | .ldf => s.reply n [s.readFor r a]
  | .lde => ((s.setMem (s.mem.setEmpty a true)).wrote a).reply n [s.readFor r a]
  | .stf v => (s.writeFor r a v true).reply n []
  | .sts v => ((s.writeFor r a v true).farStore n r).reply n []
  | .sete => ((s.setMem (s.mem.setEmpty a true)).wrote a).reply n []
  | .feq => s.reply n [flagWord (s.mem.full a)]
  | .probe => s.reply n [flagWord (s.mem.full a)]
  | .waitEmpty => s.reply n []
  | .block k => s.reply n ((wordsFrom a k).map (s.readFor r) ++ if r.fillsLine then [s.badMask a] else [])
  | .write ws full => ((s.writeRun r full a ws).farStore n r).reply n []
  | .dirty ws => (s.writeDirty r ws).reply n []
  | .arm m =>
    let b := s.bankOf r
    let line := r.pa / 64 * 64
    match (if r.orphan then none else r.tid.bind fun t => (s.threadOf t).map fun _ => t) with
    | none => s.reply n []
    | some t =>
      let old (w : Watch) : Bool := w.tid == t && w.mon == m
      let s := { s with banks := s.banks.mapVals fun x => { x with watches := x.watches.filter fun w => !old w } }
      let s := s.upTid t fun th => { th with mons := th.mons.drop m }
      if (s.bank b).watches.length < watchMax (homeOf s.sys.image r.pa) then
        let mon : Mon := { ptr := r.ptr, line := line, route := r.route, fired := false, key := r.key }
        let s := s.upTid t fun th => { th with mons := th.mons.put m mon }
        let s := s.upBank b fun x => { x with watches := x.watches ++ [{ line := line, tid := t, mon := m, lat := r.lat }] }
        (if s.shotDown n then s.after (halfUp r.lat) 8 (.monitorFire t m) else s).reply n [0]
      else s.reply n [BitVec.allOnes 64]
  | _ => s.reply n []

/-- Whether a request's effect may change a full/empty bit, so that waiters are scanned (R103). -/
def MemOp.changesBit : MemOp → Bool
  | .lde | .stf _ | .sts _ | .sete => true
  | .write _ _ | .sub _ _ _ | .merge _ _ | .store _ => true
  | _ => false

/-- The address that a request's POISON names (Table 10.1): of several words, the first with the error (DEDUCED, log 101). -/
def State.poisonAt (s : State) (r : Req) : Word := r.ptr + BitVec.ofNat 64 (s.badWord r.first r.words - r.first)

/-- Serves a request that no hold stands against and whose word allows it: errors first (R101), then a hold or the
effect. The fill of a large core's line leaves out the words with errors. -/
def State.serve (s : State) (n : Nat) (r : Req) : State :=
  let s' := if r.op.reads then s.countRead r.first r.words else s
  if r.op.reads && !r.fillsLine && s.errorIn r.first r.words == 2 then
    (s'.tellPoison (s.badWord r.first r.words)).refuse n cPOISON (s.poisonAt r)
  else if r.op.holds then s'.grant n r
  else s'.perform n r

/-- A request that waited at its bank has been served: its thread is parked (mem) again until the reply (R102). -/
def State.unwait (s : State) (r : Req) : State :=
  match r.tid with
  | some t => s.upTid t fun th => match th.status with
    | .parked .empty w => { th with status := .parked .mem w }
    | _ => th
  | none => s

/-- One pass over a word's waiters in arrival order: each is served if the word's state then allows it (R103). -/
def State.scanPass (s : State) (b a : Nat) : List Nat → State × Bool
  | [] => (s, false)
  | n :: rest =>
    match s.reqs.find n with
    | none => s.scanPass b a rest
    | some r =>
      if r.first = a ∧ r.op.canServe (s.mem.full a) then
        let s := (s.upBank b fun x => { x with waiters := without n x.waiters }).unwait r
        ((s.serve n r).scanPass b a rest).1 |> fun s => (s, true)
      else s.scanPass b a rest

/-- Scans the waiters of a word until none can be served; `fuel` bounds the passes by the number of waiters. -/
def State.scan (s : State) (b a : Nat) : Nat → State
  | 0 => s
  | fuel + 1 =>
    match s.scanPass b a (s.bank b).waiters with
    | (s, true) => s.scan b a fuel
    | (s, false) => s

/-- Scans the waiters of a word that a unit has written. -/
def State.scanWord (s : State) (a : Nat) : State :=
  let b := (homeOf s.sys.image a).num
  s.scan b a ((s.bank b).waiters.length + 1)

/-- Serves a request and then the waiters of the words whose bit it may have changed. -/
def State.serveScan (s : State) (n : Nat) (r : Req) : State :=
  let s := s.serve n r
  if r.op.changesBit || r.view.isSome then
    let b := s.bankOf r
    if (s.bank b).waiters = [] then s
    else (wordsFrom r.first r.words).foldl (fun s a => s.scan b a ((s.bank b).waiters.length + 1)) s
  else s

/-- A full list refuses a request: it is sent again, and reaches the bank `L + 64` cyc later (R103, R135). -/
def State.sendAgain (s : State) (n : Nat) (r : Req) : State :=
  (s.upReq n fun r => { r with stage := .refused }).after (halfUp r.lat + 64) 7 (.refusedRequestResend n)

/-- The frame ownership rules at the place that serves a request: K-space requests are checked (R334), requests of
a borrower context admitted after the revocation are rejected (R324, R325), and write-backs to a frame that the kernel
no longer holds (R141, R324). -/
def State.admitEvent (s : State) (r : Req) : Option Nat :=
  if 2 ≤ tierOf r.pa ∨ r.op = .unit ∨ r.op = .turn then none
  else
    let kern := s.kernOf r.ctx
    let f := s.frame (frameOf r.pa)
    match r.op with
    | .dirty _ | .giveBack _ _ _ | .rel _ _ _ => if f.passes kern then none else some cREVOKED
    | _ =>
      if spaceOf r.ptr = 4 then f.check kern
      else if f.passes kern then none
      else if f.revoked kern then some cREVOKED else none

/-- A request meets the word: it joins the hold queue, the wait list, or is served (R103, R133). -/
def State.meetWord (s : State) (n : Nat) (r : Req) : State :=
  let b := s.bankOf r
  let h := homeOf s.sys.image r.pa
  let bk := s.bank b
  if bk.holds.any fun x => x.covers r then
    if bk.queue.length < queueMax h then
      (s.upBank b fun x => { x with queue := x.queue ++ [n] }).upReq n fun r => { r with stage := .queued }
    else s.sendAgain n r
  else if r.op.canServe (s.mem.full r.first) then s.serveScan n r
  else if r.orphan then s.dropReq n
  else if bk.waiters.length < waitMax h then
    let s := (s.upBank b fun x => { x with waiters := x.waiters ++ [n] }).upReq n fun r => { r with stage := .waiting }
    match r.tid with
    | some t => s.upTid t fun th => match th.status with
      | .parked .mem w => { th with status := .parked .empty w }
      | _ => th
    | none => s
  else s.sendAgain n r

/-- The step of a unit waits for its turn at a word on which a hold stands (R133; DESIGN CHOICE, log 115), once; it runs at a rank of
the cycle of its turn. -/
def State.awaitTurn (s : State) (a : Nat) (ev : Instr) (rank : Nat := 7) : State :=
  if s.reqs.any fun e => e.2.op == .turn && e.2.instr == some ev && e.2.pa == a then s
  else
    let r : Req := { op := .turn, instr := some ev, pa := a, index := rank }
    let (n, s) := s.addReq r
    s.meetWord n r

/-- A request has been admitted where it is served (R124). A fill of a large core's line follows the write-backs of the line that
have been sent before it (R120). -/
def State.admitOne (s : State) (n : Nat) (r : Req) : State :=
  match s.admitEvent r with
  | some e => s.refuse n e r.ptr
  | none =>
    if r.fillsLine ∧ s.writingBack r.pa ≠ [] then s.upReq n fun q => { q with after := s.writingBack r.pa }
    else s.meetWord n r

/-- The reads that a combining node has merged with a request (R175). -/
def State.merged (s : State) (n : Nat) : List (Nat × Req) := s.reqs.filter fun e => e.2.lead == some n

/-- A request has been admitted, and with it the reads merged with it, each answered on its own (R175). -/
def State.takeUp (s : State) (n : Nat) (r : Req) : State :=
  (s.merged n).foldl (fun s e => (s.upReq e.1 fun r => { r with lead := none }).admitOne e.1 e.2) (s.admitOne n r)

/-- The queued requests for a freed word, in arrival order, each in the ordinary way until one holds it again. -/
def State.drainQueue (s : State) (b lo size : Nat) : List Nat → State
  | [] => s
  | n :: rest =>
    match s.reqs.find n with
    | none => (s.upBank b fun x => { x with queue := without n x.queue }).drainQueue b lo size rest
    | some r =>
      if r.touches lo size && !((s.bank b).holds.any fun x => x.covers r) then
        let s := s.upBank b fun x => { x with queue := without n x.queue }
        (s.meetWord n r).drainQueue b lo size rest
      else s.drainQueue b lo size rest

/-- Ends the hold of a word or a pair, and serves what waited for it (R133). -/
def State.release (s : State) (b lo size : Nat) : State :=
  let s := s.upBank b fun x => { x with holds := x.holds.filter fun h => !(decide (h.pa = lo)) }
  s.drainQueue b lo size (s.bank b).queue

/-! ### Fair queueing (R343) -/

/-- The unit in which tags are kept: a common multiple of the weights 1 to 255. -/
def tagUnit : Nat := (List.range 255).foldl (fun m i => Nat.lcm m (i + 1)) 1

/-- The weight of a flow: the partition's, or 1 when it is disabled. -/
def State.weightOf (s : State) (ctx part : Nat) : Nat :=
  match (s.context ctx).parts.find part with
  | some p => if p.weight = 0 then 1 else p.weight
  | none => 1

/-- The number of a flow. -/
def flowOf (ctx part : Nat) : Nat := ctx * 8 + part

/-- Whether one waiting request is admitted before another: smaller start tag, then lower context, then lower
partition. -/
def Waiting.before (x y : Waiting) : Bool :=
  if x.start ≠ y.start then decide (x.start < y.start)
  else if x.ctx ≠ y.ctx then decide (x.ctx < y.ctx)
  else decide (x.part < y.part)

/-- The flow that is admitted next. -/
def nextFlow : List Waiting → Option Waiting
  | [] => none
  | w :: rest => match nextFlow rest with
    | none => some w
    | some v => if v.before w then some v else some w

/-- Whether two waiting requests belong to one flow; and to one region of it. -/
def Waiting.flow (x y : Waiting) : Bool := x.ctx == y.ctx && x.part == y.part
def Waiting.share (x y : Waiting) : Bool := x.flow y && x.region == y.region

/-- Within the chosen flow, the oldest request of the lowest class number; among several regions, of the one whose next
tag is the smallest (DESIGN CHOICE, log 81). `tag` is the next tag of a region. -/
def nextOfFlow (f : Waiting) (tag : Waiting → Nat) : List Waiting → Option Waiting
  | [] => none
  | w :: rest =>
    let r := nextOfFlow f tag rest
    if w.flow f then
      match r with
      | none => some w
      | some v => if v.cls < w.cls ∨ (v.cls = w.cls ∧ tag v < tag w) then some v else some w
    else r

/-- The tags of the requests of a group, in their order: those that stay when one request has been admitted go to the
requests that stay (R343). -/
def retag (same : Waiting → Bool) (set : Waiting → Nat → Waiting) : List Nat → List Waiting → List Waiting
  | _, [] => []
  | [], ws => ws
  | t :: ts, w :: ws => if same w then set w t :: retag same set ts ws else w :: retag same set (t :: ts) ws

/-- The waiting requests without one that is admitted: its flow's and its region's later tags go to the others, in order. -/
def Waiting.remove (w : Waiting) (l : List Waiting) : List Waiting :=
  let rest := l.filter fun y => !(y.req == w.req)
  let rest := retag w.flow (fun y t => { y with start := t }) (((l.filter w.flow).map fun y => y.start).drop 1) rest
  retag w.share (fun y t => { y with sub := t }) (((l.filter w.share).map fun y => y.sub).drop 1) rest

/-- A request joins its flow's queue at a channel or port, with its start tag, and with its region's within the flow, whose
own virtual time stands with the tags. `cls` and `weight` are its region's. -/
def State.joinFlow (s : State) (b n : Nat) (r : Req) (cls weight region : Nat) : State :=
  s.upBank b fun x =>
    let units := (r.span + 63) / 64
    let f := flowOf r.ctx r.part
    let start := max x.vtime ((x.tags.find f).getD 0)
    let sub := max ((x.tags.find (2 ^ 100 + f)).getD 0) ((x.tags.find (2 ^ 20 + f * 2 ^ 64 + region)).getD 0)
    { x with
      arrived := x.arrived ++
        [{ req := n, ctx := r.ctx, part := r.part, cls := cls, region := region, start := start, sub := sub }]
      tags := (x.tags.put f (start + units * (tagUnit / s.weightOf r.ctx r.part))).put (2 ^ 20 + f * 2 ^ 64 + region)
        (sub + units * (tagUnit / max 1 (min 255 weight))) }

/-- The class, weight and number of the region of a request's thread. -/
def State.regionOf (s : State) (r : Req) : Nat × Nat × Nat :=
  match r.tid.bind s.threadOf with
  | some t => (t.region.cls, t.region.weight, t.rcb.toNat)
  | none => (0, 1, 0)

/-- The turn of a word of a merge. -/
def Req.turn (r : Req) : Option (Nat × Bool) := match r.use with | .merge _ _ k h => some (k, h) | _ => none

/-- Whether a merge still has an earlier word that neither holds its target nor has been written back, so that a word's hold waits (R282, R284). -/
def State.outOfTurn (s : State) (r : Req) : Bool :=
  match r.turn with
  | some (k, true) => s.reqs.any fun e => e.2.tid == r.tid && (match e.2.turn with
    | some (j, h) => decide (j < k) && !(h && (e.2.stage == .held || e.2.stage == .served && e.2.event.isNone))
    | none => false)
  | _ => false

/-- Who a request's port sees: the command of an engine, a thread, or the request itself (DEDUCED, log 82). -/
def Req.sender (r : Req) (n : Nat) : Nat :=
  match r.use, r.tid with
  | .copy q _ _, _ | .lane q _, _ | .matrix q _, _ => q
  | _, some t => 2 ^ 64 + (Tid.word t).toNat
  | _, none => 2 ^ 65 + n

/-- A port delivers one request in a cycle (R105), and what one sender sends in one cycle counts as one (DEDUCED,
log 82): the first cycle in which the port takes a request of a sender that has reached it now. -/
def portTurn (now who : Nat) (last : Option (Nat × Nat)) : Nat :=
  match last with
  | none => now
  | some (t, w) => if t < now then now else if w = who then t else t + 1

/-- A request reaches the place that serves it (R105, R124): a bank meets it with its word as soon as its port is free; at a
channel or a port it joins its flow and awaits admission in this cycle or a later one. -/
def State.arrive (s : State) (n : Nat) : State :=
  match s.reqs.find n with
  | none => s
  | some r =>
    if s.outOfTurn r then s.after 1 12 (.bankRequestArrival n)
    else match homeOf s.sys.image r.pa with
    | .chan _ _ | .port _ =>
      let b := s.bankOf r
      let idle := (s.bank b).arrived.isEmpty
      let g := s.regionOf r
      let s := s.joinFlow b n r g.1 g.2.1 g.2.2
      if idle then s.after 0 20 (.channelAdmission b) else s
    | .bank v _ =>
      if r.portAt.isSome ∨ (r.use = .fetch ∧ v = r.core) then s.takeUp n r
      else
        let b := s.bankOf r
        let p := r.port v
        let t := portTurn s.cyc (r.sender n) ((s.bank b).ports.find p)
        let s := s.upBank b fun x => { x with ports := x.ports.put p (t, r.sender n) }
        if t ≤ s.cyc then s.takeUp n r
        else (s.upReq n fun r => { r with portAt := some t }).post t (s.arrivalRank t r) (.bankRequestArrival n)
    | _ => s.takeUp n r

/-- A channel or port admits the waiting request of smallest start tag (R343). -/
def State.admitNext (s : State) (b : Nat) : State :=
  let l := (s.bank b).arrived
  let tag (w : Waiting) : Nat := match l.find? w.share with | some v => v.sub | none => w.sub
  match (nextFlow l).bind fun f => (nextOfFlow f tag l).map fun w => (f, w) with
  | none => s
  | some (f, w) =>
    let s := s.upBank b fun x =>
      { x with arrived := w.remove l, vtime := max x.vtime f.start,
               tags := x.tags.put (2 ^ 100 + flowOf w.ctx w.part) (tag w) }
    let s := if (s.bank b).arrived.isEmpty then s else s.after 0 20 (.channelAdmission b)
    match s.reqs.find w.req with
    | none => s
    | some r => s.takeUp w.req r

end Sys2Proof.Machine
end

