-- ==== Sys2Proof/Machine/Tables.lean ====
section
/-! DEFINITION. The words of the I/O die's tables, as loads return them: the control window and the address-space table
(R296, R297, R353, R358, Tables 17.2, 17.7, 20.1, 20.7). -/

namespace Sys2Proof.Machine

/-- A compute die. -/
def State.die (s : State) (d : Nat) : Die := (s.dies.find d).getD {}

/-- Changes a die. -/
def State.upDie (s : State) (d : Nat) (f : Die → Die) : State := { s with dies := s.dies.put d (f (s.die d)) }

/-- A word of a launch table entry. -/
def Die.entry (d : Die) (n i : Nat) : Word := (d.table.find (8 * n + i)).getD 0

/-- Sets a word of a launch table entry. -/
def State.setEntry (s : State) (die n i : Nat) (v : Word) : State :=
  s.upDie die fun d => { d with table := d.table.put (8 * n + i) v }

/-- What a word of the I/O die's tables is. -/
inductive TableWord where
  | desc (asid i : Nat)
  | launch (die n i : Nat)
  | ring (n i : Nat)
  | aperture (n : Nat)
  | coreDrops (core : Nat)
  | coreFixed (core : Nat)
  | kernFixed (kern : Nat)
  | largeDrops
  | zero
  deriving DecidableEq, Repr

/-- The small core with an index of the counter blocks (Table 17.7). -/
def countedCore (i : Nat) : Nat := i / 25600 * 65536 + i % 25600 / 160 * 256 + i % 160

/-- The table word at a physical address. -/
def tableSlot (pa : Nat) : TableWord :=
  if pa < 0x300001000000 then .desc ((pa - 0x300000000000) / 64) (pa % 64 / 8)
  else
    let o := pa - 0x300001000000
    if decide (0x100000 ≤ o) && decide (o < 0x110000) then .launch ((o - 0x100000) / 0x4000) (o % 0x4000 / 64) (o % 64 / 8)
    else if decide (0x200000 ≤ o) && decide (o < 0x201000) then .ring ((o - 0x200000) / 64) (o % 64 / 8)
    else if decide (0x300000 ≤ o) && decide (o < 0x300800) then .aperture ((o - 0x300000) / 8)
    else if decide (0x400000 ≤ o) && decide (o < 0x400000 + 16 * 102400) then
      let c := countedCore ((o - 0x400000) / 16)
      if o % 16 < 8 then .coreDrops c else .coreFixed c
    else if decide (0x600000 ≤ o) && decide (o < 0x600020) then
      if o % 16 < 8 then .kernFixed ((o - 0x600000) / 16 + 1) else if o < 0x600010 then .largeDrops else .zero
    else .zero

/-- A ring unit's control block. -/
def State.ring (s : State) (n : Nat) : Ring := (s.links.rings.find n).getD {}

/-- A word of a control block as stored. -/
def Ring.word (r : Ring) (i : Nat) : Word := (r.ws.find i).getD 0

/-- The state of a ring: 0 off, 1 running, 2 halted to skip, 3 halted to rekey. -/
def Ring.state (r : Ring) : Nat := (r.word 3).toNat % 4

/-- The value of a table word. -/
def State.tableValue (s : State) (w : TableWord) : Word :=
  match w with
  | .desc asid i => (s.io.asids.find (asid * 8 + i)).getD 0
  | .launch d n i => (s.die d).entry n i
  | .ring n i =>
    let r := s.ring n
    if i = 3 then BitVec.ofNat 64 (r.state + 4 * r.key.isSome.toNat) else r.word i
  | .aperture n => (s.links.apertures.find n).getD 0
  | .coreDrops c => BitVec.ofNat 64 (s.core c).drops
  | .coreFixed c => BitVec.ofNat 64 (s.core c).fixed
  | .kernFixed k => BitVec.ofNat 64 ((s.io.kernels.find k).getD {}).errors
  | .largeDrops => BitVec.ofNat 64 s.io.bigDrops
  | .zero => 0

/-- Whether a table word reads as full: all do, but an empty status word of a launch table entry (R270, R296). -/
def State.tableFull (s : State) (w : TableWord) : Bool :=
  match w with
  | .launch d n 5 => !((s.die d).taken.contains n)
  | _ => true

/-- Whether an address lies in the I/O die's tables. -/
def inTables (pa : Nat) : Bool := tierOf pa == 4 && decide (pa < 2 ^ 57)

/-- Whether an address lies behind the endpoint or in another package. -/
def isFar (pa : Nat) : Bool := tierOf pa == 2 || tierOf pa == 3

/-- Some free words (log 5). -/
def State.freeWords (s : State) : Nat → List Word × State
  | 0 => ([], s)
  | n + 1 =>
    let (v, s) := s.freeWord
    let (vs, s) := s.freeWords n
    (v :: vs, s)

end Sys2Proof.Machine
end

