-- ==== Sys2Proof/Machine/Slots.lean ====
section
/-! DEFINITION. Slots: the partition's free slots, the budgets of regions, creating a thread, leaving a slot, moving to
another core, monitors dropped, withdrawal and cancellation (R49 to R59, R79, R80, R106, R149, R195, R267, R286, R342). -/

namespace Sys2Proof.Machine

/-! ### Places for threads -/

/-- The number of a core's slots; a large core has 16 hardware threads (log 12). -/
def slotCount (c : Nat) : Nat := if isLarge c then 16 else 64

/-- Whether a core belongs to a kernel whose services an error has terminated: nothing is placed on it until the kernel
restarts (R348). -/
def State.isDown (s : State) (c : Nat) : Bool := ((s.io.kernels.find (s.ctxOf c)).getD {}).down

/-- The lowest slot that a partition may use and that is free (R342); a disabled one has none (R341). -/
def State.freeSlot (s : State) (c part : Nat) : Option Nat :=
  match (s.context (s.ctxOf c)).parts.find part with
  | none => none
  | some p =>
    if p.weight = 0 ∨ s.isDown c then none
    else firstFrom (fun k => p.slots.testBit k && (s.thread c k).isNone) 0 (slotCount c)

/-- Whether a DRAIN has stopped placement of a partition on a core (R344). -/
def State.placeable (s : State) (c part : Nat) : Bool := !((s.core c).stopped.contains part)

/-- The threads of a core whose region chain holds a block. -/
def Core.ofBlock (c : Core) (block : Word) : Nat := (c.threads.filter fun e => e.2.region.chain.contains block).length

/-- Whether some more threads of a region on a core stay within the budgets of the region and its ancestors (R267). -/
def State.fits (s : State) (c : Nat) (g : Region) (n : Nat) : Bool :=
  (g.chain.zip g.budgets).all fun e =>
    let here := (s.core c).ofBlock e.1
    (e.2.1 == 0 || decide (here + n ≤ e.2.1)) &&
      (e.2.2.1 == 0 || decide (0 < here) ||
        decide ((s.cores.filter fun x => x.2.owner.toNat % 65536 == s.ctxOf c && decide (0 < x.2.ofBlock e.1)).length < e.2.2.1))

/-- Whether a bank that a window touches is gated (R56). -/
def State.gated (s : State) (c : Nat) (w : Word) : Bool :=
  !isLarge c && (winBanks w).any fun b => !((s.core c).threads.any fun e => (winBanks e.2.win).contains b)

/-- The delay from the event that creates a thread to its readiness (R57). -/
def State.startDelay (s : State) (c : Nat) (w : Word) : Nat := if s.gated c w then 80 else 16

/-- Puts a thread into a slot, with its windows zeroed (R54); it becomes ready in a given cycle. -/
def State.settle (s : State) (c k : Nat) (t : Thread) (ready : Nat) : State :=
  s.upCore c fun x =>
    let x := x.zeroWin t.win
    let x := { x with retain := x.retain.filter fun b => !((winBanks t.win).contains b) }
    x.upSlot k fun sl =>
      { sl with thread := some { t with status := .starting, readyAt := ready, outSince := some s.cyc, next := 0 } }

/-- Creates a thread in a free slot: it becomes ready after some cycles. Its banks may enter retention 1,024 cyc after it is
created (R56). -/
def State.createIn (s : State) (c k : Nat) (t : Thread) (d : Nat) : State :=
  let s := s.settle c k t (s.cyc + d)
  let s := if d < 1024 ∨ isLarge c then s else s.after 1024 2 (.bankRetention c)
  s.after d 20 (.threadReady (s.tidAt c k))

/-- Creates a thread in a free slot: it becomes ready after the delay of R57. -/
def State.create (s : State) (c k : Nat) (t : Thread) : State := s.createIn c k t (s.startDelay c t.win)

/-- The window of a hardware thread of a large core: w0 to w127 (R31). -/
def bigWin (k : Nat) : Word := winWord (16 * k) 16 0 0 0 0

/-- A window for given sizes on a core, or the fixed window of a hardware thread. -/
def State.windowFor (s : State) (c k ws vs as : Nat) : Option Word :=
  if isLarge c then some (bigWin k) else (s.core c).place ws vs as

/-! ### Cancel notices -/

/-- Whether a core has received the cancel notice of a block: it was sent, the message time has passed, and the
block's flag has not been cleared since (R285, R286). -/
def State.noticed (s : State) (c : Nat) (block : Word) (pa key : Nat) : Bool :=
  (s.cancels.any fun n => n.1 == s.ctxOf c && n.2.1 == block &&
    decide (n.2.2.2 + (if n.2.2.1 = c then 1 else messageTime n.2.2.1 c) ≤ s.cyc)) &&
  (s.mem.read key (pa + 0x10)).getLsbD 0

/-- Whether a core has received a notice for a block of a region's chain (R286). -/
def State.regionCancelled (s : State) (c : Nat) (g : Region) : Bool :=
  (g.chain.zip g.places).any fun e => s.noticed c e.1 e.2.1 e.2.2

/-! ### What waits for a slot -/

/-- Writes the registers that a message brings, from w1 on. -/
def State.setWs (s : State) (c k : Nat) : Nat → List Word → State
  | _, [] => s
  | n, v :: vs => (s.setW c k n v).setWs c k (n + 1) vs

/-- Posts a step for every number of a list, in order. -/
def State.postAll (s : State) (rank : Nat) (f : Nat → Instr) : List Nat → State
  | [] => s
  | n :: rest => (s.after 0 rank (f n)).postAll rank f rest

/-- The arrival of a message. -/
def State.arrivalStep (s : State) (n : Nat) : Instr :=
  match s.msgs.find n with
  | some (.nput _ _ _ _ _) => .nputLinkArrival n
  | some (.wake _ _ _) => .wakeArrival n
  | some (.spawn _ _ _ _ _) => .amsgArrival n
  | _ => .registerWriteArrival n

/-- Messages that wait for a place in the inbound buffer arrive again (R73), ahead of those that arrive in this cycle. -/
def State.retryPressed (s : State) (c : Nat) : State :=
  let l := (s.core c).pressed
  (s.upCore c fun x => { x with pressed := [] }).postAll 19 s.arrivalStep l

/-- Whether a core holds a thread, a caddy entry or an eviction entry of some partition (R344). An inline record is part
of its thread. -/
def Core.holdsPart (c : Core) (part : Option Nat) : Bool :=
  let of (p : Nat) : Bool := match part with | none => true | some q => p == q
  (c.slots.any fun e =>
    (match e.2.thread with | some t => of t.part | none => false) ||
    (match e.2.evicted with | some (_, p) => of p | none => false)) ||
  c.caddy.any fun k => k.inlined.isNone && of k.part

/-- Whether a drained set is empty. -/
def State.drained (s : State) (d : Drain) : Bool := d.cores.all fun c => !(s.core c).holdsPart d.part

/-- DRAINs of a core's set end when the set is empty. -/
def State.drainCheck (s : State) (c : Nat) : State :=
  s.io.drains.foldl (fun s e => if e.2.cores.contains c && s.drained e.2 then s.after 0 46 (.drainLimitExpiry e.1) else s) s

/-- The packets that wait for a core, lowest class first (R268), and those whose core budget may have room again. -/
def State.retryDispatch (s : State) (c : Nat) : State :=
  s.dies.foldl (fun s d => d.2.queues.foldl (fun s q => q.2.foldl (fun s (p : Packet) =>
    if p.ctx = s.ctxOf c then
      let cs := if p.region.budgets.any fun b => b.2.1 != 0 then p.todo else p.todo.filter (· == c)
      s.postAll 21 (.dispatch p.id) cs
    else s) s) s) s

/-- An active message takes a slot of its core (R50, R55, R76, R267, R344): a thread is created in the lowest free slot, or the
message waits (none). A malformed message is dropped and counted, and so is one whose core has passed to another context since
it was sent. Word 1 gives the sizes of the windows: its bases, which the rule does not name, count for its form only, and the
core places the windows. Without window space the message waits as it does without a slot (DESIGN CHOICE, log 86). -/
def State.seat (s : State) (msg : Nat) : Option State :=
  match s.msgs.find msg with
  | some (.spawn c ws sender t ctx) =>
    let s' := { s with msgs := s.msgs.drop msg }
    let entry := ws.getD 0 0
    let win := ws.getD 1 0
    if entry.getLsbD 0 || !winOk win || s.ctxOf c != ctx then some (s'.drop c)
    else if s.regionCancelled c t.region then some s'
    else if !s.placeable c t.part || !s.fits c t.region 1 then none
    else
      match s.freeSlot c t.part with
      | none => none
      | some k =>
        match s.windowFor c k (wSize win) (vSize win) (aSize win) with
        | none => none
        | some w => some (((s'.create c k { t with pc := entry, win := w }).setWs c k 1 ((ws.drop 2).take 6)).setW c k 7 sender)
  | _ => some s

/-- The active messages that wait at a core take their slots in the order of their arrival, up to the first that must wait, of
whichever partition (DESIGN CHOICE, log 86). -/
def State.seatAll (s : State) (c : Nat) : List Nat → State
  | [] => s.upCore c fun x => { x with doors := [] }
  | n :: rest => match s.seat n with
    | some s => s.seatAll c rest
    | none => s.upCore c fun x => { x with doors := n :: rest }

/-- The messages that wait at other cores of a core's context try again, for the budget of a region's cores may have room (R267). -/
def State.seatElsewhere (s : State) (c : Nat) : State :=
  s.postAll 20 .amsgArrival (s.cores.filterMap fun e =>
    if e.1 ≠ c ∧ e.2.owner.toNat % 65536 = s.ctxOf c then e.2.doors.head? else none)

/-- A slot or a window has become free: active messages, packets and drains that waited for it go on. -/
def State.vacated (s : State) (c : Nat) : State :=
  (((s.seatAll c (s.core c).doors).seatElsewhere c).retryDispatch c).drainCheck c

/-! ### Leaving a slot -/

/-- Drops a monitor of a thread: its watch, its fired bit (R146). -/
def State.disarm (s : State) (c k m : Nat) : State :=
  match (s.thread c k).bind fun t => t.mons.find m with
  | none => s
  | some mon =>
    let t := s.tidAt c k
    let s := s.upBank (homeOf s.sys.image mon.line).num fun b =>
      { b with watches := b.watches.filter fun w => !(w.tid == t && w.mon == m) }
    s.upThread c k fun th => { th with mons := th.mons.drop m }

/-- Drops all four monitors. -/
def State.disarmAll (s : State) (c k : Nat) : State := [0, 1, 2, 3].foldl (fun s m => s.disarm c k m) s

/-- Banks without windows are gated, and lose their contents (R56). -/
def Core.gate (c : Core) (w : Word) : Core :=
  let live (b : Nat) : Bool := c.threads.any fun e => (winBanks e.2.win).contains b
  let gone (b : Nat) : Bool := (winBanks w).contains b && !live b
  { c with
    regs := c.regs.filter fun e => !gone (e.1 / 128)
    vregs := c.vregs.filter fun e => !gone (16 + e.1 / 32)
    accs := c.accs.filter fun e => !gone (20 + e.1 / 8)
    retain := c.retain.filter fun b => !gone b }

/-- Counts drops at a core. -/
def State.dropN (s : State) (c : Nat) : Nat → State
  | 0 => s
  | n + 1 => (s.drop c).dropN c n

/-- Whether a thread, a continuation or a frame still belongs to a strand of a frame. -/
def State.inFrame (s : State) (f : Nat) : Bool :=
  let here (x : Option (Nat × Nat)) : Bool := match x with | some (g, _) => g == f | none => false
  (s.cores.any fun c => (c.2.threads.any fun e => here e.2.strand || e.2.frames.contains f) || c.2.caddy.any fun e => here e.strand) ||
    s.frames.any fun e => here e.2.outer

/-- The frames of cancelled tasks go when no strand of theirs is left (R286). -/
def State.sweep (s : State) : State :=
  if s.frames.any fun e => e.2.dead then { s with frames := s.frames.filter fun e => !e.2.dead || s.inFrame e.1 } else s

/-- A thread has left a slot without an issue for which threads in YIELD wait: no later thread of the slot issues in its stead
(R64). -/
def Core.missed (x : Core) (k : Nat) : Core :=
  let miss (y : List Nat × Nat) : List Nat × Nat := (y.1.map fun j => if j = k then k + 64 else j, y.2)
  { x with slots := x.slots.mapVals fun sl => { sl with thread := sl.thread.map fun t => { t with yield := t.yield.map miss } } }

/-- A thread's slot becomes free: the generation rises, the windows are released, writes that waited for its registers
are dropped, and what waited for the slot goes on (R49, R56, R62). -/
def State.leave (s : State) (c k : Nat) : State :=
  match s.thread c k with
  | none => s
  | some t =>
    let s := s.disarmAll c k
    let s := (s.upCore c fun x => x.upSlot k fun sl => { sl with thread := none, gen := (sl.gen + 1) % 256 }).sweep
    let s := s.upCore c fun x => if x.threads.isEmpty then { x with last := none } else x
    let lost := ((s.core c).inbound.filter fun e => e.1 == k).length
    let s := s.upCore c fun x =>
      let x := { x.missed k with
        inbound := x.inbound.filter fun e => !(e.1 == k)
        caddy := x.caddy.filter fun e => e.written || e.pusher != s.tidAt c k }
      if isLarge c then x else x.gate t.win
    let s := (((s.dropN c lost).retryPressed c).vacated c).kick c
    if isLarge c then s else s.after 0 30 (.bankRetention c)

/-- Gives up a request whose thread no longer awaits it; a request that waits in a list leaves it (R106). The fill of a large
core's line is the caches' own: other accesses may wait for it (R120). -/
def State.withdraw (s : State) (n : Nat) : State :=
  match s.reqs.find n with
  | none => s
  | some r =>
    if r.fillsLine then s
    else match r.stage with
    | .waiting | .queued =>
      let s := s.upBank (s.bankOf r) fun b => { b with waiters := without n b.waiters, queue := without n b.queue }
      s.dropReq n
    | .translating | .logging | .keying | .last | .stalled => s.dropReq n
    | _ => s.upReq n fun r => { r with orphan := true }

/-- Whether a request belongs to an engine's command, which outlives its thread (R178). -/
def Req.ofEngine (r : Req) : Bool := match r.use with | .copy _ _ _ | .list _ _ | .lane _ _ | .matrix _ _ => true | _ => false

/-- Whether a request is a relaxed access that still runs: it completes before its thread ends (R62). -/
def Req.runsOn (r : Req) : Bool := (match r.use with | .relaxed _ => true | _ => false) && r.stage != .stalled

/-- Whether a request is an outstanding relaxed access: it still runs, or is a store that its full dirty log holds at the core
(R99). -/
def State.outstanding (s : State) (n : Nat) (r : Req) : Bool :=
  (match r.use with | .relaxed _ => true | _ => false) &&
    (r.stage != .stalled || (r.tid.bind s.threadOf).any fun th => th.relaxed.contains n)

/-- A gather whose thread leaves before it has been accepted with its promise gives its place back, and the next request in the
fabric may take it (R174, R178). -/
def State.dropGather (s : State) (t : Tid) : State :=
  let mine (q : CopyCmd) : Bool := q.tid == t && !q.granted
  let ids := s.clusters.flatMap fun e => (e.2.gather.filter mine).map fun q => q.id
  if ids.isEmpty then s
  else
    let s := s.reqs.foldl (fun s e => match e.2.use with
      | .list id _ => if ids.contains id then s.withdraw e.1 else s
      | _ => s) s
    let s := { s with clusters := s.clusters.mapVals fun c => { c with gather := c.gather.filter fun q => !mine q } }
    s.clusters.foldl (fun s e => if e.2.wants.isEmpty then s else s.after 0 20 (.gatherRequestAccept e.1)) s

/-- Withdraws what a thread's own instructions have under way, but for its relaxed accesses, which complete (R62, R195,
R345). -/
def State.withdrawAll (s : State) (t : Tid) : State :=
  let s := s.dropGather t
  s.reqs.foldl (fun s e => if e.2.tid == some t && !e.2.ofEngine && !e.2.runsOn then s.withdraw e.1 else s) s

/-- Whether a request waits in a wait list, or has been served there, for a thread that an error has struck meanwhile (R106). -/
def Req.lingers (r : Req) (t : Tid) : Bool :=
  r.tid == some t && !r.orphan && (match r.use with | .reg _ | .done => r.op.waits | _ => false) &&
    (r.stage == .waiting || r.stage == .served)

/-- The same without its requests that wait in a wait list, which only a cancellation or a save takes out (R106). -/
def State.withdrawRest (s : State) (t : Tid) : State :=
  let s := s.dropGather t
  s.reqs.foldl (fun s e => if e.2.tid == some t && !e.2.ofEngine && !e.2.runsOn && !e.2.lingers t then s.withdraw e.1 else s) s

/-- Whether the relaxed accesses of a thread that can still complete have done so. -/
def State.quiet (s : State) (t : Thread) : Bool :=
  t.relaxed.all fun n => match s.reqs.find n with
    | some r => !r.runsOn
    | none => true

/-- The views of a strand are discarded, and neither they nor those of later strands are merged (R195, R286). -/
def State.dropViews (s : State) (f st : Nat) : State :=
  let s := { s with
    frames := s.frames.adjust f fun fr => { fr with strands := fr.strands.adjust st fun sd => { sd with views := [], cut := true } } }
  { s with cores := s.cores.mapVals fun c => { c with binds := c.binds.filter fun b => !(b.1 == f && b.2.1 == st) } }

/-- The records of events that a thread met in this cycle are discarded, unless they are an engine's (R196). -/
def State.dropRecords (s : State) (t : Tid) : State :=
  s.upIo fun io => { io with recs := io.recs.filter fun e =>
    !(e.2.met == s.cyc && e.2.tid == Tid.word t && (decide (e.2.source < 2) || e.2.source == 5)) }

/-- A cancelled thread ends, once its relaxed accesses have completed (R62). -/
def State.endCancelled (s : State) (c k : Nat) : State :=
  match s.thread c k with
  | none => s
  | some t =>
    if s.quiet t then (s.upThread c k fun t => { t with relaxed := [], deferred := [] }).leave c k
    else s.park c k .mem .ending

/-- A thread is cancelled: what it waits for is withdrawn, its section abandoned, its monitors disarmed, its views
discarded, and it ends as TEND would (R195). The frames of its task stay while a strand of theirs runs on a core that the notice
has not reached (R286). -/
def State.cancelThread (s : State) (c k : Nat) : State :=
  match s.thread c k with
  | none => s
  | some t =>
    let s := s.abandon c k
    let s := ((s.withdrawAll (s.tidAt c k)).dropRecords (s.tidAt c k)).disarmAll c k
    let s := match t.strand with
      | some (f, st) => s.dropViews f st
      | none => s
    let dead (e : Nat × TFrame) : Nat × TFrame := if t.frames.contains e.1 then (e.1, { e.2 with dead := true }) else e
    { s with frames := s.frames.map dead }.endCancelled c k

/-! ### Moving (R79, R80) -/

/-- Whether an engine holds a command of a thread. -/
def State.engineBusy (s : State) (t : Tid) : Bool :=
  (s.cores.any fun e => (e.2.copy.queue ++ e.2.copy.flight).any (fun q => q.tid == t) || e.2.vecCmds.any (fun q => q.tid == t) ||
    (e.2.matrix.queue ++ e.2.matrix.flight).any fun q => q.tid == t) ||
  (s.clusters.any fun e => e.2.gather.any fun q => q.tid == t) ||
  s.links.tickets.any fun e => e.2.tid == t && decide (e.2.state < 2)

/-- A team barrier of a cluster. -/
def State.bar (s : State) (cl n : Nat) : TeamBar := (((s.clusters.find cl).getD {}).bars.find n).getD {}

/-- Whether the phase of a thread's last arrival at a team barrier has completed (R70). -/
def State.arrivalOver (s : State) (c : Nat) (t : Thread) : Bool :=
  match t.lastArr with
  | none => true
  | some (b, ph) => decide (ph < (s.bar (clusterOf c) b).phase)

/-- The conditions of R79 on the thread itself. -/
def State.movable (s : State) (c k : Nat) (t : Thread) : Bool :=
  t.sect.isNone &&
  (match t.strand with
   | some (f, st) => !(s.cores.any fun e =>
      e.2.binds.any fun b => (b.1 == f && b.2.1 == st) || s.seenBy f st 9 == some (b.1, b.2.1))
   | none => true) &&
  t.relaxed.isEmpty && !s.engineBusy (s.tidAt c k) && t.mons.isEmpty && s.arrivalOver c t

/-- Whether a thread may roam (R78): for a large core, that w16 to w127 are zero (R80). R80 states that condition for a
small target; the model asks it of a move between large cores too, whose message brings w0 to w15 (DESIGN CHOICE,
log 83). -/
def State.slim (s : State) (c : Nat) (t : Thread) : Bool :=
  if isLarge c then (List.range 112).all fun i => (s.core c).regW t (16 + i) == 0
  else decide (wSize t.win ≤ 2) && vSize t.win == 0 && aSize t.win == 0

/-- The slot and window a thread would take on a core. Without window space there the thread does not move, as without a
slot: MIGRATE answers −1, and a roaming thread's access is made remotely; R79 and R80 name the slot only (DESIGN CHOICE,
log 83). -/
def State.berth (s : State) (c dest : Nat) (t : Thread) : Option (Nat × Word) :=
  match s.freeSlot dest t.part with
  | none => none
  | some k => (s.windowFor dest k (if isLarge c then 2 else wSize t.win) 0 0).map fun w => (k, w)

/-- The time of a thread's message, and the time from its issue to its readiness (R79): half the latency and 8 cyc, or
R57's delay where it is longer, which the model counts from the issue too. To or from a large core the manual gives no
time: the model takes the message's and 8 cyc (DESIGN CHOICE, log 83). -/
def State.moveTimes (s : State) (c dest : Nat) (w : Word) : Nat × Nat :=
  let t := if isLarge c || isLarge dest then messageTime c dest else halfUp (latency c (.bank dest 0))
  (t, max (t + 8) (s.startDelay dest w))

/-- Whether a request is a relaxed access that met a deferred event, and is held (R99). -/
def Req.parksHeld (r : Req) : Bool := (match r.use with | .relaxed _ => true | _ => false) && r.stage == .stalled

/-- Far stores, held stores, commands, continuations and merges of a thread follow it to a new identifier (R99, R119, R178,
R284). -/
def State.rename (s : State) (old new : Tid) : State :=
  let t (x : Tid) : Tid := if x = old then new else x
  let copy (q : CopyCmd) : CopyCmd := { q with tid := t q.tid }
  let vec (q : VecCmd) : VecCmd := { q with tid := t q.tid }
  let push (e : Cont) : Cont := { e with pusher := t e.pusher }
  let s := { s with
    cores := s.cores.mapVals fun c => { c with
      copy := { c.copy with queue := c.copy.queue.map copy, flight := c.copy.flight.map copy }
      vector := { c.vector with queue := c.vector.queue.map vec, flight := c.vector.flight.map vec }
      caddy := c.caddy.map push }
    frames := s.frames.mapVals fun f => { f with merger := f.merger.map t }
    clusters := s.clusters.mapVals fun c => { c with gather := c.gather.map copy, wants := c.wants.map copy }
    reqs := s.reqs.mapVals fun r => if (r.ofEngine ∨ r.parksHeld) ∧ r.tid = some old then { r with tid := some new } else r }
  s.upLinks fun l => { l with
    tickets := l.tickets.mapVals fun k => { k with tid := t k.tid }
    farWrites := l.farWrites.map fun w => (t w.1, w.2) }

/-- Moves a thread: it leaves its slot, and its message brings it to the slot claimed on the other core (R79). Its inline
records go with it (R273). The slot is claimed here, and the presence bits stay clear (DESIGN CHOICE, log 83). -/
def State.move (s : State) (c k dest k' : Nat) (w pc : Word) : State :=
  match s.thread c k with
  | none => s
  | some t =>
    let regs := (List.range 16).map fun i => if i < 8 * wSize t.win then (s.core c).regW t i else 0
    let times := s.moveTimes c dest w
    let ready := s.cyc + times.2
    let old := s.tidAt c k
    let s := s.settle dest k' { t with pc := pc, win := w, lastArr := none, yield := none } ready
    let s := s.rename old (s.tidAt dest k')
    let mine := (s.core c).caddy.filter fun e => e.inlined.isSome && e.pusher == s.tidAt dest k'
    let s := (s.upCore c fun x => { x with caddy := x.caddy.filter fun e => !mine.contains e }).upCore dest fun x =>
      { x with caddy := x.caddy ++ mine }
    let s := s.leave c k
    let (n, s) := s.fresh
    { s with msgs := s.msgs.put n (.move (s.tidAt dest k') regs ready) }.after times.1 20 (.migrationArrival n)

end Sys2Proof.Machine
end

