-- ==== Sys2Proof/Machine/Access.lean ====
section
/-! DEFINITION. A thread's access from its issue to its sending: the checks of R96 in their order, the release wait,
redirection to a view, translation, the same-word rule, the large cores' caches (R89 to R101, R113 to R121, R281,
R303, R382). -/

namespace Sys2Proof.Machine

/-! ### Events met by requests -/

/-- The word of th.vx for a count of relaxed accesses (R99). -/
def relaxedVx (n : Nat) : Word := BitVec.ofNat 64 (2 ^ 63 + n % 2 ^ 40)

/-- The word of th.vx for a restart index (R192). -/
def restartVx (n : Nat) : Word := BitVec.ofNat 64 (2 ^ 62 + n % 2 ^ 40)

/-- Puts a deferred event behind those of what was issued before it (R167, R196). -/
def deferIn (d : Deferred) : List Deferred → List Deferred
  | [] => [d]
  | e :: rest => if d.issue < e.issue then d :: e :: rest else e :: deferIn d rest

/-- Adds a deferred event to a thread, in the order of issue (R99, R167); of a saved thread, to what is kept of it (R178). -/
def State.defer (s : State) (t : Tid) (d : Deferred) : State :=
  if (s.threadOf t).isSome then s.upTid t fun th => { th with deferred := deferIn d th.deferred }
  else { s with saved := s.saved.mapVals fun v => if v.tid = some t then { v with late := deferIn d v.late } else v }

/-- The restart index that a request's event carries: the cursor of a merge (R284), or none. -/
def Req.vx (r : Req) : Word := match r.use with | .merge _ _ _ _ => restartVx r.index | _ => 0

/-- The engine's command to which a request belongs. -/
def Req.engineCmd (r : Req) : Option Nat :=
  match r.use with
  | .copy q _ _ | .list q _ | .lane q _ => some q
  | _ => none

/-- An MST or MLDA ends at the first word that met an event, when every word it sent has been answered (R192, R242). -/
def State.moveStops (s : State) (t : Tid) : State :=
  match s.threadOf t with
  | none => s
  | some th =>
    match th.moving with
    | none => s
    | some m =>
      match m.met with
      | none => s
      | some (_, code, info) =>
        if !m.left.isEmpty ∨ th.status ≠ .parked .mem .moving then s
        else
          let s := s.upTid t fun th => { th with moving := none }
          if isKernelEvent code then s.kernelFault t.core t.slot 0 code info 0 th.pc th.pc 0 none
          else s.trap t.core t.slot code info th.pc 0 false

/-- A word of an MST or MLDA meets an event: the first in address order counts. -/
def State.moveMet (s : State) (t : Tid) (id i code : Nat) (info : Word) : State :=
  (s.upTid t fun th => { th with moving := th.moving.map fun m =>
    if m.id ≠ id then m
    else
      let met := match m.met with
        | some (j, c, v) => if j ≤ i then some (j, c, v) else some (i, code, info)
        | none => some (i, code, info)
      { m with left := without i m.left, met := met } }).moveStops t

/-- Changes a frame. -/
def State.upFrame (s : State) (f : Nat) (g : TFrame → TFrame) : State := { s with frames := s.frames.adjust f g }

/-- Whether a request is a word of a thread's merge whose turn comes after another's. -/
def Req.laterThan (r : Req) (t : Tid) (k : Nat) : Bool :=
  r.tid == some t && (match r.turn with | some (j, _) => decide (k < j) | none => false)

/-- Whether a word of a thread's merge with an earlier turn has not been answered. -/
def State.mergeBefore (s : State) (t : Tid) (k : Nat) : Bool :=
  s.reqs.any fun e => e.2.tid == some t && (match e.2.turn with | some (j, _) => decide (j < k) | none => false)

/-- A merge that met an event stops when every word before the faulting one has been merged: the cursor stands at the word,
and the event goes to the thread (R284), which a cancelled region withdraws instead (R286). -/
def State.mergeStops (s : State) (t : Tid) (f : Nat) (epc : Word) : State :=
  match (s.frames.find f).bind fun fr => fr.merging with
  | none => s
  | some m =>
    match m.met with
    | none => s
    | some (k, num, i, index, code, info) =>
      if s.mergeBefore t k then s
      else
        let s := s.upFrame f fun fr => { fr with merging := none, cursor := some (m.strand, num, i) }
        if (s.threadOf t).any fun th => s.regionCancelled t.core th.region then s.cancelThread t.core t.slot
        else if isKernelEvent code then s.kernelFault t.core t.slot 0 code info 0 epc epc (restartVx index) none
        else s.trap t.core t.slot code info epc (restartVx index) false

/-- Whether a word of a merge holds its target, or has been written back. -/
def Req.merges (r : Req) : Bool :=
  match r.use with | .merge _ _ _ h => h && (r.stage == .held || r.stage == .served) | _ => false

/-- A word of a merge meets an event: the words after it are not merged, and the first event in their order counts. -/
def State.mergeMet (s : State) (t : Tid) (f num i turn index : Nat) (epc : Word) (code : Nat) (info : Word) : State :=
  let s := { s with reqs := s.reqs.filter fun e => !(e.2.laterThan t turn && !e.2.merges) }
  let keep (m : Merging) : Bool := match m.met with | some e => decide (e.1 < turn) | none => false
  let meet (m : Merging) : Merging :=
    if keep m then m else { m with todo := [], met := some (turn, num, i, index, code, info) }
  (s.upFrame f fun fr => { fr with merging := fr.merging.map meet }).mergeStops t f epc

/-- A merge is cut short by a forced save: the cursor stands at the first word that is not merged. A word that holds its
target is merged. -/
def State.mergeHalts (s : State) (t : Tid) : State :=
  match s.frames.find? fun e => e.2.merger == some t && e.2.merging.isSome with
  | none => s
  | some (f, fr) =>
    match fr.merging with
    | none => s
    | some m =>
      let waiting := s.reqs.filterMap fun e => match e.2.use with
        | .merge num i k _ => if e.2.tid = some t ∧ !e.2.merges then some (k, num, i) else none
        | _ => none
      let least := waiting.foldl (fun b e => match b with
        | none => some e
        | some x => if e.1 < x.1 then some e else some x) (none : Option (Nat × Nat × Nat))
      let first := match least with | some e => some e.2 | none => m.todo.head?
      let s := { s with reqs := s.reqs.filter fun e => !(e.2.tid == some t && e.2.turn.isSome && !e.2.merges) }
      s.upFrame f fun fr => { fr with merging := none, cursor := some (m.strand, first.getD (0, 2 ^ 20)) }

/-- A held store has been performed, or held again: the instruction that reported it resumes (R99). -/
def State.resumeHeld (s : State) (t : Tid) (n : Nat) : State :=
  match s.threadOf t with
  | some th => match th.status with
    | .parked _ (.held m pc) =>
      if m = n then (s.upTid t fun th => { th with pc := pc }).wake t.core t.slot else s
    | _ => s
  | none => s

/-- A request of an instruction meets an event (R180, R186): a thread trap, a kernel fault that parks the thread, or a
deferred event of a relaxed access that has been sent (R99). -/
def State.meetEvent (s : State) (n : Nat) (code : Nat) (info : Word) : State :=
  match s.reqs.find n with
  | none => s
  | some r =>
    match r.engineCmd with
    | some q =>
      (s.upReq n fun r => { r with stage := .stalled, event := some (code, info) }).after 0 7
        (.engineFaultInFlight r.core q code info)
    | none =>
    match r.tid with
    | none => s.dropReq n
    | some t =>
      match s.threadOf t with
      | none => s.dropReq n
      | some th =>
        match r.use with
        | .part id i => (s.dropReq n).moveMet t id i code info
        | .merge num i k _ => (s.dropReq n).mergeMet t (r.args.getD 1 0).toNat num i k r.index r.epc code info
        | _ =>
        if th.relaxed.contains n then
          let d : Deferred :=
            { origin := .relaxed, code := code, info := info, epc := r.epc, vx := relaxedVx th.passed, word := r.first,
              reg := (match r.use with | .relaxed d => d | _ => none), held := some n, issue := n }
          let s := s.upReq n fun r => { r with stage := .stalled, event := none }
          let s := if code = cDIRTYFULL then s else s.upTid t fun th => { th with relaxed := without n th.relaxed }
          ((s.defer t d).resumeHeld t n).poke t
        else
          let s := s.dropReq n
          if isKernelEvent code then
            s.kernelFault t.core t.slot 0 code info 0 r.epc r.epc r.vx none
          else s.trap t.core t.slot code info r.epc r.vx false

/-! ### The large cores' caches (R120, R382) -/

/-- A cached line that an access of a key may use. -/
def State.cached (s : State) (pa key : Nat) : Option CLine :=
  s.cache.find? fun l => l.line == pa / 64 * 64 && l.key == key

/-- Sends a write-back of some dirty words of a line to its bank; that of an acquire carries the thread that acquires. -/
def State.sendDirty (s : State) (core : Nat) (l : CLine) (ws : List Nat) (acq : Option Tid := none) : State :=
  if ws = [] then s
  else
    let lat := s.reach core l.line
    let r : Req := { core := core, ctx := s.ctxOf core, op := .dirty (ws.map fun i => (i, l.ws.getD i 0)), pa := l.line,
                     key := l.key, lat := lat, route := l.route, args := (acq.map Tid.word).toList,
                     owners := (l.dirty.filter fun d => ws.contains d.1).map Prod.snd }
    let (n, s) := s.addReq r
    s.after (half lat) 12 (.bankRequestArrival n)

/-- The dirty words of a line. -/
def CLine.dirtyWords (l : CLine) : List Nat := l.dirty.map Prod.fst

/-- Writes back a line's dirty words and drops it (R120, R121). -/
def State.flushLine (s : State) (core line : Nat) : State :=
  let ls := s.cache.filter fun l => l.line == line
  let s := ls.foldl (fun s l => s.sendDirty core l l.dirtyWords) s
  { s with cache := s.cache.filter fun l => !(l.line == line) }

/-- The release effect of die scope and wider on a large core: writes back every dirty word that it last wrote. -/
def State.writeBackOf (s : State) (core : Nat) : State :=
  let s := s.cache.foldl (fun s l => s.sendDirty core l ((l.dirty.filter fun d => d.2 == core).map Prod.fst)) s
  { s with cache := s.cache.map fun l => { l with dirty := l.dirty.filter fun d => !(d.2 == core) } }

/-- The acquire effect of die scope and wider on a large core: writes back the dirty words of stale lines, and
discards those lines. -/
def State.dropStale (s : State) (t : Tid) : State :=
  let s := s.cache.foldl (fun s l => if l.stale then s.sendDirty t.core l l.dirtyWords (some t) else s) s
  { s with cache := s.cache.filter fun l => !l.stale }

/-- The number of a scope (Table 2.5). -/
def scopeNum : Scope → Nat
  | .core => 0 | .cluster => 1 | .die => 2 | .package => 3 | .system => 4

/-- The acquire effects of a scope for a thread (Table 6.1). The read buffers of the CXL ports hold nothing in the model (log 12). -/
def State.acquire (s : State) (t : Tid) (a : Option Scope) : State :=
  match a with
  | some sc => if isLarge t.core ∧ 2 ≤ scopeNum sc then s.dropStale t else s
  | none => s

/-- Puts a line into the caches, most recently used first, writing back the one it replaces. -/
def State.cacheLine (s : State) (core : Nat) (l : CLine) : State :=
  let rest := s.cache.filter fun o => !(o.line == l.line)
  let old := s.cache.filter fun o => o.line == l.line
  let s := old.foldl (fun s o => s.sendDirty core o o.dirtyWords) s
  let kept := rest.take (s.cacheMax - 1)
  let s := (rest.drop (s.cacheMax - 1)).foldl (fun s o => s.sendDirty core o o.dirtyWords) s
  { s with cache := l :: kept }

/-- Writes a word of a cached line for a core. -/
def CLine.write (l : CLine) (core i : Nat) (v : Word) : CLine :=
  { l with ws := l.ws.set i v, dirty := (i, core) :: l.dirty.filter fun d => !(d.1 == i), bad := without i l.bad }

/-- Whether an access reads a word that the line does not hold, since it carried an uncorrectable error (R101). -/
def CLine.lacks (l : CLine) (r : Req) : Bool := r.op.reads && l.bad.contains (r.pa % 64 / 8)

/-- The line with the words of another fill, for those that it lacks. -/
def CLine.refill (l : CLine) (ws : List Word) (bad : List Nat) : CLine :=
  { l with ws := (l.bad.filter fun i => !bad.contains i).foldl (fun o i => o.set i (ws.getD i 0)) l.ws,
           bad := l.bad.filter bad.contains }

/-- The effect of an ordinary access on its cached line: the line after it, and the value loaded. -/
def CLine.apply (l : CLine) (core : Nat) (r : Req) : CLine × Option Word :=
  let i := r.pa % 64 / 8
  let old := l.ws.getD i 0
  match r.op with
  | .load w sg => (l, some (extractBytes old r.pa w sg))
  | .store v => (l.write core i v, none)
  | .sub w v _ => (l.write core i (mergeBytes old r.pa w v), none)
  | _ => (l, none)

/-- Whether an access goes through the large cores' caches (R120). -/
def Req.cacheable (r : Req) : Bool :=
  isLarge r.core && decide (tierOf r.pa < 2) &&
    (match r.op with | .load _ _ | .store _ | .sub _ _ _ => true | _ => false)

/-! ### Sending -/

/-- Whether a request changes a word of a device's table by an ordinary store. -/
def MemOp.stores : MemOp → Bool
  | .store _ | .sts _ | .stf _ | .sete => true
  | _ => false

/-- Whether a request writes a run of words. -/
def MemOp.writes : MemOp → Bool
  | .write _ _ => true
  | _ => false

/-- The step in which a store to the control window is performed (Table 17.7). -/
def controlStore (pa n : Nat) : Instr :=
  let o := pa - 0x300001000000
  if decide (0x100000 ≤ o) && decide (o < 0x110000) then .launchTableStore n
  else if decide (0x200000 ≤ o) && decide (o < 0x201000) then .ringControlStore n
  else if decide (0x300000 ≤ o) && decide (o < 0x300800) then .apertureStore n
  else if 0x400000 ≤ o then .controlCounterStore n
  else .controlWindowWrite n

/-- The step in which a request is performed or meets its bank. -/
def State.arrivalOf (s : State) (n : Nat) (r : Req) : Instr :=
  match homeOf s.sys.image r.pa with
  | .asidTable => if r.op.stores then .asidDescriptorStore n else .bankRequestArrival n
  | .control => if r.op.stores then controlStore r.pa n else .bankRequestArrival n
  | _ => .bankRequestArrival n

/-- Whether a request is a read that a copy engine or a gather engine sends out of its cluster (R175). -/
def Req.combines (r : Req) : Bool :=
  (match r.use with | .copy _ _ w => !w | .list _ _ => true | _ => false) &&
  (match homeOf {} r.pa with | .bank v _ => clusterOf v != clusterOf r.core | _ => true)

/-- The earlier read of the line with which the combining node merges a read that reaches it now: of the same context, at
most 16 cyc ago, and not yet performed (R175; DEDUCED, log 98). -/
def State.combiner (s : State) (n : Nat) (r : Req) : Option Nat :=
  if !r.combines then none
  else
    ((((s.clusters.find (clusterOf r.core)).getD {}).lines.find? fun l =>
      l.1 == r.pa / 64 && l.2.1 == r.ctx && decide (s.cyc ≤ l.2.2.1 + 16) && l.2.2.2 != n &&
        (match s.reqs.find l.2.2.2 with | some q => q.stage == .sent | none => false))).map fun l => l.2.2.2

/-- Merges a read with an earlier one (R175); the count of merged reads stops at the most that its field holds (DESIGN CHOICE, log
107). -/
def State.combine (s : State) (n : Nat) (r : Req) (m : Nat) : State :=
  let s := s.upReq n fun r => { r with lead := some m }
  let cl := clusterOf r.core
  { s with clusters := s.clusters.adjust cl fun c => { c with merged := min (2 ^ 32 - 1) (c.merged + 1) } }

/-- The combining node notes the line of a read that it sends on. -/
def State.noteLine (s : State) (n : Nat) (r : Req) : State :=
  if !r.combines then s
  else
    let cl := clusterOf r.core
    let c := (s.clusters.find cl).getD {}
    let keep := c.lines.filter fun l => decide (s.cyc ≤ l.2.2.1 + 16)
    { s with clusters := s.clusters.put cl { c with lines := keep ++ [(r.pa / 64, r.ctx, s.cyc, n)] } }

/-- Whether a request of a large core's thread is performed at the bank, so that the line of its word is written back and
dropped first (R121). -/
def Req.flushes (r : Req) : Bool :=
  isLarge r.core && decide (tierOf r.pa < 2) && r.tid.isSome && !r.cacheable &&
    (match r.use with | .line _ | .fetch => false | _ => true)

/-- The lines that a request names. -/
def Req.lines (r : Req) : List Nat :=
  (List.range ((r.pa % 64 + r.span + 63) / 64)).map fun i => r.pa / 64 * 64 + 64 * i

/-- What has to be performed before an access of a large core at the bank is sent: the write-backs of its lines (R121). -/
def State.blockers (s : State) (r : Req) : List Nat := if r.flushes then r.lines.flatMap s.writingBack else []

/-- The latency of a request: a line fetched ahead from the own vault takes 8 cyc (R107). -/
def Req.time (r : Req) : Nat :=
  if r.use = .fetch ∧ r.tid.isNone ∧ r.pa / 65536 * 65536 = vaultAddr r.core 0 then 8 else r.lat

/-- Sends a request whose key is at hand: it arrives after half its latency (R97), no sooner than its turn, and not before
the write-backs that come first. A read that passes a combining node reaches it as it is sent (R175). -/
def State.go (s : State) (n : Nat) : State :=
  match s.reqs.find n with
  | none => s
  | some r =>
    let s := if r.flushes then r.lines.foldl (fun s l => s.flushLine r.core l) s else s
    let ws := s.blockers r
    if ws ≠ [] then s.upReq n fun r => { r with stage := .keying, after := ws }
    else if r.combines ∧ s.cyc < r.since then
      (s.upReq n fun r => { r with stage := .keying }).post r.since 5 (.keyFill n)
    else
      let s := s.upReq n fun r => { r with stage := .sent, lat := r.time }
      let time := max s.cyc r.since + (match r.use with | .merge _ _ _ true => 0 | _ => half r.time)
      match s.combiner n r with
      | some m => s.combine n r m
      | none => ((s.noteLine n r).post time (s.arrivalRank time r) (s.arrivalOf n r))

/-- Sends a request, after a key fill of 300 cyc when no slot holds its key (R308). -/
def State.send (s : State) (n : Nat) (key : KeyName) : State :=
  match s.reqs.find n with
  | none => s
  | some r =>
    if 2 ≤ tierOf r.pa ∧ r.pa < 2 ^ 57 then s.go n
    else if s.hasKey r.core key then (s.useKey r.core key).go n
    else (s.upReq n fun r => { r with stage := .keying }).after 300 5 (.keyFill n)

/-! ### After translation -/

/-- Whether a place can hold a word (R143). -/
def canHold (im : Image) (pa atom : Nat) : Bool :=
  match homeOf im pa with
  | .bank _ _ | .chan _ _ => true
  | .port _ => atom == 1
  | _ => false

/-- PERM with reason 0x07 and ATOMROUTE (R96, R98, R104, R143, R145). -/
def routeEvent (im : Image) (r : Req) : Option (Nat × Word) :=
  let h := homeOf im r.pa
  let outside := h = .pcie ∨ h = .exrin
  match r.op with
  | .lde | .stf _ | .sete =>
    if decide (1 ≤ tierOf r.pa) && decide (tierOf r.pa < 4) then some (cPERM, 0x07) else none
  | .sub _ _ _ | .atom _ _ _ | .cas2 _ _ _ _ | .rsv _ | .merge _ _ | .cancel =>
    if canHold im r.pa r.atom then none else some (cATOMROUTE, r.ptr)
  | .arm _ => if outside then some (cATOMROUTE, r.ptr) else none
  | _ => none

/-- The kernel that a row of the control window names, if the offset is named (Table 17.7): the context of the kernel,
or the kernel that owns the context of a core. -/
def State.controlOwner (s : State) (pa : Nat) : Option Nat :=
  let o := pa - 0x300001000000
  if decide (0x100000 ≤ o) && decide (o < 0x110000) then some 2
  else if decide (0x200000 ≤ o) && decide (o < 0x201000) then some 1
  else if decide (0x300000 ≤ o) && decide (o < 0x300800) then some 1
  else if decide (0x400000 ≤ o) && decide (o < 0x400000 + 16 * 102400) then
    let i := (o - 0x400000) / 16
    some (s.kernOf (s.ctxOf (i / 25600 * 65536 + i % 25600 / 160 * 256 + i % 160)))
  else if decide (0x600000 ≤ o) && decide (o < 0x600010) then some 1
  else if decide (0x600010 ≤ o) && decide (o < 0x600020) then some 2
  else none

/-- The events of K-space accesses to a word of the I/O die's tables, to no window, and through Exrin apertures
(R295 to R297, R358). -/
def State.wordEvent (s : State) (r : Req) (pa : Nat) : Option (Nat × Word) :=
  match homeOf s.sys.image pa with
  | .nowhere => some (cPERM, 0x03)
  | .control =>
    match s.controlOwner pa with
    | none => some (cPERM, 0x03)
    | some k => if r.ctx = k then none else some (cPERM, 0x05)
  | .asidTable =>
    let i := (pa - 0x300000000000) / 8
    if r.op.stores ∨ r.op.writes ∨ i % 8 = 0 ∨ ((s.desc (i / 8) 0).getLsbD 63 ∧ s.asidKern (i / 8) = s.kernOf r.ctx) then none
    else some (cPERM, 0x05)
  | .exrin =>
    let a := (s.links.apertures.find (pa / 2 ^ 36 % 256)).getD 0
    if a.getLsbD 63 && s.links.members.contains (a.extractLsb' 42 16).toNat then none else some (cPERM, 0x03)
  | _ => none

/-- The words of the tables that a request names: those of a save block up to the end of its page. -/
def Req.tableWords (r : Req) : Nat :=
  match r.op with
  | .block 0 | .write [] _ => min 928 ((65536 - r.pa % 65536) / 8)
  | _ => max 1 r.words

/-- The first event of an access to some words from an address, those of the I/O die's tables word by word (R295 to R297). -/
def State.runEvent (s : State) (r : Req) (pa n : Nat) : Option (Nat × Word) :=
  if tierOf pa = 4 ∧ pa < 2 ^ 57 then (wordsFrom (pa / 8 * 8) n).findSome? (s.wordEvent r) else s.wordEvent r pa

/-- The first event of a K-space access to the I/O die's tables, word by word (R296, R297). -/
def State.tableEvent (s : State) (r : Req) : Option (Nat × Word) := s.runEvent r r.pa r.tableWords

/-- Whether two requests name a word in common (R100). -/
def Req.meets (r q : Req) : Bool := decide (r.first < q.first + 8 * q.words) && decide (q.first < r.first + 8 * r.words)

/-- Whether an outstanding relaxed access of a thread names one of some words from an address (R100). -/
def State.relaxedOn (s : State) (t : Option Tid) (n first words : Nat) : Bool :=
  s.reqs.any fun e => e.1 != n && e.2.tid == t && s.outstanding e.1 e.2 && e.2.stage != .translating &&
    decide (first < e.2.first + 8 * e.2.words) && decide (e.2.first < first + 8 * words)

/-- Whether an outstanding vector memory command of a thread touches one of some words from an address (R263). -/
def State.lanesOn (s : State) (t : Tid) (first words : Nat) : Bool :=
  (s.vectorsOf t).any fun v => v.words.any fun w => decide (first ≤ w) && decide (w < first + 8 * words)

/-- Whether an outstanding access of the same thread names a word of a request (R100). -/
def State.conflicts (s : State) (n : Nat) (r : Req) : Bool :=
  s.relaxedOn r.tid n r.first r.words || (match r.tid with | some t => s.lanesOn t r.first r.words | none => false)

/-- Whether an outstanding relaxed access of the same thread names a word of a lane, which then waits (R100). -/
def State.waitsRelaxed (s : State) (n : Nat) (r : Req) : Bool :=
  (match r.use with | .lane _ _ => true | _ => false) && s.relaxedOn r.tid n r.first r.words

/-- The event of a held relaxed access on a lane's word falls due: the thread's next instruction reports it (R99, R263). -/
def State.dueHeld (s : State) (t : Tid) (r : Req) : State :=
  let meets (d : Deferred) : Bool :=
    !d.due && d.origin == .relaxed && decide (r.first ≤ d.word) && decide (d.word < r.first + 8 * r.words)
  if (s.threadOf t).any fun th => th.deferred.any meets then
    (s.upTid t fun th => { th with deferred := th.deferred.map fun d => if meets d then { d with due := true } else d }).poke t
  else s

/-! ### Commands of the copy and gather engines, and their parts (R158, R160, R164, R174) -/

/-- The index of a part in each dimension, innermost first. -/
def indexOf : List (Nat × Int × Int) → Nat → List Nat
  | [], _ => []
  | (ext, _, _) :: rest, i => i % ext :: indexOf rest (i / ext)

/-- The offset of an element on one side, in elements. -/
def sumStrides (f : Nat × Int × Int → Int) : List (Nat × Int × Int) → Nat → Int
  | [], _ => 0
  | d :: rest, i => (i % d.1 : Nat) * f d + sumStrides f rest (i / d.1)

/-- The offset in bytes of a part's source. -/
def CopyCmd.srcOff (q : CopyCmd) (i : Nat) : Int :=
  if q.kind = .tcpy then q.esize * sumStrides (fun d => d.2.1) q.dims i else 8 * i

/-- The offset in bytes of a part's destination. -/
def CopyCmd.dstOff (q : CopyCmd) (i : Nat) : Int :=
  if q.kind = .tcpy then q.esize * sumStrides (fun d => d.2.2) q.dims i else 8 * i

/-- The pointer at an offset from a base whose range has been checked. -/
def shiftPtr (p : Word) (d : Int) : Word := p + BitVec.ofInt 64 d

/-- The source of a part. -/
def CopyCmd.srcOf (q : CopyCmd) (i : Nat) : Word :=
  if q.kind = .gath then q.list.getD i 0 else shiftPtr q.src (q.srcOff i)

/-- The destination of a part. -/
def CopyCmd.dstOf (q : CopyCmd) (i : Nat) : Word := shiftPtr q.dst (q.dstOff i)

/-- The restart index of a part (R165). -/
def CopyCmd.restart (q : CopyCmd) (i : Nat) : Nat := if q.kind = .cpy then 8 * i else i

/-- The part at which a restart index resumes. -/
def CopyCmd.partAt (q : CopyCmd) (i : Nat) : Nat := if q.kind = .cpy then i / 8 else i

/-- The bytes of a part. -/
def CopyCmd.width (q : CopyCmd) : Nat := if q.kind = .tcpy then q.esize else 8

/-- A command of a copy engine or a gather engine, in flight. -/
def State.copyCmd (s : State) (core id : Nat) : Option CopyCmd :=
  match (s.core core).copy.flight.find? fun q => q.id == id with
  | some q => some q
  | none => ((s.clusters.find (clusterOf core)).getD {}).gather.find? fun q => q.id == id

/-- Changes a command of a copy engine or a gather engine, in flight. -/
def State.upCopy (s : State) (core id : Nat) (f : CopyCmd → CopyCmd) : State :=
  let g (l : List CopyCmd) : List CopyCmd := l.map fun q => if q.id = id then f q else q
  let s := s.upCore core fun x => { x with copy := { x.copy with flight := g x.copy.flight } }
  { s with clusters := s.clusters.adjust (clusterOf core) fun c => { c with gather := g c.gather } }

/-- Whether a part's destination lies in the word that holds the last element (R123, R164). -/
def CopyCmd.inLast (q : CopyCmd) (i : Nat) : Bool := (q.dstOf i).toNat / 8 == (q.dstOf (q.parts - 1)).toNat / 8

/-- Whether the last destination word's write is sent in its turn: every destination word lies in one bank, channel or port
(R123). What the writes sent before do not tell, the engine does not know. -/
def CopyCmd.inTurn (q : CopyCmd) (first n : Nat) : Bool :=
  q.oneHome || (decide (first + n = q.parts) && q.tail.isEmpty && decide (q.homes.length < 2))

/-- The part up to which a command writes: the first that met an event, or all. -/
def CopyCmd.limit (q : CopyCmd) : Nat := match q.met with | some (p, _, _) => p | none => q.parts

/-- Whether every write but one of some parts and those that wait has been acknowledged (R123). -/
def CopyCmd.othersDone (q : CopyCmd) (n : Nat) : Bool :=
  (q.acked.filter fun i => decide (i < q.limit)).length +
    total ((q.tail.filter fun e => decide (e.1 < q.limit)).map Prod.snd) + n == q.limit - q.base

/-- Whether the write of a copy's last destination word has to wait for the acknowledgements of the others (R123). -/
def State.lastWaits (s : State) (r : Req) : Bool :=
  match r.use with
  | .copy id i true =>
    match s.copyCmd r.core id with
    | some q => let n := (r.args.getD 0 1).toNat; q.inLast i && !q.inTurn i n && !q.othersDone n
    | none => false
  | _ => false

/-- The write waits at its engine, translated. -/
def State.holdLast (s : State) (n : Nat) (r : Req) : State :=
  match r.use with
  | .copy id i _ =>
    (s.upCopy r.core id fun q => { q with tail := q.tail ++ [(i, (r.args.getD 0 1).toNat)] }).upReq n fun r => { r with stage := .last }
  | _ => s

/-- A part of a copy has been translated, with those written with it: where they read or write (R123, R160). -/
def CopyCmd.placed (q : CopyCmd) (im : Image) (part n pa : Nat) (write : Bool) : CopyCmd :=
  let h := (homeOf im pa).num
  let q := if write ∧ !q.homes.contains h then { q with homes := (h :: q.homes).take 2 } else q
  if !q.chained then q
  else if write then
    { q with dsts := (List.range n).foldl (fun m j => m.put (part + j) (pa / 8 * 8 + (q.dstOf (part + j)).toNat % 8)) q.dsts }
  else { q with srcs := q.srcs.put part pa }

/-- The value of a part as its source stands after every earlier destination write of its command (R160). -/
def CopyCmd.forward (q : CopyCmd) (i : Nat) (v : Word) : Word :=
  match q.srcs.find i with
  | none => v
  | some a =>
    let byte (v : Word) (k : Nat) : Word :=
      let from' (b : Option Word) (e : Nat × Word) : Option Word :=
        match q.dsts.find e.1 with
        | some d =>
          if decide (e.1 < i) && decide (d ≤ a + k) && decide (a + k < d + q.width) then
            some (BitVec.ofNat 64 (e.2.toNat / 2 ^ (8 * (a + k - d)) % 256))
          else b
        | none => b
      match q.written.foldl from' none with
      | some b => mergeBytes v k 1 b
      | none => v
    (List.range q.width).foldl byte v

/-- The parts to be written next, each with the value that it has then; `vals` are their values so far. -/
def CopyCmd.settle (q : CopyCmd) (vals : Map Word) (i : Nat) : Nat → CopyCmd
  | 0 => q
  | n + 1 =>
    let v := q.forward i ((vals.find i).getD 0)
    ({ q with got := if q.got.has i then q.got.put i v else q.got, written := q.written.put i v } : CopyCmd).settle vals (i + 1) n

/-- The value of a group of elements, as one word. -/
def CopyCmd.groupWord (q : CopyCmd) (vals : Map Word) (first : Nat) : Nat → Word
  | 0 => 0
  | n + 1 =>
    let i := first + n
    mergeBytes (q.groupWord vals first n) ((q.dstOf i).toNat % 8) q.width ((vals.find i).getD 0)

/-- A part of a copy has been translated. The elements that it writes as one word may have sources in that word: each is read after
those before it have been written (R160). -/
def State.partPlaced (s : State) (n : Nat) (r : Req) (id part : Nat) (write : Bool) : State :=
  let k := (r.args.getD 0 1).toNat
  let s := s.upCopy r.core id fun q => q.placed s.sys.image part k r.pa write
  match s.copyCmd r.core id with
  | none => s
  | some q =>
    if write ∧ q.chained ∧ 1 < k then
      let q := q.settle q.written part k
      (s.upCopy r.core id fun _ => q).upReq n fun r => { r with op := .write [q.groupWord q.written part k] true }
    else s

/-- A part of an engine's command has been translated: its command touches the word (R100, R123, R160). -/
def State.laneWord (s : State) (n : Nat) (r : Req) : State :=
  match r.use with
  | .copy id part w => s.partPlaced n r id part w
  | .lane id _ =>
    let f (v : VecCmd) : VecCmd := if v.id = id ∧ !v.words.contains r.first then { v with words := r.first :: v.words } else v
    s.upCore r.core fun c => { c with vector := { c.vector with flight := c.vector.flight.map f } }
  | _ => s

/-- The thread issues its access again when an outstanding one has completed (R100). -/
def State.retryReq (s : State) (n : Nat) (t : Tid) : State := (s.dropReq n).park t.core t.slot .mem .retry

/-- A relaxed access has been sent: the thread goes on (R99). An access that a WAKE sends again was sent before. -/
def State.relax (s : State) (n : Nat) (t : Tid) (r : Req) : State :=
  if (match s.threadOf t with | some th => th.relaxed.contains n | none => true) then s
  else
  let s := s.upTid t fun th => { th with relaxed := th.relaxed ++ [n], pc := r.npc }
  match s.threadOf t with
  | some th => match th.status with
    | .parked _ (.reply m) => if m = n then s.wake t.core t.slot else s
    | _ => s
  | none => s

/-- An ordinary access of a large core finds its line in the caches: it is done at once (R382). A relaxed one whose thread has
gone on meanwhile completes as its reply would (R99). -/
def State.hit (s : State) (n : Nat) (t : Tid) (r : Req) (l : CLine) : State :=
  let (l', v) := l.apply r.core r
  let s := { s with cache := l' :: s.cache.filter fun o => !(o.line == l.line) }
  if (s.threadOf t).any fun th => th.relaxed.contains n then
    (s.upReq n fun r => { r with stage := .served, ans := v.toList }).after 0 7 (.memReply n)
  else
  let s := s.dropReq n
  let s := match r.use, v with
    | .reg d, some v => s.setW t.core t.slot d v
    | .relaxed (some d), some v => s.setW t.core t.slot d v
    | _, _ => s
  let s := s.acquire t r.acq
  let s := s.upTid t fun th =>
    { th with pc := r.npc, passed := (match r.use with | .relaxed _ => th.passed + 1 | _ => th.passed) }
  match s.threadOf t with
  | some th => match th.status with
    | .parked _ _ => s.wake t.core t.slot
    | _ => s
  | none => s

/-- The fill of a line under a key that is under way: one whose core has still to get the key is not. -/
def State.filling (s : State) (line key : Nat) : Option Nat :=
  (s.reqs.find? fun e => e.2.pa == line && e.2.key == key && e.2.fillsLine && e.2.stage != .keying).map Prod.fst

/-- An ordinary access of a large core misses: it fills its line first, or waits for the fill that is under way, and no shorter
than the latency from its own issue (R4, R120, R382; DEDUCED, log 100). -/
def State.miss (s : State) (n : Nat) (r : Req) (key : KeyName) : State :=
  match s.filling (r.pa / 64 * 64) r.key with
  | some m => s.upReq n fun r => { r with stage := .keying, after := [m], since := s.cyc + r.lat }
  | none =>
    let q : Req := { r with op := .block 8, use := .line n, pa := r.pa / 64 * 64, acq := none }
    let (m, s) := s.addReq q
    s.send m key

/-- A translated request is sent: past the checks that follow translation, and past the same-word rule. The write of a copy's last
destination word may have to wait (R123). -/
def State.depart (s : State) (n : Nat) (key : KeyName) : State :=
  match s.reqs.find n with
  | none => s
  | some r =>
    let relaxed := match r.use with | .relaxed _ => true | _ => false
    match r.tid with
    | none => s.send n key
    | some t =>
      if r.cacheable then
        match s.cached r.pa r.key with
        | some l => if l.lacks r then (if relaxed then s.relax n t r else s).miss n r key else s.hit n t r l
        | none => (if relaxed then s.relax n t r else s).miss n r key
      else if s.lastWaits r then s.holdLast n r
      else (if relaxed then s.relax n t r else s).send n key

/-- A deferred event on a word that a request names (R99). -/
def Thread.deferredOn (th : Thread) (r : Req) : Option Deferred :=
  th.deferred.find? fun d =>
    d.origin == .relaxed && decide (r.first ≤ d.word) && decide (d.word < r.first + 8 * r.words)

/-- Reports a deferred event at a parked or issuing thread, whose instruction then has no effect (R99, R196). -/
def State.reportDeferred (s : State) (t : Tid) (d : Deferred) : State :=
  match s.threadOf t with
  | none => s
  | some th =>
    let s := s.upTid t fun th => th.reported d
    if d.toKernel then
      s.kernelFault t.core t.slot 1 d.code d.info (d.vx &&& 0xFFFFFFFFFF) th.pc d.epc d.vx d.held
    else s.trap t.core t.slot d.code d.info d.epc d.vx true

/-- The word of an access, where a translation at hand gives it, whatever it permits (R99). -/
def State.wordAt (s : State) (core ctx asid : Nat) (p : Word) : Option Nat :=
  match s.lookup core ctx asid {} p with
  | .now (.ok pa _ _ _ _) => some pa
  | _ => none

/-- The deferred event that an access of a thread reports before any event of its own: one on a word that it names (R99,
R196). -/
def State.reports (s : State) (r : Req) : Option (Tid × Deferred) :=
  match r.tid with
  | none => none
  | some t =>
    if r.ofEngine then none
    else match s.threadOf t, s.wordAt r.core r.ctx r.asid r.ptr with
      | some th, some pa => (th.deferredOn { r with pa := pa }).map fun d => (t, d)
      | _, _ => none

/-- The walker that serves a core asks for the hold of a clean page's leaf (R304). -/
def State.holdLeaf (s : State) (n : Nat) (r : Req) (leaf : Nat) : State :=
  let k := s.asidKern r.asid
  let q : Req := { core := r.core, ctx := k, asid := r.asid, op := .leaf (s.logEntry r.core r.asid (offsetOf r.ptr)),
                   use := .leaf n, ptr := BitVec.ofNat 64 (4 * 2 ^ 57 + leaf), pa := leaf, key := (s.context k).key,
                   lat := s.reach r.core leaf }
  let (m, s) := s.addReq q
  let time := s.cyc + half q.lat
  s.post time (s.arrivalRank time q) (.bankRequestArrival m)

/-- A write to a clean page: once its key is at hand, the procedure of R304 precedes it. -/
def State.startLog (s : State) (n : Nat) (r : Req) (key : KeyName) (leaf : Nat) : State :=
  let s := s.upReq n fun r => { r with stage := .logging }
  if 2 ≤ tierOf r.pa ∨ s.hasKey r.core key then s.holdLeaf n r leaf else s.after 300 5 (.translationFill n)

/-- The event of the frame ownership check that a K-space access meets before its route's events, and a relaxed one as it
issues (R96, R99). -/
def State.frameFirst (s : State) (r : Req) : Option (Nat × Word) :=
  let relaxed : Bool := match r.use with | .relaxed _ => true | _ => false
  if spaceOf r.ptr = 4 ∧ (relaxed = true ∨ (routeEvent s.sys.image r).isSome) then (s.admitEvent r).map fun e => (e, r.ptr) else none

/-- A request has its translation: a deferred event that it reports, the rest of R96's order, the same-word rule, and then it
is sent. -/
def State.translated (s : State) (n : Nat) (t : Trans) : State :=
  match (s.reqs.find n).bind s.reports with
  | some (tid, d) => (s.dropReq n).reportDeferred tid d
  | none =>
  match t with
  | .event code info => s.meetEvent n code info
  | .ok pa key atom route log =>
    let s := s.upReq n fun r =>
      { r with pa := pa, key := s.keyOf key, atom := atom, route := route, lat := s.reach r.core pa }
    match s.reqs.find n with
    | none => s
    | some r =>
      match s.tableEvent r with
      | some (c, i) => s.meetEvent n c i
      | none =>
        match (s.frameFirst r).orElse fun _ => routeEvent s.sys.image r with
        | some (c, i) => s.meetEvent n c i
        | none =>
          let go (s : State) : State :=
            match log with
            | some leaf => s.startLog n r key leaf
            | none => s.depart n key
          match r.tid with
          | none => go s
          | some tid =>
            if r.ofEngine then
              if s.waitsRelaxed n r then
                ((s.dueHeld tid r).upReq n fun r => { r with stage := .translating }).after 1 5 (.translationFill n)
              else go (s.laneWord n r)
            else if s.conflicts n r then
              match r.use with
              | .part _ _ => (s.upReq n fun r => { r with stage := .translating }).after 1 5 (.translationFill n)
              | _ => s.retryReq n tid
            else
              let relaxed := match r.use with | .relaxed _ => true | _ => false
              go (if relaxed && log.isSome then s.relax n tid r else s)

/-- Starts a registered request: through what the core holds, or by a fill (R302). -/
def State.begin (s : State) (n : Nat) : State :=
  match s.reqs.find n with
  | none => s
  | some r =>
    match s.lookup r.core r.ctx r.asid r.want r.ptr with
    | .now t => (s.touch r.core r.asid r.ptr).translated n t
    | .later d => (s.upReq n fun r => { r with stage := .translating }).after d 5 (.translationFill n)

/-! ### Issue of an access -/

/-- PERM with reason 0x04 or 0x05 (Table 4.4): the context's edge, the partition's bank mask, K-space. -/
def State.spaceEvent (s : State) (core part : Nat) (p : Word) : Option Nat :=
  let ctx := s.ctxOf core
  let masked (bank : Nat) : Bool :=
    match (s.context ctx).parts.find part with
    | some q => !(BitVec.ofNat 8 q.banks).getLsbD bank
    | none => false
  match spaceOf p with
  | 1 => if isLarge core then some 4 else if masked (offsetOf p / 8192) then some 4 else none
  | 2 => if s.ctxOf (ptrCore p) ≠ ctx then some 4 else if masked (offsetOf p / 8192) then some 4 else none
  | 4 => if isKernelCtx ctx then none else some 5
  | _ => none

/-- PERM 0x04 or 0x05 of a run of bytes: every bank that a vault range touches counts. -/
def State.spanEvent (s : State) (core part : Nat) (p : Word) (n : Nat) : Option Nat :=
  let banks : Nat := if spaceOf p = 1 ∨ spaceOf p = 2 then (offsetOf p % 8192 + n - 1) / 8192 else 0
  (List.range (banks + 1)).findSome? fun i => s.spaceEvent core part (p + BitVec.ofNat 64 (8192 * i))

/-- PERM 0x04 or 0x05 of an access that names some bytes (R96). -/
def State.reachEvent (s : State) (core part : Nat) (p : Word) (n : Nat) : Option Nat :=
  if n ≤ 8 then s.spaceEvent core part p else s.spanEvent core part p n

/-- Whether the word of a part of a vector command is still unknown: it is in translation, or has met an event there. -/
def Req.unplaced (r : Req) (v : VecCmd) : Bool :=
  r.engineCmd == some v.id && (r.stage == .translating || r.stage == .stalled && (r.lat == 0 || !v.words.contains r.first))

/-- Whether the words of a thread's vector memory commands are still unknown (R100): not those of a command whose lanes have all been
translated, be it stalled at an error of one of them (R263). -/
def State.lanesUnknown (s : State) (t : Tid) : Bool :=
  (s.vectorsOf t).any fun v => v.lanes != 0 && (!v.started || !v.todo.isEmpty || s.reqs.any fun e => e.2.unplaced v)

/-- Whether the thread has a vector memory command that is not complete (R126, R263). -/
def State.vecMemory (s : State) (t : Tid) (relaxedToo : Bool) : Bool :=
  (s.vectorsOf t).any fun v => v.lanes != 0 && (relaxedToo || !v.relaxed)

/-- Whether an acquire of the thread whose effects have not finished holds back its accesses (R116): an acquiring vector
load, or the write-backs of a large core's acquire. -/
def State.acquiring (s : State) (t : Tid) : Bool :=
  (isLarge t.core && s.reqs.any fun e => e.2.args == [Tid.word t] &&
    (match e.2.op with | .dirty _ => true | _ => false)) ||
  (s.vectorsOf t).any fun v => v.acq.isSome

/-- Whether an access of a thread waits for the thread's vector memory commands or for an acquire (R100, R116, R263); a
relaxed one does not wait for the completion of those commands. -/
def State.heldBack (s : State) (t : Tid) (relaxed : Bool) : Bool :=
  s.lanesUnknown t || s.acquiring t || (!relaxed && s.vecMemory t false)

/-- Whether a request is a write-back of words that a core wrote, or that it sent (R115, R120). -/
def Req.dirtyOf (r : Req) (core : Nat) : Bool :=
  (match r.op with | .dirty _ => true | _ => false) && (r.core == core || r.owners.contains core)

/-- Whether every earlier access of the thread has completed (R115, R126). -/
def State.accessesDone (s : State) (t : Tid) (th : Thread) : Bool := th.relaxed == [] && !s.vecMemory t true

/-- The acquire scope of a MOD prefix. -/
def acqOf (m : Mod) : Option Scope := if m.acquire then some m.scope else none

/-- What redirection makes of a pointer (R281). -/
inductive Redirect where
  | same
  /-- a word of a view: its pointer, the slot's merge, and the address space of the pool, its region's (R280; DESIGN CHOICE,
  log 84) -/
  | view (p : Word) (m : Merge) (asid : Nat)
  | forbidden
  | exhausted
  /-- a hold stands on a word that the allocation of the view reads or writes (R133) -/
  | held (a : Nat)
  /-- the pool's word meets an event of translation (R280) -/
  | event (code : Nat) (info : Word)
  deriving DecidableEq, Repr

/-- The C form of an L pointer of a core (R281). -/
def absolute (core : Nat) (p : Word) : Word :=
  if spaceOf p = 1 then BitVec.ofNat 64 (2 * 2 ^ 57 + core * 65536 + offsetOf p) else p

/-- Whether two pointers' ranges meet: compared as pointers, L in its C form (R281). -/
def rangeMeets (b : Word) (ext : Nat) (p : Word) (n : Nat) : Bool :=
  decide (p.toNat < b.toNat + ext) && decide (b.toNat < p.toNat + n)

/-- The slots a frame declares and those that enclosing frames make visible to it, each numbered 8 × frame + slot
(R279). `fuel` bounds the nesting, at most 8. -/
def State.visible (s : State) (f : Nat) : Nat → List (Nat × VSlot)
  | 0 => []
  | fuel + 1 =>
    match s.frames.find f with
    | none => []
    | some fr =>
      fr.slots.map (fun v => (8 * f + v.slot, v)) ++
        (match fr.outer with
         | some (f', _) => s.visible f' fuel
         | none => [])

/-- The view slot, and the strand whose view stands for it, that a pointer's bytes fall under for a strand. -/
def State.redirected (s : State) (core : Nat) (strand : Option (Nat × Nat)) (p : Word) (n : Nat) :
    Option (Nat × Nat × Nat × VSlot) :=
  match strand with
  | none => none
  | some (f, st) =>
    match s.seenBy f st 9 with
    | none => none
    | some (f', st') =>
      ((s.visible f' 9).find? fun v => rangeMeets v.2.base v.2.ext (absolute core p) n).map fun v => (f', st', v.1, v.2)

/-- The blocks that views take in a pool, by offset (R280). An L-space pool is the issuing core's own. -/
def State.poolBlocks (s : State) (core : Nat) (g : Region) (ctx : Nat) : List (Nat × Nat) :=
  ((s.frames.filter fun e => e.2.region.pool == g.pool && e.2.ctx == ctx).flatMap fun e =>
    e.2.strands.flatMap fun st => st.2.views.map fun v => ((v.2.1 - absolute core g.pool).toNat, v.2.2)).filter
      fun b => decide (b.1 < g.size)

/-- Bytes rounded up to 64 (R280). -/
def roundUp64 (n : Nat) : Nat := (n + 63) / 64 * 64

/-- The first offset, a multiple of 64, at which a block fits (R280). -/
def firstFit (blocks : List (Nat × Nat)) (size limit : Nat) : Option Nat :=
  (firstFrom (fun i => decide (64 * i + size ≤ limit) &&
    !(blocks.any fun b => runsMeet (64 * i) size b.1 (roundUp64 b.2))) 0 (limit / 64 + 1)).map fun i => 64 * i

/-- Whether a record of a pool that a core keeps lies in the pool of another: an L-space pool is each core's own (R280). -/
def samePool (pool : Word) (core home : Nat) : Bool := spaceOf pool != 1 || home == core

/-- Inline records of a pool, 128 bytes each: their blocks (R273). -/
def State.inlines (s : State) (core : Nat) (pool : Word) (ctx : Nat) : List (Nat × Nat) :=
  s.cores.flatMap fun e => if e.2.owner.toNat % 65536 = ctx then
    e.2.caddy.filterMap fun k =>
      if k.region.pool = pool ∧ samePool pool core k.home then k.inlined.map fun o => (o, 128) else none
  else []

/-- Frame records of a pool, 256 bytes each from its high end (R280). -/
def State.records (s : State) (core : Nat) (pool : Word) (ctx : Nat) : Nat :=
  (s.frames.filter fun e => e.2.region.pool == pool && e.2.ctx == ctx && samePool pool core e.2.core && !e.2.dead).length

/-- The pool bytes that a region and its descendants hold, in whichever pools: frame records, views and inline records of
the regions whose chain contains a block (R267, R280). -/
def State.heldBy (s : State) (ctx : Nat) (block : Word) : Nat :=
  total ((s.frames.filter fun e => e.2.ctx == ctx && e.2.region.chain.contains block).map fun e =>
    (if e.2.dead then 0 else 256) + total (e.2.strands.flatMap fun st => st.2.views.map fun v => roundUp64 v.2.2)) +
  total (s.cores.map fun e => if e.2.owner.toNat % 65536 = ctx then
    128 * (e.2.caddy.filter fun k => k.inlined.isSome && k.region.chain.contains block).length else 0)

/-- Whether some more bytes stay within the pool budgets of a region and its ancestors; 0 is no limit (R267). -/
def State.poolFits (s : State) (g : Region) (ctx size : Nat) : Bool :=
  g.pool != 0 && (g.chain.zip g.budgets).all fun e =>
    e.2.2.2.1 == 0 || decide (s.heldBy ctx e.1 + size ≤ e.2.2.2.1)

/-- Where a pool has room for some more bytes at its low end (R273, R280). -/
def State.poolRoom (s : State) (core : Nat) (g : Region) (ctx size : Nat) : Option Nat :=
  let high := 256 * s.records core g.pool ctx
  if s.poolFits g ctx (roundUp64 size) && decide (high ≤ g.size) then
    firstFit (s.poolBlocks core g ctx ++ s.inlines core g.pool ctx) (roundUp64 size) (g.size - high)
  else none

/-- Whether a pool has room for one more frame record at its high end (R280). -/
def State.recordRoom (s : State) (core : Nat) (g : Region) (ctx : Nat) : Bool :=
  let high := 256 * (s.records core g.pool ctx + 1)
  s.poolFits g ctx 256 && decide (high ≤ g.size) &&
    (s.poolBlocks core g ctx ++ s.inlines core g.pool ctx).all fun b => decide (b.1 + roundUp64 b.2 ≤ g.size - high)

/-- Writes a view's block empty (R280), from a translated address, the holds of whose words have been waited for (R133). The words
of the CXL tier keep no full/empty bit (R104): a view there reads as the pool's words stand (DESIGN CHOICE, log 84). -/
def State.blank (s : State) (pa n : Nat) : State :=
  (wordsFrom pa (n / 8)).foldl (fun s a => (s.setMem (s.mem.setEmpty a true)).wrote a) s

/-- Why a unit's access in one step goes no further: an event, or a hold on a word that it reads or writes (R133). -/
inductive Stop where
  | event (code : Nat) (info : Word)
  | held (a : Nat)
  deriving DecidableEq, Repr

/-- The first write to a clean page by a unit that writes a block at once (R304): the log's entry is appended and the leaf's clean
bit cleared, or an event is met; a hold on the leaf or on the log's slot is waited for. The leaf counts as read (R101, R357). -/
def State.logNow (s : State) (core asid : Nat) (p : Word) (leaf : Nat) : Except Stop Unit × State :=
  let kern := s.asidKern asid
  let key := (s.context kern).key
  if s.heldIn leaf 1 then (.error (.held leaf), s)
  else if !s.tableReach kern leaf then (.error (.event cPAGE p), s)
  else if s.lostAt leaf then (.error (.event cPOISON p), s)
  else
    let s := s.countRead leaf 1
    let e := s.mem.read key leaf
    if (s.mem.attr leaf).error = 2 then (.error (.event cPOISON p), s.tellPoison leaf)
    else if e.getLsbD 7 = false then (.ok (), s.noteDirty core asid (offsetOf p))
    else if s.heldIn (s.logSlot asid) 1 then (.error (.held (s.logSlot asid)), s)
    else match s.logAppend asid (s.logEntry core asid (offsetOf p)) with
      | (some code, s) => (.error (.event code p), s)
      | (none, s') =>
        let s' := s'.scanWord (s.logSlot asid)
        (.ok (), ((s'.setMem (s'.mem.write key leaf (e &&& ~~~0x80) (s'.mem.attr leaf).empty)).wrote leaf).noteDirty core asid (offsetOf p))

/-- Changes a strand of a frame. -/
def State.upStrand (s : State) (f st : Nat) (g : Strand → Strand) : State :=
  s.upFrame f fun fr => { fr with strands := fr.strands.put st (g ((fr.strands.find st).getD {})) }

/-- Takes a block of the pool for a view: recorded with its strand, bound in the core's view table. -/
def State.setView (s : State) (core f st num : Nat) (p : Word) (ext : Nat) : State :=
  let s := s.upStrand f st fun sd => { sd with views := sd.views.put num (p, ext), core := core }
  s.upCore core fun x => { x with binds := x.binds ++ [(f, st, num)] }

/-- Translates a pointer at once, filling the core's buffer; the walk's words are free of holds (`State.heldWalk`). -/
def State.locate (s : State) (core ctx asid : Nat) (n : Want) (p : Word) : Trans × State :=
  match s.lookup core ctx asid n p with
  | .now t => (t, s)
  | .later _ => s.refill core ctx asid n p

/-- The runs of words that a block of some bytes at a pointer takes, page by page: where each lies, or what stops the access: an event
of its translation, of the procedure of a first write to a clean page (R304), or of a lost device (R357), or a hold on one of the
words (R133). `fuel` bounds the number of pages. -/
def State.runsOf (s : State) (core ctx asid : Nat) (p : Word) (n : Nat) : Nat → Except Stop (List (Nat × Nat)) × State
  | 0 => (.ok [], s)
  | fuel + 1 =>
    if n = 0 then (.ok [], s)
    else
      let k := min n (65536 - offsetOf p % 65536)
      match s.heldWalk core ctx asid { r := true, w := true } p with
      | some a => (.error (.held a), s)
      | none =>
      match s.locate core ctx asid { r := true, w := true } p with
      | (.event code info, s) => (.error (.event code info), s)
      | (.ok pa _ _ _ log, s) =>
        match (match log with | some leaf => s.logNow core asid p leaf | none => (.ok (), s)) with
        | (.error e, s) => (.error e, s)
        | (.ok (), s) =>
        if s.lostAt pa then (.error (.event cPOISON p), s)
        else match s.heldWord [(pa, k / 8)] with
        | some a => (.error (.held a), s)
        | none =>
        match s.runsOf core ctx asid (p + BitVec.ofNat 64 k) (n - k) fuel with
        | (.ok rs, s) => (.ok ((pa, k) :: rs), s)
        | (.error e, s) => (.error e, s)

/-- What an access to a view finds: the view, no room for it, or an event of the pool's translation. -/
inductive ViewGot where
  | view (p : Word)
  | exhausted
  | stop (w : Stop)
  deriving DecidableEq, Repr

/-- The view of a strand for a slot, allocated at its first access: its block is written empty, page by page (R199, R280).
Where the pool's own pages or banks meet an event, the access that needs the view raises it (R289; DESIGN CHOICE, log 84). -/
def State.viewOf (s : State) (core f st num : Nat) (v : VSlot) : ViewGot × State :=
  match s.frames.find f with
  | none => (.exhausted, s)
  | some fr =>
    let sd := (fr.strands.find st).getD {}
    match sd.views.find num with
    | some (p, _) => (.view p, s)
    | none =>
      match s.poolRoom core fr.region fr.ctx v.ext with
      | none => (.exhausted, s)
      | some off =>
        if 64 ≤ (s.core core).binds.length then (.exhausted, s)
        else
          let p := absolute core fr.region.pool + BitVec.ofNat 64 off
          match s.spanEvent core fr.part p v.ext with
          | some e => (.stop (.event cPERM (BitVec.ofNat 64 e)), s)
          | none =>
          match s.runsOf core fr.ctx fr.region.asid p v.ext (v.ext / 65536 + 2) with
          | (.error w, s) => (.stop w, s)
          | (.ok rs, s) => (.view p, (rs.foldl (fun s r => s.blank r.1 r.2) s).setView core f st num p v.ext)

/-- How a kind of access stands to redirection (R281). -/
inductive Redir where
  | follows | forbidden | apart
  deriving DecidableEq, Repr

/-- The address space in which the views of a frame lie: its region's (R265, R280; DESIGN CHOICE, log 84). -/
def State.poolAsid (s : State) (f : Nat) : Nat := ((s.frames.find f).map fun fr => fr.region.asid).getD 0

/-- Redirects a pointer of a thread (R281); the view obeys the bank mask and the context's edge (R289). -/
def State.redirect (s : State) (core : Nat) (strand : Option (Nat × Nat)) (how : Redir) (p : Word) (n : Nat) :
    Redirect × State :=
  match how, s.redirected core strand p n with
  | .apart, _ => (.same, s)
  | _, none => (.same, s)
  | .forbidden, some _ => (.forbidden, s)
  | .follows, some (f, st, num, v) =>
    match s.viewOf core f st num v with
    | (.exhausted, s) => (.exhausted, s)
    | (.stop (.event c i), s) => (.event c i, s)
    | (.stop (.held a), s) => (.held a, s)
    | (.view b, s) =>
      let q := b + (absolute core p - v.base)
      match s.spaceEvent core (((s.frames.find f).map fun fr => fr.part).getD 0) q with
      | some e => (.event cPERM (BitVec.ofNat 64 e), s)
      | none => (.view q v.merge (s.poolAsid f), s)

/-- The bytes that an access names, from its pointer. -/
def MemOp.bytes : MemOp → Nat
  | .load w _ | .sub w _ _ => w
  | .block n => 8 * n
  | .write ws _ => 8 * ws.length
  | _ => 8

/-- The strand for which an engine's request or a word of an MST or MLDA is made. -/
def State.strandOf (s : State) (r : Req) : Option (Nat × Nat) :=
  match r.use with
  | .copy q _ _ | .list q _ => (s.copyCmd r.core q).bind fun q => q.strand
  | .lane q _ => ((s.core r.core).vector.flight.find? fun v => v.id == q).bind fun q => q.strand
  | .part _ _ => (r.tid.bind s.threadOf).bind fun t => t.strand
  | _ => none

/-- Sends a registered request of an engine, or of an MST or MLDA, redirected to a view where its strand has one (R281). Where the
view has still to be allocated, and a hold stands on a word that this reads or writes, it waits for its turn there (R133). -/
def State.route (s : State) (n : Nat) : State :=
  match s.reqs.find n with
  | none => s
  | some r =>
    match s.redirect r.core (s.strandOf r) .follows r.ptr r.op.bytes with
    | (.same, s) => (s.upReq n fun r => { r with placing := false }).begin n
    | (.view p m a, s) => (s.upReq n fun r => { r with ptr := p, asid := a, view := some m, placing := false }).begin n
    | (.forbidden, s) => s.meetEvent n cPERM 0x0D
    | (.exhausted, s) => s.meetEvent n cPERM 0x0E
    | (.event c i, s) => s.meetEvent n c i
    | (.held a, s) => (s.upReq n fun r => { r with stage := .translating, placing := true }).awaitTurn a (.translationFill n)

/-- Registers a request and sends it. -/
def State.ask (s : State) (r : Req) : State := let (n, s) := s.addReq r; s.route n

/-- Whether a word lies at a CXL port, behind the endpoint or in another package (R119). -/
def State.farPlaced (s : State) (pa : Nat) : Bool :=
  match homeOf s.sys.image pa with | .port _ | .pcie | .exrin => true | _ => false

/-- Whether a word may lie at a CXL port, behind the endpoint or in another package: what a view or the translation buffer does not
tell, the engine does not know (R119, R122; DEDUCED, log 105). -/
def State.mayBeFar (s : State) (q : CopyCmd) (p : Word) : Bool :=
  if (s.redirected q.core q.strand p 8).isSome then true
  else match s.wordAt q.core q.ctx q.asid p with
    | some pa => s.farPlaced pa
    | none => true

/-- Whether a command of a copy or gather engine has writes still to be accepted that may be far (R122). -/
def State.farCopy (s : State) (q : CopyCmd) : Bool :=
  (List.range (q.parts - q.base)).any fun j => !q.acked.contains (q.base + j) && s.mayBeFar q (q.dstOf (q.base + j))

/-- Whether a collective that has not ended may still have far writes of its result to make (R122; DEDUCED, log 105). -/
def State.farTicket (s : State) (k : Ticket) : Bool :=
  decide (k.state = 0) && (match s.wordAt k.core k.ctx k.asid (k.ws.getD 2 0) with | some pa => s.farPlaced pa | none => true)

/-- Whether an engine still owes a far write that it makes for a thread: of a copy or a gather, or of a collective's result
(R122). -/
def State.farOwed (s : State) (t : Tid) : Bool :=
  (s.cores.any fun e => (e.2.copy.queue ++ e.2.copy.flight).any fun q => q.tid == t && s.farCopy q) ||
  (s.clusters.any fun e => e.2.gather.any fun q => q.tid == t && s.farCopy q) ||
  (s.links.tickets.any fun e => e.2.tid == t && s.farTicket e.2) ||
  s.reqs.any fun e => e.2.tid.isNone && s.madeFor e.2 == some t && (e.2.stage == .translating || s.farPlaced e.2.pa)

/-- Whether the release effects of a scope have finished (Table 6.1). -/
def State.releaseDone (s : State) (t : Tid) (sc : Scope) : Bool :=
  (!(isLarge t.core && decide (2 ≤ scopeNum sc)) ||
    (!(s.cache.any fun l => l.dirty.any fun d => d.2 == t.core) &&
     !(s.reqs.any fun e => e.2.dirtyOf t.core))) &&
  (!(sc == .system) || !(s.links.farWrites.any fun w => w.1 == t))

/-- Starts the release effects that have still to run. -/
def State.releaseStart (s : State) (t : Tid) (sc : Scope) : State :=
  if isLarge t.core ∧ 2 ≤ scopeNum sc then s.writeBackOf t.core else s

/-- An instruction with release waits for its thread's earlier accesses and the effects of its scope, and then has its
effect (R115); at system scope a command of an engine (`far`) waits for the far writes that engines still owe the thread, too
(R122). -/
def Cx.releasing (x : Cx) (s : State) (m : Mod) (body : State → Out) (far : Bool := false) : Out :=
  if !m.release then body s
  else
    let t := x.tid s
    if s.accessesDone t x.th && s.releaseDone t m.scope && !(far && m.scope == .system && s.farOwed t) then body s
    else x.again (if s.accessesDone t x.th then s.releaseStart t m.scope else s) .mem

/-- The slot and window on another core to which a roaming thread moves with its access, if it does (R79); from a large
core none moves (DESIGN CHOICE, log 83). -/
def Cx.roams (x : Cx) (s : State) (p : Word) : Option (Nat × Word) :=
  if x.th.roaming && isSmall x.core && spaceOf p == 2 && ptrCore p != x.core && s.slim x.core x.th &&
      s.movable x.core x.slot x.th then s.berth x.core (ptrCore p) x.th
  else none

/-- What an instruction's access is. -/
structure Ask where
  op    : MemOp
  use   : Use
  /-- bytes to which the effective offset is aligned -/
  align : Nat
  /-- bytes that the address checks cover -/
  bytes : Nat := 8
  mod   : Mod := {}
  redir : Redir := .apart
  instr : Option Instr := none
  args  : List Word := []
  why   : Park := .mem
  /-- a release of it at system scope waits for what engines still owe its thread (R122) -/
  far   : Bool := false

/-- An instruction meets an event of translation as it issues: a thread trap, or a kernel fault (R180, R186). -/
def Cx.meets (x : Cx) (s : State) (code : Nat) (info : Word) : Out :=
  if isKernelEvent code then x.fault s code info else x.trap s code info

/-- The PERM reason of the last byte that an access names, if it lies outside the offset field. -/
def lastByte (p : Word) (bytes : Nat) : Option Nat :=
  match effective p ((bytes : Int) - 1) with
  | .error r => some r
  | .ok _ => none

/-- The deferred event on the word of an access as it issues, where a translation at hand gives the word (R99, R196). -/
def Cx.dueOn (x : Cx) (s : State) (p : Word) (q : Ask) : Option Deferred :=
  (s.wordAt x.core (x.ctx s) x.th.asid.toNat p).bind fun pa => x.th.deferredOn { op := q.op, pa := pa }

/-- An instruction that has issued goes on when its turn comes at a word on which a hold stands (R133). -/
def Cx.againAt (x : Cx) (s : State) (a : Nat) : Out :=
  let s := (s.upThread x.core x.slot fun t => { t with restart := x.th.restart }).park x.core x.slot .mem .retry
  .next (s.awaitTurn a (.threadReady (x.tid s)))

/-- Issues an access to an address that `effective` has accepted: a deferred event on its word, ALIGN, the range of its
bytes, PERM 0x04 and 0x05, the release wait, the limit of relaxed accesses, redirection, and then translation (R96). -/
def Cx.accessAt (x : Cx) (s : State) (p : Word) (q : Ask) : Out :=
  match x.dueOn s p q with
  | some d => x.deliver s d
  | none =>
  if offsetOf p % q.align ≠ 0 then x.trap s cALIGN p
  else
    match lastByte p q.bytes with
    | some r => x.perm s r
    | none =>
    match s.reachEvent x.core x.th.part p q.bytes with
    | some r => x.perm s r
    | none =>
      let t := x.tid s
      match x.roams s p with
      | some (k, w) => .next (s.move x.core x.slot (ptrCore p) k w x.pc)
      | none =>
      if s.heldBack t q.mod.relaxed then x.again s .mem
      else
        x.releasing s q.mod (far := q.far) fun s =>
          if q.mod.relaxed && decide (8 ≤ x.th.relaxed.length) then x.again s .mem
          else
            let go (s : State) (p' : Word) (asid : Nat) (v : Option Merge) : Out :=
              let r : Req :=
                { tid := some t, core := x.core, ctx := x.ctx s, part := x.th.part, asid := asid, op := q.op,
                  use := q.use, instr := q.instr, args := q.args, ptr := p', epc := x.pc, npc := x.npc,
                  acq := acqOf q.mod, view := v }
              let (n, s) := s.addReq r
              let waits := match q.use with
                | .relaxed _ => match s.lookup x.core r.ctx r.asid r.want p' with
                  | .now _ => false
                  | .later _ => true
                | _ => true
              let s := if waits then s.park x.core x.slot q.why (.reply n) else s
              .next (s.begin n)
            match s.redirect x.core x.th.strand q.redir p q.bytes with
            | (.same, s) => go s p x.th.asid.toNat none
            | (.view p' m a, s) => go s p' a (some m)
            | (.forbidden, s) => x.perm s 0x0D
            | (.exhausted, s) => x.perm s 0x0E
            | (.event c i, s) => x.meets s c i
            | (.held a, s) => x.againAt s a

/-- Issues an access at a displacement from a pointer (R90, R96). -/
def Cx.access (x : Cx) (s : State) (base : Word) (delta : Int) (q : Ask) : Out :=
  match effective base delta with
  | .error r => x.perm s r
  | .ok p => x.accessAt s p q

/-- Reads a block of words at a pointer for an instruction that goes on when they have arrived. -/
def Cx.readBlock (x : Cx) (s : State) (p : Word) (words align stage : Nat) (m : Mod) (why : Park) (i : Option Instr)
    (args : List Word) (far : Bool := false) : Out :=
  x.access s p 0
    { op := .block words, use := .stage stage, align := align, bytes := 8 * words, mod := m, instr := i, args := args, why := why, far := far }

end Sys2Proof.Machine
end

