-- ==== Sys2Proof/Machine/Fetch.lean ====
section
/-! DEFINITION. Instruction fetch through the instruction buffer (R27, R29, R107, R108), the choice of the slot that
issues (R11), and the choice among the rows of the table that share one word. -/

namespace Sys2Proof.Machine

/-! ### The turn of a slot (R11, R60) -/

/-- The slots after the one that issued last, in ascending order with wrap-around (R11). -/
def turnOrder (last : Option Nat) : List Nat :=
  match last with
  | none => List.range 64
  | some l => (List.range 64).map fun i => (l + 1 + i) % 64

/-- The slot that issues in this cycle, if one is eligible (R11). -/
def State.chooses (s : State) (c : Nat) : Option Nat :=
  (turnOrder (s.core c).last).find? fun k =>
    match (s.thread c k).bind Thread.eligibleAt with
    | some t => decide (t ≤ s.cyc)
    | none => false

/-- The interval between two issues of a thread (R11, R382). -/
def interval (c : Nat) : Nat := if isLarge c then 7 else 8

/-- A slot takes its turn: it issues in the next step, and no earlier than an interval after. -/
def State.takeTurn (s : State) (c k : Nat) : State :=
  let was := (s.core c).last
  let waits (t : Thread) : Bool := match t.yield with | some (l, _) => l.contains k | none => false
  let owed := ((s.core c).threads.filter fun e => e.1 != k && waits e.2).map Prod.fst
  let s := s.upCore c fun x => { x with last := some k, issued := some s.cyc, issueAt := none, owed := owed }
  let s := s.upCore c fun x => { x with slots := x.slots.map fun e =>
    (e.1, { e.2 with thread := e.2.thread.map fun t =>
      if e.1 = k then { t with next := s.cyc + interval c, yield := none }
      else { t with yield := t.yield.map fun y => (without k y.1, y.2) } }) }
  { s.kick c with hand := some { core := c, slot := k, len := 1, was := was } }

/-- A parked instruction that has issued goes on: it has its effect in the next step, without a turn. Its thread stays out of
the rotation until the instruction ends (R59). -/
def State.goOn (s : State) (c k : Nat) : State :=
  { s with hand := some { core := c, slot := k, len := 1, was := (s.core c).last } }

/-! ### Lines (R107) -/

/-- The address space that qualifies a pointer in the buffer: the thread's for V space. -/
def fetchAsid (t : Thread) (p : Word) : Nat := if spaceOf p = 0 then t.asid.toNat else 0

/-- The line of a pointer. -/
def linePtr (p : Word) : Word := p &&& ~~~(63 : Word)

/-- The buffered line that holds a pointer. -/
def Core.line (c : Core) (asid : Nat) (p : Word) : Option ILine := c.ibuf.find? fun l => l.asid == asid && l.ptr == linePtr p

/-- A word of a place as it stands now: in the large cores' caches, or in memory. -/
def State.nowWord (s : State) (pa key : Nat) : Word :=
  match s.cached pa key with
  | some l => l.ws.getD (pa % 64 / 8) 0
  | none => if inTables pa then s.tableValue (tableSlot pa) else s.mem.read key pa

/-- The words of a line as they stand: behind the endpoint and in other packages, free words (log 5). -/
def State.lineWords (s : State) (pa key : Nat) : List Word × State :=
  if isFar pa then s.freeWords 8 else ((wordsFrom pa 8).map fun a => s.nowWord a key, s)

/-- A 16-bit word at a pointer as the buffer holds it, and as it stands now. -/
def State.halves (s : State) (l : ILine) (p : Word) : Half × Half :=
  let o := offsetOf p % 64
  let old := (l.ws.getD (o / 8) 0).extractLsb' (8 * (o % 8)) 16
  (old, if isFar l.pa then old else (s.nowWord (l.pa + o) l.key).extractLsb' (8 * (o % 8)) 16)

/-- A 16-bit word at a pointer as the core may decode it: what its buffer holds; when a store has changed the word
since, either the old or the new, at each decode anew (R29); a large core's fetch is coherent (R108). -/
def State.halfAt (s : State) (c : Nat) (l : ILine) (p : Word) (i : Nat) : Half :=
  let h := s.halves l p
  if isLarge c then h.2 else if h.1 = h.2 then h.1 else if Config.freeBit (8 * s.free + i) then h.2 else h.1

/-- What fetching finds: the words of a chain as far as decoding needs them, a line to fill, or an event. -/
inductive Fetched where
  | words (ws : List Half)
  | miss (p : Word)
  | event (code : Nat) (info : Word)
  deriving DecidableEq, Repr

/-- Reads the words of a chain from a pointer, up to its base word and at most five (R27). -/
def State.fetchFrom (s : State) (c : Nat) (t : Thread) (pc : Word) (i : Nat) (got : List Half) : Nat → Fetched
  | 0 => .words got
  | n + 1 =>
    match effective pc (2 * i) with
    | .error r => .event cPERM (BitVec.ofNat 64 r)
    | .ok p =>
      if spaceOf p = 3 then .event cPERM 0x08
      else match s.spaceEvent c t.part p with
        | some r => .event cPERM (BitVec.ofNat 64 r)
        | none =>
          match (s.core c).line (fetchAsid t p) p with
          | none => .miss (linePtr p)
          | some l =>
            let h := s.halfAt c l p i
            if isPrefix h then s.fetchFrom c t pc (i + 1) (got ++ [h]) n else .words (got ++ [h])

/-- Whether decoding from a pointer may have met a word that a store has changed since its line was filled. -/
def State.mixed (s : State) (c : Nat) (t : Thread) : Bool :=
  !isLarge c && (List.range 5).any fun i => match effective t.pc (2 * i) with
    | .error _ => false
    | .ok p => match (s.core c).line (fetchAsid t p) p with
      | none => false
      | some l => (s.halves l p).1 != (s.halves l p).2

/-- A decode that used free bits has used them up. -/
def State.spend (s : State) (c : Nat) (t : Thread) : State := if s.mixed c t then { s with free := s.free + 1 } else s

/-- The chain at a thread's pc. -/
def State.fetch (s : State) (c : Nat) (t : Thread) : Fetched := s.fetchFrom c t t.pc 0 [] 5

/-- Starts the fill of a line for a thread, which parks until it completes (R107). -/
def State.startFill (s : State) (c k : Nat) (p : Word) : State :=
  match s.thread c k with
  | none => s
  | some t =>
    let tid := s.tidAt c k
    let r : Req := { tid := some tid, core := c, ctx := s.ctxOf c, part := t.part, asid := t.asid.toNat, op := .block 8,
                     use := .fetch, ptr := p, epc := t.pc, npc := t.pc }
    let (n, s) := s.addReq r
    (s.park c k .mem (.reply n)).begin n

/-- The fills of a line under way at a core. -/
def State.fetchers (s : State) (c asid : Nat) (p : Word) : Map Req :=
  s.reqs.filter fun e => e.2.use == .fetch && e.2.core == c && e.2.ptr == p && (if spaceOf p = 0 then e.2.asid == asid else true)

/-- Starts the fill of the line after the one a thread issued from, when it is absent; nobody waits for it (R107). -/
def State.prefetch (s : State) (c : Nat) (t : Thread) (pc : Word) : State :=
  match effective (linePtr pc) 64 with
  | .error _ => s
  | .ok p =>
    let asid := fetchAsid t p
    if ((s.core c).line asid p).isSome ∨ spaceOf p = 3 ∨ (s.spaceEvent c t.part p).isSome ∨
        !(s.fetchers c asid p).isEmpty then s
    else
      let r : Req := { core := c, ctx := s.ctxOf c, part := t.part, asid := t.asid.toNat, op := .block 8, use := .fetch,
                       ptr := p }
      let (n, s) := s.addReq r
      s.begin n

/-- Puts a line into a core's buffer, most recently used first; 256 of them (R107). -/
def Core.addLine (c : Core) (l : ILine) : Core :=
  { c with ibuf := (l :: c.ibuf.filter fun o => !(o.asid == l.asid && o.ptr == l.ptr)).take 256 }

/-- A line is used (R107). -/
def Core.useLine (c : Core) (asid : Nat) (p : Word) : Core :=
  match c.line asid p with
  | some l => c.addLine l
  | none => c

/-- The thread that waits for a fill goes on. -/
def State.lineWake (s : State) (n : Nat) (r : Req) : State :=
  match r.tid with
  | some t => match s.threadOf t with
    | some th => match th.status with
      | .parked _ (.reply m) => if m = n then s.wake t.core t.slot else s
      | _ => s
    | none => s
  | none => s

/-- A fill that met an event: the thread that awaits it takes the event at its instruction (R29). -/
def State.lineFails (s : State) (r : Req) (e : Nat) (info : Word) : State :=
  match r.tid.filter fun t => (s.threadOf t).isSome with
  | none => s
  | some t =>
    if isKernelEvent e then s.kernelFault t.core t.slot 0 e info 0 r.epc r.epc 0 none
    else s.trap t.core t.slot e info r.epc 0 false

/-- A line's fill completes: the words that its request read are deciphered, and the threads that wait for the line return.
On a large core they are those of the coherent caches (R31), and a line that a shoot-down takes is not kept (R325). A line whose
words were read before an IFLUSH is not kept (`index` 1; R108). -/
def State.lineFilled (s : State) (c n : Nat) : State :=
  match s.reqs.find n with
  | none => s
  | some r =>
    if r.stage ≠ .served then s
    else
      let s := s.dropReq n
      match r.event with
      | some (e, info) => if r.orphan then s else s.lineFails r e info
      | none =>
        let ws := if isLarge c && !isFar r.pa then (wordsFrom r.pa 8).map fun a => s.nowWord a r.key else r.ans
        let l : ILine := { asid := if spaceOf r.ptr = 0 then r.asid else 0, ptr := r.ptr, pa := r.pa, key := r.key,
                           ws := ws, route := r.route }
        if r.index = 1 then s.lineWake n r
        else
        let lost := isLarge c && (s.shot l.route l.pa l.key || spaceOf r.ptr == 4 && (s.admitEvent r).isSome)
        let s := if lost then s else s.upCore c fun x => x.addLine l
        (s.fetchers c l.asid l.ptr).foldl (fun s e => (s.dropReq e.1).lineWake e.1 e.2) (s.lineWake n r)

/-- The line of a thread's first instruction has been filled within the delays of R57; where an event or a hold stands in the way
it is absent, and the fetch of the first instruction raises the event (R107). The words behind the endpoint and in other
packages are free (log 5). -/
def State.firstLine (s : State) (c : Nat) (t : Thread) : State :=
  match effective t.pc 0 with
  | .error _ => s
  | .ok p =>
    if ((s.core c).line (fetchAsid t p) p).isSome ∨ spaceOf p = 3 ∨ (s.spaceEvent c t.part p).isSome ∨
        s.walkHeld c (s.ctxOf c) t.asid.toNat { x := true } (linePtr p) then s
    else match s.locate c (s.ctxOf c) t.asid.toNat { x := true } (linePtr p) with
      | (.ok pa key _ route _, s') =>
        let r : Req := { core := c, ctx := s.ctxOf c, op := .block 8, use := .fetch, ptr := linePtr p, pa := pa }
        if s'.heldIn pa 8 ∨ s'.errorIn pa 8 = 2 ∨ (s'.admitEvent r).isSome ∨ (s'.tableEvent r).isSome then s
        else
          let s := (s'.countRead pa 8).useKey c key
          let k := s.keyOf key
          let (ws, s) := s.lineWords pa k
          s.upCore c fun x => x.addLine
            { asid := fetchAsid t p, ptr := linePtr p, pa := pa, key := k, ws := ws, route := route }
      | (.event _ _, _) => s

/-- The event of a fetch is raised in place of the instruction, at its address (R29). -/
def State.fetchEvent (s : State) (h : Hand) (code : Nat) (info : Word) : State :=
  match s.thread h.core h.slot with
  | none => s
  | some t => s.trap h.core h.slot code info t.pc 0 false

/-- The core's turn goes to the first eligible slot after the last issuer; a thread whose next instruction lies in an
absent line parks instead, and the next one is looked for (R11, R107). -/
def State.rotate (s : State) (c : Nat) : Nat → State
  | 0 => s
  | n + 1 =>
    match s.chooses c with
    | none => s.kick c
    | some k =>
      match s.thread c k with
      | none => s
      | some t =>
        match s.fetch c t with
        | .miss p => (s.startFill c k p).rotate c n
        | _ => s.takeTurn c k

/-- ISSUE_ROTATION (R11, R15): the core issues, unless exdb holds it. -/
def execIssueRotation (core : Nat) (s : State) : Out :=
  let x := s.core core
  if x.issueAt ≠ some s.cyc then .next s
  else
    let s := s.upCore core fun x => { x with issueAt := none }
    if x.held then .next s
    else .next (s.rotate core 65)

/-- IBUF_LINE_FILL (R107). -/
def execIbufLineFill (core line : Nat) (s : State) : Out := .next (s.lineFilled core line)

/-- UNASSIGNED_ENCODING (R20, R22, R30, R44): the chain at hand raises ILLEGAL with its reason and position. -/
def execUnassignedEncoding (reason pos : Nat) (s : State) : Out :=
  match s.hand with
  | none => .fault .noIssue
  | some h =>
    match s.thread h.core h.slot with
    | none => .fault .noIssue
    | some t =>
      .next (({ s with hand := none }).trap h.core h.slot cILLEGAL (BitVec.ofNat 64 (reason + 256 * pos)) t.pc 0 false)

/-! ### Rows that share one word -/

/-- The row of the table that an instruction is, for words that several rows share: the operation that the operand
registers hold (log 8). -/
noncomputable def select (w : Reg → Word) (i : Instr) : Instr :=
  match i with
  | .xinvPage d a b =>
    match (w a).toNat % 4 with
    | 0 => .xinvPage d a b | 1 => .xinvAsid d a b | 2 => .xinvRlb d a b | _ => .xinvFrame d a b
  | .emsgGatherQuery m d a b =>
    if (w a).extractLsb' 18 2 = 1 then
      (if (w b).extractLsb' 0 8 = 2 then .emsgAbort m d a b else .emsgCollectiveQuery m d a b)
    else .emsgGatherQuery m d a b
  | .fofferOffer d a b =>
    match (w b).toNat % 4 with
    | 1 => .fofferRelease d a b | 2 => .fofferWithdraw d a b | _ => .fofferOffer d a b
  | .fstrikeClear d a b => if (w b).getLsbD 0 then .fstrikeSetLimit d a b else .fstrikeClear d a b
  | .wakeResume a b => if (w b).getLsbD 0 then .wakeTrap a b else .wakeResume a b
  | .ownsetCreate d a b =>
    match (w a).toNat % 256 with
    | 2 => .ownsetDestroy d a b | 3 => .ownsetAssign d a b | 4 => .ownsetBindkey d a b | 5 => .ownsetUnbindkey d a b
    | 6 => .ownsetBindasid d a b | 7 => .ownsetUnbindasid d a b | 8 => .ownsetSetring d a b | 9 => .ownsetSetinbox d a b
    | _ => .ownsetCreate d a b
  | i => i

end Sys2Proof.Machine
end

