-- ==== Sys2Proof/Machine/Threads.lean ====
section
/-! DEFINITION. Threads among themselves: TNEW, TEND, SLEEP, YIELD, MIGRATE, ROAM, FMTSET, and the steps in which a
thread becomes ready, wakes, or arrives, and a power bank enters retention (R56 to R64, R78 to R80, R213). -/

namespace Sys2Proof.Machine

/-- A parked thread goes on at an address. -/
def State.resumeAt (s : State) (c k : Nat) (pc : Word) : State :=
  (s.upThread c k fun t => { t with pc := pc }).wake c k

/-- A parked thread returns to the rotation at an address after some cycles; whether a bank of its windows is in retention
counts as it returns (R57). -/
def State.resumeIn (s : State) (c k : Nat) (pc : Word) (d : Nat) : State :=
  let s := s.upThread c k fun t => { t with pc := pc, status := .starting, readyAt := s.cyc + d, wakeAt := none, cold := false }
  s.after d 20 (.threadReady (s.tidAt c k))

/-! ### Creating and ending -/

/-- The entry has been granted: the thread goes on after the instruction, whose restart index is used up. -/
def State.granted (s : State) (c k : Nat) (npc : Word) : State :=
  (s.upThread c k fun t => { t with restart := none }).resumeAt c k npc

/-- The thread that TNEW makes of its creator (R61). -/
def childOf (t : Thread) (pc win : Word) : Thread :=
  { pc := pc, win := win, vec := t.vec, fmt := t.fmt, sa := t.sa, sb := t.sb, band := t.band, rcb := t.rcb, asid := t.asid,
    part := t.part, region := t.region }

/-- TNEW (R61). On a large core the window is the hardware thread's own (log 12). -/
def execTnew (d a b : Reg) (s : State) : Out :=
  issue (plainKind [d, a, b]) s fun s x =>
    let entry := x.w s (rn a)
    let win := x.w s (rn b)
    let err (n : Int) : Out := x.ret s d (BitVec.ofInt 64 n)
    if entry.getLsbD 0 then err (-4)
    else if !winOk win then err (-2)
    else if !isLarge x.core && (s.core x.core).winTaken win then err (-3)
    else
      match s.freeSlot x.core x.th.part with
      | none => err (-1)
      | some k =>
        if !s.fits x.core x.th.region 1 then err (-1)
        else
          let win := if isLarge x.core then bigWin k else win
          let s := s.create x.core k (childOf x.th entry win)
          let s := s.setW x.core k 1 (Tid.word (x.tid s))
          x.ret s d (Tid.word (s.tidAt x.core k))

/-- Whether TEND may not stand here: in a child strand, or with children of the task's frame not joined (R287). -/
def State.endBarred (s : State) (t : Thread) : Bool :=
  t.child || t.frames.any fun f => match s.frames.find f with | some fr => fr.spawned | none => false

/-- Drops the slots that a task has declared, with its frame record (R275, R278, R287). -/
def State.dropFrames (s : State) (fs : List Nat) : State :=
  { s with frames := s.frames.filter fun e => !(fs.contains e.1) }

/-- A thread ends: its declared slots are dropped and its slot becomes free (R62, R287). -/
def State.endThread (s : State) (c k : Nat) : State :=
  match s.thread c k with
  | none => s
  | some t => (s.dropFrames t.frames).leave c k

/-- An instruction reports the first of its thread's deferred events in its own time, or else goes on (R126, R170). -/
def Cx.deliverDue (x : Cx) (s : State) (k : Kind) (body : State → Out) : Out :=
  match x.th.deferred.find? (dueAt k) with
  | some d => x.deliver s d
  | none => body s

/-- What TEND, and FENCE, report in their own time. -/
def lateKind (sec : Sec) : Kind := { sec := sec, report := [.relaxed, .copy, .gather, .vector], late := true }

/-- TEND (R62, R287): relaxed accesses complete first. -/
def execTend (s : State) : Out :=
  issue (lateKind .ends) s fun s x =>
    if !s.endBarred x.th && !s.quiet x.th then x.again s .mem
    else x.deliverDue s (lateKind .ends) fun s =>
      if s.endBarred x.th then x.perm s 0x0D else .next (s.endThread x.core x.slot)

/-! ### Waiting -/

/-- SLEEP (R63): the wake time is formed without wrap; beyond the counter's range nothing but a CONT, a WAKE or a
cancellation ends the sleep. -/
def execSleep (a : Reg) (imm : Imm) (s : State) : Out :=
  issue (plainKind [a]) s fun s x =>
    let d := max 8 (x.w s (rn a) + BitVec.ofInt 64 (immInt imm)).toNat
    let t := s.cyc + d
    let s := s.park x.core x.slot .sleep (.sleep x.npc)
    let s := s.upThread x.core x.slot fun th => { th with pc := x.npc, wakeAt := some t }
    .next (if t < 2 ^ 64 then s.post t 20 (.sleepExpiry (x.tid s)) else s)

/-- A thread parked in SLEEP returns (R63). -/
def State.endSleep (s : State) (t : Tid) : State :=
  match s.threadOf t with
  | some th => match th.status with
    | .parked _ (.sleep npc) => s.resumeAt t.core t.slot npc
    | _ => s
  | none => s

/-- SLEEP_EXPIRY (R63). -/
def execSleepExpiry (t : Tid) (s : State) : Out :=
  match s.threadOf t with
  | some th => .next (if th.wakeAt = some s.cyc then s.endSleep t else s)
  | none => .next s

/-- YIELD (R64). -/
def execYield (s : State) : Out :=
  issue {} s fun s x =>
    let others := ((s.core x.core).threads.filter fun e => e.1 != x.slot && e.2.status == .ready).map Prod.fst
    let s := s.upThread x.core x.slot fun th => { th with yield := some (others, s.cyc + 64), next := max th.next (s.cyc + 8) }
    x.done (s.after 64 20 (.yieldExpiry (x.tid s)))

/-- YIELD_EXPIRY (R64). -/
def execYieldExpiry (t : Tid) (s : State) : Out :=
  match s.threadOf t with
  | some th => match th.yield with
    | some (_, till) =>
      if till = s.cyc then .next ((s.upTid t fun th => { th with yield := none }).kick t.core) else .next s
    | none => .next s
  | none => .next s

/-- Completes a MOV.t whose value has arrived: the value is taken, and the bit cleared (R74). -/
def State.take (s : State) (c k d a : Nat) : State :=
  match s.thread c k with
  | none => s
  | some t =>
    let v := (s.core c).regW t a
    let p := 8 * wBase t.win + a
    let s := s.upCore c fun x => { x with present := without p x.present }
    let s := s.setW c k d v
    match (s.core c).inbound.find? fun e => e.1 == k && e.2.1 == a with
    | none => s.retryPressed c
    | some e =>
      let s := s.upCore c fun x => { x with inbound := x.inbound.erase e, present := p :: x.present }
      (s.setW c k a e.2.2).retryPressed c

/-- A restored thread whose recorded SLEEP has still to end goes on with it (R63, R191). -/
def State.sleepOn (s : State) (t : Tid) (pc : Word) (wake : Nat) : State :=
  let s := (s.park t.core t.slot .sleep (.sleep pc)).upThread t.core t.slot fun th => { th with wakeAt := some wake }
  if wake < 2 ^ 64 then s.post wake 20 (.sleepExpiry t) else s

/-- A starting or returning thread's delay has ended (R57): a new one, whose first line is there, enters the rotation, or goes
on with its SLEEP; a returning one enters it, or 32 cyc later when a bank of its windows is in retention. -/
def State.getsReady (s : State) (t : Tid) (th : Thread) : State :=
  let s := if th.next = 0 then s.firstLine t.core th else s
  match th.wakeAt with
  | some w => if s.cyc < w then s.sleepOn t th.pc w else s.enter t.core t.slot
  | none => if th.next = 0 ∨ th.cold then s.enter t.core t.slot else s.wake t.core t.slot

/-- THREAD_READY (R57): a starting or returning thread enters the rotation; an instruction that waits goes on; a MOV.t
whose value arrived 4 cyc ago completes (R74); a cancelled thread whose accesses have completed ends (R195). A thread that
reaches a core which has received a cancel notice for its region is cancelled there (R286). -/
def execThreadReady (t : Tid) (s : State) : Out :=
  match s.threadOf t with
  | some th => match th.status with
    | .starting =>
      if s.cyc < th.readyAt then .next s
      else if decide (th.next = 0) && s.regionCancelled t.core th.region then .next (s.cancelThread t.core t.slot)
      else .next (s.getsReady t th)
    | .parked _ .retry => .next (s.goOn t.core t.slot)
    | .parked _ .ending => .next (s.endCancelled t.core t.slot)
    | .parked _ (.presence d a npc) => .next ((s.take t.core t.slot d a).resumeAt t.core t.slot npc)
    | _ => .next s
  | none => .next s

/-- BANK_RETENTION (R56): the banks whose every thread has been out of the rotation for 1,024 cyc. -/
def execBankRetention (core : Nat) (s : State) : Out :=
  let x := s.core core
  let quiet (b : Nat) : Bool :=
    let ts := x.threads.filter fun e => (winBanks e.2.win).contains b
    !ts.isEmpty && ts.all fun e => match e.2.outSince with | some t => decide (t + 1024 ≤ s.cyc) | none => false
  .next (s.upCore core fun x =>
    { x with retain := x.retain ++ (List.range 24).filter fun b => quiet b && !x.retain.contains b })

/-! ### Roaming and migration -/

/-- ROAM (R78). -/
def execRoam (d a : Reg) (s : State) : Out :=
  issue (smallKind [d, a]) s fun s x =>
    if s.slim x.core x.th then
      x.ret (s.upThread x.core x.slot fun th => { th with roaming := x.w s (rn a) != 0 }) d 0
    else x.ret s d (BitVec.allOnes 64)

/-- MIGRATE (R80). When several conditions fail, the answer is the first of −4, −3, −2, −1 (log 13); an id that names no
core of the kind asked for, for which R80 gives no answer, is answered −4 (DESIGN CHOICE, log 83). A thread that leaves
a large core first performs the release effects of package scope (R131). -/
def execMigrate (d a : Reg) (s : State) : Out :=
  issue (plainKind [d, a]) s fun s x =>
    let v := x.w s (rn a)
    let dest := if v.getLsbD 18 then 0x0FF00 + v.toNat % 16 else v.toNat % 2 ^ 18
    let err (n : Int) : Out := x.ret s d (BitVec.ofInt 64 n)
    if !(if v.getLsbD 18 then isLarge dest else isSmall dest) || s.ctxOf dest != x.ctx s then err (-4)
    else if !s.slim x.core x.th then err (-3)
    else if !s.movable x.core x.slot x.th then err (-2)
    else
      match s.berth x.core dest x.th with
      | none => err (-1)
      | some (k, w) =>
        let t := x.tid s
        if s.releaseDone t .package then
          .next ((s.setW x.core x.slot (rn d) 0).move x.core x.slot dest k w x.npc)
        else x.again (s.releaseStart t .package) .mem

/-- MIGRATION_ARRIVAL (R79, R80): the thread's registers reach the claimed slot, and it becomes ready; on a large core
the acquire effects of package scope come first (R131). -/
def execMigrationArrival (msg : Nat) (s : State) : Out :=
  match s.msgs.find msg with
  | some (.move t regs ready) =>
    let s := { s with msgs := s.msgs.drop msg }
    match s.threadOf t with
    | none => .next s
    | some th =>
      let s := s.setWs t.core t.slot 1 ((regs.take (8 * wSize th.win)).drop 1)
      let s := s.acquire t (some .package)
      .next (s.post (max s.cyc ready) 20 (.threadReady t))
  | _ => .next s

/-- FMTSET (R213). -/
def execFmtset (d : Reg) (imm : Imm) (s : State) : Out :=
  let bad := imm.extractLsb' 9 25 != 0 || imm.getLsbD 3 || (imm.extractLsb' 0 3 != 0 && !imm.getLsbD 6) ||
    (imm.extractLsb' 4 2 != 0 && !imm.getLsbD 7)
  issue { smallKind [d] with bad := bad } s fun s x =>
    x.ret (s.upThread x.core x.slot fun th => { th with fmt := fmtSet th.fmt imm }) d x.th.fmt

end Sys2Proof.Machine
end

