-- ==== Sys2Proof/Machine/Barriers.lean ====
section
/-! DEFINITION. Team barriers (R14, R69 to R72, R128). -/

namespace Sys2Proof.Machine

/-- Changes a cluster. -/
def State.upCluster (s : State) (cl : Nat) (f : Cluster → Cluster) : State :=
  { s with clusters := s.clusters.put cl (f ((s.clusters.find cl).getD {})) }

/-- Sets a team barrier. -/
def State.setBar (s : State) (cl n : Nat) (b : TeamBar) : State :=
  s.upCluster cl fun c => { c with bars := c.bars.put n b }

/-- The local indices of a member mask. -/
def membersOf (mask : Nat) : List Nat := (List.range 16).filter fun i => mask.testBit i

/-- Whether a barrier is configured (R72). -/
def TeamBar.configured (b : TeamBar) : Bool := b.members != 0

/-- Whether a single core is the member set (R14). -/
def TeamBar.single (b : TeamBar) : Bool := (membersOf b.members).length == 1

/-- The lead of a member. -/
def TeamBar.leadOf (b : TeamBar) (i : Nat) : Nat := (b.lead.find i).getD 0

/-- The smallest lead of the members. -/
def TeamBar.minLead (b : TeamBar) : Nat := (membersOf b.members).foldl (fun m i => min m (b.leadOf i)) 3

/-- Counts an arrival of a member whose lead is below 3 (Table 3.7). -/
def TeamBar.count1 (b : TeamBar) (i : Nat) : TeamBar :=
  let n := (b.arr.find i).getD 0 + 1
  if n = b.count then { b with arr := b.arr.put i 0, lead := b.lead.put i (b.leadOf i + 1) }
  else { b with arr := b.arr.put i n }

/-- Completes a phase (Table 3.7). -/
def TeamBar.complete (b : TeamBar) : TeamBar :=
  { b with lead := b.lead.mapVals fun n => n - 1, phase := b.phase + 1 }

/-- An arrival at a barrier by a member's thread: the phase it belongs to is recorded; a phase of a single core
completes at once (R14), one of several cores 6 cyc later (R71). -/
def State.arriveBar (s : State) (cl n c k : Nat) : State :=
  let b := s.bar cl n
  let i := localIndex c
  let ph := b.phase + b.leadOf i
  let s := s.upThread c k fun t => { t with lastArr := some (n, ph) }
  let b' := b.count1 i
  if b'.minLead = b.minLead then s.setBar cl n b'
  else if b.single then (s.setBar cl n { b'.complete with backs := b'.backs ++ [s.cyc + 4] }).after 4 20 (.barWaitReturn cl n)
  else (s.setBar cl n { b' with due := b'.due ++ [s.cyc + 6] }).after 6 20 (.teamBarrierCompletion cl n)

/-- The threads of a cluster's cores. -/
def State.clusterThreads (s : State) (cl : Nat) : List (Nat × Nat × Thread) :=
  (List.range 16).flatMap fun i =>
    let c := clusterCore cl i
    (s.core c).threads.map fun e => (c, e.1, e.2)

/-- Threads that waited at lead 3 arrive when their member's lead has fallen (R70): core by core in the order of their local
indices, and slot by slot. The manual gives no order among several (DESIGN CHOICE, log 85). -/
def State.arriveWaiting (s : State) (cl n : Nat) : State :=
  (s.clusterThreads cl).foldl (fun s e =>
    match e.2.2.status with
    | .parked _ (.arrive m npc) =>
      if m = n ∧ (s.bar cl n).leadOf (localIndex e.1) < 3 then
        (s.arriveBar cl n e.1 e.2.1).resumeAt e.1 e.2.1 npc
      else s
    | _ => s) s

/-- Threads parked in BAR.WAIT for a phase below a number return. -/
def State.returnWaiting (s : State) (cl n below : Nat) : State :=
  (s.clusterThreads cl).foldl (fun s e =>
    match e.2.2.status with
    | .parked _ (.phase m ph npc) => if m = n ∧ ph < below then s.resumeAt e.1 e.2.1 npc else s
    | _ => s) s

/-- The operand checks of a BAR.CFG (R69). -/
def barOperands (n count mask : Word) : Bool :=
  decide (n.toNat < 32) && decide (1 ≤ count.toNat) && decide (count.toNat ≤ 64) && decide (mask.toNat < 65536)

/-- Whether every core of a mask belongs to a context. -/
def State.maskIn (s : State) (cl mask ctx : Nat) : Bool := (membersOf mask).all fun i => s.ctxOf (clusterCore cl i) == ctx

/-- Configures a barrier anew (R69): waiting threads return, those at lead 3 arrive under the new configuration or
raise PERM. -/
def State.configure (s : State) (cl n count mask : Nat) : State :=
  let b := s.bar cl n
  let ph := if b.configured then b.phase + 4 else 0
  let s := s.setBar cl n { members := mask, count := count, phase := ph, freed := ph }
  let s := s.returnWaiting cl n ph
  (s.clusterThreads cl).foldl (fun s e =>
    match e.2.2.status with
    | .parked _ (.arrive m npc) =>
      if m ≠ n then s
      else if mask.testBit (localIndex e.1) then
        if (s.bar cl n).leadOf (localIndex e.1) < 3 then (s.arriveBar cl n e.1 e.2.1).resumeAt e.1 e.2.1 npc else s
      else s.trap e.1 e.2.1 cPERM 0x11 e.2.2.pc 0 false
    | _ => s) s

/-- BAR.CFG (R69). -/
def execBarCfg (d a b : Reg) (s : State) : Out :=
  issue (smallKind [d, a, b]) s fun s x =>
    let n := x.w s (rn d)
    let count := x.w s (rn a)
    let m := x.w s (rn b)
    let cl := clusterOf x.core
    let mask := if m = 0 then 2 ^ localIndex x.core else m.toNat
    if !barOperands n count m || !s.maskIn cl mask (x.ctx s) || !s.maskIn cl (s.bar cl n.toNat).members (x.ctx s) then
      x.perm s 0x11
    else
      let old := s.bar cl n.toNat
      if old.members = mask ∧ old.count = count.toNat then x.done s
      else x.done (s.configure cl n.toNat count.toNat mask)

/-- BAR.ARR (R70, R128). -/
def execBarArr (m : Mod) (d : Reg) (s : State) : Out :=
  issue (smallKind [d]) s fun s x =>
    let n := (x.w s (rn d)).toNat
    let cl := clusterOf x.core
    if 32 ≤ n ∨ !(s.bar cl n).configured ∨ !(s.bar cl n).members.testBit (localIndex x.core) then x.perm s 0x11
    else
      x.releasing s m fun s =>
        if (s.bar cl n).leadOf (localIndex x.core) < 3 then x.done (s.arriveBar cl n x.core x.slot)
        else .next (s.park x.core x.slot .barrier (.arrive n x.npc))

/-- BAR.WAIT (R70): on a small core the acquire effects of a scope are none, or the emptying of read buffers that hold
nothing (log 12). -/
def execBarWait (_m : Mod) (d : Reg) (s : State) : Out :=
  issue (smallKind [d]) s fun s x =>
    let n := (x.w s (rn d)).toNat
    let b := s.bar (clusterOf x.core) n
    if 32 ≤ n ∨ !b.configured then x.perm s 0x11
    else
      match x.th.lastArr with
      | some (n', ph) =>
        if n' = n ∧ b.phase ≤ ph then .next (s.park x.core x.slot .barrier (.phase n ph x.npc)) else x.done s
      | none => x.done s

/-- TEAM_BARRIER_COMPLETION (R71): a phase of several cores completes; the threads that waited for it return 10 cyc
later. -/
def execTeamBarrierCompletion (cl bar : Nat) (s : State) : Out :=
  let b := s.bar cl bar
  match b.due with
  | t :: rest =>
    if t = s.cyc then
      let s := s.setBar cl bar { b.complete with due := rest, backs := b.backs ++ [s.cyc + 10] }
      .next ((s.after 10 20 (.barWaitReturn cl bar)).arriveWaiting cl bar)
    else .next s
  | [] => .next s

/-- BAR_WAIT_RETURN (R14, R71): the threads that waited for the next phase return. -/
def execBarWaitReturn (cl bar : Nat) (s : State) : Out :=
  let b := s.bar cl bar
  match b.backs with
  | t :: rest =>
    if t = s.cyc then .next ((s.setBar cl bar { b with freed := b.freed + 1, backs := rest }).returnWaiting cl bar (b.freed + 1))
    else .next s
  | [] => .next s

/-- A barrier becomes unconfigured, and every thread parked on it returns (R72). -/
def State.unconfigure (s : State) (cl n : Nat) : State :=
  let s := s.setBar cl n {}
  (s.clusterThreads cl).foldl (fun s e =>
    match e.2.2.status with
    | .parked _ (.arrive m _) => if m = n then s.trap e.1 e.2.1 cPERM 0x11 e.2.2.pc 0 false else s
    | .parked _ (.phase m _ npc) => if m = n then s.resumeAt e.1 e.2.1 npc else s
    | _ => s) s

end Sys2Proof.Machine
end

