-- ==== Sys2Proof/Machine/Messages.lean ====
section
/-! DEFINITION. Words and threads that travel on the fabric: SEND, CONT, CONTID, AMSG, NPUT and MOV.t, and their arrivals
(R50, R73 to R77, R127). -/

namespace Sys2Proof.Machine

/-! ### Monitors that a wait ends (R148) -/

/-- The mask of a thread's fired monitors. -/
def Thread.fired (t : Thread) : Nat := total (t.mons.map fun e => if e.2.fired then 2 ^ e.1 else 0)

/-- Clears the fired bits of a thread. -/
def Thread.calm (t : Thread) : Thread := { t with mons := t.mons.mapVals fun m => { m with fired := false } }

/-- A cause of a thread's MWAIT may be present: the return is taken at the end of the cycle, with every cause present
then. -/
def State.stirMwait (s : State) (t : Tid) : State :=
  match s.threadOf t with
  | some th => match th.status with
    | .parked _ (.mwait _ _ _ _ _) => s.after 0 40 (.mwaitTimeout t)
    | _ => s
  | none => s

/-- A WAKE or CONT ends a thread's SLEEP or MWAIT, or the SLEEP with which a starting thread would go on (R63, R148, R191). -/
def State.rouse (s : State) (t : Tid) : State :=
  match s.threadOf t with
  | some th => match th.status with
    | .parked _ (.sleep _) => s.endSleep t
    | .parked w (.mwait d l npc acq _) =>
      (s.upTid t fun th => { th with status := .parked w (.mwait d l npc acq true) }).stirMwait t
    | .starting => s.upTid t fun th => { th with wakeAt := none }
    | _ => s
  | none => s

/-! ### Deliveries -/

/-- Whether a message of a context may act on a core: the core's own context, or the kernel that owns it (R76). -/
def State.mayReach (s : State) (ctx c : Nat) : Bool :=
  s.ctxOf c == ctx || (isKernelCtx ctx && s.kernOf (s.ctxOf c) == ctx)

/-- A value is written into a register, and its presence bit set; a MOV.t parked on it completes 4 cyc later (R73,
R74). -/
def State.putPresent (s : State) (c k reg : Nat) (v : Word) : State :=
  match s.thread c k with
  | none => s
  | some t =>
    let s := s.setW c k reg v
    let s := s.upCore c fun x => { x with present := (8 * wBase t.win + reg) :: x.present }
    match t.status with
    | .parked _ (.presence _ a _) => if a = reg then s.after 4 20 (.threadReady (s.tidAt c k)) else s
    | _ => s

/-- An arriving write of a register (R73): it is written, or waits in the inbound buffer, or is dropped and counted;
none: the buffer is full. A large core has neither presence bits nor a buffer, and writes the register (log 12). -/
def State.deliver (s : State) (c k reg : Nat) (v : Word) : Option State :=
  match s.thread c k with
  | none => some (s.drop c)
  | some t =>
    if reg = 0 ∨ 8 * wSize t.win ≤ reg then some (s.drop c)
    else if isLarge c then some (s.setW c k reg v)
    else if !((s.core c).present.contains (8 * wBase t.win + reg)) then some (s.putPresent c k reg v)
    else if (s.core c).inbound.length < 8 then
      some (s.upCore c fun x => { x with inbound := x.inbound ++ [(k, reg, v)] })
    else none

/-- Sends a message from a core to a core. -/
def State.sendMsg (s : State) (frm dest : Nat) (m : Msg) (ev : Nat → Instr) : State :=
  let (n, s) := s.fresh
  { s with msgs := s.msgs.put n m }.after (messageTime frm dest) 20 (ev n)

/-- Forgets a message. -/
def State.dropMsg (s : State) (n : Nat) : State := { s with msgs := s.msgs.drop n }

/-- The identifier to which a message that waits at a core is addressed. -/
def Msg.dest : Msg → Option Word
  | .word d _ _ _ _ => some d
  | .wake d _ _ => some d
  | _ => none

/-- Whether an earlier message for the same thread waits for a place at its core. -/
def State.behind (s : State) (c : Nat) (d : Word) : Bool :=
  (s.core c).pressed.any fun n => ((s.msgs.find n).bind Msg.dest) == some d

/-- A message waits for a place at its core. -/
def State.press (s : State) (c n : Nat) : State := s.upCore c fun x => { x with pressed := x.pressed ++ [n] }

/-- REGISTER_WRITE_ARRIVAL (R73, R76). -/
def execRegisterWriteArrival (msg : Nat) (s : State) : Out :=
  match s.msgs.find msg with
  | some (.word d reg v ctx cont) =>
    let t := tidOf d
    if s.behind t.core d then .next (s.press t.core msg)
    else if (s.threadOf t).isNone || !s.mayReach ctx t.core then .next ((s.dropMsg msg).drop t.core)
    else
      match s.deliver t.core t.slot reg v with
      | none => .next (s.press t.core msg)
      | some s => .next (if cont then (s.dropMsg msg).rouse t else s.dropMsg msg)
  | _ => .next s

/-- Sends a word to a thread's register; an identifier that names no core is dropped at the sender (R50). -/
def State.sendWord (s : State) (frm : Nat) (d : Word) (reg : Nat) (v : Word) (cont : Bool) : State :=
  let d := BitVec.ofNat 64 (d.toNat % 2 ^ 32)
  let dest := (tidOf d).core
  if isCore dest then s.sendMsg frm dest (.word d reg v (s.ctxOf frm) cont) .registerWriteArrival else s.drop frm

/-- A message waits until the thread's non-relaxed vector memory commands have completed (R127). -/
def Cx.afterVectors (x : Cx) (s : State) (body : State → Out) : Out :=
  if s.vecMemory (x.tid s) false then x.again s .mem else body s

/-- SEND (R76, R127). -/
def execSend (m : Mod) (d a b : Reg) (s : State) : Out :=
  issue (plainKind [d, a, b]) s fun s x =>
    x.releasing s m fun s => x.afterVectors s fun s =>
      x.done (s.sendWord x.core (x.w s (rn a)) ((x.w s (rn d)).toNat % 128) (x.w s (rn b)) false)

/-- CONT (R76). -/
def execCont (a b : Reg) (s : State) : Out :=
  issue (plainKind [a, b]) s fun s x => x.afterVectors s fun s =>
    let t := x.w s (rn a)
    x.done (s.sendWord x.core t (t.toNat / 2 ^ 32 % 128) (x.w s (rn b)) true)

/-- CONTID (R76). -/
def execContid (d a : Reg) (s : State) : Out :=
  issue (plainKind [d, a]) s fun s x =>
    x.ret s d (((x.w s (rn a)).extractLsb' 0 7).setWidth 64 <<< 32 ||| Tid.word (x.tid s))

/-! ### NPUT (R75) -/

/-- The number of a direction. -/
def dirNum : Dir → Nat
  | .north => 0 | .east => 1 | .south => 2 | .west => 3 | .self => 4

/-- The neighbour in a direction, if it lies on the die. -/
def neighbour (c : Nat) (d : Dir) : Option Nat :=
  match d with
  | .north => if rowOf c = 0 then none else some (c - 256)
  | .east => if colOf c = 159 then none else some (c + 1)
  | .south => if rowOf c = 159 then none else some (c + 256)
  | .west => if colOf c = 0 then none else some (c - 1)
  | .self => some c

/-- The writes of a link, in order: two in the link, and then those whose threads wait for a place. -/
def Core.linkOf (c : Core) (d : Nat) : List Nat := (c.links.find d).getD []

/-- NPUT (R75): a full link parks the sender, whose write enters when a place frees. -/
def execNput (dir : Dir) (a b : Reg) (s : State) : Out :=
  issue (smallKind [a, b]) s fun s x => x.afterVectors s fun s =>
    match neighbour x.core dir with
    | none => x.perm s 0x12
    | some c =>
      if s.ctxOf c != x.ctx s then x.perm s 0x12
      else
        let va := x.w s (rn a)
        let d := dirNum dir
        let (n, s) := s.fresh
        let m : Msg := .nput x.core c (va.toNat / 256 % 64) (va.toNat % 128) (x.w s (rn b))
        let s := { s with msgs := s.msgs.put n m }
        let l := (s.core x.core).linkOf d
        let s := s.upCore x.core fun y => { y with links := y.links.put d (l ++ [n]) }
        if l.length < 2 then x.done (s.after 4 20 (.nputLinkArrival n))
        else .next (s.park x.core x.slot .queue (.link n x.npc))

/-- The thread of a core whose NPUT waits for a place for its write. -/
def Core.waitsLink (c : Core) (n : Nat) : Option (Nat × Word) :=
  c.threads.findSome? fun e => match e.2.status with
    | .parked _ (.link m npc) => if m = n then some (e.1, npc) else none
    | _ => none

/-- A write leaves its link: the next one that waited enters it, and its thread returns (R75). -/
def State.unlink (s : State) (frm n : Nat) : State :=
  match (s.core frm).links.find? fun e => e.2.contains n with
  | none => s.dropMsg n
  | some (d, l) =>
    let l := without n l
    let l := l.take 1 ++ (l.drop 1).filter fun m => ((s.core frm).waitsLink m).isSome
    let s := (s.dropMsg n).upCore frm fun y => { y with links := y.links.put d l }
    match l with
    | _ :: m :: _ =>
      match (s.core frm).waitsLink m with
      | some (k, npc) => (s.after 4 20 (.nputLinkArrival m)).resumeAt frm k npc
      | none => s
    | _ => s

/-- NPUT_LINK_ARRIVAL (R73, R75): the write keeps its place in the link until the core has placed it; the writes of one
link arrive in order. -/
def execNputLinkArrival (msg : Nat) (s : State) : Out :=
  match s.msgs.find msg with
  | some (.nput frm c slot reg v) =>
    let earlier := (s.core c).pressed.any fun n => match s.msgs.find n with
      | some (.nput f _ _ _ _) => f == frm
      | _ => false
    if earlier then .next (s.press c msg)
    else
      match s.deliver c slot reg v with
      | none => .next (s.press c msg)
      | some s => .next (s.unlink frm msg)
  | _ => .next s

/-- MOV.t (R74). -/
def execMovT (d a : Reg) (s : State) : Out :=
  issue (smallKind [d, a]) s fun s x =>
    if (s.core x.core).present.contains (8 * wBase x.th.win + rn a) then x.done (s.take x.core x.slot (rn d) (rn a))
    else .next (s.park x.core x.slot .presence (.presence (rn d) (rn a) x.npc))

/-! ### AMSG (R76) -/

/-- The stage at which an AMSG has read its message. -/
def stAmsg : Nat := 2

/-- AMSG (R76, R77): the message is read first, as for a load. An id that names no core raises PERM with reason 0x13, as a
core of another context does; R50, which drops deliveries to such an id, is about identifiers of threads (DESIGN CHOICE,
log 86). -/
def execAmsg (a b : Reg) (s : State) : Out :=
  issue (smallKind [a, b]) s fun s x => x.afterVectors s fun s =>
    let c := (x.w s (rn a)).toNat % 2 ^ 18
    let p := x.w s (rn b)
    if !isCore c || s.ctxOf c != x.ctx s || p.toNat % 64 != 0 then x.perm s 0x13
    else x.readBlock s p 8 64 stAmsg {} .mem none [x.w s (rn a)]

/-- The message has been read: it is sent, and the thread goes on. -/
def State.amsgRead (s : State) (r : Req) : State :=
  match r.tid, r.tid.bind s.threadOf with
  | some t, some th =>
    let c := (r.args.getD 0 0).toNat % 2 ^ 18
    let new : Thread := { childOf th 0 0 with vec := 0 }
    let s := s.sendMsg t.core c (.spawn c r.ans (Tid.word t) new r.ctx) .amsgArrival
    s.resumeAt t.core t.slot r.npc
  | _, _ => s

/-- AMSG_ARRIVAL (R50, R55, R76, R267, R344): the message takes a slot, or waits for one behind those that wait; one that waits
tries again, when another core of its context has become free for its region. -/
def execAmsgArrival (msg : Nat) (s : State) : Out :=
  match s.msgs.find msg with
  | some (.spawn c _ _ _ _) =>
    let wait : Out := .next (s.upCore c fun x => { x with doors := x.doors ++ [msg] })
    if (s.core c).doors.contains msg then .next (s.seatAll c (s.core c).doors)
    else if !(s.core c).doors.isEmpty then wait
    else match s.seat msg with
      | some s => .next s
      | none => wait
  | _ => .next s

end Sys2Proof.Machine
end

