-- ==== Sys2Proof/Machine/Launch.lean ====
section
/-! DEFINITION. Region control blocks, work packets, the task queues and dispatch, the launch tables, cancellation
(R65 to R68, R129, R265 to R271, R285, R286). -/

namespace Sys2Proof.Machine

/-! ### Core sets (Table 3.6) -/

/-- A rectangle of cores. -/
structure Rect where
  first : Nat
  rows  : Nat
  cols  : Nat
  deriving DecidableEq, Repr

/-- The rectangle a word of the packet's format names, if its zero field is zero. -/
def rectOf (w : Word) : Option Rect :=
  if w.extractLsb' 34 30 = 0 then
    some { first := (w.extractLsb' 0 18).toNat, rows := (w.extractLsb' 18 8).toNat + 1, cols := (w.extractLsb' 26 8).toNat + 1 }
  else none

/-- Whether a rectangle lies inside its die. -/
def Rect.onDie (r : Rect) : Bool :=
  isSmall r.first && decide (rowOf r.first + r.rows ≤ 160) && decide (colOf r.first + r.cols ≤ 160)

/-- The cores of a rectangle, row by row (R67). -/
def Rect.cores (r : Rect) : List Nat :=
  (List.range r.rows).flatMap fun y => (List.range r.cols).map fun x => r.first + 256 * y + x

/-- Whether a rectangle contains another of its die. -/
def Rect.holds (r q : Rect) : Bool :=
  dieOf r.first == dieOf q.first && decide (rowOf r.first ≤ rowOf q.first) && decide (colOf r.first ≤ colOf q.first) &&
  decide (rowOf q.first + q.rows ≤ rowOf r.first + r.rows) && decide (colOf q.first + q.cols ≤ colOf r.first + r.cols)

/-! ### Region control blocks (R265, R266) -/

/-- A block's word. -/
def wordOf (b : List Word) (i : Nat) : Word := b.getD i 0

/-- A field of a block's word. -/
def fieldOf (b : List Word) (i lo n : Nat) : Nat := (wordOf b i).toNat / 2 ^ lo % 2 ^ n

/-- Whether a group of a block is inherited. -/
def inherits (b : List Word) (g : Nat) : Bool := (wordOf b 1).getLsbD g

/-- A group's fields in a block (Table 15.2). -/
def groupField (b : List Word) (g : Nat) : Nat :=
  match g with
  | 0 => fieldOf b 3 0 12
  | 1 => fieldOf b 3 12 3
  | 2 => fieldOf b 3 20 8
  | 3 => (wordOf b 4).toNat
  | 4 => fieldOf b 5 0 7
  | 5 => fieldOf b 5 8 15
  | 6 => fieldOf b 5 32 8
  | 7 => fieldOf b 6 0 36
  | _ => (wordOf b 7).toNat + fieldOf b 8 0 32

/-- Whether a block's zero fields are zero: those of Table 15.1, and the fields of inherited groups. -/
def blockOk (b : List Word) : Bool :=
  decide (fieldOf b 1 9 55 = 0) && decide (fieldOf b 2 1 63 = 0) && decide (fieldOf b 3 28 36 = 0) &&
  decide (fieldOf b 3 15 5 = 0) && decide (fieldOf b 5 40 24 = 0) && decide (fieldOf b 5 23 9 = 0) &&
  decide (fieldOf b 5 7 1 = 0) && decide (fieldOf b 6 36 28 = 0) && decide (fieldOf b 8 32 32 = 0) &&
  ((List.range 23).all fun i => wordOf b (9 + i) == 0) &&
  ((List.range 9).all fun g => !inherits b g || decide (groupField b g = 0)) &&
  (wordOf b 0 != 0 || decide (fieldOf b 1 0 9 = 0))

/-- The nearest block of a chain that does not inherit a group (R266). -/
def resolver (g : Nat) : List (List Word) → List Word
  | [] => []
  | b :: rest => if inherits b g then resolver g rest else b

/-- A group's resolved value. -/
def resolved (bs : List (List Word)) (g : Nat) : Nat := groupField (resolver g bs) g

/-- The resolved pool base and size. -/
def poolOf (bs : List (List Word)) : Word × Nat := let b := resolver 8 bs; (wordOf b 7, fieldOf b 8 0 32)

/-- Whether resolved values lie in their ranges (Table 15.1). -/
def rangesOk (bs : List (List Word)) : Bool :=
  let p := poolOf bs
  (match rectOf (BitVec.ofNat 64 (resolved bs 3)) with | some r => r.onDie | none => false) &&
  decide (resolved bs 4 ≤ 64) && decide (resolved bs 5 ≤ 25600) && decide (1 ≤ resolved bs 6) &&
  decide (resolved bs 7 % 64 = 0) && decide (p.1.toNat % 64 = 0) && decide (spaceOf p.1 < 3) && ptrOk p.1 &&
  decide (p.2 % 64 = 0)

/-- The budgets and the fault domain of each block of a chain. -/
def chainBudgets : List (List Word) → List (Nat × Nat × Nat × Nat)
  | [] => []
  | b :: rest =>
    let bs := b :: rest
    (resolved bs 4, resolved bs 5, resolved bs 7, resolved bs 2) :: chainBudgets rest

/-- The region that a chain of blocks gives, with the blocks' addresses and places. -/
def regionFrom (bs : List (List Word)) (chain : List Word) (places : List (Nat × Nat)) : Region :=
  { chain := chain, budgets := chainBudgets bs, places := places, asid := resolved bs 0, cls := resolved bs 1,
    fdom := resolved bs 2, cores := BitVec.ofNat 64 (resolved bs 3), weight := resolved bs 6, pool := (poolOf bs).1,
    size := (poolOf bs).2 }

/-! ### Work packets (R65, R66) -/

/-- The answer −2 of a packet's own fields, or −3 of its rectangle, or the rectangle (R66). The packet's fields come
first, then the rectangle, then the region (log 13). -/
def State.packetCheck (s : State) (ctx : Nat) (p : List Word) : Except Int Rect :=
  let win := wordOf p 4
  match rectOf (wordOf p 2) with
  | none => .error (-2)
  | some r =>
    if (wordOf p 1).getLsbD 0 || (wordOf p 3).extractLsb' 6 58 != 0 || !winOk win || wBase win != 0 || vBase win != 0 ||
        aBase win != 0 || decide (wSize win < 2) || !fmtOk (wordOf p 5) || wordOf p 15 != 0 then .error (-2)
    else if !r.onDie || (r.cores.any fun c => s.ctxOf c != ctx) then .error (-3)
    else .ok r

/-- What the blocks read so far say: malformed, another block to read, or the region. -/
inductive Chain2 where
  | bad
  | more (p : Word)
  | done (g : Region)

/-- Judges a chain of region blocks (R266). -/
def judgeChain (bs : List (List Word)) (chain : List Word) (places : List (Nat × Nat)) (r : Rect) : Chain2 :=
  if !(bs.all blockOk) then .bad
  else
    let parent := wordOf (bs.getLastD []) 0
    if parent ≠ 0 then (if bs.length = 8 ∨ parent.toNat % 256 ≠ 0 then .bad else .more parent)
    else if !rangesOk bs then .bad
    else
      match rectOf (BitVec.ofNat 64 (resolved bs 3)) with
      | some q => if q.holds r then .done (regionFrom bs chain places) else .bad
      | none => .bad

/-- A task queue of a die. -/
def Die.queue (d : Die) (cls : Nat) : List Packet := (d.queues.find cls).getD []

/-- Puts an accepted packet into its queue, and starts its dispatch on every core of its set (R268). -/
def State.enqueue (s : State) (p : Packet) (r : Rect) : State :=
  let (n, s) := s.fresh
  let p := { p with id := n, todo := r.cores }
  let s := s.upDie (dieOf r.first) fun d => { d with queues := d.queues.put p.region.cls (d.queue p.region.cls ++ [p]) }
  s.postAll 21 (.dispatch n) r.cores

/-- Whether a queue has room (R268). -/
def State.queueRoom (s : State) (die cls : Nat) : Bool := decide (((s.die die).queue cls).length < 256)

/-! ### LAUNCH (R66) -/

/-- The stages at which LAUNCH has read its packet, has read a region block, and waits for room in the queue. -/
def stPacket : Nat := 1
def stRegion : Nat := 3
def stRoom : Nat := 4

/-- LAUNCH (R66, R129). -/
def execLaunch (d a : Reg) (s : State) : Out :=
  issue (plainKind [d, a]) s fun s x => x.afterVectors s fun s =>
    let p := x.w s (rn a)
    if p.toNat % 128 ≠ 0 then x.ret s d (BitVec.allOnes 64)
    else x.readBlock s p 16 128 stPacket {} .launch none [BitVec.ofNat 64 (rn d)]

/-- A parked instruction answers W[d] and its thread goes on. -/
def State.answer (s : State) (r : Req) (d : Nat) (v : Word) : State :=
  match r.tid with
  | some t => if (s.threadOf t).isSome then (s.setW t.core t.slot d v).resumeAt t.core t.slot r.npc else s
  | none => s

/-- A parked instruction answers a negative number. -/
def State.answerErr (s : State) (r : Req) (d : Nat) (e : Int) : State := s.answer r d (BitVec.ofInt 64 e)

/-- The reason of a parked thread. -/
def Thread.why (t : Thread) : Park := match t.status with | .parked w _ => w | _ => .mem

/-- The event of an access at a pointer before its translation, in the order of R96. -/
def State.issueEvent (s : State) (core part : Nat) (p : Word) (bytes align : Nat) : Option (Nat × Word) :=
  let perm (e : Nat) : Nat × Word := (cPERM, BitVec.ofNat 64 e)
  match effective p 0 with
  | .error e => some (perm e)
  | .ok p =>
    if offsetOf p % align ≠ 0 then some (cALIGN, p)
    else match lastByte p bytes with
      | some e => some (perm e)
      | none => (s.spaceEvent core part p).map perm

/-- A parked instruction reads on: the checks of R96, and another block read. -/
def State.follow (s : State) (r : Req) (p : Word) (words align stage : Nat) (args : List Word) : State :=
  match r.tid with
  | none => s
  | some t =>
    match s.threadOf t with
    | none => s
    | some th =>
      let q : Req := { r with op := .block words, use := .stage stage, ptr := p, args := args, stage := .sent, ans := [],
                              event := none, view := none, acq := none }
      match s.issueEvent r.core r.part p (8 * words) align with
      | some (code, info) => s.trap t.core t.slot code info r.epc 0 false
      | none =>
        let (n, s) := s.addReq q
        (s.park t.core t.slot th.why (.reply n)).begin n

/-- Splits a list of words into blocks of 32. -/
def blocksOf (ws : List Word) : Nat → List (List Word)
  | 0 => []
  | n + 1 => ws.take 32 :: blocksOf (ws.drop 32) n

/-- LAUNCH has read its packet (args: d); the region's first block follows (args: d, the packet's words). -/
def State.launchPacket (s : State) (r : Req) : State :=
  let d := (r.args.getD 0 0).toNat
  match s.packetCheck r.ctx r.ans with
  | .error e => s.answerErr r d e
  | .ok _ =>
    let p := wordOf r.ans 0
    if p.toNat % 256 ≠ 0 then s.answerErr r d (-2)
    else s.follow r p 32 256 stRegion ([BitVec.ofNat 64 d, BitVec.ofNat 64 (offsetOf r.ptr), r.ptr, 0] ++ r.ans)

/-- The places of blocks, packed into the words that a launch carries: address and key of each. -/
def pairsOf : List Word → List (Nat × Nat)
  | a :: k :: rest => (a.toNat, k.toNat) :: pairsOf rest
  | _ => []

/-- The accesses of a thread under way: its relaxed ones and its vector memory commands (R126). A strand's merge waits for those, and
not for copies and gathers (DEDUCED, log 41). -/
def State.accessIds (s : State) (t : Tid) : List Nat :=
  (s.reqs.filter fun e => e.2.tid == some t && s.outstanding e.1 e.2).map Prod.fst ++
  ((s.vectorsOf t).filter fun v => v.lanes != 0).map fun v => v.id

/-- Whether an access of a list is still under way. -/
def State.underWay (s : State) (ns : List Nat) : Bool :=
  s.reqs.any (fun e => ns.contains e.1 && s.outstanding e.1 e.2) || s.cores.any fun e => e.2.vecCmds.any fun v => ns.contains v.id

/-- Whether a vector command stores to memory. -/
def VOp.stores : VOp → Bool
  | .st | .sct => true
  | _ => false

/-- The stores of a thread that a launch waits for: its relaxed stores and vector stores under way (R129). -/
def State.storesOf (s : State) (t : Tid) : List Nat :=
  (s.reqs.filter fun e => e.2.tid == some t && e.2.runsOn && e.2.want.w).map Prod.fst ++
  ((s.vectorsOf t).filter fun v => v.op.stores).map fun v => v.id

/-- Submits a packet whose region is known, or waits for room: the thread stays parked. -/
def State.submit (s : State) (r : Req) (d : Nat) (ptr : Word) (ws : List Word) (rect : Rect) (g : Region) : State :=
  if s.queueRoom (dieOf rect.first) g.cls then
    let waits := match r.tid with | some t => s.storesOf t | none => []
    (s.enqueue { id := 0, ptr := ptr, ws := ws, ctx := r.ctx, part := r.part, region := g, todo := [], waits := waits }
      rect).answer r d 0
  else
    match r.tid with
    | none => s
    | some t =>
      let (n, s) := s.addReq { r with use := .stage stRoom, stage := .stalled }
      (s.upDie (dieOf rect.first) fun x => { x with wants := x.wants ++ [n] }).park t.core t.slot .launch (.reply n)

/-- LAUNCH has read a region block (args: d, offset, packet pointer, number of blocks read, 16 packet words, then per
block its pointer, address, key and 32 words). -/
def State.launchRegion (s : State) (r : Req) : State :=
  let d := (r.args.getD 0 0).toNat
  let ptr := r.args.getD 2 0
  let k := (r.args.getD 3 0).toNat + 1
  let packet := (r.args.drop 4).take 16
  let old := r.args.drop 20
  let all := old ++ [r.ptr, BitVec.ofNat 64 r.pa, BitVec.ofNat 64 r.key] ++ r.ans
  let recs := (List.range k).map fun i => (all.drop (35 * i)).take 35
  let chain := recs.map fun b => b.getD 0 0
  let places := recs.map fun b => ((b.getD 1 0).toNat, (b.getD 2 0).toNat)
  match s.packetCheck r.ctx packet with
  | .error e => s.answerErr r d e
  | .ok rect =>
    match judgeChain (recs.map fun b => b.drop 3) chain places rect with
    | .bad => s.answerErr r d (-2)
    | .more p =>
      s.follow r p 32 256 stRegion
        ([BitVec.ofNat 64 d, 0, ptr, BitVec.ofNat 64 k] ++ packet ++ all)
    | .done g => s.submit r d ptr packet rect g

/-- A launch that waited for room tries again, as if its last block had just been read. -/
def State.launchAgain (s : State) (n : Nat) : State :=
  match s.reqs.find n with
  | none => s
  | some r => (s.dropReq n).launchRegion r

/-- A place in a die's queues has become free: the launches that wait try again, in order. -/
def State.retryLaunches (s : State) (die : Nat) : State :=
  let l := (s.die die).wants
  l.foldl (fun s n => s.launchAgain n) (s.upDie die fun d => { d with wants := [] })

/-! ### DISPATCH (R67, R68) -/

/-- The free slots of a partition on a core, in ascending order; a disabled one has none (R341). -/
def State.freeSlots (s : State) (c part : Nat) : List Nat :=
  match (s.context (s.ctxOf c)).parts.find part with
  | none => []
  | some p => if p.weight = 0 ∨ s.isDown c then [] else (List.range (slotCount c)).filter fun k => p.slots.testBit k && (s.thread c k).isNone

/-- The thread that a packet starts. -/
def packetThread (p : Packet) : Thread :=
  { pc := wordOf p.ws 1, win := wordOf p.ws 4, fmt := wordOf p.ws 5, sa := wordOf p.ws 6, sb := wordOf p.ws 7,
    band := wordOf p.ws 8, rcb := wordOf p.ws 0, asid := BitVec.ofNat 12 p.region.asid, part := p.part,
    region := p.region }

/-- The windows of a team's threads in some slots, placed one after the other; none when a window does not fit (R55). -/
def Core.teamWins (c : Core) (win : Word) : List Nat → Option (List (Nat × Word))
  | [] => some []
  | k :: ks =>
    match c.place (wSize win) (vSize win) (aSize win) with
    | none => none
    | some w => ((c.upSlot k fun sl => { sl with thread := some { win := w } }).teamWins win ks).map fun l => (k, w) :: l

/-- The delay after which a team is ready: the longest of its threads, so that all are ready in one cycle (R10, R57). -/
def State.teamDelay (s : State) (c : Nat) (l : List (Nat × Word)) : Nat := l.foldl (fun d e => max d (s.startDelay c e.2)) 0

/-- Starts a packet's threads in slots with windows, from index `j` on, ready after a delay (R67, R68). -/
def State.startTeam (s : State) (c : Nat) (p : Packet) (base size delay : Nat) : Nat → List (Nat × Word) → State
  | _, [] => s
  | j, (k, w) :: rest =>
    let regs := [BitVec.ofNat 64 (base + j), BitVec.ofNat 64 size] ++ (p.ws.drop 9).take 6 ++ [p.ptr]
    (((s.createIn c k { packetThread p with win := w } delay).setWs c k 1 regs).startTeam c p base size delay (j + 1) rest)

/-- Places a packet's threads in slots; none when a window does not fit. -/
def State.placeTeam (s : State) (c : Nat) (p : Packet) (base size : Nat) (slots : List Nat) : Option State :=
  ((s.core c).teamWins (wordOf p.ws 4) slots).map fun l => s.startTeam c p base size (s.teamDelay c l) 0 l

/-- A packet's place in the queues: its die, its class and the packets before it. -/
def State.findPacket (s : State) (n : Nat) : Option (Nat × Nat × List Packet × Packet) :=
  s.dies.findSome? fun d => d.2.queues.findSome? fun q =>
    (q.2.find? fun p => p.id == n).map fun p => (d.1, q.1, q.2.takeWhile fun p => p.id != n, p)

/-- A packet has been dispatched, or discarded, on a core; it leaves its queue after the last. -/
def State.dispatched (s : State) (die cls n c : Nat) : State :=
  let s := s.upDie die fun d =>
    { d with queues := d.queues.put cls ((d.queue cls).map fun p => if p.id = n then { p with todo := without c p.todo } else p) }
  let s :=
    if ((s.die die).queue cls).any fun p => p.id == n && p.todo.isEmpty then
      (s.upDie die fun d => { d with queues := d.queues.put cls ((d.queue cls).filter fun p => p.id != n) }).retryLaunches die
    else s
  s.retryDispatch c

/-- Whether an access, or a vector command, of a list is still to be performed on a core's vault; while a vector command's
lanes have not been translated it may be (R129). -/
def State.awaits (s : State) (c : Nat) (ns : List Nat) : Bool :=
  let here (r : Req) : Bool := match homeOf s.sys.image r.pa with | .bank v _ => v == c | _ => false
  s.reqs.any (fun e => (ns.contains e.1 || e.2.engineCmd.any ns.contains) && e.2.stage != .served &&
    (e.2.stage == .translating || here e.2)) ||
  s.cores.any fun e => e.2.vecCmds.any fun v => ns.contains v.id && (!v.started || !v.todo.isEmpty)

/-- DISPATCH (R67, R68, R129, R267, R268, R286). -/
def execDispatch (pkt core : Nat) (s : State) : Out :=
  match s.findPacket pkt with
  | none => .next s
  | some (die, cls, before, p) =>
    if !p.todo.contains core then .next s
    else if s.regionCancelled core p.region then .next (s.dispatched die cls pkt core)
    else if before.any fun q => q.todo.contains core then .next s
    else if !s.placeable core p.part || s.awaits core p.waits || s.ctxOf core != p.ctx then .next s
    else
      match rectOf (wordOf p.ws 2) with
      | none => .next s
      | some r =>
        let n := (wordOf p.ws 3).toNat % 64 + 1
        let slots := (s.freeSlots core p.part).take n
        if slots.length < n ∨ !s.fits core p.region n then .next s
        else
          let base := (r.cores.takeWhile fun c => c != core).length * n
          match s.placeTeam core p base (r.rows * r.cols * n) slots with
          | none => .next s
          | some s => .next (s.dispatched die cls pkt core)

/-! ### Launch tables (R270, R271) -/

/-- sys.ptp: it runs on from its last discipline at the core clock's period of 0.625 ns (R2, R364). -/
def State.ptp (s : State) : Nat := (s.sys.ptp.toNat + (s.cyc - s.sys.ptpAt) * 5 / 8) % 2 ^ 64

/-- Whether an entry is armed. -/
def Die.armed (d : Die) (n : Nat) : Bool := (d.entry n 2).getLsbD 35

/-- The entries that are armed. -/
def Die.armedEntries (d : Die) : List Nat := (List.range 256).filter d.armed

/-- Whether an entry may be armed by a value of word 2: zero fields, policy, window (R270). -/
def armOk (d : Die) (n : Nat) (v : Word) : Bool :=
  v.extractLsb' 36 28 == 0 && !v.getLsbD 34 && v.extractLsb' 32 2 != 3 && decide (100 ≤ (v.extractLsb' 0 32).toNat) &&
  (d.entry n 4).extractLsb' 16 48 == 0 && (d.entry n 7) == 0

/-- A store to a launch table word, as the rules of R270 take or drop it. -/
def State.storeEntry (s : State) (die n i : Nat) (v : Word) : State :=
  let d := s.die die
  if d.armed n ∧ (i < 2 ∨ i = 3 ∨ i = 4 ∨ (i = 2 ∧ v.getLsbD 35)) then s
  else if i = 2 ∧ v.getLsbD 35 ∧ !armOk d n v then s
  else
    let s := s.setEntry die n i v
    let s := if i = 2 then s.upDie die fun d => { d with late := without n d.late } else s
    if i = 2 ∧ v.getLsbD 35 ∧ !d.ticking then
      (s.upDie die fun d => { d with ticking := true }).after 1 20 (.launchTableEvaluation die)
    else s

/-- Where the launch unit finds a block that a pointer names for a context, and under which key: in a vault of the
context's cores, in a sequence of the context, or in a frame that the kernel may reach; none where it may not, and in the
spaces that belong to a thread (R271, log 13). -/
def State.peekAt (s : State) (kern ctx : Nat) (p : Word) : Option (Nat × Nat) :=
  let a := offsetOf p
  match spaceOf p with
  | 2 => if ptrOk p ∧ s.ctxOf (ptrCore p) = ctx then some (vaultAddr (ptrCore p) a, (s.context ctx).key) else none
  | 3 =>
    if (s.seqEvent ctx { r := true } p).isSome then none
    else (s.io.seqs.find (ptrSeq p)).bind fun q => (q.pages.find (a / 65536)).map fun g => (g.pa + a % 65536, q.key)
  | 4 => if tierOf a < 2 ∧ (s.frame (frameOf a)).passes kern then some (a, (s.context kern).key) else none
  | _ => none

/-- Words at a pointer as the launch unit reads them, with their place and key, and the run of words that it reads; there
are none where a word carries an uncorrectable error or lies behind a lost device (R101, R357). -/
def State.peek (s : State) (kern ctx : Nat) (p : Word) (n : Nat) : Option (Nat × Nat × List Word) × List (Nat × Nat) :=
  match s.peekAt kern ctx p with
  | none => (none, [])
  | some (pa, key) =>
    (if s.errorIn pa n < 2 ∧ !s.lostAt pa then some (pa, key, (wordsFrom pa n).map (s.mem.read key)) else none, [(pa, n)])

/-- Reads the region chain that a packet names, block by block (R266), with the runs of words that it reads. -/
def State.peekChain (s : State) (kern ctx : Nat) (rect : Rect) (p : Word) (got : List (Word × Nat × Nat × List Word)) :
    Nat → Option Region × List (Nat × Nat)
  | 0 => (none, [])
  | fuel + 1 =>
    if p.toNat % 256 ≠ 0 then (none, [])
    else match s.peek kern ctx p 32 with
      | (none, runs) => (none, runs)
      | (some b, runs) =>
        let got := got ++ [(p, b)]
        match judgeChain (got.map fun e => e.2.2.2) (got.map Prod.fst) (got.map fun e => (e.2.1, e.2.2.1)) rect with
        | .bad => (none, runs)
        | .more q =>
          let (g, more) := s.peekChain kern ctx rect q got fuel
          (g, runs ++ more)
        | .done g => (some g, runs)

/-- What a LAUNCH from a context would make of the packet at a K-space pointer: a result, or the packet (R271, R355); with the
runs of words that it reads. -/
def State.judge (s : State) (kern ctx : Nat) (p : Word) : Except Int (Packet × Rect) × List (Nat × Nat) :=
  if p.toNat % 128 ≠ 0 then (.error (-1), [])
  else match s.peek kern ctx p 16 with
    | (none, runs) => (.error (-2), runs)
    | (some (_, _, ws), runs) =>
      match s.packetCheck ctx ws with
      | .error e => (.error e, runs)
      | .ok rect =>
        match s.peekChain kern ctx rect (wordOf ws 0) [] 8 with
        | (none, more) => (.error (-2), runs ++ more)
        | (some g, more) =>
          (.ok ({ id := 0, ptr := p, ws := ws, ctx := ctx, part := 0, region := g, todo := [] }, rect), runs ++ more)

/-- A unit has read a run of words: an uncorrectable error is told to the frame's owner, and corrected ones count (R101). -/
def State.readRun (s : State) (a n : Nat) : State :=
  let s' := s.countRead a n
  if s.errorIn a n = 2 then s'.tellPoison (s.badWord a n) else s'

/-- The status word of an outcome (Table 15.3). -/
def statusWord (old : Word) (missed : Nat) (code : Int) (outcome : Nat) : Word :=
  let m := min (2 ^ 32 - 1) ((old.toNat / 2 ^ 16) % 2 ^ 32 + missed)
  BitVec.ofNat 64 (m * 2 ^ 16 + (BitVec.ofInt 8 code).toNat * 2 ^ 8 + outcome)

/-- Sets or clears the full/empty bit of an entry's status word. -/
def State.setTaken (s : State) (die n : Nat) (e : Bool) : State :=
  s.upDie die fun d => { d with taken := if e then n :: without n d.taken else without n d.taken }

/-- Serves a synchronising request on a status word that allows it (R102, R270). -/
def State.serveStatus (s : State) (m : Nat) (r : Req) (die n : Nat) : State :=
  let s := s.upDie die fun d => { d with readers := without m d.readers }
  match r.op with
  | .lde => (s.setTaken die n true).reply m [(s.die die).entry n 5]
  | .stf v => ((s.setEntry die n 5 v).setTaken die n false).reply m []
  | _ => s.reply m [(s.die die).entry n 5]

/-- Serves the requests that wait for a status word, in arrival order, as its bit allows (R103, R271). `fuel` bounds
the passes. -/
def State.wakeReaders (s : State) (die n : Nat) : Nat → State
  | 0 => s
  | fuel + 1 =>
    match (s.die die).readers.find? (fun m => match s.reqs.find m with
        | some r => tableSlot r.pa == .launch die n 5 && r.op.canServe (s.tableFull (.launch die n 5))
        | none => false) with
    | none => s
    | some m => match s.reqs.find m with
      | some r => (s.serveStatus m r die n).wakeReaders die n fuel
      | none => s

/-- Writes an entry's outcome, and sets its status word full. -/
def State.outcome (s : State) (die n missed : Nat) (code : Int) (out : Nat) : State :=
  let s := s.setEntry die n 5 (statusWord ((s.die die).entry n 5) missed code out)
  let s := (s.setTaken die n false).wakeReaders die n ((s.die die).readers.length + 1)
  s.fireLine (2 ^ 26) (0x300001100000 + 0x4000 * die + 64 * n)

/-- Disarms an entry. -/
def State.disarmEntry (s : State) (die n : Nat) : State :=
  s.setEntry die n 2 ((s.die die).entry n 2 &&& ~~~(0x800000000 : Word))

/-- The occurrence of an entry under LATE has been missed: it counts, once (R271). -/
def State.noteMiss (s : State) (die n : Nat) : State :=
  if (s.die die).late.contains n then s
  else
    let old := (s.die die).entry n 5
    (s.setEntry die n 5 (statusWord old 1 (old.extractLsb' 8 8).toInt (old.toNat % 256))).upDie die fun d =>
      { d with late := n :: d.late }

/-- The next occurrence of an entry after its outcome (R271): occurrences skipped over count as misses. -/
def State.nextOccurrence (s : State) (die n : Nat) : State :=
  let s := s.upDie die fun d => { d with late := without n d.late }
  let d := s.die die
  let period := (d.entry n 3).toNat
  if period = 0 then s.disarmEntry die n
  else
    let t := (d.entry n 1).toNat
    let window := ((d.entry n 2).extractLsb' 0 32).toNat
    let k := max 1 ((s.ptp - (t + window) + period - 1) / period)
    let s := s.setEntry die n 1 (BitVec.ofNat 64 (t + k * period))
    if k = 1 then s
    else
      let old := (s.die die).entry n 5
      s.setEntry die n 5 (statusWord old (k - 1) (old.extractLsb' 8 8).toInt (old.toNat % 256))

/-- Submits an entry's packet, as a LAUNCH from its context would; false when the queue has no room, or a hold stands on a
word that it reads (R133). -/
def State.submitEntry (s : State) (die n missed out : Nat) : Bool × State :=
  let d := s.die die
  let ctx := (d.entry n 4).toNat % 65536
  if ctx ≠ 2 ∧ s.kernOf ctx ≠ 2 then (true, (s.outcome die n missed (-3) 5).disarmEntry die n)
  else
    let (v, runs) := s.judge 2 ctx (d.entry n 0)
    let s' := runs.foldl (fun s e => s.readRun e.1 e.2) s
    if runs.any fun e => s.heldIn e.1 e.2 then (false, s)
    else match v with
    | .error e => (true, (s'.outcome die n missed e 5).disarmEntry die n)
    | .ok (p, rect) =>
      if s.queueRoom (dieOf rect.first) p.region.cls then
        let s := s'.enqueue p rect
        let s := s.setEntry die n 6 (d.entry n 6 + 1)
        (true, (s.outcome die n missed 0 out).nextOccurrence die n)
      else (false, s')

/-- Evaluates an armed entry (R271). -/
def State.evaluate (s : State) (die n : Nat) : State :=
  let d := s.die die
  let t := (d.entry n 1).toNat
  let w2 := d.entry n 2
  let window := (w2.extractLsb' 0 32).toNat
  if s.ptp < t then s
  else if s.ptp ≤ t + window then (s.submitEntry die n 0 1).2
  else match (w2.extractLsb' 32 2).toNat with
    | 0 => (s.outcome die n 1 0 2).nextOccurrence die n
    | 1 => ((s.noteMiss die n).submitEntry die n 0 3).2
    | _ => (s.outcome die n 1 0 4).disarmEntry die n

/-- LAUNCH_TABLE_EVALUATION (R271): every armed entry, and again within 128 cyc while one is armed. -/
def execLaunchTableEvaluation (die : Nat) (s : State) : Out :=
  let s := (s.die die).armedEntries.foldl (fun s n => s.evaluate die n) s
  if (s.die die).armedEntries.isEmpty then .next (s.upDie die fun d => { d with ticking := false })
  else .next (s.after 128 20 (.launchTableEvaluation die))

/-! ### CANCEL (R285, R286) -/

/-- CANCEL (R285). -/
def execCancel (d a : Reg) (s : State) : Out :=
  issue (plainKind [d, a]) s fun s x =>
    let p := x.w s (rn a)
    if p.toNat % 256 ≠ 0 then x.trap s cALIGN p
    else
      x.access s p 0x10
        { op := .cancel, use := .reg (rn d), align := 8, redir := .forbidden, args := [p] }

/-- Whether a thread is merging a view, which it finishes before it is withdrawn (R286). -/
def State.merging (s : State) (t : Thread) : Bool :=
  t.ended && (match t.status with | .parked _ .merging => true | _ => false) && (match t.strand with
    | some (f, _) => match s.frames.find f with | some fr => fr.merging.isSome | none => false
    | none => false)

/-- Whether a thread waits for a matrix command that has neither committed nor trapped, which it does first (R245). -/
def State.inMatrix (s : State) (c : Nat) (t : Thread) : Bool :=
  match t.status with
  | .parked _ (.matrix id) => !((s.core c).matrix.flight.any fun q => q.id == id && q.committed)
  | _ => false

/-- The views of a strand's merge that have begun: those with a word whose turn has come, one a cycle (R283). -/
def State.begunViews (s : State) (fr : TFrame) (m : Merging) : List Nat :=
  let sd := (fr.strands.find m.strand).getD {}
  let ws := (List.range 8).flatMap fun k => (sd.views.filter fun v => v.1 % 8 == k).flatMap fun v =>
    List.replicate (v.2.2 / 8) v.1
  (ws.drop m.skip).take (s.cyc - m.start) |>.eraseDups

/-- A merge goes on only through the views that it has begun: the others are freed (R286). -/
def State.mergeCut (s : State) (f : Nat) (fr : TFrame) (m : Merging) : State :=
  let nums := s.begunViews fr m
  let stays (e : Nat × Req) : Bool := match e.2.use with
    | .merge num _ _ _ => !(e.2.tid == fr.merger) || e.2.args.getD 1 0 != BitVec.ofNat 64 f || nums.contains num
    | _ => true
  let s := { s with reqs := s.reqs.filter stays }
  let cut (sd : Strand) : Strand :=
    let l := sd.views.filter fun v => nums.contains v.1
    { sd with views := l, cut := sd.cut || decide (l.length < sd.views.length) }
  s.upFrame f fun fr =>
    { fr with merging := some { m with todo := m.todo.filter fun e => nums.contains e.1 }, strands := fr.strands.adjust m.strand cut }

/-- The views that a frame's strands hold on a core are freed, and neither those strands nor later ones merge; a strand whose
views are being merged finishes the views that it has begun (R286). -/
def State.freeHeld (s : State) (core f : Nat) (fr : TFrame) : State :=
  let s := match fr.merging with
    | some m =>
      if ((fr.strands.find m.strand).getD {}).core = core ∨ fr.merger.any (fun (t : Tid) => t.core == core) then s.mergeCut f fr m else s
    | none => s
  let busy (n : Nat) : Bool := match fr.merging with | some m => m.strand == n | none => false
  s.upFrame f fun fr => { fr with
    strands := fr.strands.map fun e =>
      if e.2.core = core ∧ !e.2.views.isEmpty ∧ !busy e.1 then (e.1, { e.2 with views := [], cut := true }) else e }

/-- CANCEL_NOTICE (R195, R245, R286): the region's threads on the core are cancelled, its continuations and inline records
discarded, and the views that its strands hold there freed. Queued packets are discarded at dispatch. -/
def execCancelNotice (core : Nat) (rcb : Word) (s : State) : Out :=
  let hit (g : Region) : Bool := g.chain.contains rcb
  let s := (s.core core).threads.foldl
    (fun s e => if hit e.2.region && !s.merging e.2 && !s.inMatrix core e.2 then s.cancelThread core e.1 else s) s
  let s := (s.upCore core fun x => { x with caddy := x.caddy.filter fun k => !hit k.region }).sweep
  let s := s.frames.foldl (fun s e => if hit e.2.region then s.freeHeld core e.1 e.2 else s) s
  let keep (b : Nat × Nat × Nat) : Bool :=
    match (s.frames.find b.1) with
    | some fr => !hit fr.region || (((fr.strands.find b.2.1).getD {}).views.has b.2.2)
    | none => false
  let s := s.upCore core fun x => { x with binds := x.binds.filter keep }
  .next (s.drainCheck core)

end Sys2Proof.Machine
end

