-- ==== Sys2Proof/Machine/Tasks.lean ====
section
/-! DEFINITION. Spawned tasks, views and their merges: SPAWN, BLEND, JOIN, VDECL, VDROP and the steal unit
(R130, R199 to R201, R272 to R284, R287, R288). -/

namespace Sys2Proof.Machine

/-! ### Frames (R279, R280) -/

/-- The frame a task has opened itself. -/
def Thread.own (t : Thread) : Option Nat := t.frames.head?

/-- Whether a frame has children not joined. -/
def State.spawnedIn (s : State) (f : Option Nat) : Bool :=
  match f.bind s.frames.find with | some fr => fr.spawned | none => false

/-- Whether some slot is visible to a thread (R279). -/
def State.seesSlot (s : State) (t : Thread) : Bool :=
  match t.strand with | some (f, _) => !(s.visible f 9).isEmpty | none => false

/-- Opens a frame for a task: at most 8 deep, with a record in the pool (R279, R280). -/
def State.openFrame (s : State) (c k : Nat) : Option State :=
  match s.thread c k with
  | none => none
  | some t =>
    let depth := match t.strand with
      | some (f, _) => (match s.frames.find f with | some fr => fr.depth + 1 | none => 1)
      | none => 1
    if 8 < depth ∨ !s.recordRoom c t.region (s.ctxOf c) then none
    else
      let (n, s) := s.fresh
      let s := { s with frames := s.frames.put n { outer := t.strand, depth := depth, region := t.region, ctx := s.ctxOf c, core := c, part := t.part } }
      some (s.upThread c k fun t => { t with strand := some (n, 0), frames := [n] })

/-- The enclosing strand of a task whose own frame is freed. -/
def State.outerOf (s : State) (f : Nat) : Option (Nat × Nat) := (s.frames.find f).bind fun fr => fr.outer

/-- Frees a task's own frame record: the task runs in the enclosing strand again. -/
def State.closeFrame (s : State) (c k : Nat) : State :=
  match (s.thread c k).bind Thread.own with
  | none => s
  | some f =>
    let o := s.outerOf f
    (s.dropFrames [f]).upThread c k fun t => { t with strand := o, frames := [] }

/-! ### VDECL and VDROP (R277, R278) -/

/-- The operator of a view descriptor. -/
def viewOp (n : Nat) : ViewOp :=
  match n with
  | 0 => .fadd | 1 => .iadd | 2 => .modadd | 3 => .vmin | 4 => .vmax | 5 => .vand | 6 => .vor | _ => .vxor

/-- Whether an operator accepts an element type (Table 15.5). -/
def viewOk (op : ViewOp) (elem : Nat) : Bool :=
  match op with
  | .fadd => decide (elem < 2)
  | .iadd => decide (2 ≤ elem)
  | .modadd => elem == 3
  | .vmin | .vmax => true
  | _ => decide (2 ≤ elem)

/-- Whether a word of lc0 is a modulus (R257). -/
def modulusOk (q : Word) : Bool := q.getLsbD 0 && decide (3 ≤ q.toNat) && decide (q.toNat < 2 ^ 62)

/-- VDECL (R277). -/
def execVdecl (d a b : Reg) (s : State) : Out :=
  issue (smallKind [d, a, b]) s fun s x =>
    let desc := x.w s (rn d)
    let base := x.w s (rn a)
    let ext := (x.w s (rn b)).toNat
    let elem := fieldOf [desc] 0 8 2
    let op := viewOp (fieldOf [desc] 0 4 3)
    let slot := fieldOf [desc] 0 0 3
    if desc.extractLsb' 10 54 != 0 || desc.getLsbD 7 || desc.getLsbD 3 || !viewOk op elem || decide (ext % 8 ≠ 0) ||
        decide (ext < 8) || decide (2 ^ 20 < ext) || spaceOf base == 3 || spaceOf base == 4 then x.perm s 9
    else
      match effective base 0, effective base (ext - 8) with
      | .error e, _ => x.perm s e
      | _, .error e => x.perm s e
      | .ok _, .ok _ =>
        if base.toNat % 8 ≠ 0 then x.trap s cALIGN base
        else
          let own := x.th.own
          let declared := match own.bind s.frames.find with | some fr => fr.slots.any (fun v => v.slot == slot) | none => false
          let abs := absolute x.core base
          let seen := match x.th.strand with | some (f, _) => s.visible f 9 | none => []
          let q := ((s.core x.core).vector.lc.find 0).getD 0
          if s.spawnedIn own || declared then x.perm s 0x0D
          else if seen.any fun v => rangeMeets v.2.base v.2.ext abs ext then x.perm s 9
          else if op == .modadd && !modulusOk q then x.perm s 9
          else
            match (match own with | some _ => some s | none => s.openFrame x.core x.slot) with
            | none => x.perm s 0x0E
            | some s =>
              let v : VSlot := { slot := slot, base := abs, ext := ext,
                                 merge := { elem := elem, op := op, rm := fmtRm x.th.fmt, q := q } }
              match (s.thread x.core x.slot).bind Thread.own with
              | some f => x.done (s.upFrame f fun fr => { fr with slots := fr.slots ++ [v] })
              | none => x.done s

/-- VDROP (R278). -/
def execVdrop (d : Reg) (s : State) : Out :=
  issue (smallKind [d]) s fun s x =>
    let n := (x.w s (rn d)).toNat
    if 7 < n then x.perm s 9
    else if s.spawnedIn x.th.own then x.perm s 0x0D
    else
      match x.th.own with
      | none => x.done s
      | some f =>
        let s := s.upFrame f fun fr => { fr with slots := fr.slots.filter fun v => v.slot != n }
        if (s.visible f 9).isEmpty then x.done (s.closeFrame x.core x.slot) else x.done s

/-! ### Merges (R199, R282 to R284) -/

/-- What an instruction does when the merges due are done. -/
inductive Job where
  | spawn | blend | join
  deriving DecidableEq, Repr

/-- The words that the requests of a merge carry: the job, the frame, and SPAWN's operands. -/
def Job.code : Job → Word
  | .spawn => 0 | .blend => 1 | .join => 2

/-- The job of a request's words. -/
def jobOf (w : Word) : Job := if w = 0 then .spawn else if w = 1 then .blend else .join

/-- The lowest strand of a frame that has not merged, or that was cancelled. -/
def TFrame.next (fr : TFrame) : Option (Nat × Strand) := fr.strands.find? fun e => !e.2.merged || e.2.cut

/-- The pointer to the target of a slot's merges (R199, R279), and its address space: the declared range, in the merging thread's, or
the view that the frame's first strand sees, in its pool's (R280; DESIGN CHOICE, log 84). -/
def State.targetOf (s : State) (t : Tid) (f num : Nat) (v : VSlot) : ViewGot × Nat × State :=
  let own := ((s.threadOf t).map fun th => th.asid.toNat).getD 0
  if num / 8 = f then (.view v.base, own, s)
  else match s.seenBy f 0 9 with
    | none => (.view v.base, own, s)
    | some (g, n) => let (o, s) := s.viewOf t.core g n num v; (o, s.poolAsid g, s)

/-- The slot that a number names, 8 × frame + slot. -/
def State.slotOf (s : State) (num : Nat) : Option VSlot :=
  match s.frames.find (num / 8) with
  | some fr => fr.slots.find? fun v => v.slot == num % 8
  | none => none

/-- The bytes of an element type. -/
def elemBytes (e : Nat) : Nat := if e = 1 then 2 else if e = 3 then 8 else 4

/-- The cursor of a merge as a restart index: slot and element (Table 10.5). -/
def cursorIndex (v : VSlot) (i : Nat) : Nat := v.slot * 2 ^ 32 + 8 * i / elemBytes v.merge.elem

/-- Sends a request of an instruction's job; the thread is parked. -/
def State.jobAsk (s : State) (r : Req) (t : Tid) (p : Word) (op : MemOp) (stage : Nat) : State :=
  match s.spaceEvent r.core r.part p with
  | some e => s.trap t.core t.slot cPERM (BitVec.ofNat 64 e) r.epc 0 false
  | none =>
    let (n, s) := s.addReq { r with op := op, use := .stage stage, ptr := p, index := 0, stage := .sent, ans := [],
                                    event := none, view := none, acq := none }
    (s.park t.core t.slot .mem (.reply n)).begin n

/-- The words of a strand's views in the order of their merge: slots in ascending order, and each slot's words (R282). -/
def State.mergeWords (s : State) (sd : Strand) : List (Nat × Nat) :=
  (List.range 8).flatMap fun k => (sd.views.filter fun v => v.1 % 8 == k).flatMap fun v =>
    match s.slotOf v.1 with
    | some d => (List.range (d.ext / 8)).map fun i => (v.1, i)
    | none => []

/-- Sends a request of a merge: the read of a word of the view, or the hold of its target (R282). -/
def State.mergeAsk (s : State) (r : Req) (t : Tid) (f num i turn index : Nat) (hold : Bool) (p : Word) (op : MemOp)
    (since : Nat) : State :=
  match s.spaceEvent r.core r.part p with
  | some e => s.mergeMet t f num i turn index r.epc cPERM (BitVec.ofNat 64 e)
  | none =>
    let (n, s) := s.addReq { r with op := op, use := .merge num i turn hold, ptr := p, index := index, stage := .sent, ans := [],
                                    event := none, view := none, acq := none, since := since }
    s.begin n

/-- Whether a read of a merge is still in translation: no word after it is sent. -/
def State.mergeUnsure (s : State) (t : Tid) : Bool :=
  s.reqs.any fun e => e.2.tid == some t && e.2.turn.any (fun k => !k.2) &&
    (e.2.stage == .translating || e.2.stage == .logging)

/-- The pointer of a word of a strand's view, and the cursor at it. -/
def State.viewWord (s : State) (f st num i : Nat) : Option (Word × Nat) :=
  match s.slotOf num, ((s.frames.find f).bind fun fr => fr.strands.find st).bind fun sd => sd.views.find num with
  | some v, some (p, _) => some (p + BitVec.ofNat 64 (8 * i), cursorIndex v i)
  | _, _ => none

/-- A merged view returns to the pool, and its binding is freed. -/
def State.freeView (s : State) (f st num : Nat) : State :=
  let s := s.upStrand f st fun sd => { sd with views := sd.views.drop num }
  { s with cores := s.cores.mapVals fun c => { c with binds := c.binds.filter fun b => !(b == (f, st, num)) } }

/-- Marks a strand merged. -/
def State.markMerged (s : State) (f st : Nat) : State := s.upStrand f st fun sd => { sd with merged := true }

/-- Whether every strand of a frame has merged. -/
def State.allMerged (s : State) (f : Nat) : Bool :=
  match s.frames.find f with | some fr => fr.next.isNone | none => true

/-- JOIN's end (R276): the serial order begins anew with the strand after it. -/
def State.joined (s : State) (f c k : Nat) (npc : Word) : State :=
  let s := s.upFrame f fun fr => { fr with strands := [(0, {})], spawned := false, cursor := none, merger := none }
  (s.upThread c k fun t => { t with strand := some (f, 0), ended := false }).resumeIn c k npc 4

/-- The thread that waits in JOIN for a frame. -/
def State.joiner (s : State) (f : Nat) : Option (Nat × Nat × Word) :=
  s.cores.findSome? fun c => c.2.threads.findSome? fun e => match e.2.status with
    | .parked _ (.join g npc) => if g = f then some (c.1, e.1, npc) else none
    | _ => none

/-- A JOIN that waits returns when every strand has merged. -/
def State.checkJoin (s : State) (f : Nat) : State :=
  if s.allMerged f then
    match s.joiner f with
    | some (c, k, npc) => s.joined f c k npc
    | none => s
  else s

/-- Resumes a continuation in a slot whose windows are its own: they are zeroed but for the continuation word, and the
recorded registers hold (R200). -/
def State.resumeCont (s : State) (c k : Nat) (e : Cont) : State :=
  match s.thread c k with
  | none => s
  | some t =>
    if s.regionCancelled c e.region then s.cancelThread c k
    else
      let s := s.upCore c fun x => x.zeroWin t.win
      let s := s.upThread c k fun t =>
        { t with vec := e.vec, epc := 0, cause := 0, info := 0, lvl := false, vx := 0, fmt := e.fmt, sa := e.sa, sb := e.sb,
                 band := e.band, rcb := e.rcb, asid := e.asid, strand := e.strand, frames := e.frames, child := e.child,
                 ended := false, lastArr := none, restart := none }
      (s.setW c k e.reg e.word).resumeAt c k e.pc

/-- The last continuation that a thread pushed and that is still there (R200); of a thread that has moved here there is none (DESIGN
CHOICE, log 118). -/
def Core.lastPushed (c : Core) (t : Tid) : Option Cont := (c.caddy.filter fun e => e.pusher == t && e.written).getLast?

/-- Removes a continuation from a caddy. -/
def State.dropCont (s : State) (c : Nat) (e : Cont) : State := s.upCore c fun x => { x with caddy := x.caddy.erase e }

/-- The stages at which an inline record has been written, and read back (R273). -/
def stInlined : Nat := 7
def stInline : Nat := 8

/-- BLEND's end (R273, R275): the thread takes back its last continuation, or ends as TEND would, which reports its deferred
events first (R62, R99). -/
def State.blendRest (s : State) (r : Req) (t : Tid) : State :=
  match (s.core t.core).lastPushed t with
  | none =>
    match (s.threadOf t).bind fun th => th.deferred.find? (dueAt (lateKind .ends)) with
    | some d => s.reportDeferred t d
    | none => (s.upThread t.core t.slot fun th => { th with child := false }).endThread t.core t.slot
  | some e =>
    match e.inlined with
    | none => (s.dropCont t.core e).resumeCont t.core t.slot e
    | some off => s.jobAsk { r with asid := e.region.asid } t (absolute e.home e.region.pool + BitVec.ofNat 64 off) (.block 16) stInline

/-- An inline record has been read back: its block is freed and the continuation resumes. -/
def State.inlineRead (s : State) (t : Tid) : State :=
  match (s.core t.core).lastPushed t with
  | some e => (s.dropCont t.core e).resumeCont t.core t.slot e
  | none => s.endThread t.core t.slot

/-- The cores of a rectangle word that belong to a context. -/
def State.coresIn (s : State) (w : Word) (ctx : Nat) : List Nat :=
  match rectOf w with
  | some r => r.cores.filter fun c => s.ctxOf c == ctx
  | none => []

/-- The steal units of a region's cores start to probe (R201, R274). -/
def State.startProbes (s : State) (g : Region) (ctx : Nat) : State :=
  (s.coresIn g.cores ctx).foldl (fun s c =>
    if (s.core c).probing then s
    else (s.upCore c fun x => { x with probing := true }).after 32 20 (.stealProbe c)) s

/-- The thread goes on as the child (R272). -/
def State.beginChild (s : State) (t : Tid) (f : Nat) (entry : Word) : State :=
  let s := s.upTid t fun th =>
    { th with ended := false, child := true, frames := [],
              strand := match th.own, th.strand with
                | some _, some (_, n) => some (f, n + 1)
                | _, _ => none }
  s.resumeAt t.core t.slot entry

/-- The continuation of a thread at SPAWN (R200, R273). -/
def contOf (t : Thread) (tid : Tid) (npc word : Word) (reg : Nat) (waits : List Nat) (inl : Option Nat) : Cont :=
  { pc := npc, reg := reg, word := word, win := t.win, vec := t.vec, fmt := t.fmt, sa := t.sa, sb := t.sb, band := t.band,
    rcb := t.rcb, asid := t.asid, part := t.part, region := t.region,
    strand := match t.own, t.strand with
      | some _, some (f, n) => some (f, n + 2)
      | _, _ => none
    frames := t.frames, child := t.child, waits := waits, pusher := tid, inlined := inl, written := inl.isNone, home := tid.core }

/-- An inline record has been written: the continuation stands in it, and the child begins (R273). -/
def State.recordWritten (s : State) (t : Tid) (f : Nat) (entry : Word) : State :=
  let mark (e : Cont) : Cont := if e.pusher = t then { e with written := true } else e
  (s.upCore t.core fun x => { x with caddy := x.caddy.map mark }).beginChild t f entry

/-- SPAWN's end (R272, R273): the continuation is pushed, or written as an inline record, and the child begins. The block of a
record whose write has met an event goes back to the pool first. -/
def State.spawnRest (s : State) (r : Req) (t : Tid) : State :=
  match s.threadOf t with
  | none => s
  | some th =>
    let f := (r.args.getD 1 0).toNat
    let entry := r.args.getD 2 0
    let mk := contOf th t r.npc (r.args.getD 3 0) (r.args.getD 4 0).toNat (s.accessIds t)
    let s := s.upCore t.core fun x => { x with caddy := x.caddy.filter fun e => e.written || e.pusher != t }
    let x := s.core t.core
    if (x.caddy.filter fun e => e.inlined.isNone).length < 64 then
      let s := s.upCore t.core fun x => { x with caddy := x.caddy ++ [mk none] }
      ((s.startProbes th.region (s.ctxOf t.core)).beginChild t f entry)
    else
      match s.poolRoom t.core th.region (s.ctxOf t.core) 128 with
      | none => s.trap t.core t.slot cPERM 0x0E r.epc 0 false
      | some off =>
        let s := s.upCore t.core fun x => { x with caddy := x.caddy ++ [mk (some off)] }
        let (ws, s) := s.freeWords 16
        s.jobAsk { r with asid := th.region.asid } t (absolute t.core th.region.pool + BitVec.ofNat 64 off) (.write ws false) stInlined

/-- JOIN's end (R276): it returns when every strand has merged, or waits. -/
def State.joinRest (s : State) (r : Req) (t : Tid) : State :=
  let f := (r.args.getD 1 0).toNat
  if s.allMerged f then s.joined f t.core t.slot r.npc
  else s.park t.core t.slot .barrier (.join f r.npc)

/-- The instruction goes on when the merges due are done. -/
def State.jobRest (s : State) (r : Req) (t : Tid) : State :=
  match jobOf (r.args.getD 0 0) with
  | .spawn => s.spawnRest r t
  | .blend => s.blendRest r t
  | .join => s.joinRest r t

/-- Sends the reads of a merge, one a cycle, each when the one before has its translation (R283); `fuel` bounds them. -/
def State.mergeSend (s : State) (r : Req) (t : Tid) (f : Nat) : Nat → State
  | 0 => s
  | fuel + 1 =>
    match (s.frames.find f).bind fun fr => fr.merging with
    | none => s
    | some m =>
      if s.mergeUnsure t then s
      else match m.todo with
        | [] => s
        | (num, i) :: rest =>
          let s := s.upFrame f fun fr => { fr with merging := some { m with todo := rest, sent := m.sent + 1 } }
          match s.viewWord f m.strand num i with
          | none => s.mergeSend r t f fuel
          | some (p, idx) =>
            (s.mergeAsk { r with asid := s.poolAsid f } t f num i m.sent idx false p (.block 1) (m.start + 1 + m.sent)).mergeSend r t f fuel

/-- Begins the merge of a strand's views, from the cursor if it stands in them (R284). -/
def State.mergeStart (s : State) (r : Req) (t : Tid) (f st : Nat) (sd : Strand) : State :=
  let ws := s.mergeWords sd
  let all := ws.length
  let ws := match (s.frames.find f).bind fun fr => fr.cursor with
    | some (st', num, i) => if st' = st then ws.dropWhile (fun e => !(e == (num, i))) else ws
    | none => ws
  let m : Merging := { strand := st, todo := ws, start := s.cyc, skip := all - ws.length }
  let s := s.upFrame f fun fr => { fr with merger := some t, merging := some m }
  (s.park t.core t.slot .mem .merging).mergeSend r t f (ws.length + 1)

/-- Performs the merges that are due in a frame, in serial order, unless another thread performs them (R199); `fuel`
bounds the strands that merge without a view. A view merges when the accesses of its strand have completed, which may still
allocate it (R130); the first strand of a frame has no view of its own. SPAWN, which waits for no access, leaves a strand that has no
view as yet to those after it (R272; DEDUCED, log 41). Behind a cancelled strand none merges (R286). -/
def State.runMerges (s : State) (r : Req) (t : Tid) (f : Nat) : Nat → State
  | 0 => s
  | fuel + 1 =>
    match s.frames.find f with
    | none => s.jobRest r t
    | some fr =>
      if fr.merger.isSome && fr.merger != some t then s.jobRest r t
      else
        match fr.next with
        | none => ((s.upFrame f fun fr => { fr with merger := none, cursor := none }).checkJoin f).jobRest r t
        | some (st, sd) =>
          if !sd.ended || sd.cut then (s.upFrame f fun fr => { fr with merger := none, cursor := none }).jobRest r t
          else if st = 0 ∨ (s.mergeWords sd).isEmpty && !s.underWay sd.waits then (s.markMerged f st).runMerges r t f fuel
          else if !s.underWay sd.waits then s.mergeStart r t f st sd
          else if jobOf (r.args.getD 0 0) = .spawn ∧ (s.mergeWords sd).isEmpty then
            (s.upFrame f fun fr => { fr with merger := none, cursor := none }).jobRest r t
          else (s.upFrame f fun fr => { fr with merger := some t }).park t.core t.slot .mem .retry

/-- The strands of a frame. -/
def State.strandCount (s : State) (f : Nat) : Nat :=
  match s.frames.find f with | some fr => fr.strands.length | none => 0

/-- Threads that wait to merge a strand whose accesses were under way try again (R130). -/
def State.pokeMergers (s : State) : State :=
  s.frames.foldl (fun s e => match e.2.merger with
    | some t => if e.2.merging.isNone then s.poke t else s
    | none => s) s

/-- An access has completed: launched packets and merges that wait for it try again (R129, R130). -/
def State.accessDone (s : State) (n : Nat) : State :=
  let s := s.dies.foldl (fun s d => d.2.queues.foldl (fun s q => q.2.foldl (fun s (p : Packet) =>
    if p.waits.contains n then s.postAll 21 (.dispatch p.id) p.todo else s) s) s) s
  s.pokeMergers

/-- Runs the merges that are due. -/
def State.merges (s : State) (r : Req) (t : Tid) (f : Nat) : State := s.runMerges r t f (s.strandCount f + 1)

/-- The views of a strand are merged: they return to the pool, and the instruction goes on, unless its region is cancelled
(R199, R286). -/
def State.mergeEnd (s : State) (r : Req) (t : Tid) (f : Nat) (m : Merging) : State :=
  let nums := match (s.frames.find f).bind fun fr => fr.strands.find m.strand with
    | some sd => sd.views.map Prod.fst
    | none => []
  let s := nums.foldl (fun s n => s.freeView f m.strand n) s
  let s := (s.upFrame f fun fr => { fr with merging := none, cursor := none }).upStrand f m.strand fun sd =>
    { sd with merged := !sd.cut }
  match s.threadOf t with
  | none => s
  | some th => if s.regionCancelled t.core th.region then s.cancelThread t.core t.slot else s.merges r t f

/-- A word of a merge is done: the merge ends when it was the last. -/
def State.mergeCheck (s : State) (r : Req) (t : Tid) (f : Nat) : State :=
  match (s.frames.find f).bind fun fr => fr.merging with
  | none => s
  | some m =>
    if m.met.isSome then s.mergeStops t f r.epc
    else if m.todo.isEmpty && !(s.reqs.any fun e => e.2.tid == some t && e.2.turn.isSome) then s.mergeEnd r t f m
    else s

/-- The hold of a target has been written back and acknowledged. -/
def State.mergeAcked (s : State) (r : Req) (t : Tid) : State := s.mergeCheck r t (r.args.getD 1 0).toNat

/-- The latency to the target of a merge's word. -/
def State.targetLat (s : State) (r : Req) (p : Word) : Nat :=
  match s.locate r.core r.ctx r.asid { r := true, w := true } p with
  | (.ok pa _ _ _ _, _) => s.reach r.core pa
  | _ => r.lat

/-- A word of a view has been read: an empty word merges nothing, a full one is merged under a hold (R282). The hold was
asked for with the read, so that the word takes twice the longer latency (R283). A hold on a word that the allocation of the target
reads or writes is waited for (R133). -/
def State.mergeGot (s : State) (r : Req) (t : Tid) (num i turn : Nat) : State :=
  let f := (r.args.getD 1 0).toNat
  match s.slotOf num with
  | none => s.mergeCheck r t f
  | some v =>
    if !s.mem.full r.pa then
      let own := ((s.threadOf t).map fun th => th.asid.toNat).getD 0
      let far := if num / 8 = f then s.targetLat { r with asid := own } (v.base + BitVec.ofNat 64 (8 * i)) else s.targetLat r r.ptr
      s.mergeAsk r t f num i turn r.index true r.ptr (.block 0) (s.cyc + 2 * max r.lat far - r.lat - halfUp r.lat)
    else match s.targetOf t f num v with
      | (.exhausted, _, s) => s.mergeMet t f num i turn r.index r.epc cPERM 0x0E
      | (.stop (.event c e), _, s) => s.mergeMet t f num i turn r.index r.epc c e
      | (.stop (.held a), _, s) => let (n, s) := s.addReq r; s.awaitTurn a (.memReply n)
      | (.view b, a, s) =>
        let r := { r with asid := a }
        let p := b + BitVec.ofNat 64 (8 * i)
        let far := s.targetLat r p
        let late := 2 * max r.lat far - r.lat - far
        s.mergeAsk r t f num i turn r.index true p (.merge v.merge (r.ans.getD 0 0)) (s.cyc + late)

/-! ### SPAWN, BLEND, JOIN -/

/-- The request that carries an instruction's operands through its merges. -/
def Cx.jobReq (x : Cx) (s : State) (j : Job) (f : Nat) (rest : List Word) : Req :=
  { tid := some (x.tid s), core := x.core, ctx := x.ctx s, part := x.th.part, asid := x.th.asid.toNat, op := .unit,
    args := [j.code, BitVec.ofNat 64 f] ++ rest, epc := x.pc, npc := x.npc }

/-- Marks the current strand of a thread ended, once (R272, R275, R276). -/
def State.endStrand (s : State) (c k : Nat) : State :=
  match s.thread c k with
  | none => s
  | some t =>
    let ws := s.accessIds (s.tidAt c k)
    let s := s.upThread c k fun t => { t with ended := true }
    match t.strand with
    | some (f, n) => s.upStrand f n fun sd => { sd with ended := true, waits := ws }
    | none => s

/-- The strands that a SPAWN adds to a frame: the child and the continuation. -/
def State.addStrands (s : State) (f n : Nat) : State :=
  s.upFrame f fun fr => { fr with spawned := true, strands := (fr.strands.put (n + 1) {}).put (n + 2) {} }

/-- SPAWN (R272). -/
def execSpawn (d a : Reg) (s : State) : Out :=
  issue (smallKind [d, a]) s fun s x =>
    let entry := x.w s (rn a)
    if entry.getLsbD 0 then x.trap s cALIGN entry
    else if s.regionCancelled x.core x.th.region then .next (s.cancelThread x.core x.slot)
    else
      let rest := [entry, x.w s (rn d), BitVec.ofNat 64 (rn d)]
      let go (s : State) (f : Option Nat) : Out :=
        let r := x.jobReq s .spawn (f.getD 0) rest
        match f with
        | some f => .next (s.merges r (x.tid s) f)
        | none => .next (s.jobRest r (x.tid s))
      if x.th.ended then go s x.th.own
      else
        match (if x.th.own.isNone && s.seesSlot x.th then s.openFrame x.core x.slot else some s) with
        | none => x.perm s 0x0E
        | some s =>
          match s.thread x.core x.slot with
          | none => .next s
          | some t =>
            match t.own, t.strand with
            | some f, some (_, n) => go ((s.addStrands f n).endStrand x.core x.slot) (some f)
            | _, _ => go s none

/-- BLEND (R130, R275). A store that a full dirty log holds completes only once its event has been reported, which BLEND does
here (R99; DEDUCED, log 104). -/
def execBlend (s : State) : Out :=
  issue { big := false } s fun s x =>
    if !x.th.child then x.perm s 0x0D
    else if !x.th.ended && s.spawnedIn x.th.own then x.perm s 0x0D
    else if s.regionCancelled x.core x.th.region then .next (s.cancelThread x.core x.slot)
    else if !s.accessesDone (x.tid s) x.th then
      match (if s.quiet x.th && !s.vecMemory (x.tid s) true then x.th.deferred.find? fun d => d.held.any x.th.relaxed.contains else none) with
      | some d => x.deliver s d
      | none => x.again s .mem
    else
      let s := if x.th.ended then s else (s.closeFrame x.core x.slot).endStrand x.core x.slot
      match (s.thread x.core x.slot).bind fun t => t.strand with
      | some (f, _) => .next (s.merges (x.jobReq s .blend f []) (x.tid s) f)
      | none => .next (s.jobRest (x.jobReq s .blend 0 []) (x.tid s))

/-- JOIN (R276). -/
def execJoin (s : State) : Out :=
  issue { big := false } s fun s x =>
    if s.regionCancelled x.core x.th.region then .next (s.cancelThread x.core x.slot)
    else
      match x.th.own with
      | none => x.done s
      | some f =>
        if !s.spawnedIn (some f) then x.done s
        else
          let s := if x.th.ended then s else s.endStrand x.core x.slot
          .next (s.merges (x.jobReq s .join f []) (x.tid s) f)

/-! ### Steals (R201, R267, R274) -/

/-- Whether a continuation has become stealable: the spawning thread's accesses of that time have completed (R130). -/
def State.stealable (s : State) (e : Cont) : Bool := e.inlined.isNone && !s.underWay e.waits

/-- The thread that a stolen continuation starts (R200). -/
def contThread (e : Cont) (w : Word) : Thread :=
  { pc := e.pc, win := w, vec := e.vec, fmt := e.fmt, sa := e.sa, sb := e.sb, band := e.band, rcb := e.rcb, asid := e.asid,
    part := e.part, region := e.region, strand := e.strand, frames := e.frames, child := e.child }

/-- Starts a continuation on a core, if there is a slot and window space (R201, R267): it becomes ready a probe's time
after R57. -/
def State.startCont (s : State) (c : Nat) (e : Cont) (probe : Nat) : Option State :=
  if !s.placeable c e.part || !s.fits c e.region 1 then none
  else
    match s.freeSlot c e.part, (s.core c).place (wSize e.win) (vSize e.win) (aSize e.win) with
    | some k, some w =>
      some ((s.createIn c k (contThread e w) (probe + s.startDelay c w)).setW c k e.reg e.word)
    | _, _ => none

/-- Takes continuations oldest first, up to a number, and stops at the first that does not fit (R201). -/
def State.takeConts (s : State) (thief victim probe : Nat) : List Cont → State
  | [] => s
  | e :: rest =>
    match s.startCont thief e probe with
    | none => s
    | some s => (s.dropCont victim e).takeConts thief victim probe rest

/-- A probe of a victim for a region's continuations (R201, R274): of the oldest half it takes those that have become stealable. A
DRAIN of the victim may end with the last of them (R344). -/
def State.probe (s : State) (thief victim : Nat) (g : Region) : State :=
  let mine := (s.core victim).caddy.filter fun e => e.inlined.isNone && e.region.chain == g.chain
  let l := 2 * latency thief (.bank victim 0)
  (s.takeConts thief victim l ((mine.take ((mine.length + 1) / 2)).filter s.stealable)).drainCheck victim

/-- The regions of a context that have continuations and whose core set holds a core. -/
def State.regionsOf (s : State) (core : Nat) : List Region :=
  s.cores.flatMap fun c =>
    if c.2.owner.toNat % 65536 = s.ctxOf core then
      (c.2.caddy.filter fun e => e.inlined.isNone && (s.coresIn e.region.cores (s.ctxOf core)).contains core).map fun e => e.region
    else []

/-- Whether a core is idle for a region: no thread of the region occupies a slot of it (R201). -/
def Core.idleFor (x : Core) (g : Region) : Bool := !(x.threads.any fun e => e.2.region.chain == g.chain)

/-- Each region of a list once. -/
def eachRegion : List Region → List Region
  | [] => []
  | g :: rest => g :: (eachRegion rest).filter fun h => !(h.chain == g.chain)

/-- A core that is idle for a region probes one of the region's cores, chosen freely (R274). -/
def State.probeFor (s : State) (core : Nat) (g : Region) : State :=
  if !(s.core core).idleFor g then s
  else
    let cs := (s.coresIn g.cores (s.ctxOf core)).filter fun c => c != core
    let i := if cs.length = 0 then 0 else Config.freeNat s.free % cs.length
    let s := { s with free := s.free + 1 }
    match cs.drop i with
    | v :: _ => if s.regionCancelled core g then s else s.probe core v g
    | [] => s

/-- STEAL_PROBE (R201, R274): a core sends a probe for each region for which it is idle, every 32 cyc while such regions have
continuations (DEDUCED, log 51). -/
def execStealProbe (core : Nat) (s : State) : Out :=
  match s.regionsOf core with
  | [] => .next (s.upCore core fun x => { x with probing := false })
  | gs => .next (((eachRegion gs).foldl (fun s g => s.probeFor core g) s).after 32 20 (.stealProbe core))

end Sys2Proof.Machine
end

