-- ==== Sys2Proof/Machine/Atomics.lean ====
section
/-! DEFINITION. Page 2: reservation sections, one-instruction atomics, FENCE, monitors (R115, R126, R133 to R150). -/

namespace Sys2Proof.Machine

/-! ### Reservation sections -/

/-- The stage at which RSV or RSVX has received its word. -/
def stRsv : Nat := 9

/-- Issues RSV or RSVX (R136). -/
def issueRsv (pair : Bool) (m : Mod) (d a : Reg) (s : State) : Out :=
  let n := if pair then 16 else 8
  let ws := if pair then [rn d, rn d + 1, rn a] else [rn d, rn a]
  issue { names := { w := ws }, sec := .opens } s fun s x =>
    x.access s (x.w s (rn a)) 0
      { op := .rsv pair, use := .stage stRsv, align := n, bytes := n, mod := m, redir := .forbidden,
        args := [BitVec.ofNat 64 (rn d)] }

/-- RSV (R136). -/
def execRsv (m : Mod) (d a : Reg) (s : State) : Out := issueRsv false m d a s

/-- RSVX (R136). -/
def execRsvx (m : Mod) (d a : Reg) (s : State) : Out := issueRsv true m d a s

/-- A core gives back the word of an RSV that its thread no longer awaits (R140). -/
def State.rsvBack (s : State) (r : Req) (pair : Bool) : State :=
  let (n, s) := s.addReq { r with op := .giveBack pair (r.ans.getD 0 0) (r.ans.getD 1 0), use := .none, tid := none,
                                  args := (r.tid.map fun t => Tid.word t).toList, stage := .sent, ans := [], orphan := false }
  s.postBack n r (half r.lat)

/-- RSV's word has arrived: the section is open, and its acquire has effect (R116, R136, R137); a thread that no longer awaits it gives it back (R140). -/
def State.rsvGot (s : State) (r : Req) (pair : Bool) : State :=
  let v0 := r.ans.getD 0 0
  let v1 := r.ans.getD 1 0
  match r.tid.bind s.threadOf, r.tid with
  | some _, some t =>
    let d := (r.args.getD 0 0).toNat
    let s := s.setW t.core t.slot d v0
    let s := if pair then s.setW t.core t.slot (d + 1) v1 else s
    let z : Sect := { ptr := r.ptr, pa := r.first, pair := pair, key := r.key, v0 := v0, v1 := v1, issued := 0, pc := r.epc,
                      lat := r.lat, route := r.route }
    ((s.acquire t r.acq).upTid t fun th => { th with sect := some z }).resumeAt t.core t.slot r.npc
  | _, _ => s.rsvBack r pair

/-- The section of the thread that issues. -/
def State.handSect (s : State) : Option Sect :=
  match s.hand with
  | some h => (s.thread h.core h.slot).bind fun t => t.sect
  | none => none

/-- REL (R136, R141): the write-back leaves for the bank, and the thread waits for its acknowledgement. -/
def execRel (m : Mod) (d : Reg) (s : State) : Out :=
  let pair := match s.handSect with | some z => z.pair | none => false
  issue { names := { w := if pair then [rn d, rn d + 1] else [rn d] }, sec := .closes } s fun s x =>
    x.releasing s m fun s =>
      match x.th.sect with
      | none => x.trap s cRSVSECT 3
      | some z =>
        let v1 := if z.pair then x.w s (rn d + 1) else 0
        let r : Req :=
          { tid := some (x.tid s), core := x.core, ctx := x.ctx s, part := x.th.part, asid := x.th.asid.toNat,
            op := .rel z.pair (x.w s (rn d)) v1, use := .done,
            args := [Tid.word (x.tid s)], ptr := z.ptr, pa := z.pa, key := z.key, lat := z.lat, route := z.route,
            epc := x.pc, npc := x.npc }
        let (n, s) := s.addReq r
        let s := (s.park x.core x.slot .mem (.reply n)).upThread x.core x.slot fun th => { th with sect := none }
        .next (s.postBack n r (half z.lat))

/-! ### Atomics (R142, R143) -/

/-- Issues a one-instruction atomic on a word: the sources are captured at issue. -/
def issueAtomic (op : AtomOp) (m : Mod) (d a b : Reg) (s : State) : Out :=
  issue (plainKind [d, a, b]) s fun s x =>
    x.access s (x.w s (rn a)) 0
      { op := .atom op (x.w s (rn d)) (x.w s (rn b)), use := .reg (rn d), align := 8, mod := m, redir := .forbidden }

/-- AADD (R142). -/
def execAadd (m : Mod) (d a b : Reg) (s : State) : Out := issueAtomic .aadd m d a b s

/-- AAND (R142). -/
def execAand (m : Mod) (d a b : Reg) (s : State) : Out := issueAtomic .aand m d a b s

/-- AOR (R142). -/
def execAor (m : Mod) (d a b : Reg) (s : State) : Out := issueAtomic .aor m d a b s

/-- AXOR (R142). -/
def execAxor (m : Mod) (d a b : Reg) (s : State) : Out := issueAtomic .axor m d a b s

/-- AMIN (R142). -/
def execAmin (m : Mod) (d a b : Reg) (s : State) : Out := issueAtomic .amin m d a b s

/-- AMAX (R142). -/
def execAmax (m : Mod) (d a b : Reg) (s : State) : Out := issueAtomic .amax m d a b s

/-- AMIN.z (R142). -/
def execAminZ (m : Mod) (d a b : Reg) (s : State) : Out := issueAtomic .aminZ m d a b s

/-- AMAX.z (R142). -/
def execAmaxZ (m : Mod) (d a b : Reg) (s : State) : Out := issueAtomic .amaxZ m d a b s

/-- AXCHG (R142). -/
def execAxchg (m : Mod) (d a b : Reg) (s : State) : Out := issueAtomic .axchg m d a b s

/-- CAS (R142). -/
def execCas (m : Mod) (d a b : Reg) (s : State) : Out := issueAtomic .acas m d a b s

/-- CAS2 (R142). -/
def execCas2 (m : Mod) (d a b : Reg) (s : State) : Out :=
  issue { names := { w := [rn d, rn d + 1, rn a, rn b, rn b + 1] } } s fun s x =>
    x.access s (x.w s (rn a)) 0
      { op := .cas2 (x.w s (rn d)) (x.w s (rn d + 1)) (x.w s (rn b)) (x.w s (rn b + 1)), use := .reg (rn d), align := 16,
        bytes := 16, mod := m, redir := .forbidden }

/-! ### FENCE (R126, R150) -/

/-- FENCE: it waits for the thread's accesses, reports the events that they deferred, and carries out the release effects and
then the acquire effects. It ends when a large core's acquire has written back what it discards. Copy, gather and vector
commands' events are reported with those of the accesses. -/
def execFence (m : Mod) (s : State) : Out :=
  issue (lateKind .barred) s fun s x =>
    let t := x.tid s
    if !s.quiet x.th || s.vecMemory t true then x.again s .mem
    else x.deliverDue s (lateKind .barred) fun s =>
      x.releasing s m fun s =>
        let s := s.acquire t (acqOf m)
        if m.acquire && s.acquiring t then x.again s .mem else x.done s

/-! ### Monitors (R145 to R148) -/

/-- MON.ARM (R145). -/
def execMonArm (d a : Reg) (mon : BitVec 2) (s : State) : Out :=
  issue (plainKind [d, a]) s fun s x =>
    x.access s (x.w s (rn a)) 0
      { op := .arm mon.toNat, use := .reg (rn d), align := 1, bytes := 1, redir := .forbidden }

/-- MON.CLR (R146). -/
def execMonClr (mon : BitVec 3) (s : State) : Out :=
  issue { bad := decide (4 < mon.toNat) } s fun s x =>
    if mon.toNat = 4 then x.done (s.disarmAll x.core x.slot)
    else x.done (s.disarm x.core x.slot mon.toNat)

/-- MONITOR_FIRE (R147): the fired bit is set when the bank's notice reaches the core. A notice on its way from a watch that a
MON.ARM has replaced sets the bit of the monitor armed anew: which of the two it belongs to, the manual does not say
(DESIGN CHOICE, log 87). -/
def execMonitorFire (t : Tid) (mon : Nat) (s : State) : Out :=
  .next ((s.upTid t fun th => { th with mons := th.mons.adjust mon fun x => { x with fired := true } }).stirMwait t)

/-- MWAIT (R148). -/
def execMwait (m : Mod) (d a : Reg) (s : State) : Out :=
  issue (plainKind [d, a]) s fun s x =>
    let t := (x.w s (rn a)).toNat
    if x.th.mons.isEmpty ∧ t = 0 then x.ret (s.acquire (x.tid s) (acqOf m)) d 0x40
    else if x.th.fired ≠ 0 then
      x.ret ((s.upThread x.core x.slot Thread.calm).acquire (x.tid s) (acqOf m)) d (BitVec.ofNat 64 x.th.fired)
    else
      let limit := if t = 0 then none else some (s.cyc + max 8 t)
      let s := s.park x.core x.slot .mwait (.mwait (rn d) limit x.npc (acqOf m) false)
      match limit with
      | some l => .next (s.post l 40 (.mwaitTimeout (x.tid s)))
      | none => .next s

/-- MWAIT_TIMEOUT (R148): the wait returns at the end of a cycle in which a cause is present, and reports every cause. -/
def execMwaitTimeout (t : Tid) (s : State) : Out :=
  match s.threadOf t with
  | none => .next s
  | some th => match th.status with
    | .parked _ (.mwait d limit npc acq woken) =>
      let late := match limit with | some l => decide (l ≤ s.cyc) | none => false
      if th.fired = 0 ∧ !late ∧ !woken then .next s
      else
        let v := th.fired + late.toNat * 16 + woken.toNat * 32
        let s := (s.upTid t Thread.calm).setW t.core t.slot d (BitVec.ofNat 64 v)
        .next ((s.acquire t acq).resumeAt t.core t.slot npc)
    | _ => .next s

end Sys2Proof.Machine
end

