-- ==== Sys2Proof/Machine/Keccak.lean ====
section
/-! DEFINITION. The Keccak functions that the manual names: SHAKE256, SHA3-512 and KMAC256, as FIPS 202 and SP 800-185 define
them (R354, R361; PRESUMED, log 7). -/

namespace Sys2Proof.Machine

/-! ### The permutation -/

/-- Lane (x, y) of a state of 25 lanes, at x + 5y. -/
def laneAt (a : List Word) (x y : Nat) : Word := a.getD (x % 5 + 5 * (y % 5)) 0

/-- The walk over the 24 lanes other than (0, 0) that FIPS 202 numbers from 0 on, from (1, 0): each with the rotation of its
number, a triangular number. -/
def turnWalk (x y i : Nat) : Nat → List (Nat × Nat)
  | 0 => []
  | n + 1 => (x + 5 * y, (i + 1) * (i + 2) / 2 % 64) :: turnWalk y ((2 * x + 3 * y) % 5) (i + 1) n

/-- The rotation of the lane at x + 5y. -/
def turnOf (lane : Nat) : Nat := ((turnWalk 1 0 0 24).lookup lane).getD 0

/-- The shift register of the rounds' constants: its next value. -/
def shiftNext (r : Byte) : Byte := if r.msb then (r <<< 1) ^^^ 0x71 else r <<< 1

/-- A round's constant takes seven bits of the shift register, at the places 2^j - 1; with the register behind it. -/
def constFrom (r : Byte) (j : Nat) : Nat → Word × Byte
  | 0 => (0, r)
  | n + 1 =>
    let (v, r') := constFrom (shiftNext r) (j + 1) n
    (if r.getLsbD 0 then v ^^^ BitVec.twoPow 64 (2 ^ j - 1) else v, r')

/-- The numbers of the 25 lanes, as x and y. -/
def laneIndices : List (Nat × Nat) := (List.range 25).map fun i => (i % 5, i / 5)

/-- The columns' parities are mixed in. -/
def keccakTheta (a : List Word) : List Word :=
  let c := (List.range 5).map fun x => (List.range 5).foldl (fun v y => v ^^^ laneAt a x y) 0
  laneIndices.map fun (x, y) => laneAt a x y ^^^ c.getD ((x + 4) % 5) 0 ^^^ (c.getD ((x + 1) % 5) 0).rotateLeft 1

/-- The lanes are rotated and change places: lane (x, y) takes that of (x + 3y, x). -/
def keccakRhoPi (a : List Word) : List Word :=
  laneIndices.map fun (x, y) => (laneAt a (x + 3 * y) x).rotateLeft (turnOf ((x + 3 * y) % 5 + 5 * x))

/-- The rows are mixed. -/
def keccakChi (a : List Word) : List Word :=
  laneIndices.map fun (x, y) => laneAt a x y ^^^ (~~~(laneAt a (x + 1) y) &&& laneAt a (x + 2) y)

/-- One round. -/
def keccakRound (a : List Word) (c : Word) : List Word :=
  match keccakChi (keccakRhoPi (keccakTheta a)) with
  | [] => []
  | v :: vs => (v ^^^ c) :: vs

/-- Some rounds, the shift register standing at the first one's constant. -/
def keccakRounds (r : Byte) (a : List Word) : Nat → List Word
  | 0 => a
  | n + 1 =>
    let (c, r') := constFrom r 0 7
    keccakRounds r' (keccakRound a c) n

/-- The permutation: 24 rounds. -/
def keccak (a : List Word) : List Word := keccakRounds 1 a 24

/-! ### The sponge, at a rate of some bytes -/

/-- The bytes of a word, lowest first. -/
def wordBytes (w : Word) : List Byte := (List.range 8).map fun i => w.extractLsb' (8 * i) 8

/-- Words of eight bytes each, lowest first; `n` of them. -/
def wordsOfBytes (bs : List Byte) : Nat → List Word
  | 0 => []
  | n + 1 => BitVec.ofNat 64 ((bs.take 8).foldr (fun b v => b.toNat + 256 * v) 0) :: wordsOfBytes (bs.drop 8) n

/-- Absorbs `n` blocks of a rate. -/
def absorb (rate : Nat) (a : List Word) (bs : List Byte) : Nat → List Word
  | 0 => a
  | n + 1 =>
    let m := wordsOfBytes bs (rate / 8) ++ List.replicate (25 - rate / 8) 0
    absorb rate (keccak (List.zipWith (fun x y => x ^^^ y) a m)) (bs.drop rate) n

/-- Fills a message up to whole blocks, with a suffix byte. -/
def padded (rate : Nat) (suffix : Byte) (bs : List Byte) : List Byte :=
  let k := rate - bs.length % rate
  if k = 1 then bs ++ [suffix ||| 0x80] else bs ++ [suffix] ++ List.replicate (k - 2) 0 ++ [0x80]

/-- The first `n` bytes of a sponge's output, at most its rate. -/
def sponge (rate : Nat) (suffix : Byte) (bs : List Byte) (n : Nat) : List Byte :=
  let m := padded rate suffix bs
  ((absorb rate (List.replicate 25 0) m (m.length / rate)).flatMap wordBytes).take n

/-- SHAKE256. -/
def shake256 (bs : List Byte) (n : Nat) : List Byte := sponge 136 0x1F bs n

/-! ### KMAC256 -/

/-- A length in bits, below 65,536, encoded with its size on the left. -/
def leftEncoded (n : Nat) : List Byte :=
  if n < 256 then [1, BitVec.ofNat 8 n] else [2, BitVec.ofNat 8 (n / 256), BitVec.ofNat 8 n]

/-- The same with its size on the right. -/
def rightEncoded (n : Nat) : List Byte :=
  if n < 256 then [BitVec.ofNat 8 n, 1] else [BitVec.ofNat 8 (n / 256), BitVec.ofNat 8 n, 2]

/-- A string of bytes with its length. -/
def encodedString (bs : List Byte) : List Byte := leftEncoded (8 * bs.length) ++ bs

/-- A string filled up with zeros to whole blocks, behind the block's length. -/
def bytePadded (bs : List Byte) : List Byte :=
  let x := leftEncoded 136 ++ bs
  x ++ List.replicate ((136 - x.length % 136) % 136) 0

/-- KMAC256 of a message: `n` bytes, at most 136. -/
def kmac (key custom msg : List Byte) (n : Nat) : List Byte :=
  let name : List Byte := [0x4B, 0x4D, 0x41, 0x43]
  sponge 136 0x04 (bytePadded (encodedString name ++ encodedString custom) ++ bytePadded (encodedString key) ++ msg ++
    rightEncoded (8 * n)) n

/-! ### What the manual takes of them -/

/-- The bytes of a number, lowest first. -/
def bytesOf (n v : Nat) : List Byte := (List.range n).map fun i => BitVec.ofNat 8 (v / 256 ^ i)

/-- The number that some bytes are, lowest first. -/
def numberOf (bs : List Byte) : Nat := bs.foldr (fun b v => b.toNat + 256 * v) 0

/-- SHA3-512. -/
@[irreducible] def sha3 (bs : List Byte) : BitVec 512 := BitVec.ofNat 512 (numberOf (sponge 72 0x06 bs 64))

/-- The ASCII bytes "XOTHAR-RING". -/
def ringCustom : List Byte := [0x58, 0x4F, 0x54, 0x48, 0x41, 0x52, 0x2D, 0x52, 0x49, 0x4E, 0x47]

/-- The tag of a ring entry's words 0 to 5 under a ring key (R354). -/
@[irreducible] def ringTag (key : BitVec 256) (ws : List Word) : BitVec 128 :=
  BitVec.ofNat 128 (numberOf (kmac (bytesOf 32 key.toNat) ringCustom (ws.flatMap wordBytes) 16))

/-- A member's leaf of a view's tree: package id, view number, and the digest of its transcript (R363). -/
def treeLeaf (view pkg : Nat) (digest : BitVec 512) : List Byte :=
  shake256 (bytesOf 2 pkg ++ bytesOf 8 view ++ bytesOf 64 digest.toNat) 64

/-- The next level of a tree, over its nodes in pairs (R363). -/
def treeUp : List (List Byte) → List (List Byte)
  | a :: b :: rest => shake256 (a ++ b) 64 :: treeUp rest
  | l => l

/-- The root over some leaves, padded to a power of two with all-zero leaves; `n` bounds the levels (R363). -/
def treeOver : Nat → List (List Byte) → List Byte
  | 0, l => l.headD []
  | n + 1, l => if l.length ≤ 1 then l.headD [] else treeOver n (treeUp l)

/-- The least power of two that is not below a number; `n` bounds the doublings. -/
def powerFor (k : Nat) : Nat → Nat → Nat
  | 0, p => p
  | n + 1, p => if k ≤ p then p else powerFor k n (2 * p)

/-- The root of a view's tree over its members in rank order, each with the digest of its transcript (R363). -/
@[irreducible] def treeRoot (view : Nat) (members : List (Nat × BitVec 512)) : List Byte :=
  let leaves := members.map fun (e : Nat × BitVec 512) => treeLeaf view e.1 e.2
  treeOver 17 (leaves ++ List.replicate (powerFor leaves.length 17 1 - leaves.length) (List.replicate 64 0))

/-- The key of a ring, from a session's export master secret and the ring's number (R361). -/
@[irreducible] def ringKeyOf (secret : BitVec 512) (ring : Nat) : BitVec 256 :=
  BitVec.ofNat 256 (numberOf (shake256 (bytesOf 64 secret.toNat ++ [0x72, 0x69, 0x6E, 0x67] ++ bytesOf 1 ring) 32))

end Sys2Proof.Machine
end

