-- ==== Sys2Proof/Machine/Special.lean ====
section
/-! DEFINITION. Page 6: reading and writing the special registers, and emptying the instruction buffer (R42, R43, R48,
R108, R182, R212, R298, R329, R364). -/

namespace Sys2Proof.Machine

/-- The value of a special register for a thread in a slot (Table 2.16); th.cyc is one count on every die (R2; DESIGN CHOICE, log 116). -/
def State.special (s : State) (c k : Nat) (t : Thread) (r : SpReg) : Word :=
  match r with
  | .vec => t.vec
  | .epc => t.epc
  | .cause => t.cause
  | .info => t.info
  | .lvl => flagWord t.lvl
  | .id => Tid.word (s.tidAt c k)
  | .vx => t.vx
  | .fmt => t.fmt
  | .sa => t.sa
  | .sb => t.sb
  | .band => t.band
  | .rcb => t.rcb
  | .asid => t.asid.setWidth 64
  | .win => t.win
  | .cyc => BitVec.ofNat 64 s.cyc
  | .coreId => BitVec.ofNat 64 c
  | .owner => (s.core c).owner
  | .ptp => BitVec.ofNat 64 s.ptp
  | .ready => s.sys.ready

/-- What a WRS does: it changes the thread, raises ALIGN, or is rejected (Table 2.18, Table 10.3). -/
inductive Written where
  | accept (t : Thread)
  | align
  | reject

/-- Writes a special register of a thread of a context. -/
def State.write (s : State) (ctx : Nat) (t : Thread) (r : SpReg) (v : Word) : Written :=
  match r with
  | .vec => if v.getLsbD 0 then .align else .accept { t with vec := v }
  | .epc => if v.getLsbD 0 then .align else .accept { t with epc := v }
  | .cause => if v.extractLsb' 9 55 = 0 then .accept { t with cause := v } else .reject
  | .info => .accept { t with info := v }
  | .lvl => if v = 0 then .accept { t with lvl := false } else if v = 1 then .accept { t with lvl := true } else .reject
  | .vx => if v.extractLsb' 62 2 = 3 ∨ v.extractLsb' 40 22 ≠ 0 then .reject else .accept { t with vx := v }
  | .fmt => if fmtOk v then .accept { t with fmt := v } else .reject
  | .sa => .accept { t with sa := v }
  | .sb => .accept { t with sb := v }
  | .band => .accept { t with band := v }
  | .asid =>
    if v.extractLsb' 12 52 = 0 ∧ s.asidBound v.toNat ctx then .accept { t with asid := v.setWidth 12 } else .reject
  | .id | .rcb | .win | .cyc | .coreId | .owner | .ptp | .ready => .reject

/-- RDS (R42, R43). -/
def execRds (d : Reg) (r : SpReg) (s : State) : Out :=
  issueRet (pageZero [d]) s d fun s x => s.special x.core x.slot x.th r

/-- WRS (R42, R43). -/
def execWrs (r : SpReg) (a : Reg) (s : State) : Out :=
  issue (plainKind [a]) s fun s x =>
    let v := x.w s (rn a)
    let w := match s.thread x.core x.slot with
      | some t => s.write (x.ctx s) t r v
      | none => .reject
    match w with
    | .accept t => x.done (s.upThread x.core x.slot fun _ => t)
    | .align => x.trap s cALIGN v
    | .reject => x.perm s 0x0A

/-- The lines on their way to a core whose words have been read are not kept (R108). -/
def State.staleFills (s : State) (c : Nat) : State :=
  let old (r : Req) : Bool := r.use == .fetch && r.core == c && r.stage == .served
  { s with reqs := s.reqs.mapVals fun r => if old r then { r with index := 1 } else r }

/-- IFLUSH (R108). -/
def execIflush (s : State) : Out :=
  issue { big := false } s fun s x =>
    let s := (s.upCore x.core fun c => { c with ibuf := [] }).staleFills x.core
    let s := s.park x.core x.slot .mem (.flush x.npc)
    .next (s.after 16 20 (.iflushExpiry (x.tid s)))

/-- IFLUSH_EXPIRY (R108). -/
def execIflushExpiry (t : Tid) (s : State) : Out :=
  match s.threadOf t with
  | none => .next s
  | some th => match th.status with
    | .parked _ (.flush npc) => .next ((s.upTid t fun th => { th with pc := npc }).wake t.core t.slot)
    | _ => .next s

end Sys2Proof.Machine
end

