-- ==== Sys2Proof/Machine/Stores.lean ====
section
/-! DEFINITION. Accesses to the I/O die's tables, behind the endpoint and to other packages: stores and loads of the
control window and the address-space table, far loads and stores, far-end completions (R119, R270, R295 to R297, R352,
R353, R358). -/

namespace Sys2Proof.Machine

/-! ### Rings (R353, R355) -/

/-- The number by which a ring unit issues requests, as a core does (log 10). -/
def ringCore (n : Nat) : Nat := 2 ^ 18 + n

/-- How a request of a ring unit is told apart: its look at the next entry's last word, and its read of the entry. -/
def ringLook (n : Nat) : Use := .record (2 ^ 40 + n)
def ringRead (n : Nat) : Use := .record (2 ^ 41 + n)

/-- The pointer to a ring's next entry. -/
def Ring.next (r : Ring) : Word := r.word 0 + BitVec.ofNat 64 (64 * (r.i % 2 ^ ((r.word 1).toNat % 32)))

/-- The context and the address space of a ring. -/
def Ring.ctx (r : Ring) : Nat := (r.word 1).toNat / 2 ^ 28 % 65536
def Ring.asid (r : Ring) : Nat := (r.word 1).toNat / 65536 % 4096

/-- Changes a ring. -/
def State.upRing (s : State) (n : Nat) (f : Ring → Ring) : State :=
  s.upLinks fun l => { l with rings := l.rings.put n (f ((l.rings.find n).getD {})) }

/-- Whether a ring unit has something under way. -/
def State.ringBusy (s : State) (n : Nat) : Bool :=
  (s.ring n).entry != [] || (s.ring n).due ||
    s.reqs.any fun e => !e.2.orphan && (e.2.use == ringLook n || e.2.use == ringRead n)

/-- A request of a ring unit, as a thread of the ring's context. -/
def State.ringSend (s : State) (n : Nat) (op : MemOp) (use : Use) (p : Word) : State :=
  let g := s.ring n
  let s := s.upCore (ringCore n) fun x => { x with owner := BitVec.ofNat 64 g.ctx }
  let (m, s) := s.addReq { core := ringCore n, ctx := g.ctx, asid := g.asid, op := op, use := use, ptr := p }
  s.begin m

/-- A running ring waits until the last word of its next entry is full; at the last sequence number it halts. -/
def State.ringStart (s : State) (n : Nat) : State :=
  let g := s.ring n
  if g.state ≠ 1 ∨ s.ringBusy n then s
  else if 0xFFFFFFFF00000000 ≤ (g.word 2).toNat then s.upRing n fun g => { g with ws := g.ws.put 3 3 }
  else s.ringSend n .ldf (ringLook n) (g.next + 56)

/-- A ring unit gives up what it has under way, but for a launch that it has accepted (R355). -/
def State.ringStop (s : State) (n : Nat) : State :=
  let s := s.upRing n fun g => if g.due then g else { g with entry := [] }
  s.reqs.foldl (fun s e => if e.2.use == ringLook n || e.2.use == ringRead n then s.withdraw e.1 else s) s

/-- A store to a word of a ring control block (Table 20.1): zero fields stay zero, read-only fields stay. -/
def State.storeRing (s : State) (n i : Nat) (v : Word) : State :=
  let g := s.ring n
  let set (s : State) (v : Word) : State := s.upRing n fun g => { g with ws := g.ws.put i v }
  if g.state = 1 ∧ i < 3 then s
  else match i with
    | 0 => set s v
    | 1 => set s (v &&& 0xFFFFFFF001F)
    | 2 => set s v
    | 3 => (if v.toNat % 4 = 1 then set s (v &&& 3) else (set s (v &&& 3)).ringStop n).ringStart n
    | 4 => set s v
    | 6 => set s (v &&& 0xFFFFFFFF)
    | _ => s

/-! ### Stores to tables -/

/-- A store to a word of a descriptor; any store that is not the owning kernel's to words 1 to 3 is dropped, and counted at
the storing core (R50, R297; DEDUCED, log 99). -/
def State.storeDesc (s : State) (core ctx asid i : Nat) (v : Word) : State :=
  if 1 ≤ i ∧ i ≤ 3 ∧ (s.desc asid 0).getLsbD 63 ∧ s.asidKern asid = s.kernOf ctx then
    s.upIo fun io => { io with asids := io.asids.put (asid * 8 + i) v, logs := if i = 3 then io.logs.put asid 0 else io.logs }
  else
    let s := s.upIo fun io => { io with asidDrops := io.asidDrops + 1 }
    if isCore core then s.drop core else s

/-- Whether an aperture entry's zero fields are zero (Table 20.7). -/
def apertureOk (v : Word) : Bool := v.extractLsb' 58 5 == 0 && v.extractLsb' 0 21 == 0

/-- A store to a table word. -/
def State.tableWrite (s : State) (core ctx : Nat) (w : TableWord) (v : Word) : State :=
  match w with
  | .desc asid i => s.storeDesc core ctx asid i v
  | .launch d n i => s.storeEntry d n i v
  | .ring n i => s.storeRing n i v
  | .aperture n => if apertureOk v then s.upLinks fun l => { l with apertures := l.apertures.put n v } else s
  | .coreDrops c => if v = 0 then s.upCore c fun x => { x with drops := 0 } else s
  | .coreFixed c => if v = 0 then s.upCore c fun x => { x with fixed := 0 } else s
  | .kernFixed k => if v = 0 then s.upIo fun io => { io with kernels := io.kernels.adjust k fun x => { x with errors := 0 } } else s
  | .largeDrops => if v = 0 then s.upIo fun io => { io with bigDrops := 0 } else s
  | .zero => s

/-- A table word's full/empty bit has been set, or cleared: only a status word has one (R270, R296). -/
def State.tableMark (s : State) (w : TableWord) (full : Bool) : State :=
  match w with
  | .launch d n 5 =>
    let s := s.setTaken d n !full
    s.wakeReaders d n ((s.die d).readers.length + 1)
  | _ => s

/-- Monitors on a table word's line fire. -/
def State.tableFires (s : State) (pa : Nat) : State := s.fireLine (2 ^ 26) (pa / 64 * 64)

/-- A synchronising request waits for a table word: for a status word, until it allows the request. -/
def State.tableWait (s : State) (n : Nat) (w : TableWord) : State :=
  let s := s.upReq n fun r => { r with stage := .waiting }
  match w with
  | .launch d _ 5 => s.upDie d fun x => { x with readers := x.readers ++ [n] }
  | _ => s

/-- A store reaches a table (R102, R296). -/
def State.tableStore (s : State) (n : Nat) : State :=
  match s.reqs.find n with
  | none => s
  | some r =>
    let w := tableSlot r.pa
    match r.op with
    | .store v => ((s.tableWrite r.core r.ctx w v).tableFires r.pa).reply n []
    | .sts v => (((s.tableWrite r.core r.ctx w v).tableMark w true).tableFires r.pa).reply n []
    | .stf v =>
      if s.tableFull w then s.tableWait n w
      else (((s.tableWrite r.core r.ctx w v).tableMark w true).tableFires r.pa).reply n []
    | .sete => ((s.tableMark w false).tableFires r.pa).reply n []
    | _ => s.reply n []

/-- A run of words written to a table. -/
def State.tableRun (s : State) (core ctx : Nat) (full : Bool) : Nat → List Word → State
  | _, [] => s
  | a, v :: vs =>
    let s := (s.tableWrite core ctx (tableSlot a) v).tableFires a
    (if full then s.tableMark (tableSlot a) true else s).tableRun core ctx full (a + 8) vs

/-- A request other than a store reaches a table (R296, R297). -/
def State.tableArrives (s : State) (n : Nat) (r : Req) : State :=
  let w := tableSlot r.pa
  match r.op with
  | .load k sg => s.reply n [extractBytes (s.tableValue w) r.pa k sg]
  | .ldf => if s.tableFull w then s.reply n [s.tableValue w] else s.tableWait n w
  | .lde => if s.tableFull w then (s.tableMark w false).reply n [s.tableValue w] else s.tableWait n w
  | .feq => s.reply n [flagWord (s.tableFull w)]
  | .probe => s.reply n [flagWord (s.tableFull w)]
  | .block k => s.reply n ((wordsFrom r.first k).map fun a => s.tableValue (tableSlot a))
  | .write ws full => (s.tableRun r.core r.ctx full r.first ws).reply n []
  | _ => s.perform n r

/-- LAUNCH_TABLE_STORE (R270). -/
def execLaunchTableStore (r : Nat) (s : State) : Out := .next (s.tableStore r)

/-- CONTROL_COUNTER_STORE (R296). -/
def execControlCounterStore (r : Nat) (s : State) : Out := .next (s.tableStore r)

/-- ASID_DESCRIPTOR_STORE (R297). -/
def execAsidDescriptorStore (r : Nat) (s : State) : Out := .next (s.tableStore r)

/-- CONTROL_WINDOW_WRITE (R296). -/
def execControlWindowWrite (r : Nat) (s : State) : Out := .next (s.tableStore r)

/-- RING_CONTROL_STORE (R353). -/
def execRingControlStore (r : Nat) (s : State) : Out := .next (s.tableStore r)

/-- APERTURE_STORE (R358). -/
def execApertureStore (r : Nat) (s : State) : Out := .next (s.tableStore r)

/-! ### Far accesses (R119, R352, R358) -/

/-- The package and the address there of a far address: an aperture's, or none for the endpoint (R358). -/
def State.farPlace (s : State) (pa : Nat) : Option Nat × Nat :=
  if tierOf pa = 3 then
    let a := (s.links.apertures.find (pa / 2 ^ 36 % 256)).getD 0
    (some (a.extractLsb' 42 16).toNat, (a.extractLsb' 21 21).toNat * 2 ^ 36 + pa % 2 ^ 36)
  else (none, pa)

/-- A far store is accepted: it leaves on the link, and its far end completes from outside. -/
def State.farWrite (s : State) (n : Nat) (r : Req) (ws : List Word) : State :=
  let p := s.farPlace r.first
  let s := s.emit (.write p.1 p.2 ws)
  let s := match s.madeFor r with
    | some t => s.upLinks fun l => { l with farWrites := l.farWrites ++ [(t, n, decide (tierOf r.pa = 2))] }
    | none => s
  s.reply n []

/-- A far read leaves on the link, and is answered with free words (log 5). -/
def State.farRead (s : State) (n k : Nat) (r : Req) (f : List Word → List Word) : State :=
  let p := s.farPlace r.first
  let s := s.emit (.read p.1 p.2 k)
  let (ws, s) := s.freeWords k
  s.reply n (f ws)

/-- A request reaches the endpoint or an Exrin Link port; words there keep no full/empty bit. -/
def State.farArrives (s : State) (n : Nat) (r : Req) : State :=
  match r.op with
  | .load k sg => s.farRead n 1 r fun ws => [extractBytes (wordOf ws 0) r.pa k sg]
  | .ldf => s.farRead n 1 r id
  | .block k => s.farRead n k r id
  | .feq => s.reply n [1]
  | .probe => s.reply n [1]
  | .store v => s.farWrite n r [v]
  | .sts v => s.farWrite n r [v]
  | .write ws _ => s.farWrite n r ws
  | _ => s.reply n []

/-- FAR_END_COMPLETION (R119). -/
def execFarEndCompletion (r : Nat) (s : State) : Out :=
  let ts := (s.links.farWrites.filter fun w => w.2.1 == r).map Prod.fst
  let s := s.upLinks fun l => { l with farWrites := l.farWrites.filter fun w => !(w.2.1 == r) }
  .next (ts.foldl State.poke s)

end Sys2Proof.Machine
end

