-- ==== Sys2Proof/Machine/Shoot.lean ====
section
/-! DEFINITION. Shoot-downs of translations, XINV and the sequence instructions (R147, R290 to R292, R310 to R317,
R331, R338). Every core and engine receives a shoot-down in one cycle (log 13). -/

namespace Sys2Proof.Machine

/-! ### Requests to the units of the I/O die -/

/-- The stage at which a unit of the I/O die, the frame ownership unit or the security core answers. -/
def stUnit : Nat := 20

/-- What a request asks of a unit (its second operand). -/
def uXinv : Nat := 1
def uSeqnew : Nat := 2
def uSeqmap : Nat := 3
def uSequnmap : Nat := 4
def uSeqend : Nat := 5
def uSeqq : Nat := 6

/-- Issues a request of W[a] and W[b] to a unit; it reaches the unit after half its time and some cycles more, and the
thread parks until the answer. -/
def Cx.askUnit (x : Cx) (s : State) (d : Reg) (code : Nat) (ws : List Word) (lat extra : Nat) (ev : Nat → Instr) : Out :=
  let r : Req := { tid := some (x.tid s), core := x.core, ctx := x.ctx s, part := x.th.part, asid := x.th.asid.toNat,
                   op := .unit, use := .stage stUnit, args := [BitVec.ofNat 64 (rn d), BitVec.ofNat 64 code] ++ ws,
                   lat := lat, epc := x.pc, npc := x.npc }
  let (n, s) := s.addReq r
  .next ((s.park x.core x.slot .mem (.reply n)).after (half lat + extra) 12 (ev n))

/-- The unit's operands. -/
def Req.opA (r : Req) : Word := r.args.getD 2 0
def Req.opB (r : Req) : Word := r.args.getD 3 0

/-- A unit answers a number. -/
def State.unitSays (s : State) (n : Nat) (v : Int) : State := s.reply n [BitVec.ofInt 64 v]

/-- A unit answers a number some cycles later: the time in which an instruction answers that makes no shoot-down is that of
one that does (R313, R317, R335). -/
def State.unitLate (s : State) (n : Nat) (v : Int) (d : Nat) : State :=
  (s.upReq n fun r => { r with lat := r.lat + 2 * d }).unitSays n v

/-- The time from a core to the I/O die and back (R313). -/
def dieTrip (core : Nat) : Nat := if isLarge core then 60 else 240

/-! ### What a shoot-down drops (R314, R317, R331, R338) -/

/-- Whether a translation buffer entry falls under a shoot-down. -/
def State.entryFalls (s : State) (h : Shoot) (e : TEntry) : Bool :=
  s.falls h e.route (frameOf e.pa) (if e.tier < 2 then e.size / 65536 else 0) e.kid 0 fun va =>
    match e.route with | .page _ b _ => decide (b ≤ va) && decide (va < b + e.size) | _ => false

/-- Whether a request has been translated and not performed; a large core's line is under way until it has been taken. A copy's
last write that waits at its engine is translated again as it leaves. -/
def Req.unperformed (r : Req) : Bool :=
  match r.stage with
  | .translating | .last | .stalled => false
  | .served => match r.use with | .line _ => true | .fetch => isLarge r.core | _ => false
  | _ => r.op != .unit && r.op != .turn

/-- Whether a kind of shoot-down takes the large cores' lines, and whether it discards their dirty words. -/
def ShootKind.takesLines (k : ShootKind) : Bool :=
  match k with | .xinvPage | .xinvAsid | .xinvRlb | .unbindAsid => false | _ => true

/-- Whether a cached line falls under a shoot-down: XINV of kind 3 takes every line of the frame. -/
def State.lineFalls (s : State) (h : Shoot) (l : CLine) : Bool :=
  h.kind.takesLines && (s.accessFalls h l.route l.line l.key || (h.kind == .xinvFrame && frameOf l.line == h.frame))

/-- Writes back the dirty words of the lines that fall under a shoot-down and drops the lines; a revocation discards
the words (R120, R324). -/
def State.shootLines (s : State) (h : Shoot) : State :=
  let gone := s.cache.filter (s.lineFalls h)
  let kept := s.cache.filter fun l => !s.lineFalls h l
  let s := if h.kind = .revoke then s else gone.foldl (fun s l => s.sendDirty 0x0FF00 l l.dirtyWords) s
  { s with cache := kept }

/-- Fires one monitor of a thread: the bank's notice reaches its core after half the latency, up (R147). -/
def State.fireMon (s : State) (t : Tid) (m : Nat) : State :=
  let lats := s.banks.flatMap fun b => (b.2.watches.filter fun w => w.tid == t && w.mon == m).map fun w => w.lat
  s.after (halfUp (lats.headD 0)) 8 (.monitorFire t m)

/-- Whether a monitor fires at a shoot-down: its translation is dropped, or its thread's kernel loses the frame (R147). -/
def State.monFalls (s : State) (h : Shoot) (core : Nat) (m : Mon) : Bool :=
  s.accessFalls h m.route m.line m.key ||
  (match h.kind with
   | .offer | .release | .giveBack | .revoke => s.kernOf (s.ctxOf core) == h.kern && frameOf m.line == h.frame
   | _ => false)

/-- Fires the monitors that fall under a shoot-down. -/
def State.shootMons (s : State) (h : Shoot) : State :=
  s.cores.foldl (fun s c => c.2.threads.foldl (fun s t => t.2.mons.foldl (fun s m =>
    if !m.2.fired && s.monFalls h c.1 m.2 then s.fireMon (s.tidAt c.1 t.1) m.1 else s) s) s) s

/-- Whether a key slot is emptied by a shoot-down. -/
def State.keyFalls (s : State) (h : Shoot) (n : KeyName) : Bool :=
  match h.kind, n with
  | .seqAll, .seq q => q == h.seq
  | .unbindKey, .id k _ => k == h.kid && k != 0
  | .destroy, .seq q => match s.io.seqs.find q with | some e => e.owner == h.ctx | none => false
  | .destroy, .id k c => if k = 0 then c == h.ctx else match s.io.kids.find k with | some (c, _) => c == h.ctx | none => false
  | _, _ => false

/-- Whether a range lookaside buffer entry falls under a shoot-down. -/
def Shoot.rangeFalls (h : Shoot) (e : REntry) : Bool :=
  match h.kind with
  | .xinvAsid | .xinvRlb | .unbindAsid => e.asid == h.asid
  | _ => false

/-- A core drops what falls under a shoot-down; a large core, whose fetch is coherent, its lines of instructions, too (R31,
R108, R325). -/
def State.shootCore (s : State) (h : Shoot) (c : Nat) (x : Core) : Core :=
  { x with
    ibuf := if isLarge c then x.ibuf.filter fun l => !s.accessFalls h l.route l.pa l.key else x.ibuf
    tlb := x.tlb.filter fun e => !s.entryFalls h e
    rlb := x.rlb.filter fun e => !h.rangeFalls e
    keys := x.keys.filter fun n => !s.keyFalls h n }

/-- Starts a shoot-down that reaches the cores after some cycles and completes, at the earliest, after some. -/
def State.shootDown (s : State) (h : Shoot) (reach done : Nat) : State :=
  let (n, s) := s.fresh
  (s.upIo fun io => { io with shoots := io.shoots.put n { h with due := s.cyc + done } }).after reach 20 (.shootDownArrival n)

/-- The reservation sections that are open through a translation which falls under a shoot-down, by the request of their hold:
REL's write-back is still to come (R133, R136, R314). A revocation ends them at once (R324). -/
def State.openSections (s : State) (x : Shoot) : List Nat :=
  if x.kind = .revoke then []
  else s.banks.flatMap fun b => b.2.holds.filterMap fun h =>
    match h.sect with
    | none => none
    | some (t, _) =>
      let mine : Bool := match s.reqs.find h.req with
        | some r => s.accessFalls x r.route r.pa r.key
        | none => match (s.threadOf t).bind fun th => th.sect with
          | some z => z.pa == h.pa && s.accessFalls x z.route z.pa z.key
          | none => false
      if mine then some h.req else none

/-- Whether an access that a shoot-down awaits is still to be performed: a request's, or the write-back of an open section. -/
def State.awaited (s : State) (n : Nat) : Bool :=
  (match s.reqs.find n with | some r => r.unperformed | none => false) ||
    s.banks.any fun b => b.2.holds.any fun h => h.req == n && h.sect.isSome

/-- SHOOT_DOWN_ARRIVAL (R314): what falls under it is dropped; the accesses already translated are awaited. -/
def execShootDownArrival (h : Nat) (s : State) : Out :=
  match s.io.shoots.find h with
  | none => .next s
  | some x =>
    let waits := (s.reqs.filter fun e => e.2.unperformed && s.accessFalls x e.2.route e.2.pa e.2.key).map Prod.fst ++
      s.openSections x
    let s := s.shootMons x
    let first := s.serial
    let t := s.shootLines x
    let dirty := (List.range (t.serial - first)).map fun i => first + i
    let t := { t with cores := t.cores.map fun (e : Nat × Core) => (e.1, s.shootCore x e.1 e.2) }
    let t := t.upIo fun io => { io with shoots := io.shoots.adjust h fun y => { y with waits := waits ++ dirty } }
    .next (t.post (max t.cyc x.due) 20 (.shootDownComplete h))

/-! ### Sequences (R311 to R316) -/

/-- A sequence's entry. -/
def State.seq (s : State) (q : Nat) : Option Seq := s.io.seqs.find q

/-- Changes a sequence's entry. -/
def State.upSeq (s : State) (q : Nat) (f : Seq → Seq) : State := s.upIo fun io => { io with seqs := io.seqs.adjust q f }

/-- Draws a fresh key: its serial number (R316). -/
def State.draw (s : State) : Nat × State := (s.io.draws, s.upIo fun io => { io with draws := io.draws + 1 })

/-- Clears the tag of a frame that a sequence holds (R310, R337). -/
def State.untagSeq (s : State) (q : Nat) (pa : Nat) : State :=
  let f := s.frame (frameOf pa)
  if f.tag = some (.seq q) then s.setFrame (frameOf pa) { f with tag := none } else s

/-- The number that stands in place of a destroyed key: no draw has it. -/
def zeroedKey : Nat := 2 ^ 256

/-- A sequence has ended: its key is zeroed and its frames are released (R291). -/
def State.endSeq (s : State) (q : Nat) : State :=
  match s.seq q with
  | none => s
  | some e =>
    let s := e.pages.foldl (fun s g => s.untagSeq q g.2.pa) s
    s.upSeq q fun e => { e with live := false, key := zeroedKey, gone := s.cyc, pages := [] }

/-- Removes a page of a sequence (R313). -/
def State.dropPage (s : State) (q p : Nat) : State :=
  match (s.seq q).bind fun e => e.pages.find p with
  | none => s
  | some g => (s.untagSeq q g.pa).upSeq q fun e => { e with pages := e.pages.drop p }

/-- The lowest sequence id that is free, or the one that ended first (R315). -/
def State.nextSeq (s : State) : Option Nat :=
  match firstFrom (fun q => !s.io.seqs.has q) 0 65536 with
  | some q => some q
  | none =>
    ((s.io.seqs.filter fun e => !e.2.live).foldl (fun m e => match m with
      | some (q, t) => if e.2.gone < t then some (e.1, e.2.gone) else some (q, t)
      | none => some (e.1, e.2.gone)) none).map Prod.fst

/-- Whether a context acts as a sequence's owner: its own, or of the kernel that owns it (R312). -/
def State.ownsSeq (s : State) (ctx : Nat) (e : Seq) : Bool :=
  e.owner == ctx || (isKernelCtx ctx && s.kernOf e.owner == s.kernOf ctx)

/-- A live sequence that a context may change. -/
def State.liveSeq (s : State) (ctx q : Nat) : Option Seq :=
  match s.seq q with
  | some e => if e.live && s.ownsSeq ctx e && !s.seqGoing q then some e else none
  | none => none

/-- Whether a word is a pointer to a page of a sequence. -/
def isPagePtr (p : Word) : Bool := spaceOf p == 3 && offsetOf p % 65536 == 0

/-- SEQNEW at the I/O die (R313). -/
def State.seqnew (s : State) (n : Nat) (r : Req) : State :=
  if s.io.rngFails then s.unitSays n (-2)
  else match s.nextSeq with
    | none => s.unitSays n (-1)
    | some q =>
      let (k, s) := s.draw
      let e : Seq := { owner := r.ctx, live := true, key := k, made := s.cyc, gone := 0, pages := [] }
      (s.upIo fun io => { io with seqs := io.seqs.put q e }).unitSays n q

/-- Whether a frame's shoot-down runs: a later instruction on it sees the state that results (R321). -/
def State.frameBusy (s : State) (f : Nat) : Bool := s.givingUp f 1 || s.givingUp f 2

/-- SEQMAP at the I/O die (R313, Table 16.2): on a frame that is being given up it waits for the state that results (R321,
R337). -/
def State.seqmap (s : State) (n : Nat) (r : Req) : State :=
  let q := ptrSeq r.opA
  let page := offsetOf r.opA / 65536
  let b := r.opB
  let f := b.toNat / 65536 * 65536
  let pa := offsetOf (BitVec.ofNat 64 f)
  match s.liveSeq r.ctx q with
  | none => s.unitSays n (-1)
  | some e =>
    if !isPagePtr r.opA || spaceOf (BitVec.ofNat 64 f) != 4 || decide (2 ≤ tierOf pa) || b.extractLsb' 3 13 != 0 || b.getLsbD 2 then
      s.unitSays n (-4)
    else if e.pages.has page then s.unitSays n (-2)
    else
      let fr := s.frame (frameOf pa)
      if s.frameBusy (frameOf pa) then s.after 1 12 (.bankRequestArrival n)
      else if fr.owner ≠ ownerOf (s.kernOf r.ctx) ∨ fr.state ≠ .owned ∨ fr.tag.isSome then s.unitSays n (-3)
      else if 1048576 ≤ total (s.io.seqs.map fun e => e.2.pages.length) then s.unitSays n (-5)
      else
        let g : SPage := { pa := pa, w := b.getLsbD 0, atom := (b.extractLsb' 1 2).toNat, kern := s.kernOf r.ctx }
        let s := (s.setFrame (frameOf pa) { fr with tag := some (.seq q) }).upSeq q fun e => { e with pages := e.pages.put page g }
        let s := (s.addEntry r.core (seqEntry q r.opA g)).useKey r.core (.seq q)
        s.unitSays n 0

/-- SEQUNMAP at the I/O die (R313). -/
def State.sequnmap (s : State) (n : Nat) (r : Req) : State :=
  let q := ptrSeq r.opA
  let page := offsetOf r.opA / 65536
  match s.liveSeq r.ctx q with
  | none => s.unitLate n (-1) 60
  | some e =>
    if !isPagePtr r.opA then s.unitLate n (-4) 60
    else if !e.pages.has page || s.pageGoing q page then s.unitLate n (-2) 60
    else s.shootDown { req := some n, kind := .seqPage, seq := q, pages := [page] } 30 60

/-- SEQEND at the I/O die (R291). -/
def State.seqend (s : State) (n : Nat) (r : Req) : State :=
  let q := r.opA.toNat
  match s.liveSeq r.ctx q with
  | none => s.unitLate n (-1) 60
  | some _ => s.shootDown { req := some n, kind := .seqAll, seq := q } 30 60

/-- SEQQ at the I/O die (R292). The state word has 16 bits for the number of pages; for more than they hold the manual gives
no value, and they are free (DESIGN CHOICE, log 91). -/
def State.seqq (s : State) (n : Nat) (r : Req) : State :=
  match s.seq r.opA.toNat with
  | some e =>
    if s.ownsSeq r.ctx e then
      if !e.live then s.unitSays n 2
      else if e.pages.length < 65536 then s.unitSays n (65536 * e.pages.length + 5)
      else
        let (v, s) := s.freeWord
        s.unitSays n (65536 * (v.toNat % 65536) + 5)
    else s.unitSays n (-1)
  | none => s.unitSays n (-1)

/-- Issues a sequence instruction (R290, R313). -/
def issueSeq (code extra : Nat) (d : Reg) (ws : List Reg) (s : State) (check : State → Cx → Option Nat) : Out :=
  issue (plainKind ([d] ++ ws)) s fun s x =>
    match check s x with
    | some r => x.perm s r
    | none =>
      if code = uSeqend ∧ !s.accessesDone (x.tid s) x.th then x.again s .mem
      else x.askUnit s d code (ws.map fun w => x.w s (rn w)) (dieTrip x.core) extra .bankRequestArrival

/-- SEQNEW (R313). -/
def execSeqnew (d : Reg) (s : State) : Out := issueSeq uSeqnew 60 d [] s fun _ _ => none

/-- SEQMAP (R290, R313): outside the two kernels W[b] raises PERM with reason 0x05. -/
def execSeqmap (d a b : Reg) (s : State) : Out :=
  issueSeq uSeqmap 60 d [a, b] s fun s x => if isKernelCtx (x.ctx s) then none else some 5

/-- SEQUNMAP (R313). -/
def execSequnmap (d a : Reg) (s : State) : Out := issueSeq uSequnmap 0 d [a] s fun _ _ => none

/-- SEQEND (R291). -/
def execSeqend (d a : Reg) (s : State) : Out := issueSeq uSeqend 0 d [a] s fun _ _ => none

/-- SEQQ (R292). -/
def execSeqq (d a : Reg) (s : State) : Out := issueSeq uSeqq 60 d [a] s fun _ _ => none

/-! ### XINV (R317) -/

/-- XINV's operands: the kind, or none when malformed. -/
def xinvOperands (a b : Word) : Option ShootKind :=
  if a.extractLsb' 2 14 ≠ 0 ∨ a.extractLsb' 28 36 ≠ 0 then none
  else match a.toNat % 4 with
    | 0 => if spaceOf b = 0 then some .xinvPage else none
    | 1 => if b = 0 then some .xinvAsid else none
    | 2 => if b = 0 then some .xinvRlb else none
    | _ => if spaceOf b = 4 ∧ tierOf (offsetOf b) < 2 ∧ offsetOf b % 65536 = 0 ∧ a.extractLsb' 16 12 = 0 then some .xinvFrame else none

/-- Whether a kernel is a frame's owner, or its borrower in state lent or recalling. -/
def Frame.heldBy (f : Frame) (kern : Nat) : Bool :=
  f.owner == ownerOf kern || (f.borrower == ownerOf kern && (f.state == .lent || f.state == .recalling))

/-- XINV at the I/O die. -/
def State.xinv (s : State) (n : Nat) (r : Req) : State :=
  let kern := s.kernOf r.ctx
  let asid := (r.opA.extractLsb' 16 12).toNat
  match xinvOperands r.opA r.opB with
  | none => s.unitLate n (-4) (400 - dieTrip r.core)
  | some k =>
    let frame := frameOf (offsetOf r.opB)
    let ok : Bool := if k = .xinvFrame then (s.frame frame).heldBy kern
      else (s.desc asid 0).getLsbD 63 && s.kernOf ((s.desc asid 0).toNat % 65536) == kern
    if !ok then s.unitLate n (-1) (400 - dieTrip r.core)
    else
      let t := 400 - dieTrip r.core
      s.shootDown { req := some n, kind := k, asid := asid, va := offsetOf r.opB, frame := frame, kern := kern } (t / 2) t

/-- Issues XINV. -/
def issueXinv (d a b : Reg) (s : State) : Out :=
  issue (plainKind [d, a, b]) s fun s x =>
    if !isKernelCtx (x.ctx s) then x.perm s 0x0F
    else x.askUnit s d uXinv [x.w s (rn a), x.w s (rn b)] (dieTrip x.core) 0 .bankRequestArrival

/-- XINV of kind 0. -/
def execXinvPage (d a b : Reg) (s : State) : Out := issueXinv d a b s

/-- XINV of kind 1. -/
def execXinvAsid (d a b : Reg) (s : State) : Out := issueXinv d a b s

/-- XINV of kind 2. -/
def execXinvRlb (d a b : Reg) (s : State) : Out := issueXinv d a b s

/-- XINV of kind 3. -/
def execXinvFrame (d a b : Reg) (s : State) : Out := issueXinv d a b s

/-- The end of a frame's shoot-down for XINV of kind 3: the tag is cleared unless it names a sequence (R310). -/
def State.clearTag (s : State) (f : Nat) : State :=
  let e := s.frame f
  match e.tag with
  | some (.id _ _) => s.setFrame f { e with tag := none }
  | _ => s

/-- Unbinds a key id: every tag that names it is cleared (R331). -/
def State.unbindKid (s : State) (kid : Nat) : State :=
  s.upIo fun io =>
    { io with
      kids := io.kids.drop kid
      frames := io.frames.mapVals fun f => match f.tag with
        | some (.id k _) => if k = kid then { f with tag := none } else f
        | _ => f }

/-- A context is destroyed: its sequences end, its key ids are unbound, and its id is free (R315, R331). -/
def State.destroyed (s : State) (ctx : Nat) : State :=
  let qs := (s.io.seqs.filter fun e => e.2.owner == ctx && e.2.live).map Prod.fst
  let s := qs.foldl State.endSeq s
  let ks := (s.io.kids.filter fun e => e.2.1 == ctx).map Prod.fst
  let s := ks.foldl State.unbindKid s
  let key := (s.context ctx).key
  let mine := (s.io.kids.filter fun e => e.2.2 == key).map Prod.fst
  let s := mine.foldl State.unbindKid s
  s.upIo fun io => { io with ctxs := io.ctxs.drop ctx }

/-- The frame instructions' shoot-down is complete (R336, R337): the entry changes, and its notices are formed. -/
def State.frameDone (s : State) (h : Shoot) : State :=
  let f := s.frame h.frame
  let other := 3 - h.kern
  let untagged := match f.tag with | some (.id _ _) => none | t => t
  match h.kind with
  | .offer => (s.setFrame h.frame { f with tag := none, state := .offered, borrower := ownerOf other }).notice other 4
      (framePtr h.frame) 0
  | .release => s.setFrame h.frame { f with tag := none, owner := .free, borrower := .free }
  | .giveBack =>
    (s.setFrame h.frame { f with state := .owned, borrower := .free, lkey := 0, cls := 0, deadline := 0, stopped := false,
                                 tag := untagged }).notice f.owner.kern 3 (framePtr h.frame) 0
  | _ => s

/-- Whether a kernel loses a frame as a shoot-down completes. -/
def ShootKind.loses (k : ShootKind) : Bool := match k with | .offer | .release | .giveBack => true | _ => false

/-- The accesses of K space that the losing kernel's place of service has taken since the shoot-down reached the cores and has still to
perform, and the sections opened by them: the shoot-down awaits them, too (R338). -/
def State.takenSince (s : State) (x : Shoot) : List Nat :=
  if !x.kind.loses then []
  else
    let taken (r : Req) : Bool := match r.stage with | .held | .queued | .waiting | .served => r.unperformed | _ => false
    (s.reqs.filter fun e => e.2.route == .plain && taken e.2 && s.accessFalls x e.2.route e.2.pa e.2.key).map Prod.fst ++
      s.openSections x

/-- SHOOT_DOWN_COMPLETE (R314): once every awaited access has been performed, what the shoot-down was for is done. The monitors that
the losing kernel's contexts have armed meanwhile on the frame fire (R147). -/
def execShootDownComplete (h : Nat) (s : State) : Out :=
  match s.io.shoots.find h with
  | none => .next s
  | some x =>
    let left := x.waits.filter s.awaited ++ s.takenSince x
    if left ≠ [] then
      .next ((s.upIo fun io => { io with shoots := io.shoots.adjust h fun y => { y with waits := left } }).after 1 20
        (.shootDownComplete h))
    else
      let s := if x.kind.loses then s.shootMons x else s
      let s := s.upIo fun io => { io with shoots := io.shoots.drop h }
      let s := match x.kind with
        | .xinvFrame => s.clearTag x.frame
        | .seqPage => x.pages.foldl (fun s p => s.dropPage x.seq p) s
        | .seqAll => s.endSeq x.seq
        | .unbindKey => s.unbindKid x.kid
        | .destroy => s.destroyed x.ctx
        | _ => s.frameDone x
      let s := match s.io.fotWaits with
        | r :: _ => s.after 0 12 (.fotPerform r)
        | [] => s
      match x.req with
      | some n => .next (s.unitSays n 0)
      | none => .next s

end Sys2Proof.Machine
end

