-- ==== Sys2Proof/Machine/Lending.lean ====
section
/-! DEFINITION. The frame ownership instructions, revocation and notices (R321 to R325, R333 to R340). -/

namespace Sys2Proof.Machine

/-! ### The frame state word (R322) -/

/-- The number of an owner in a frame's state word. -/
def Owner.code : Owner → Nat
  | .free => 0 | .host => 1 | .array => 2 | .security => 3

/-- The number of a frame's state. -/
def FrameState.code : FrameState → Nat
  | .owned => 0 | .offered => 1 | .lent => 2 | .recalling => 3

/-- Whether a frame is lent or recalling. -/
def Frame.out (f : Frame) : Bool := f.state == .lent || f.state == .recalling

/-- FQUERY's word (Table 18.2). -/
def Frame.word (f : Frame) : Word :=
  let lkey := if f.out then f.lkey else 0
  let cls := if f.out then f.cls else 0
  BitVec.ofNat 64 (f.shost * 2 ^ 36 + f.sarr * 2 ^ 32 + lkey * 2 ^ 16 + cls * 2 ^ 8 + f.borrower.code * 2 ^ 4 +
    f.owner.code * 2 ^ 2 + f.state.code)

/-- The strike count of a kernel as borrower of a frame. -/
def Frame.strikes (f : Frame) (kern : Nat) : Nat := if kern = 1 then f.shost else f.sarr

/-- Sets a kernel's strike count. -/
def Frame.setStrikes (f : Frame) (kern n : Nat) : Frame := if kern = 1 then { f with shost := n } else { f with sarr := n }

/-- Sets a kernel's revoked bit. -/
def Frame.setRevoked (f : Frame) (kern : Nat) (v : Bool) : Frame := if kern = 1 then { f with rvh := v } else { f with rva := v }

/-- The tag that remains when a frame changes state: only a sequence's (R310). -/
def Frame.kept (f : Frame) : Option Tag := match f.tag with | some (.seq q) => some (.seq q) | _ => none

/-- A kernel's unit on the I/O die. -/
def State.kernel (s : State) (k : Nat) : Kernel := (s.io.kernels.find k).getD {}

/-- Changes a kernel's unit. -/
def State.upKernel (s : State) (k : Nat) (f : Kernel → Kernel) : State :=
  s.upIo fun io => { io with kernels := io.kernels.adjust k f }

/-! ### The unit's operations (R323, R336) -/

/-- The frame instructions, as the unit knows them. -/
def uFoffer : Nat := 10
def uFaccept : Nat := 11
def uFlend : Nat := 12
def uFrecall : Nat := 13
def uFreturn : Nat := 14
def uFquery : Nat := 15
def uFstrike : Nat := 16

/-- The frame a pointer names, when it is a frame-aligned K-space pointer of tier 0 or 1 (R321). -/
def framePtrOk (im : Image) (p : Word) : Bool :=
  spaceOf p == 4 && offsetOf p % 65536 == 0 &&
    (match homeOf im (offsetOf p) with | .chan _ _ | .port _ => true | _ => false)

/-- FOFFER. -/
def State.foffer (s : State) (n : Nat) (r : Req) (f : Nat) (mine : Nat) : State :=
  let e := s.frame f
  let op := r.opB.toNat
  if 3 ≤ op then s.unitLate n (-4) 400
  else if op = 2 then
    if e.owner ≠ ownerOf mine ∨ e.state ≠ .offered then s.unitLate n (-1) 400
    else
      ((s.setFrame f { e with state := .owned, borrower := .free }).notice (3 - mine) 6 (framePtr f) 0).unitLate n 0 400
  else if e.owner ≠ ownerOf mine ∨ e.state ≠ .owned then s.unitLate n (-1) 400
  else match e.tag with
    | some (.seq _) => s.unitLate n (-5) 400
    | _ => s.shootDown { req := some n, kind := if op = 0 then .offer else .release, frame := f, kern := mine } 200 400

/-- FACCEPT. -/
def State.faccept (s : State) (n : Nat) (f : Nat) (mine : Nat) : State :=
  let e := s.frame f
  if e.state = .offered ∧ e.borrower = ownerOf mine then
    let s := s.setFrame f ({ e with owner := ownerOf mine, borrower := .free, state := .owned }.setRevoked mine false)
    (s.notice e.owner.kern 5 (framePtr f) 0).unitSays n 0
  else if e.owner = .free then
    (s.setFrame f ({ e with owner := ownerOf mine }.setRevoked mine false)).unitSays n 0
  else s.unitSays n (-1)

/-- FLEND. -/
def State.flend (s : State) (n : Nat) (r : Req) (f : Nat) (mine : Nat) : State :=
  let e := s.frame f
  let c := r.opB
  let other := 3 - mine
  let kid := (c.extractLsb' 16 12).toNat
  if c.extractLsb' 28 36 ≠ 0 ∨ c.extractLsb' 4 12 ≠ 0 then s.unitSays n (-4)
  else if e.owner ≠ ownerOf mine ∨ e.state ≠ .owned then s.unitSays n (-1)
  else if (s.kernel mine).limit ≤ e.strikes other then s.unitSays n (-2)
  else if kid = 0 ∨ !s.kidBound kid r.ctx then s.unitSays n (-3)
  else
    let e := { e with state := .lent, borrower := ownerOf other, lkey := kid, cls := c.toNat % 16, tag := e.kept }
    (s.setFrame f (e.setRevoked other false)).unitSays n 0

/-- FRECALL: the deadline is set and the borrower notified. -/
def State.frecall (s : State) (n : Nat) (f : Nat) (mine : Nat) : State :=
  let e := s.frame f
  if e.owner ≠ ownerOf mine ∨ e.state ≠ .lent then s.unitSays n (-1)
  else
    let d := s.cyc + 2 ^ (8 + e.cls)
    let s := s.setFrame f { e with state := .recalling, deadline := d, tag := e.kept }
    ((s.post d 90 (.revocation f)).notice e.borrower.kern 1 (framePtr f) (BitVec.ofNat 64 d)).unitSays n 0

/-- FRETURN: the deadline stops, and the shoot-down runs. -/
def State.freturn (s : State) (n : Nat) (f : Nat) (mine : Nat) : State :=
  let e := s.frame f
  if e.borrower ≠ ownerOf mine ∨ !e.out then s.unitLate n (-1) 400
  else
    (s.setFrame f { e with stopped := true }).shootDown { req := some n, kind := .giveBack, frame := f, kern := mine } 200 400

/-- FSTRIKE. -/
def State.fstrike (s : State) (n : Nat) (r : Req) (f : Nat) (mine : Nat) : State :=
  let e := s.frame f
  let v := r.opB
  let lim := (v.extractLsb' 4 4).toNat
  if v.extractLsb' 1 3 ≠ 0 ∨ v.extractLsb' 8 56 ≠ 0 ∨ (!v.getLsbD 0 ∧ lim ≠ 0) ∨ (v.getLsbD 0 ∧ lim = 0) then s.unitSays n (-4)
  else if v.getLsbD 0 then
    (s.upKernel mine fun k => { k with limit := lim }).unitSays n (s.kernel mine).limit
  else if e.owner ≠ ownerOf mine then s.unitSays n (-1)
  else (s.setFrame f (e.setStrikes (3 - mine) 0)).unitSays n (e.strikes (3 - mine))

/-- What a request asks of the unit. -/
def Req.unitCode (r : Req) : Nat := (r.args.getD 1 0).toNat

/-- The unit performs a frame instruction. -/
def State.fotDo (s : State) (n : Nat) (q : Req) : State :=
  let mine := s.kernOf q.ctx
  let code := q.unitCode
  if !framePtrOk s.sys.image q.opA then
    if code = uFoffer ∨ code = uFreturn then s.unitLate n (-4) 400 else s.unitSays n (-4)
  else
    let f := frameOf (offsetOf q.opA)
    if code = uFquery then s.reply n [(s.frame f).word]
    else if code = uFoffer then s.foffer n q f mine
    else if code = uFaccept then s.faccept n f mine
    else if code = uFlend then s.flend n q f mine
    else if code = uFrecall then s.frecall n f mine
    else if code = uFreturn then s.freturn n f mine
    else s.fstrike n q f mine

/-- Whether a frame instruction waits for the state that a running shoot-down of its frame leaves; FQUERY reports the state
as it stands (R321, R339). -/
def State.fotHeld (s : State) (q : Req) : Bool :=
  q.unitCode != uFquery && framePtrOk s.sys.image q.opA && s.frameBusy (frameOf (offsetOf q.opA))

/-- A frame instruction no longer waits, and the next one has its turn. -/
def State.fotNext (s : State) (n : Nat) : State :=
  let s := s.upIo fun io => { io with fotWaits := without n io.fotWaits }
  match s.io.fotWaits with
  | m :: _ => s.after 0 12 (.fotPerform m)
  | [] => s

/-- FOT_PERFORM (R321): the unit performs the frame instructions one at a time, in the order in which they reach it. -/
def execFotPerform (r : Nat) (s : State) : Out :=
  match s.reqs.find r with
  | none => .next (s.fotNext r)
  | some q =>
    let mine := s.io.fotWaits.contains r
    if s.io.fotWaits.head? == some r || s.io.fotWaits.isEmpty then
      if s.fotHeld q then
        .next (if mine then s else s.upIo fun io => { io with fotWaits := [r] })
      else .next (if mine then (s.fotDo r q).fotNext r else s.fotDo r q)
    else .next (if mine then s else s.upIo fun io => { io with fotWaits := io.fotWaits ++ [r] })

/-! ### Issue (R321, R335) -/

/-- Issues a frame instruction: its checks, and on a large core the release effects of system scope where it has them
(R121). -/
def issueFrame (code : Nat) (releases : Bool) (d a : Reg) (b : Option Reg) (s : State) : Out :=
  issue (plainKind ([d, a] ++ b.toList)) s fun s x =>
    if !isKernelCtx (x.ctx s) then x.perm s 5
    else match effective (x.w s (rn a)) 0 with
      | .error e => x.perm s e
      | .ok _ =>
        let m : Mod := { release := releases && isLarge x.core, scope := .system }
        x.releasing s m fun s =>
          x.askUnit s d code ([x.w s (rn a)] ++ (b.map fun b => x.w s (rn b)).toList) (if isLarge x.core then 120 else 300) 0
            .fotPerform

/-- FOFFER of op 0. -/
def execFofferOffer (d a b : Reg) (s : State) : Out := issueFrame uFoffer true d a (some b) s

/-- FOFFER of op 1. -/
def execFofferRelease (d a b : Reg) (s : State) : Out := issueFrame uFoffer true d a (some b) s

/-- FOFFER of op 2. -/
def execFofferWithdraw (d a b : Reg) (s : State) : Out := issueFrame uFoffer true d a (some b) s

/-- FACCEPT. -/
def execFaccept (d a : Reg) (s : State) : Out := issueFrame uFaccept false d a none s

/-- FLEND. -/
def execFlend (d a b : Reg) (s : State) : Out := issueFrame uFlend true d a (some b) s

/-- FRECALL. -/
def execFrecall (d a : Reg) (s : State) : Out := issueFrame uFrecall true d a none s

/-- FRETURN. -/
def execFreturn (d a : Reg) (s : State) : Out := issueFrame uFreturn true d a none s

/-- FQUERY. -/
def execFquery (d a : Reg) (s : State) : Out := issueFrame uFquery false d a none s

/-- FSTRIKE of op 0. -/
def execFstrikeClear (d a b : Reg) (s : State) : Out := issueFrame uFstrike false d a (some b) s

/-- FSTRIKE of op 1. -/
def execFstrikeSetLimit (d a b : Reg) (s : State) : Out := issueFrame uFstrike false d a (some b) s

/-! ### Revocation (R324, R325) -/

/-- The holds of a borrower's reservation sections on a frame end (R324, R141). -/
def State.endSections (s : State) (f kern : Nat) : State :=
  let hs := s.banks.flatMap fun b => (b.2.holds.filter fun h => frameOf h.pa == f &&
    (match h.sect with | some (_, c) => s.kernOf c == kern | none => false)).map fun h => (b.1, h)
  hs.foldl (fun s h => s.release h.1 h.2.pa h.2.size) s

/-- REVOCATION (R324): at the end of the deadline's cycle, unless a FRETURN has stopped it (R339). -/
def execRevocation (frame : Nat) (s : State) : Out :=
  let e := s.frame frame
  if e.state ≠ .recalling ∨ e.deadline ≠ s.cyc ∨ e.stopped then .next s
  else
    let b := e.borrower.kern
    let f := { e with state := .owned, borrower := .free, lkey := 0, cls := 0, deadline := 0, tag := e.kept }
    let s := s.setFrame frame ((f.setStrikes b (min 15 (e.strikes b + 1))).setRevoked b true)
    let s := s.endSections frame b
    let s := (s.notice e.owner.kern 2 (framePtr frame) 0).notice b 2 (framePtr frame) 0
    .next (s.shootDown { req := none, kind := .revoke, frame := frame, kern := b } 0 0)

/-! ### Writing records into rings (R188, R340) -/

/-- How the requests of a record writer are told apart: its wait for the next record's word 0, and its writes. -/
def noticeWait (kern : Nat) : Use := .record (2 ^ 42 + kern)
def faultWait (ctx : Nat) : Use := .record (2 ^ 43 + ctx)
def faultPut (ctx : Nat) : Use := .record (2 ^ 47 + ctx)
def noticePutting (kern : Nat) : Use := .record (2 ^ 47 + 2 ^ 16 + kern)

/-- The address of a ring's next record of some bytes. -/
def RingRef.next (g : RingRef) (size : Nat) : Nat := g.base + size * (g.prod % 2 ^ g.log2)

/-- A record writer's request at an address of its kernel's ring, by way of K space. It takes no time of its own
(log 26). -/
def State.ringAsk (s : State) (kern key pa : Nat) (op : MemOp) (use : Use) (args : List Word) : State :=
  let r : Req := { core := 0x0FF00, ctx := kern, op := op, use := use, ptr := BitVec.ofNat 64 (4 * 2 ^ 57 + pa), pa := pa,
                   key := key, args := args }
  let (n, s) := s.addReq r
  s.after 0 12 (.bankRequestArrival n)

/-- A record's words are written: all but the first; the first, which is kept in `args`, follows when they have been. -/
def State.ringPut (s : State) (kern : Nat) (g : RingRef) (pa : Nat) (ws : List Word) (use : Use) : State :=
  s.ringAsk kern g.key (pa + 8) (.write (ws.drop 1) false) use (ws.take 1)

/-- A record's words but the first have been written: the first is, and set full (R188). -/
def State.ringEnds (s : State) (r : Req) : State :=
  if r.event.isSome then s else s.ringAsk r.ctx r.key (r.pa - 8) (.write r.args true) .none []

/-- NOTICE_WRITE (R340): the writer waits until the next record of the kernel's inbox is empty. -/
def execNoticeWrite (kern : Nat) (s : State) : Out :=
  let k := s.kernel kern
  match k.inbox, k.notices with
  | some g, (_, _, _, t) :: _ =>
    if k.writing then .next s
    else if s.cyc < t + noticeTime then .next (s.post (t + noticeTime) 30 (.noticeWrite kern))
    else .next ((s.upKernel kern fun k => { k with writing := true }).ringAsk kern g.key (g.next 32) .waitEmpty (noticeWait kern) [])
  | _, _ => .next s

/-- The next record of an inbox is empty: the oldest notice is written, and the next one only after it. -/
def State.noticePut (s : State) (kern : Nat) : State :=
  let k := s.kernel kern
  match k.inbox, k.notices with
  | some g, (kind, w1, w2, t) :: rest =>
    let s := s.upKernel kern fun k => { k with notices := rest, inbox := some { g with prod := g.prod + 1 } }
    s.ringPut kern g (g.next 32) [BitVec.ofNat 64 kind, w1, w2, BitVec.ofNat 64 t] (noticePutting kern)
  | _, _ => s.upKernel kern fun k => { k with writing := false }

/-- A notice's words but the first have been written. -/
def State.noticeEnds (s : State) (kern : Nat) (r : Req) : State :=
  ((s.ringEnds r).upKernel kern fun k => { k with writing := false }).after 0 30 (.noticeWrite kern)

end Sys2Proof.Machine
end

