-- ==== Sys2Proof/Machine/Copy.lean ====
section
/-! DEFINITION. Page 3: copy engines and sequencers, the cluster's gather engine, EQRY and EFENCE, WAITP, transaction
barriers (R122, R123, R155 to R175, R177). -/

namespace Sys2Proof.Machine

/-! ### Transaction barriers (R171 to R173) -/

/-- A transaction barrier. -/
def Core.tbar (c : Core) (n : Nat) : TBar := (c.tbars.find n).getD {}

/-- Changes a transaction barrier in this cycle (R172). -/
def State.touchBar (s : State) (c n : Nat) (f : TBar → TBar) : State :=
  let s := s.upCore c fun x => { x with tbars := x.tbars.put n (f (x.tbar n)) }
  if s.touched.contains (c, n) then s else { s with touched := s.touched ++ [(c, n)] }

/-- An arrival of some bytes: TB.INIT replaces every other change of its cycle (Table 9.5). -/
def State.countBytes (s : State) (c n bytes : Nat) : State :=
  s.touchBar c n fun b => if b.init then b else { b with c := b.c - BitVec.ofNat 36 bytes }

/-- Takes back bytes counted for words behind a fault (R165). -/
def State.uncount (s : State) (c n bytes : Nat) : State :=
  s.touchBar c n fun b => if b.init then b else { b with c := b.c + BitVec.ofNat 36 bytes }

/-- Threads parked on a barrier whose phase bit has left the parity they wait for return 4 cyc after (R173). -/
def State.releaseTb (s : State) (c n : Nat) : State :=
  let p := ((s.core c).tbar n).p
  (s.core c).threads.foldl (fun s e =>
    match e.2.status with
    | .parked _ (.tbar m q npc) => if m = n ∧ p ≠ q then s.resumeIn c e.1 npc 4 else s
    | _ => s) s

/-- The end of a cycle at a barrier (Table 9.5). -/
def State.settleBar (s : State) (c n : Nat) : State :=
  let b := (s.core c).tbar n
  let b' := if !b.init && b.posted && b.c == 0 then { b with p := !b.p, posted := false } else { b with init := false }
  (s.upCore c fun x => { x with tbars := x.tbars.put n b' }).releaseTb c n

/-- The end of a cycle at every barrier that the cycle has changed. -/
def State.settle2 (s : State) : State :=
  let l := s.touched
  l.foldl (fun s e => s.settleBar e.1 e.2) { s with touched := [] }

/-- Issues a barrier instruction: a number above 63 or a byte count outside its range raises PERM (R173). -/
def Cx.tb (x : Cx) (s : State) (n bytes : Word) (body : Out) : Out :=
  if 63 < n.toNat ∨ 2 ^ 35 ≤ bytes.toNat then x.perm s 9 else body

/-- TB.INIT (R172, R173). -/
def execTbInit (d : Reg) (s : State) : Out :=
  issue (smallKind [d]) s fun s x =>
    let n := x.w s (rn d)
    x.tb s n 0 (x.done (s.touchBar x.core n.toNat fun _ => { init := true }))

/-- TB.EXP (R172, R173). -/
def execTbExp (d a : Reg) (s : State) : Out :=
  issue (smallKind [d, a]) s fun s x =>
    let n := x.w s (rn d)
    let v := x.w s (rn a)
    x.tb s n v (x.done (s.touchBar x.core n.toNat fun b =>
      if b.init then b else { b with c := b.c + BitVec.ofNat 36 v.toNat, posted := true }))

/-- TB.ARR (R115, R173). -/
def execTbArr (m : Mod) (d a : Reg) (s : State) : Out :=
  issue (smallKind [d, a]) s fun s x =>
    let n := x.w s (rn d)
    let v := x.w s (rn a)
    x.tb s n v (x.releasing s m fun s => x.done (s.countBytes x.core n.toNat v.toNat))

/-- The kind of an instruction that reports deferred engine traps (R167, R194). -/
def reporting (ws : List Reg) : Kind :=
  { names := { w := ws.map rn }, report := [.copy, .gather, .vector], big := false }

/-- TB.WAIT (R173). -/
def execTbWait (_m : Mod) (d a : Reg) (s : State) : Out :=
  issue (reporting [d, a]) s fun s x =>
    let n := x.w s (rn d)
    let q := (x.w s (rn a)).getLsbD 0
    x.tb s n 0 (if ((s.core x.core).tbar n.toNat).p = q then .next (s.park x.core x.slot .barrier (.tbar n.toNat q x.npc))
      else x.done s)

/-- TB.PHASE (R173): the barrier's number is in W[a]. -/
def execTbPhase (d a : Reg) (s : State) : Out :=
  issue (smallKind [d, a]) s fun s x =>
    let n := x.w s (rn a)
    x.tb s n 0 (
      let b := (s.core x.core).tbar n.toNat
      x.ret s d ((b.c.signExtend 64 <<< 2) ||| BitVec.ofNat 64 (2 * b.posted.toNat + b.p.toNat)))

/-! ### Parts of a command (R158, R160, R164, R174) -/

/-- The elements that together fill a part's destination word, when the command writes all of it in one run of
dimension 0: the first and the number. Such a word is written whole (R159). -/
def CopyCmd.group (q : CopyCmd) (i : Nat) : Nat × Nat :=
  match q.kind, q.dims with
  | .tcpy, (ext, _, ds) :: _ =>
    let n := 8 / q.esize
    let off := (q.dstOf i).toNat % 8 / q.esize
    let i0 := i % ext
    let back := if ds = 1 then off else n - 1 - off
    if n = 1 then (i, 1)
    else if (ds = 1 ∨ ds = -1) ∧ back ≤ i0 ∧ i0 - back + n ≤ ext ∧ q.base ≤ i - back then (i - back, n) else (i, 1)
  | _, _ => (i, 1)

/-! ### Promises (R156) -/

/-- The latency of a word's place as an engine estimates it: from the translation buffer at issue, or that of the CXL
tier. -/
def State.placeFrom (s : State) (tlb : List TEntry) (core asid : Nat) (p : Word) : Nat :=
  let at1 (e : Option TEntry) (off : TEntry → Nat) : Nat := match e with
    | some e => s.reach core (e.pa + off e)
    | none => 1600
  match spaceOf p with
  | 1 => s.reach core (vaultAddr core (offsetOf p))
  | 2 => s.reach core (vaultAddr (ptrCore p) (offsetOf p))
  | 4 => s.reach core (offsetOf p)
  | 3 => at1 (tlb.find? fun e => e.route == .seq (ptrSeq p) (offsetOf p / 65536)) fun _ => offsetOf p % 65536
  | _ => at1 (tlb.find? fun e => e.covers asid (offsetOf p)) fun e => match e.route with
      | .page _ b _ => offsetOf p - b
      | _ => 0

/-- The same from the core's translation buffer as it stands. -/
def State.placeLatency (s : State) (core asid : Nat) (p : Word) : Nat := s.placeFrom (s.core core).tlb core asid p

/-- The earliest promise among commands. -/
def earliest (l : List CopyCmd) : Nat :=
  match l with
  | [] => 0
  | q :: rest => rest.foldl (fun m x => min m x.promise) q.promise

/-- The promise of a command that takes effect now, from its parts still to do, and when the read stage frees (R156). -/
def State.promiseOf (s : State) (q : CopyCmd) (readFree : Nat) (full : List CopyCmd) (beats lsrc : Nat) : Nat × Nat :=
  let start := max (s.cyc + 1) readFree
  let start := if 16 ≤ full.length then max start (earliest full) else start
  let last := if q.parts = 0 then q.dst else q.dstOf (q.parts - 1)
  (start + lsrc + beats + s.placeFrom q.tlb q.core q.asid last, start + beats)

/-! ### Queues (R155) -/

/-- Puts a start of the queue's head on the agenda. -/
def State.kickCopy (s : State) (c : Nat) : State :=
  let e := (s.core c).copy
  match e.queue with
  | [] => s
  | q :: _ => if 16 ≤ e.flight.length then s else s.post (max (q.effect + 1) (max s.cyc e.busy)) 8 (.copyCommandStart c)

/-- A command takes effect: its promise is formed, and it enters the queue (R156, R158). -/
def State.enterCopy (s : State) (q : CopyCmd) : State :=
  let c := q.core
  let e := (s.core c).copy
  let (p, free) := s.promiseOf q e.readFree e.flight q.beats (s.placeFrom q.tlb c q.asid (q.srcOf q.base))
  let q := { q with promise := p, effect := s.cyc, tlb := [], granted := true }
  let s := s.upCore c fun x => { x with copy := { x.copy with queue := x.copy.queue ++ [q], readFree := free } }
  (s.setW c q.tid.slot q.dreg (BitVec.ofNat 64 p)).kickCopy c

/-- Whether the thread of a command still waits for an entry. -/
def State.stillWaits (s : State) (q : CopyCmd) : Bool :=
  match s.threadOf q.tid with
  | some th => match th.status with
    | .parked _ (.queue n) => n == q.id
    | _ => false
  | none => false

/-- Grants freed entries in the order in which threads parked (R155). -/
def State.grantCopy (s : State) (c : Nat) : State :=
  let e := (s.core c).copy
  match e.wants.dropWhile fun q => !s.stillWaits q with
  | [] => s.upCore c fun x => { x with copy := { x.copy with wants := [] } }
  | q :: rest =>
    if e.queue.length < 2 then
      let s := s.upCore c fun x => { x with copy := { x.copy with wants := rest } }
      (s.enterCopy q).granted c q.tid.slot q.npc
    else s.upCore c fun x => { x with copy := { x.copy with wants := q :: rest } }

/-- Puts a command behind those of threads that parked before it; threads that parked in one cycle stand in the order of
their slots (R155). `key` gives the cycle in which a command's thread parked, which is its `effect` until the entry is
granted, and the thread's slot. -/
def insertWant {α : Type} (key : α → Nat × Nat) (q : α) : List α → List α
  | [] => [q]
  | e :: rest => if (key e).1 = (key q).1 ∧ (key q).2 < (key e).2 then q :: e :: rest else e :: insertWant key q rest

/-- Submits a command: into the queue, or to wait for an entry (R155). -/
def Cx.submitCopy (x : Cx) (s : State) (q : CopyCmd) : Out :=
  let e := (s.core x.core).copy
  let (n, s) := s.fresh
  let q := { q with id := n, effect := s.cyc }
  if e.queue.length < 2 ∧ e.wants = [] then x.done (s.enterCopy q)
  else
    let s := s.upCore x.core fun y => { y with copy := { y.copy with wants := insertWant (fun e => (e.effect, e.tid.slot)) q y.copy.wants } }
    .next (x.queued s n)

/-! ### Issue (R158, R161, R164) -/

/-- The barrier field of a descriptor (Table 9.1), or malformed. -/
def descBar (d : Word) : Option (Option Nat) :=
  let tb := (d.extractLsb' 20 6).toNat
  if d.extractLsb' 27 37 != 0 then none
  else if d.getLsbD 26 then some (some tb)
  else if tb = 0 then some none else none

/-- The PERM reason of the lowest or highest byte of a side (R161). -/
def sideRange (p : Word) (lo hi : Int) : Option Nat :=
  match effective p lo, effective p hi with
  | .error e, _ => some e
  | _, .error e => some e
  | .ok _, .ok _ => none

/-- The PERM reason 0x04 or 0x05 of a side: every bank that a vault range touches counts. -/
def State.sideSpace (s : State) (core part : Nat) (p : Word) (lo hi : Int) : Option Nat :=
  let first := shiftPtr p lo
  let a := offsetOf first / 8192
  let banks : Nat := if spaceOf p = 1 ∨ spaceOf p = 2 then offsetOf (shiftPtr p hi) / 8192 - a else 0
  (List.range (banks + 1)).findSome? fun i =>
    s.spaceEvent core part (first + BitVec.ofNat 64 (8192 * (a + i) - 8192 * a))

/-- A check of a restartable instruction fails as it issues: where a restart index is pending, th.vx holds it again, for no part from
it on is touched (R192). -/
def Cx.checkTrap (x : Cx) (s : State) (code : Nat) (info : Word) : Out :=
  match x.th.restart with
  | some i => .next (s.trap x.core x.slot code info x.pc (restartVx i.toNat) false)
  | none => x.trap s code info

/-- The same with PERM and a reason. -/
def Cx.checkPerm (x : Cx) (s : State) (reason : Nat) : Out := x.checkTrap s cPERM (BitVec.ofNat 64 reason)

/-- The checks of R161 after the operands: ranges, alignment, spaces; then the body. -/
def Cx.copyChecks (x : Cx) (s : State) (q : CopyCmd) (slo shi dlo dhi : Int) (align : Nat) (body : Out) : Out :=
  match sideRange q.src slo shi, sideRange q.dst dlo dhi with
  | some e, _ => x.checkPerm s e
  | _, some e => x.checkPerm s e
  | none, none =>
    if q.src.toNat % align ≠ 0 then x.checkTrap s cALIGN q.src
    else if q.dst.toNat % align ≠ 0 then x.checkTrap s cALIGN q.dst
    else
      match s.sideSpace x.core x.th.part q.src slo shi, s.sideSpace x.core x.th.part q.dst dlo dhi with
      | some e, _ => x.checkPerm s e
      | _, some e => x.checkPerm s e
      | none, none => body

/-- Whether two ranges may overlap in memory: as pointers, L in its C form, or through two mappings of one frame (R160).
Vaults are reached by L and C space alone. -/
def Cx.overlap (x : Cx) (q : CopyCmd) (slo shi dlo dhi : Int) : Bool :=
  let a := absolute x.core q.src
  let b := absolute x.core q.dst
  if spaceOf a = spaceOf b ∧ (spaceOf a = 2 ∨ spaceOf a = 4) then
    decide ((a.toNat : Int) + slo ≤ b.toNat + dhi) && decide ((b.toNat : Int) + dlo ≤ a.toNat + shi)
  else spaceOf a != 2 && spaceOf b != 2

/-- Whether a range of destination bytes is known to lie in one bank: a vault range within one, no byte of which a view
redirects (R123, R281). -/
def State.oneBank (s : State) (q : CopyCmd) (dlo dhi : Int) : Bool :=
  (s.redirected q.core q.strand (shiftPtr q.dst dlo) (dhi - dlo + 1).toNat).isNone && (spaceOf q.dst == 1 || spaceOf q.dst == 2) && (shiftPtr q.dst dlo).toNat / 8192 == (shiftPtr q.dst dhi).toNat / 8192

/-- What a command captures of its thread (R157). -/
def Cx.capture (x : Cx) (s : State) (kind : CopyKind) (d : Reg) (dst src : Word) (tb : Option Nat) : CopyCmd :=
  { id := 0, kind := kind, tid := x.tid s, core := x.core, ctx := x.ctx s, part := x.th.part, asid := x.th.asid.toNat, epc := x.pc,
    npc := x.npc, dreg := rn d, dst := dst, src := src, parts := 0, esize := 8, tb := tb, beats := 0, strand := x.th.strand, tlb := x.res.tlb }

/-- The part from which a re-issue runs, when a restart index is pending (R183, R192). -/
def Cx.restartPart (x : Cx) (q : CopyCmd) : Nat :=
  match x.th.restart with
  | some i => min q.parts (q.partAt i.toNat)
  | none => 0

/-- CPY (R158). With len zero no byte is the lowest or the highest: the checks of R161 take the word at each base; with nothing left
of a re-issue they take the last word (DESIGN CHOICE, log 106). -/
def execCpy (m : Mod) (d a b : Reg) (s : State) : Out :=
  issue (smallKind [d, a, b]) s fun s x =>
    let desc := x.w s (rn d)
    let len := (desc.extractLsb' 0 20).toNat
    match descBar desc with
    | none => x.checkPerm s 9
    | some tb =>
      if len % 8 ≠ 0 then x.checkPerm s 9
      else
        let q := x.capture s .cpy d (x.w s (rn a)) (x.w s (rn b)) tb
        let q := { q with parts := len / 8 }
        let base := x.restartPart q
        let lo : Int := 8 * min base (q.parts - 1)
        let hi : Int := if len = 0 then 0 else max lo (len - 1)
        let q := { q with base := base, sent := base, reads := base, beats := (8 * (q.parts - base) + 63) / 64,
                          chained := x.overlap q lo hi lo hi, oneHome := s.oneBank q lo hi }
        x.copyChecks s q lo hi lo hi 8 (x.releasing s m (fun s => x.submitCopy s q) true)

/-- A dimension word (Table 9.3): extent, source stride, destination stride. -/
def dimOf (w : Word) : Nat × Int × Int :=
  ((w.extractLsb' 0 16).toNat + 1, (w.extractLsb' 16 24).toInt, (w.extractLsb' 40 24).toInt)

/-- The dimensions of a configuration, bound ones from the loop registers (R162). -/
def dimsOf (cfg : List Word) (lc : Map Word) : List (Nat × Int × Int) :=
  (List.range (fieldOf cfg 0 0 3 + 1)).map fun i =>
    let bind := fieldOf cfg 0 (8 + 4 * i) 4
    dimOf (if 8 ≤ bind then (lc.find (bind - 8)).getD 0 else wordOf cfg (1 + i))

/-- The number of elements. -/
def elementsOf (ds : List (Nat × Int × Int)) : Nat := ds.foldl (fun n d => n * d.1) 1

/-- The smallest and largest offset of a side, in elements, over the elements from one on: none when none is left (R192). -/
def spanFrom (f : Nat × Int × Int → Int) : List (Nat × Int × Int) → Nat → Option (Int × Int)
  | [], b => if b = 0 then some (0, 0) else none
  | d :: rest, b =>
    let last := ((d.1 : Int) - 1) * f d
    let row := sumStrides f rest (b / d.1)
    let first := ((b % d.1 : Nat) : Int) * f d
    let here := if b / d.1 < elementsOf rest then some (row + min first last, row + max first last) else none
    let more := (spanFrom f rest (b / d.1 + 1)).map fun r => (r.1 + min 0 last, r.2 + max 0 last)
    match here, more with
    | some x, some y => some (min x.1 y.1, max x.2 y.2)
    | some x, none => some x
    | none, y => y

/-- The beats of a tensor copy (R164). -/
def tensorBeats (ds : List (Nat × Int × Int)) (e : Nat) : Nat :=
  match ds with
  | [] => 0
  | d :: rest => elementsOf rest * ((d.1 * e + 63) / 64)

/-- Whether a configuration block is well-formed (R162). -/
def cfgOk (b : List Word) : Bool :=
  let rank := fieldOf b 0 0 3
  let bind (i : Nat) : Nat := fieldOf b 0 (8 + 4 * i) 4
  decide (fieldOf b 0 40 24 = 0) && decide (fieldOf b 0 6 2 = 0) && decide (fieldOf b 0 3 1 = 0) &&
  ((List.range 8).all fun i =>
    (bind i == 0 || decide (8 ≤ bind i)) &&
    (if decide (rank < i) then bind i == 0 && wordOf b (1 + i) == 0 else bind i == 0 || wordOf b (1 + i) == 0)) &&
  (List.range 7).all fun i => wordOf b (9 + i) == 0

/-- TCPY (R164). The beats of a re-issue are those of the bytes that remain, as one row, for R192 gives it no rows; with nothing left
the checks of R161 take the element at each base (DESIGN CHOICE, log 106). -/
def execTcpy (m : Mod) (d a b : Reg) (s : State) : Out :=
  issue (smallKind [d, a, b]) s fun s x =>
    let desc := x.w s (rn d)
    match descBar desc with
    | none => x.checkPerm s 9
    | some tb =>
      if desc.extractLsb' 0 20 ≠ 0 then x.checkPerm s 9
      else
        let slot := fmtTag x.th.fmt
        let cfg := (x.res.copyCfg.find slot).getD []
        let dims := dimsOf cfg x.res.copyLc
        let es := 2 ^ fieldOf cfg 0 4 2
        let q := x.capture s .tcpy d (x.w s (rn a)) (x.w s (rn b)) tb
        let q := { q with parts := elementsOf dims, esize := es, dims := dims, cfg := some slot }
        let base := x.restartPart q
        let ss := (spanFrom (fun d => d.2.1) dims base).getD (0, 0)
        let sd := (spanFrom (fun d => d.2.2) dims base).getD (0, 0)
        let slo := es * ss.1
        let shi := es * ss.2 + es - 1
        let dlo := es * sd.1
        let dhi := es * sd.2 + es - 1
        let q := { q with base := base, sent := base, reads := base, chained := x.overlap q slo shi dlo dhi, oneHome := s.oneBank q dlo dhi,
                          beats := if base = 0 then tensorBeats dims es else (es * (q.parts - base) + 63) / 64 }
        x.copyChecks s q slo shi dlo dhi es (x.releasing s m (fun s => x.submitCopy s q) true)

/-! ### Reads and writes of a command (R155, R160, R165) -/

/-- The request of a part. -/
def CopyCmd.req (q : CopyCmd) (i : Nat) (write : Bool) (op : MemOp) (p : Word) (since : Nat) : Req :=
  { tid := some q.tid, core := q.core, ctx := q.ctx, part := q.part, asid := q.asid, op := op, use := .copy q.id i write,
    ptr := p, epc := q.epc, npc := q.npc, since := since, mesh := q.kind == .gath }

/-- A part meets an event at the engine. -/
def State.partFails (s : State) (q : CopyCmd) (r : Req) (code : Nat) (info : Word) : State :=
  (s.addReq { r with stage := .stalled, event := some (code, info) }).2.after 0 7 (.engineFaultInFlight q.core q.id code info)

/-- Sends a request of a part; the operands of a write are the number of its parts. -/
def State.sendPart (s : State) (q : CopyCmd) (i k : Nat) (write : Bool) (op : MemOp) (p : Word) (since : Nat) : State :=
  s.ask { q.req i write op p since with args := [BitVec.ofNat 64 k] }

/-- The event of a gather's source pointer (R174): steps 4 to 6 of R161, met in flight. -/
def State.sourceEvent (s : State) (q : CopyCmd) (p : Word) : Option (Nat × Word) :=
  match sideRange p 0 7 with
  | some e => some (cPERM, BitVec.ofNat 64 e)
  | none =>
    if p.toNat % 8 ≠ 0 then some (cALIGN, p)
    else (s.spaceEvent q.core q.part p).map fun e => (cPERM, BitVec.ofNat 64 e)

/-- Reads the source of a part. -/
def State.readPart (s : State) (q : CopyCmd) (i since : Nat) : State :=
  let p := q.srcOf i
  match (if q.kind = .gath then s.sourceEvent q p else none) with
  | some (code, info) => s.partFails q (q.req i false (.load 8 false) p since) code info
  | none => s.sendPart q i 1 false (.load q.width false) p since

/-- Whether a part of a command is still in translation, or has met an event there: no part after it is sent (R192). Writes
leave in copy order, so that one waits for the key fill of another, too (R155). -/
def State.unsure (s : State) (id : Nat) (write : Bool) : Bool :=
  s.reqs.any fun e => e.2.engineCmd == some id && (match e.2.use with | .copy _ _ w => w == write | _ => true) &&
    (e.2.stage == .translating || e.2.stage == .logging || e.2.stage == .stalled || (write && e.2.stage == .keying))

/-- Sends the reads of a command in copy order, those of 64 bytes in each beat, as far as the translations before them are
known (R155, R192); `fuel` bounds their number. -/
def State.readParts (s : State) (core id : Nat) : Nat → State
  | 0 => s
  | fuel + 1 =>
    match s.copyCmd core id with
    | none => s
    | some q =>
      if q.limit ≤ q.reads ∨ q.stalled ∨ s.unsure id false then s
      else
        let i := q.reads
        let since := max s.cyc (q.start + (i - q.base) / max 1 (64 / q.width))
        ((s.upCopy core id fun q => { q with reads := i + 1 }).readPart q i since).readParts core id fuel

/-- Sends the write of a run of parts: of a whole word, or of an element (R159). -/
def State.writeParts (s : State) (q : CopyCmd) (first n : Nat) : State :=
  let p := q.dstOf first
  let whole := decide (q.width = 8) || decide (1 < n)
  let op : MemOp :=
    if q.width = 8 then .write [(q.got.find first).getD 0] true
    else if 1 < n then .write [q.groupWord q.got first n] true
    else .sub q.width ((q.got.find first).getD 0) true
  let s := s.upCopy q.core q.id fun q => { q with got := q.got.dropRange first n }
  s.sendPart q first n true op (if whole then BitVec.ofNat 64 (p.toNat / 8 * 8) else p) (s.cyc + 1)

/-- The first write that waits at its engine leaves, by its translation as it then stands (R123). -/
def State.sendLast (s : State) (q : CopyCmd) (first : Nat) (rest : List (Nat × Nat)) : State :=
  let s := s.upCopy q.core q.id fun q => { q with tail := rest }
  match s.reqs.find? fun e => e.2.use == .copy q.id first true && e.2.stage == .last with
  | some (m, _) => s.begin m
  | none => s

/-- Sends the writes whose turn has come, in copy order, up to the first part that met an event; those of the last
destination word wait for the acknowledgements of the others (R123, R155, R165). `fuel` bounds their number. -/
def State.pushWrites (s : State) (core id : Nat) : Nat → State
  | 0 => s
  | fuel + 1 =>
    match s.copyCmd core id with
    | none => s
    | some q =>
      let lim := q.limit
      if q.stalled ∨ s.unsure id true then s
      else if q.sent < lim then
        let g := q.group q.sent
        let n := if g.1 + g.2 ≤ lim then g.1 + g.2 - q.sent else 1
        if !((List.range n).all fun k => q.got.has (q.sent + k)) then s
        else
          let first := q.sent
          let q := { (if q.chained then q.settle q.got first n else q) with sent := first + n }
          ((s.upCopy core id fun _ => q).writeParts q first n).pushWrites core id fuel
      else match q.tail with
        | [] => s
        | (first, n) :: rest =>
          if lim ≤ first ∨ !({ q with tail := rest } : CopyCmd).othersDone n then s
          else (s.sendLast q first rest).pushWrites core id fuel

/-- As many writes of a command as there may be to send. -/
def State.pushAll (s : State) (core id : Nat) : State :=
  s.pushWrites core id (match s.copyCmd core id with | some q => q.got.length + 2 | none => 0)

/-- A part's value has been read (R155). -/
def State.copyGot (s : State) (core id i : Nat) (v : Word) : State :=
  (s.upCopy core id fun q => { q with got := q.got.put i v }).pushAll core id

/-- A write of `k` parts has been acknowledged: its bytes count, in the step ENGINE_WRITE_ACK of this cycle (R123). -/
def State.copyAcked (s : State) (core id i k : Nat) : State :=
  match s.copyCmd core id with
  | none => s
  | some q =>
    let l := (List.range k).map fun j => i + j
    let s := s.upCopy core id fun q => { q with acked := q.acked ++ l }
    let late : Bool := match q.met with | some (p, _, _) => decide (p < i) | none => false
    s.after 0 7 (.engineWriteAck core id (if late then 0 else q.width * l.length))

/-- A deferred trap of an engine's command: it is taken at once by a thread parked in TB.WAIT, and otherwise at the
next reporting instruction (R167, R173). -/
def State.deferTrap (s : State) (t : Tid) (d : Deferred) : State :=
  let s := s.defer t d
  match s.threadOf t with
  | some th => match th.status with
    | .parked _ (.tbar _ _ _) => s.reportDeferred t d
    | _ => s.poke t
  | none => s

/-- The origin of a command's events. -/
def CopyCmd.origin (q : CopyCmd) : Origin := if q.kind = .gath then .gather else .copy

/-- The source number of a command's records (Table 10.4). -/
def CopyCmd.source (q : CopyCmd) : Nat := if q.kind = .gath then 4 else 2

/-- LCW.cfg commands that wait for a slot go on when no command uses it (R163). -/
def stCfg : Nat := 10
def stCfgWait : Nat := 11

/-- Loads a configuration when no command uses its slot (args: slot; the block in ans). -/
def State.loadCfg (s : State) (r : Req) : State :=
  match r.tid with
  | none => s
  | some t =>
    let n := (r.args.getD 0 0).toNat
    let e := (s.core t.core).copy
    if !cfgOk r.ans then s.trap t.core t.slot cPERM 9 r.epc 0 false
    else if (e.queue ++ e.flight).any fun q => q.cfg == some n then
      let (m, s) := s.addReq { r with use := .stage stCfgWait, stage := .stalled }
      s.park t.core t.slot .queue (.reply m)
    else
      (s.upCore t.core fun x => { x with copy := { x.copy with cfg := x.copy.cfg.put n r.ans } }).resumeAt t.core t.slot r.npc

/-- LCW.cfg commands of a core try again. -/
def State.retryCfg (s : State) (c : Nat) : State :=
  s.reqs.foldl (fun s e =>
    if e.2.core = c ∧ e.2.use = .stage stCfgWait then (s.dropReq e.1).loadCfg e.2 else s) s

/-- Removes a command from its engine; what waited for that goes on, its thread on another core among it (R170, R178). -/
def State.dropCopy (s : State) (core id : Nat) : State :=
  let who := (s.copyCmd core id).map fun q => q.tid
  let s := s.upCore core fun x => { x with copy := { x.copy with flight := x.copy.flight.filter fun q => q.id != id } }
  let s := { s with clusters := s.clusters.adjust (clusterOf core) fun c => { c with gather := c.gather.filter fun q => q.id != id } }
  let s := ((s.kickCopy core).retryCfg core).pokeCore core
  let s := match who with
    | some t => if t.core = core then s else s.poke t
    | none => s
  if ((s.clusters.find (clusterOf core)).getD {}).wants.isEmpty then s else s.after 0 20 (.gatherRequestAccept (clusterOf core))

/-- A command that has met an event at a part ends or stalls when every part before it is done (R165 to R167). -/
def State.copyStops (s : State) (core id : Nat) : State :=
  match s.copyCmd core id with
  | none => s
  | some q =>
    match q.met with
    | none => s
    | some (p, code, info) =>
      if q.stalled ∨ (q.acked.filter fun i => decide (i < p)).length < p - q.base then s
      else
        let idx := q.restart p
        if isKernelEvent code then
          let s := s.upCopy core id fun q => { q with stalled := true }
          s.postRecord core { ctx := q.ctx, source := q.source, code := code, tid := Tid.word q.tid, resume := 0, info := info,
                              arg := restartVx idx, asid := q.asid, epc := q.epc, formed := 0 }
        else
          (s.dropCopy core id).deferTrap q.tid
            { origin := q.origin, code := code, info := info, epc := q.epc, vx := restartVx idx, issue := id }

/-- A command meets an event at a part: the first part in copy order counts, bytes behind it are taken back, and a write behind it
that waits at its engine is not made. -/
def State.copyMet (s : State) (core id part code : Nat) (info : Word) : State :=
  match s.copyCmd core id with
  | none => s
  | some q =>
    let earlier : Bool := match q.met with | some (p, _, _) => decide (p ≤ part) | none => false
    if earlier then s
    else
      let behind := q.acked.filter fun i => decide (part < i)
      let old := match q.met with | some (p, _, _) => behind.filter (fun i => decide (i ≤ p)) | none => behind
      let s := match q.tb with
        | some n => if old.isEmpty then s else s.uncount core n (q.width * old.length)
        | none => s
      let gone (r : Req) : Bool := r.stage == .last && (match r.use with | .copy k i _ => k == id && decide (part < i) | _ => false)
      let s := { s with reqs := s.reqs.filter fun e => !gone e.2 }
      ((s.upCopy core id fun q => { q with met := some (part, code, info) }).pushAll core id).copyStops core id

/-! ### The steps of an engine -/

/-- The reads of a command start (R155). -/
def State.startReads (s : State) (q : CopyCmd) : State :=
  (s.upCopy q.core q.id fun q => { q with start := s.cyc, reads := q.base }).readParts q.core q.id (q.parts - q.base + 1)

/-- COPY_COMMAND_START (R155): the head of the queue starts, its queue entry is granted, and its reads are sent. -/
def execCopyCommandStart (core : Nat) (s : State) : Out :=
  let e := (s.core core).copy
  match e.queue with
  | [] => .next s
  | q :: rest =>
    if 16 ≤ e.flight.length ∨ s.cyc < e.busy ∨ s.cyc < q.effect + 1 then .next s
    else
      let s := s.upCore core fun x =>
        { x with copy := { x.copy with queue := rest, flight := x.copy.flight ++ [q], busy := s.cyc + q.beats } }
      let s := if q.parts ≤ q.base then s.after 0 8 (.engineCommandComplete core q.id) else s.startReads q
      .next ((s.grantCopy core).kickCopy core)

/-- ENGINE_WRITE_ACK (R123, R155): bytes count against the barrier, the last word's write may be sent, and the command
may be complete; a release of the thread may go on (R122). -/
def execEngineWriteAck (core cmd bytes : Nat) (s : State) : Out :=
  match s.copyCmd core cmd with
  | none => .next s
  | some q =>
    let s := match q.tb with
      | some n => if bytes = 0 then s else s.countBytes core n bytes
      | none => s
    if q.met.isNone ∧ q.acked.length = q.parts - q.base then .next (s.after 0 8 (.engineCommandComplete core cmd))
    else .next (((s.pushAll core cmd).copyStops core cmd).poke q.tid)

/-- ENGINE_COMMAND_COMPLETE (R155): every destination word is performed and every byte counted. -/
def execEngineCommandComplete (core cmd : Nat) (s : State) : Out :=
  match s.copyCmd core cmd with
  | some q => if q.acked.length = q.parts - q.base ∧ !q.stalled then .next (s.dropCopy core cmd) else .next s
  | none => .next s

/-! ### Sequencer registers (R163) -/

/-- LCW.c (R163). -/
def execLcwC (n : BitVec 3) (a : Reg) (s : State) : Out :=
  issue (smallKind [a]) s fun s x =>
    let v := x.w s (rn a)
    x.done (s.upCore x.core fun y => { y with copy := { y.copy with lc := y.copy.lc.put n.toNat v } })

/-- LCW.v (R163). -/
def execLcwV (n : BitVec 3) (a : Reg) (s : State) : Out :=
  issue (smallKind [a]) s fun s x =>
    let v := x.w s (rn a)
    x.done (s.upCore x.core fun y => { y with vector := { y.vector with lc := y.vector.lc.put n.toNat v } })

/-- LCW.m (R163). -/
def execLcwM (n : BitVec 3) (a : Reg) (s : State) : Out :=
  issue (smallKind [a]) s fun s x =>
    let v := x.w s (rn a)
    x.done (s.upCore x.core fun y => { y with matrix := { y.matrix with lc := y.matrix.lc.put n.toNat v } })

/-- LCW.cfg (R163). -/
def execLcwCfg (n : BitVec 3) (a : Reg) (s : State) : Out :=
  issue (smallKind [a]) s fun s x =>
    x.readBlock s (x.w s (rn a)) 16 128 stCfg {} .mem none [BitVec.ofNat 64 n.toNat]

/-- LCR.c (R163). -/
def execLcrC (d : Reg) (n : BitVec 3) (s : State) : Out :=
  issueRet (smallKind [d]) s d fun s x => ((s.core x.core).copy.lc.find n.toNat).getD 0

/-- LCR.v (R163). -/
def execLcrV (d : Reg) (n : BitVec 3) (s : State) : Out :=
  issueRet (smallKind [d]) s d fun s x => ((s.core x.core).vector.lc.find n.toNat).getD 0

/-- LCR.m (R163). -/
def execLcrM (d : Reg) (n : BitVec 3) (s : State) : Out :=
  issueRet (smallKind [d]) s d fun s x => ((s.core x.core).matrix.lc.find n.toNat).getD 0

/-! ### EQRY and EFENCE (R169, R170) -/

/-- The copy and gather commands in flight of a thread, on whichever core (R178). -/
def State.copiesOf (s : State) (t : Tid) : List CopyCmd :=
  ((s.cores.flatMap fun e => e.2.copy.flight) ++ s.clusters.flatMap fun e => e.2.gather).filter fun q => q.tid == t

/-- The vector commands in flight of a thread, each with its core. -/
def State.vecsOf (s : State) (t : Tid) : List (Nat × VecCmd) :=
  s.cores.flatMap fun e => (e.2.vector.flight.filter fun q => q.tid == t).map fun q => (e.1, q)

/-- Whether a command of a thread is stalled (R166). -/
def State.stalledOf (s : State) (t : Tid) : Bool :=
  (s.copiesOf t).any (fun q => q.stalled) || (s.vecsOf t).any fun e => e.2.stalled

/-- EQRY's word. -/
def queryWord (queued flying : Nat) (stalled deferred : Bool) : Word :=
  BitVec.ofNat 64 (queued + 4 * flying + 128 * stalled.toNat + 256 * deferred.toNat)

/-- EQRY (R169): the occupancy is the engine's that W[a] names; the bits of a stalled command and of a deferred trap are the
thread's, whichever engine it is of (DEDUCED, log 88). -/
def execEqry (d a : Reg) (s : State) : Out :=
  issueRet (smallKind [d, a]) s d fun s x =>
    let y := s.core x.core
    let word (queued flying : Nat) : Word :=
      queryWord queued flying (s.stalledOf (x.tid s)) (x.th.deferred.any fun q => q.origin != .relaxed)
    match (x.w s (rn a)).toNat with
    | 0 => word y.copy.queue.length y.copy.flight.length
    | 1 => word y.vector.queue.length y.vector.flight.length
    | 2 => word y.matrix.queue.length y.matrix.flight.length
    | _ => BitVec.allOnes 64

/-- Whether a thread has a copy, gather or vector command that is not complete, on whichever core (R170, R178). -/
def State.commandsOf (s : State) (t : Tid) : Bool :=
  s.cores.any (fun e => (e.2.copy.queue ++ e.2.copy.flight).any (fun q => q.tid == t) || e.2.vecCmds.any fun q => q.tid == t) ||
  s.clusters.any fun e => e.2.gather.any fun q => q.tid == t

/-- EFENCE (R170): a deferred trap is reported as it issues, and again when every command is complete. -/
def execEfence (s : State) : Out :=
  issue (reporting []) s fun s x =>
    if s.commandsOf (x.tid s) then x.again s .mem else x.deliverDue s (reporting []) x.done

/-! ### WAITP (R168) -/

/-- The stage at which WAITP's check of its word has been answered. -/
def stProbe : Nat := 12

/-- WAITP's access to the word that it checks; the request keeps the effective address (R168). -/
def Cx.probeWord (x : Cx) (s : State) (p : Word) (acq : Option Scope) : Out :=
  let m : Mod := match acq with | some sc => { scope := sc, acquire := true } | none => {}
  x.access s p 0 { op := .probe, use := .stage stProbe, align := 8, mod := m, redir := .follows, args := [p] }

/-- WAITP (R168). -/
def execWaitp (m : Mod) (a b : Reg) (s : State) : Out :=
  issue (reporting [a, b]) s fun s x =>
    let t := (x.w s (rn a)).toNat
    let p := x.w s (rn b)
    if t ≤ s.cyc then x.probeWord s p (acqOf m)
    else
      let s := (s.park x.core x.slot .sleep (.promise p x.npc (acqOf m))).upThread x.core x.slot fun th =>
        { th with wakeAt := some t }
      .next (s.post t 20 (.waitpTimeReached (x.tid s)))

/-- WAITP_TIME_REACHED (R168): the check is sent. -/
def execWaitpTimeReached (t : Tid) (s : State) : Out :=
  match s.threadOf t with
  | some th => match th.status with
    | .parked _ (.promise p npc acq) =>
      if th.wakeAt ≠ some s.cyc then .next s
      else
        let x : Cx := { core := t.core, slot := t.slot, th := th, pc := th.pc, npc := npc, base := 0 }
        x.probeWord s p acq
    | _ => .next s
  | none => .next s

/-- WAITP's word has been checked (R168): a deferred trap first, then PROMISE, then the acquire effects and the next
instruction. -/
def State.probed (s : State) (r : Req) : State :=
  match r.tid with
  | none => s
  | some t =>
    match s.threadOf t with
    | none => s
    | some th =>
      match th.deferred.find? fun d => d.origin != .relaxed with
      | some d => s.reportDeferred t d
      | none =>
        if r.ans.getD 0 0 = 0 then s.trap t.core t.slot cPROMISE (r.args.getD 0 0) r.epc 0 false
        else (s.acquire t r.acq).resumeAt t.core t.slot r.npc

/-! ### GATH (R174) -/

/-- GATH (R174): the destination is checked, and the request goes to the cluster's gather engine. -/
def execGath (m : Mod) (d a b : Reg) (s : State) : Out :=
  issue (smallKind [d, a, b]) s fun s x =>
    let desc := x.w s (rn d)
    let len := (desc.extractLsb' 0 20).toNat
    let dst := x.w s (rn a)
    let own := spaceOf dst == 1 || (spaceOf dst == 2 && ptrCore dst == x.core)
    match descBar desc with
    | none => x.checkPerm s 9
    | some tb =>
      if len = 0 ∨ 4096 < len ∨ !own then x.checkPerm s 9
      else
        let q := x.capture s .gath d dst (x.w s (rn b)) tb
        let q := { q with parts := len }
        let base := x.restartPart q
        let q := { q with base := base, sent := base, reads := base, beats := (len - base + 7) / 8, chained := true,
                          list := List.replicate len 0 }
        let lo := 8 * min base (len - 1)
        let q := { q with oneHome := s.oneBank q lo (8 * len - 1) }
        match sideRange dst lo (8 * len - 1) with
        | some e => x.checkPerm s e
        | none =>
          if dst.toNat % 8 ≠ 0 then x.checkTrap s cALIGN dst
          else match s.sideSpace x.core x.th.part dst lo (8 * len - 1) with
            | some e => x.checkPerm s e
            | none =>
              let go (s : State) : Out :=
                let (n, s) := s.fresh
                let cl := clusterOf x.core
                let s := s.upCluster cl fun c => { c with wants := c.wants ++ [{ q with id := n, effect := s.cyc + 12 }] }
                .next ((x.queued s n).after 12 20 (.gatherRequestAccept cl))
              x.releasing s m go true

/-- The words of a list that one read brings, from an entry on: up to the end of a 64-byte line, so that the combining node sees
lines; one word where the strand may have a view of it (R175, R281; DEDUCED, log 46). -/
def CopyCmd.chunk (q : CopyCmd) (i : Nat) : Nat :=
  min (q.parts - i) (if q.strand.isSome then 1 else max 1 ((64 - (shiftPtr q.src (8 * i)).toNat % 64) / 8))

/-- Reads some words of a command's list; a bad pointer of the list is met here (DEDUCED, log 119). -/
def State.readLine (s : State) (q : CopyCmd) (i k since : Nat) : State :=
  let p := shiftPtr q.src (8 * i)
  let r : Req := { q.req i false (.block k) p since with use := .list q.id i }
  match s.sourceEvent q p with
  | some (code, info) => s.partFails q r code info
  | none => s.ask r

/-- Reads a command's list from an entry on, a line in each cycle; `fuel` bounds the number of reads. -/
def State.readList (s : State) (q : CopyCmd) (i since : Nat) : Nat → State
  | 0 => s
  | fuel + 1 =>
    if q.parts ≤ i then s
    else (s.readLine q i (q.chunk i) since).readList q (i + q.chunk i) (since + 1) fuel

/-- A list has been read, as far as it goes without an event. At first the promise is formed, and the thread returns 12 cyc later;
then the engine starts with the entries at hand (R165, R174). -/
def State.listDone (s : State) (q : CopyCmd) : State :=
  let start (s : State) : State :=
    if q.parts ≤ q.base then s.after 0 8 (.engineCommandComplete q.core q.id)
    else (s.startReads { q with reads := q.base }).copyStops q.core q.id
  let s := s.upCopy q.core q.id fun q => { q with known := q.limit, granted := true, tlb := [] }
  if q.granted then start s
  else
    let cl := clusterOf q.core
    let lsrc := (((q.list.take q.limit).drop q.base).map (s.placeFrom q.tlb q.core q.asid)).foldl max 0
    let (p, free) := s.promiseOf q ((s.clusters.find cl).getD {}).readFree [] q.beats lsrc
    let s := (s.upCopy q.core q.id fun q => { q with promise := p }).upCluster cl fun c => { c with readFree := free }
    let s := (s.setW q.core q.tid.slot q.dreg (BitVec.ofNat 64 p)).upThread q.core q.tid.slot fun t => { t with restart := none }
    start (s.resumeIn q.core q.tid.slot q.npc 12)

/-- When no word of a list is still to come, the engine goes on. -/
def State.listNext (s : State) (core id : Nat) : State :=
  match s.copyCmd core id with
  | none => s
  | some q =>
    if s.reqs.any fun e => match e.2.use with | .list k _ => k == id && !e.2.orphan | _ => false then s
    else s.listDone q

/-- Words of a list have been read. -/
def State.listGot (s : State) (core id i : Nat) (ws : List Word) : State :=
  let put (l : List Word) : List Word := ((List.range ws.length).zip ws).foldl (fun l e => l.set (i + e.1) e.2) l
  (s.upCopy core id fun q => { q with list := put q.list }).listNext core id

/-- A read of a list has met an event, at the entry that the event's information names, or at its first: the command meets it at
that entry (R165 to R167, R192), and the entries before it in the same line are read by themselves. -/
def State.listMet (s : State) (core id i : Nat) (p : Word) (code : Nat) (info : Word) : State :=
  match s.copyCmd core id with
  | none => s
  | some q =>
    let e := i + (if code = cPOISON then (info - p).toNat / 8 else 0)
    let s := if (match q.met with | some (k, _, _) => decide (k ≤ e) | none => false) then s
      else s.upCopy core id fun q => { q with met := some (e, code, info) }
    let s := if i < e then s.readLine q i (e - i) s.cyc else s
    s.listNext core id

/-- GATHER_REQUEST_ACCEPT (R174): the engine holds 8 requests; it accepts the next that has arrived and reads its
list. -/
def execGatherRequestAccept (cl : Nat) (s : State) : Out :=
  let c := (s.clusters.find cl).getD {}
  match c.wants.dropWhile fun q => !s.stillWaits q with
  | [] => .next (s.upCluster cl fun c => { c with wants := [] })
  | q :: rest =>
    if 8 ≤ c.gather.length ∨ s.cyc < q.effect then .next s
    else
      let s := s.upCluster cl fun c => { c with gather := c.gather ++ [q], wants := rest }
      .next ((s.readList q q.base s.cyc (q.parts + 1)).listNext q.core q.id)

/-! ### EMSG (R177) -/

/-- The stage at which a shared engine answers. -/
def stEmsg : Nat := 14

/-- A ticket's state word (R360). -/
def ticketWord (l : Links) (n : Nat) : Word :=
  match l.tickets.find n with
  | some t => BitVec.ofNat 64 (t.state + 256 * t.failed)
  | none => 5

/-- The time to a shared engine and back, for which the manual gives no number: as long as an acceptance by the gather engine of the
own cluster takes (R174), for the gather engine of any cluster, and as long as a word of the control window for the collective engine
(DESIGN CHOICE, log 107). -/
def engineTime (core : Nat) (coll : Bool) : Nat := if coll then latency core .control else 24

/-- Issues EMSG: W[a] names the engine (R177). -/
def issueEmsg (m : Mod) (d a b : Reg) (s : State) : Out :=
  issue (smallKind [d, a, b]) s fun s x =>
    let va := x.w s (rn a)
    let c := va.toNat % 2 ^ 18
    let kind := (va.extractLsb' 18 2).toNat
    let minus (n : Int) : Out := x.ret s d (BitVec.ofInt 64 n)
    if va.extractLsb' 20 44 != 0 || decide (1 < kind) || (kind == 0 && !isSmall c) || (kind == 1 && decide (c ≠ 0)) then minus (-1)
    else if kind = 0 ∧ s.ctxOf c ≠ x.ctx s then minus (-2)
    else
      x.releasing s m fun s =>
        let l := engineTime x.core (kind == 1)
        let r : Req := { tid := some (x.tid s), core := x.core, ctx := x.ctx s, part := x.th.part, op := .unit,
                         use := .stage stEmsg, args := [BitVec.ofNat 64 (rn d), va, x.w s (rn b)], lat := l, epc := x.pc, npc := x.npc }
        let (n, s) := s.addReq r
        .next ((s.park x.core x.slot .mem (.reply n)).after (half l) 12 (.bankRequestArrival n))

/-- EMSG QUERY to the gather engine (R177). -/
def execEmsgGatherQuery (m : Mod) (d a b : Reg) (s : State) : Out := issueEmsg m d a b s

/-- EMSG QUERY to the collective engine (R177). -/
def execEmsgCollectiveQuery (m : Mod) (d a b : Reg) (s : State) : Out := issueEmsg m d a b s

/-- EMSG ABORT to the collective engine (R177, R360). -/
def execEmsgAbort (m : Mod) (d a b : Reg) (s : State) : Out := issueEmsg m d a b s

/-- A shared engine answers an EMSG (R177, R360): the query of a gather engine counts the requests that it holds and those that have
reached it and still wait, and takes back its count of merged reads. ABORT of another context's ticket answers −3 (DESIGN CHOICE, log
107). -/
def State.emsgArrives (s : State) (n : Nat) (r : Req) : State :=
  let va := r.args.getD 1 0
  let vb := r.args.getD 2 0
  let op := vb.toNat % 256
  let arg := vb.toNat / 256
  if (va.extractLsb' 18 2).toNat = 0 then
    let cl := clusterOf (va.toNat % 2 ^ 18)
    let c := (s.clusters.find cl).getD {}
    if op = 1 then
      (s.upCluster cl fun c => { c with merged := 0 }).reply n [BitVec.ofNat 64 (c.gather.length + (c.wants.filter fun q => decide (q.effect ≤ s.cyc) && s.stillWaits q).length + 65536 * c.merged)]
    else s.reply n [BitVec.ofInt 64 (-4)]
  else if op = 1 then s.reply n [ticketWord s.links arg]
  else if op = 2 then
    match s.links.tickets.find arg with
    | some t =>
      if t.state ≠ 0 then s.reply n [BitVec.ofInt 64 (-3)]
      else if t.ctx ≠ r.ctx then s.reply n [BitVec.ofInt 64 (-3)]
      else
        ((s.upLinks fun l => { l with tickets := l.tickets.adjust arg fun t => { t with state := 4, parts := [] } }).emit
          (.abort arg)).reply n [0]
    | none => s.reply n [BitVec.ofInt 64 (-3)]
  else s.reply n [BitVec.ofInt 64 (-4)]

end Sys2Proof.Machine
end

