-- ==== Sys2Proof/Machine/Numbers.lean ====
section
/-! DEFINITION. Numbers: the floating-point formats and their exact values, rounding, arithmetic, conversions, special
functions, the matrix engine's sums and the modular reduction (R203 to R225, R239). Values are exact: a rounding is
taken once, from a sign, a magnitude and a power of two. -/

namespace Sys2Proof.Machine

/-! ### Formats (R203 to R208) -/

/-- A floating-point format: its width, mantissa bits and bias, the code of its largest finite magnitude, the code of
infinity if it has one, the code of its canonical NaN, and whether a NaN converted to it saturates (R220). -/
structure Fmt where
  width  : Nat
  mant   : Nat
  bias   : Nat
  big    : Nat
  inf    : Option Nat
  nan    : Nat
  nanSat : Bool := false
  deriving DecidableEq, Repr

/-- FP32 (R204, R205). -/
def fp32 : Fmt := { width := 32, mant := 23, bias := 127, big := 0x7F7FFFFF, inf := some 0x7F800000, nan := 0x7FC00000 }

/-- BF16 (R204, R205). -/
def bf16 : Fmt := { width := 16, mant := 7, bias := 127, big := 0x7F7F, inf := some 0x7F80, nan := 0x7FC0 }

/-- FP8 E4M3 (R206). -/
def e4m3 : Fmt := { width := 8, mant := 3, bias := 7, big := 0x7E, inf := none, nan := 0x7F }

/-- FP8 E5M2 (R205, R206). -/
def e5m2 : Fmt := { width := 8, mant := 2, bias := 15, big := 0x7B, inf := some 0x7C, nan := 0x7E }

/-- FP4 E2M1 (R207); a NaN becomes +0 (R220). -/
def fp4 : Fmt := { width := 4, mant := 1, bias := 1, big := 7, inf := none, nan := 0, nanSat := true }

/-- An exact value: NaN, an infinity, or a sign with `m × 2^e`. -/
inductive Fp where
  | nan
  | inf (neg : Bool)
  | fin (neg : Bool) (m : Nat) (e : Int)
  deriving DecidableEq, Repr

/-- The value of a code. -/
def Fmt.value (f : Fmt) (code : Nat) : Fp :=
  let neg := code.testBit (f.width - 1)
  let c := code % 2 ^ (f.width - 1)
  if f.big < c then (if f.inf = some c then .inf neg else .nan)
  else
    let lo : Int := 1 - f.bias - f.mant
    let x := c / 2 ^ f.mant
    if x = 0 then .fin neg c lo else .fin neg (2 ^ f.mant + c % 2 ^ f.mant) (lo + (x - 1))

/-- The value of a block scale, E3M5 (R208). -/
def blockScale (c : Nat) : Fp :=
  let m := c % 32
  let e := c / 32 % 8
  if c % 256 = 255 then .nan else if e = 0 then .fin false m (-7) else .fin false (32 + m) ((e : Int) - 8)

/-! ### Rounding (R215) -/

/-- A magnitude shifted right and rounded to an integer in a mode: 0 RNE, 1 RTZ, 2 RUP, 3 RDN. -/
def roundShift (rm : Nat) (neg : Bool) (m sh : Nat) : Nat :=
  let q := m / 2 ^ sh
  let rem := m % 2 ^ sh
  let up : Bool :=
    if rm = 0 then decide (2 ^ sh < 2 * rem) || (decide (2 * rem = 2 ^ sh) && decide (q % 2 = 1))
    else if rm = 2 then !neg && decide (0 < rem)
    else if rm = 3 then neg && decide (0 < rem)
    else false
  q + up.toNat

/-- The code of a format for a nonzero magnitude, rounded in a mode, and whether it saturated: overflow delivers what
Table 12.7 gives, or the largest value in a format without infinities (R220). -/
def Fmt.roundMag (f : Fmt) (rm : Nat) (neg : Bool) (m : Nat) (e : Int) : Nat × Bool :=
  let lo : Int := 1 - f.bias - f.mant
  let q : Int := max ((m.log2 : Int) + e - f.mant) lo
  let n := if q ≤ e then m * 2 ^ (e - q).toNat else roundShift rm neg m (q - e).toNat
  let c := (q - lo).toNat * 2 ^ f.mant + n
  if c ≤ f.big then (c, false)
  else
    match f.inf with
    | none => (f.big, true)
    | some i => (if rm = 0 ∨ (rm = 2 ∧ !neg) ∨ (rm = 3 ∧ neg) then i else f.big, false)

/-- A code with a sign. -/
def Fmt.signed (f : Fmt) (neg : Bool) (c : Nat) : Nat := if neg then 2 ^ (f.width - 1) + c else c

/-- The code of a value rounded in a mode, and whether the conversion saturates (R215, R220). -/
def Fmt.code (f : Fmt) (rm : Nat) (x : Fp) : Nat × Bool :=
  match x with
  | .nan => (f.nan, f.nanSat)
  | .inf neg => match f.inf with
    | some i => (f.signed neg i, false)
    | none => (f.signed neg f.big, true)
  | .fin neg 0 _ => (f.signed neg 0, false)
  | .fin neg m e => let r := f.roundMag rm neg m e; (f.signed neg r.1, r.2)

/-! ### Exact arithmetic (R216, R217) -/

/-- The integer that a finite value is at a scale not above its own. -/
def scaled (neg : Bool) (m : Nat) (e lo : Int) : Int :=
  let n : Int := m * 2 ^ (e - lo).toNat
  if neg then -n else n

/-- The exact sum; the sign of a zero sum follows the mode (R216). -/
def Fp.add (rm : Nat) (x y : Fp) : Fp :=
  match x, y with
  | .nan, _ => .nan
  | _, .nan => .nan
  | .inf a, .inf b => if a = b then .inf a else .nan
  | .inf a, _ => .inf a
  | _, .inf b => .inf b
  | .fin a m d, .fin b n e =>
    if m = 0 ∧ n = 0 then .fin (if a = b then a else rm == 3) 0 0
    else
      let lo := min d e
      let s := scaled a m d lo + scaled b n e lo
      if s = 0 then .fin (rm == 3) 0 0 else .fin (decide (s < 0)) s.natAbs lo

/-- The exact product (R216, R217). -/
def Fp.mul (x y : Fp) : Fp :=
  match x, y with
  | .nan, _ => .nan
  | _, .nan => .nan
  | .inf a, .inf b => .inf (a != b)
  | .inf a, .fin b n _ => if n = 0 then .nan else .inf (a != b)
  | .fin a m _, .inf b => if m = 0 then .nan else .inf (a != b)
  | .fin a m d, .fin b n e => .fin (a != b) (m * n) (d + e)

/-- The value with the other sign. -/
def Fp.neg (x : Fp) : Fp :=
  match x with
  | .nan => .nan
  | .inf a => .inf (!a)
  | .fin a m e => .fin (!a) m e

/-- Whether one value is less than another; false with a NaN. -/
def Fp.lt (x y : Fp) : Bool :=
  match x, y with
  | .nan, _ => false
  | _, .nan => false
  | .inf a, .inf b => a && !b
  | .inf a, .fin _ _ _ => a
  | .fin _ _ _, .inf b => !b
  | .fin a m d, .fin b n e => let lo := min d e; decide (scaled a m d lo < scaled b n e lo)

/-- Whether two values are equal; false with a NaN, and −0 equals +0. -/
def Fp.eq (x y : Fp) : Bool :=
  match x, y with
  | .inf a, .inf b => a == b
  | .fin a m d, .fin b n e => let lo := min d e; decide (scaled a m d lo = scaled b n e lo)
  | _, _ => false

/-- Whether a value's sign is set. -/
def Fp.isNeg (x : Fp) : Bool :=
  match x with
  | .nan => false
  | .inf a => a
  | .fin a _ _ => a

/-- Whether a value is NaN. -/
def Fp.isNan (x : Fp) : Bool := match x with | .nan => true | _ => false

/-- x before y in the order of VMIN and VMAX, with −0 below +0 (R217). -/
def Fp.before (x y : Fp) : Bool := x.lt y || (x.eq y && x.isNeg)

/-! ### Lane operations (R217) -/

/-- Addition with one rounding. -/
def Fmt.add (f : Fmt) (rm x y : Nat) : Nat := (f.code rm ((f.value x).add rm (f.value y))).1

/-- Subtraction with one rounding. -/
def Fmt.sub (f : Fmt) (rm x y : Nat) : Nat := (f.code rm ((f.value x).add rm (f.value y).neg)).1

/-- Multiplication with one rounding. -/
def Fmt.mul (f : Fmt) (rm x y : Nat) : Nat := (f.code rm ((f.value x).mul (f.value y))).1

/-- Fused multiply-add: one rounding. -/
def Fmt.fma (f : Fmt) (rm x y z : Nat) : Nat := (f.code rm (((f.value x).mul (f.value y)).add rm (f.value z))).1

/-- The smaller, or the canonical NaN. -/
def Fmt.min (f : Fmt) (x y : Nat) : Nat :=
  if (f.value x).isNan || (f.value y).isNan then f.nan else if (f.value x).before (f.value y) then x else y

/-- The larger, or the canonical NaN. -/
def Fmt.max (f : Fmt) (x y : Nat) : Nat :=
  if (f.value x).isNan || (f.value y).isNan then f.nan else if (f.value x).before (f.value y) then y else x

/-- The sign cleared. -/
def Fmt.abs (f : Fmt) (x : Nat) : Nat := x % 2 ^ (f.width - 1)

/-- The sign flipped. -/
def Fmt.flip (f : Fmt) (x : Nat) : Nat := x ^^^ 2 ^ (f.width - 1)

/-! ### Special functions (R218) -/

/-- Rounds a value of which a lower approximation `m × 2^e` is known, not exact: the bits that are missing lie below
every place where a rounding decides. -/
def Fmt.codeAbove (f : Fmt) (rm : Nat) (neg : Bool) (m : Nat) (e : Int) (exact : Bool) : Nat :=
  (f.code rm (.fin neg (4 * m + (!exact).toNat) (e - 2))).1

/-- 1/x, correctly rounded. -/
def Fmt.rcp (f : Fmt) (rm x : Nat) : Nat :=
  match f.value x with
  | .nan => f.nan
  | .inf a => f.signed a 0
  | .fin a 0 _ => (f.code rm (.inf a)).1
  | .fin a m e => f.codeAbove rm a (2 ^ 64 / m) (-64 - e) (2 ^ 64 % m == 0)

/-- The integer square root, found from its highest bit: `b` bits of it. -/
def isqrt (n : Nat) : Nat → Nat → Nat
  | 0, r => r
  | b + 1, r => isqrt n b (if (r + 2 ^ b) * (r + 2 ^ b) ≤ n then r + 2 ^ b else r)

/-- 1/√x, correctly rounded. -/
def Fmt.rsq (f : Fmt) (rm x : Nat) : Nat :=
  match f.value x with
  | .nan => f.nan
  | .inf a => if a then f.nan else 0
  | .fin a 0 _ => (f.code rm (.inf a)).1
  | .fin a m e =>
    if a then f.nan
    else
      let m' := if e % 2 = 0 then m else 2 * m
      let e' := if e % 2 = 0 then e else e - 1
      let q := isqrt (2 ^ 128 / m') 65 0
      f.codeAbove rm false q (-64 - e' / 2) (q * q * m' == 2 ^ 128)

/-- ln 2 in units of 2^-320, from below: the sum of 1/(k 2^k). -/
def ln2 : Nat := (List.range 340).foldl (fun s k => s + 2 ^ 320 / ((k + 1) * 2 ^ (k + 1))) 0

/-- e^y for y in [0, 1), both in units of 2^-320, from below: `n` more terms of the series, from term number `k`. -/
def expSeries (y : Nat) : Nat → Nat → Nat → Nat
  | 0, _, _ => 0
  | n + 1, k, t => t + expSeries y n (k + 1) (t * y / 2 ^ 320 / (k + 1))

/-- 2^x, correctly rounded. The series' error lies below 2^-300; 2^x is irrational unless x is an integer, and the
approximation is kept to 2^-100 (log 14). -/
def Fmt.exp2 (f : Fmt) (rm x : Nat) : Nat :=
  match f.value x with
  | .nan => f.nan
  | .inf a => if a then 0 else (f.code rm (.inf false)).1
  | .fin _ 0 _ => (f.code rm (.fin false 1 0)).1
  | .fin a m e =>
    let s := scaled a m e (-160)
    let n := s / 2 ^ 160
    let r := (s % 2 ^ 160).toNat
    if 200 ≤ n then (f.code rm (.fin false 1 200)).1
    else if n < -300 then (f.code rm (.fin false 1 (-300))).1
    else if r = 0 then (f.code rm (.fin false 1 n)).1
    else f.codeAbove rm false (expSeries (r * ln2 / 2 ^ 160) 80 0 (2 ^ 320) / 2 ^ 220) (n - 100) false

/-! ### Integers (R221) -/

/-- A number clamped to signed `w` bits, and whether that changed it. -/
def clampInt (w : Nat) (n : Int) : Int × Bool :=
  let top : Int := 2 ^ (w - 1)
  if n < -top then (-top, true) else if top ≤ n then (top - 1, true) else (n, false)

/-- The bits of a signed number. -/
def bitsOf (w : Nat) (n : Int) : Nat := (n % 2 ^ w).toNat

/-- The signed number of some bits. -/
def signedOf (w n : Nat) : Int := if n % 2 ^ w < 2 ^ (w - 1) then (n % 2 ^ w : Nat) else (n % 2 ^ w : Nat) - 2 ^ w

/-- A value converted to a signed integer of `w` bits in a mode, and whether it saturated (R221). -/
def toIntBits (rm w : Nat) (x : Fp) : Nat × Bool :=
  match x with
  | .nan => (0, true)
  | .inf a => (bitsOf w (if a then -(2 ^ (w - 1)) else 2 ^ (w - 1) - 1), true)
  | .fin a m e =>
    let n := if 0 ≤ e then m * 2 ^ e.toNat else roundShift rm a m (-e).toNat
    let c := clampInt w (if a then -(n : Int) else n)
    (bitsOf w c.1, c.2)

/-- The exact value of a signed integer. -/
def ofIntBits (w n : Nat) : Fp := let i := signedOf w n; .fin (decide (i < 0)) i.natAbs 0

/-- An integer narrowed with saturation. -/
def narrowInt (w w' n : Nat) : Nat × Bool := let c := clampInt w' (signedOf w n); (bitsOf w' c.1, c.2)

/-! ### Conversions (R220, R221) -/

/-- A conversion between floating-point formats. -/
def convertFp (rm : Nat) (f g : Fmt) (x : Nat) : Nat × Bool := g.code rm (f.value x)

/-- A conversion of VCVT: the widths of source and destination, the number of elements and the conversion of one
element (Table 14.5). -/
structure Cvt where
  src : Nat
  dst : Nat
  n   : Nat
  f   : Nat → Nat × Bool

/-- The conversion of a VCVT selector in a mode (Table 14.5). -/
def cvtOf (rm sel : Nat) : Cvt :=
  match sel with
  | 0 => { src := 32, dst := 16, n := 16, f := convertFp rm fp32 bf16 }
  | 1 => { src := 16, dst := 32, n := 16, f := convertFp rm bf16 fp32 }
  | 2 => { src := 32, dst := 8, n := 16, f := convertFp rm fp32 e4m3 }
  | 3 => { src := 32, dst := 8, n := 16, f := convertFp rm fp32 e5m2 }
  | 4 => { src := 32, dst := 4, n := 16, f := convertFp rm fp32 fp4 }
  | 5 => { src := 8, dst := 32, n := 16, f := convertFp rm e4m3 fp32 }
  | 6 => { src := 8, dst := 32, n := 16, f := convertFp rm e5m2 fp32 }
  | 7 => { src := 4, dst := 32, n := 16, f := convertFp rm fp4 fp32 }
  | 8 => { src := 32, dst := 32, n := 16, f := fun x => toIntBits rm 32 (fp32.value x) }
  | 9 => { src := 32, dst := 32, n := 16, f := fun x => fp32.code rm (ofIntBits 32 x) }
  | 10 => { src := 32, dst := 8, n := 16, f := fun x => toIntBits rm 8 (fp32.value x) }
  | 11 => { src := 8, dst := 32, n := 16, f := fun x => fp32.code rm (ofIntBits 8 x) }
  | 12 => { src := 64, dst := 32, n := 8, f := narrowInt 64 32 }
  | 13 => { src := 32, dst := 64, n := 8, f := fun x => (bitsOf 64 (signedOf 32 x), false) }
  | 14 => { src := 64, dst := 32, n := 8, f := fun x => fp32.code rm (ofIntBits 64 x) }
  | _ => { src := 32, dst := 64, n := 8, f := fun x => toIntBits rm 64 (fp32.value x) }

/-! ### Lanes of a register (R247) -/

/-- The elements of some bits, lowest first: `n` of them, `w` bits each. -/
def elementsIn (w : Nat) (v : Nat) : Nat → List Nat
  | 0 => []
  | n + 1 => v % 2 ^ w :: elementsIn w (v / 2 ^ w) n

/-- The bits of a list of elements, lowest first. -/
def packed (w : Nat) : List Nat → Nat
  | [] => 0
  | x :: rest => x % 2 ^ w + 2 ^ w * packed w rest

/-- One level of the pairwise tree (R219). -/
def pairUp (op : Nat → Nat → Nat) : List Nat → List Nat
  | x :: y :: rest => op x y :: pairUp op rest
  | l => l

/-- The pairwise tree over a list whose length is a power of two up to 32 (R219). -/
def treeOf (op : Nat → Nat → Nat) (l : List Nat) : Nat :=
  (pairUp op (pairUp op (pairUp op (pairUp op (pairUp op l))))).headD 0

/-! ### Modular arithmetic (R211, R239) -/

/-- The reduction of R239, for x below 2^128. -/
def barrett (q mu x : Nat) : Nat :=
  let t := x * mu / 2 ^ 128
  let r := x - t * q
  let r := if q ≤ r then r - q else r
  if q ≤ r then r - q else r

/-- The constant of R239. -/
def muOf (q : Nat) : Nat := 2 ^ 128 / q

/-- A word modulo q. -/
def reduce (q x : Nat) : Nat := barrett q (muOf q) x

/-- A modular sum, difference and product of words (R257). -/
def addMod (q x y : Nat) : Nat := reduce q (reduce q x + reduce q y)
def subMod (q x y : Nat) : Nat := reduce q (reduce q x + (q - reduce q y))
def mulMod (q x y : Nat) : Nat := reduce q (reduce q x * reduce q y)

/-- A power of a word. -/
def powMod (q x : Nat) : Nat → Nat
  | 0 => reduce q 1
  | n + 1 => mulMod q (powMod q x n) x

/-! ### Sums of the matrix engine (R223, R224) -/

/-- The exact sum of a list of products (R224): the first term begins it. -/
def exactSum : List Fp → Fp
  | [] => .fin false 0 0
  | p :: rest => rest.foldl (fun s x => s.add 0 x) p

/-- One group of eight products added to an FP32 accumulator, with one rounding to nearest even (R223, R224). -/
def groupStep (acc : Nat) (ps : List Fp) (scales : List Fp) : Nat :=
  (fp32.code 0 ((fp32.value acc).add 0 (scales.foldl Fp.mul (exactSum ps)))).1

/-- One group of eight INT8 products added to an INT32 accumulator, with a clamp; whether it clamped (R224). -/
def groupStepInt (acc : Nat) (ps : List Int) : Nat × Bool :=
  let c := clampInt 32 (signedOf 32 acc + ps.foldl (· + ·) 0)
  (bitsOf 32 c.1, c.2)

end Sys2Proof.Machine
end

