-- ==== Sys2Proof/Machine/Vector.lean ====
section
/-! DEFINITION. The vector engine: its commands, their results, their memory lanes, and the steps of the engine
(R194, R217 to R219, R247 to R263). -/

namespace Sys2Proof.Machine

/-! ### Results (R248, R253 to R259) -/

/-- Element `j` of `w` bits of a register's bits. -/
def elemOf (w v j : Nat) : Nat := v / 2 ^ (w * j) % 2 ^ w

/-- A command's view of its registers and operands as it starts: the bits of V[d], V[a] and V[b]. -/
structure VIn where
  d   : Nat
  a   : Nat
  b   : Nat
  ws  : List Word
  act : Nat → Bool
  all : Bool
  rm  : Nat
  q   : Nat

/-- What a command writes: the bits of V[d] and of V[a], if it writes them, its scalar, and whether it saturated. -/
structure VOut where
  d   : Option Nat := none
  a   : Option Nat := none
  w   : Word := 0
  sat : Bool := false

/-- Lane by lane: an inactive lane keeps its old value (R248). -/
def VIn.map (x : VIn) (w : Nat) (f : Nat → Nat → Nat → Nat) (old : Nat) : Nat :=
  packed w ((List.range (512 / w)).map fun j =>
    if x.act j then f (elemOf w x.a j) (elemOf w x.b j) (elemOf w x.d j) else elemOf w old j)

/-- The format of floating-point lanes. -/
def laneFmt (half : Bool) : Fmt := if half then bf16 else fp32

/-- A lane-wise floating-point operation on x, y and z (Table 14.2). -/
def FOp.apply (op : FOp) (f : Fmt) (rm x y z : Nat) : Nat :=
  match op with
  | .add => f.add rm x y
  | .sub => f.sub rm x y
  | .mul => f.mul rm x y
  | .fma => f.fma rm x y z
  | .min => f.min x y
  | .max => f.max x y
  | .abs => f.abs x
  | .neg => f.flip x

/-- A lane-wise integer operation (Table 14.2). -/
def IOp.apply (op : IOp) (x y : Nat) : Nat :=
  let a : Word := BitVec.ofNat 64 x
  let b : Word := BitVec.ofNat 64 y
  (match op with
    | .add => a + b
    | .sub => a - b
    | .mul => a * b
    | .shl => a <<< (y % 64)
    | .shr => a >>> (y % 64)
    | .and => a &&& b
    | .or => a ||| b
    | .xor => a ^^^ b).toNat

/-- A comparison of two lanes (R217). -/
def Rel.holds (r : Rel) (x y : Fp) : Bool :=
  match r with
  | .eq => x.eq y
  | .lt => x.lt y
  | .le => x.lt y || x.eq y

/-- The mask of the lanes that hold, inactive lanes 0 (R248, R254). -/
def VIn.compare (x : VIn) (r : Rel) (half : Bool) : Word :=
  let f := laneFmt half
  let bits := (List.range (512 / f.width)).map fun j =>
    if x.act j && r.holds (f.value (elemOf f.width x.a j)) (f.value (elemOf f.width x.b j)) then 1 else 0
  BitVec.ofNat 64 (packed 1 bits + if half then 2 ^ 63 else 0)

/-- One step of a reduction (R219). -/
def Red.step (r : Red) (rm x y : Nat) : Nat :=
  match r with
  | .sum => fp32.add rm x y
  | .max => fp32.max x y
  | .min => fp32.min x y

/-- The identity of a reduction (R219). -/
def Red.identity (r : Red) : Nat :=
  match r with
  | .sum => 0x80000000
  | .max => 0xFF800000
  | .min => 0x7F800000

/-- A reduction: lane 0 holds the result, every other byte is zero (R219, R255). -/
def VIn.reduce (x : VIn) (r : Red) (half : Bool) : Nat :=
  let f := laneFmt half
  let lane (j : Nat) : Nat :=
    if x.act j then (let e := elemOf f.width x.a j; if half then e * 65536 else e) else r.identity
  let v := treeOf (r.step x.rm) ((List.range (512 / f.width)).map lane)
  if half then (convertFp x.rm fp32 bf16 v).1 else v

/-- A conversion (R259): the results packed from byte 0; unmasked, every byte above them becomes zero. -/
def VIn.convert (x : VIn) (sel : Nat) : VOut :=
  let c := cvtOf x.rm sel
  let rs := (List.range c.n).map fun j => (j, c.f (elemOf c.src x.a j))
  let low := packed c.dst (rs.map fun r => if x.act r.1 then r.2.1 else elemOf c.dst x.d r.1)
  let high := if x.all then 0 else x.d / 2 ^ (c.dst * c.n) * 2 ^ (c.dst * c.n)
  { d := some (low + high), sat := rs.any fun r => x.act r.1 && r.2.2 }

/-- A selection under a scalar mask, of 32-bit or 16-bit elements (Table 14.4). -/
def VIn.select (x : VIn) (k : Word) : Nat :=
  let w := if k.getLsbD 63 then 16 else 32
  packed w ((List.range (512 / w)).map fun j => if k.getLsbD j then elemOf w x.a j else elemOf w x.d j)

/-- A permutation of 32-bit elements (Table 14.4). -/
def VIn.shuffle (x : VIn) : Nat :=
  packed 32 ((List.range 16).map fun j => elemOf 32 x.a (elemOf 32 x.b j % 16))

/-- The result of an arithmetic or move command. -/
def VIn.run (x : VIn) (op : VOp) : VOut :=
  let w0 := (x.ws.getD 0 0).toNat
  let w1 := (x.ws.getD 1 0).toNat
  match op with
  | .float op half => { d := some (x.map (laneFmt half).width (op.apply (laneFmt half) x.rm) x.d) }
  | .cmp r half => { w := x.compare r half }
  | .red r half => { d := some (x.reduce r half) }
  | .int op => { d := some (x.map 64 (fun a b _ => op.apply a b) x.d) }
  | .maddm => { d := some (x.map 64 (fun a b _ => addMod x.q a b) x.d) }
  | .msubm => { d := some (x.map 64 (fun a b _ => subMod x.q a b) x.d) }
  | .mmulm => { d := some (x.map 64 (fun a b _ => mulMod x.q a b) x.d) }
  | .bflyCt => { d := some (x.map 64 (fun a b z => addMod x.q z (mulMod x.q b a)) x.d)
                 a := some (x.map 64 (fun a b z => subMod x.q z (mulMod x.q b a)) x.a) }
  | .bflyGs => { d := some (x.map 64 (fun a _ z => addMod x.q z a) x.d)
                 a := some (x.map 64 (fun a b z => mulMod x.q (subMod x.q z a) b) x.a) }
  | .twid => { d := some (packed 64 ((List.range 8).map fun j =>
                 if x.act j then mulMod x.q w0 (powMod x.q w1 j) else elemOf 64 x.d j)) }
  | .sel => { d := some (x.select (x.ws.getD 0 0)) }
  | .cvt c => x.convert c
  | .exp2 => { d := some (x.map 32 (fun a _ _ => fp32.exp2 x.rm a) x.d) }
  | .rcp => { d := some (x.map 32 (fun a _ _ => fp32.rcp x.rm a) x.d) }
  | .rsq => { d := some (x.map 32 (fun a _ _ => fp32.rsq x.rm a) x.d) }
  | .shuf => { d := some x.shuffle }
  | .bcast | .movvAll => { d := some (x.map 64 (fun _ _ _ => w0) x.d) }
  | .movx i => { w := BitVec.ofNat 64 (elemOf 64 x.a i) }
  | .movv i => { d := some (packed 64 ((List.range 8).map fun j => if j = i then w0 else elemOf 64 x.d j)) }
  | .ld | .st | .gth | .sct => {}

/-! ### Units and times (R249, Table 14.1) -/

/-- A command's unit, the cycles for which it occupies it, and the cycle of its result after its start. -/
def VOp.timing (op : VOp) : Nat × Nat × Nat :=
  match op with
  | .red _ _ => (1, 1, 9)
  | .mmulm | .bflyCt | .bflyGs => (2, 4, 8)
  | .twid => (3, 12, 16)
  | .exp2 | .rcp | .rsq => (4, 4, 12)
  | .ld | .st => (5, 1, 0)
  | .gth | .sct => (5, 8, 0)
  | _ => (0, 1, 5)

/-! ### Finding commands -/

/-- A command of a vector engine in flight. -/
def State.vecCmd (s : State) (core id : Nat) : Option VecCmd := (s.core core).vector.flight.find? fun q => q.id == id

/-- Changes a command. -/
def State.upVec (s : State) (core id : Nat) (f : VecCmd → VecCmd) : State :=
  s.upCore core fun x =>
    { x with vector := { x.vector with flight := x.vector.flight.map fun q => if q.id = id then f q else q } }

/-- A start of the engine's commands is looked for in this cycle. -/
def State.kickVec (s : State) (core : Nat) : State := s.after 0 8 (.vectorCommandStart core)

/-- Removes a command; what waited for it goes on (R129, R130, R263). -/
def State.dropVec (s : State) (core id : Nat) : State :=
  let who := (s.vecCmd core id).map fun q => q.tid
  let s := ((s.upCore core fun x =>
    { x with vector := { x.vector with flight := x.vector.flight.filter fun q => q.id != id } }).kickVec core).pokeCore core
  (match who with
    | some t => if t.core = core then s else s.poke t
    | none => s).accessDone id

/-! ### Memory lanes (R192, R193, R260 to R263) -/

/-- Whether a lane is active under a mask (R248). -/
def activeLane (mask : Option Word) (j : Nat) : Bool := match mask with | some k => k.getLsbD j | none => true

/-- The lanes at which the parts of a memory command begin, from a lane on: a word of VLD and VST holds two lanes. -/
def VecCmd.parts (q : VecCmd) (from_ : Nat) : List Nat :=
  let live := (List.range q.lanes).filter fun j => decide (from_ ≤ j) && activeLane q.mask j
  if q.lanes = 16 then live.filter fun j => decide (j % 2 = 0) || !live.contains (j - 1) else live

/-- Whether a command loads. -/
def VecCmd.loads (q : VecCmd) : Bool := match q.op with | .ld | .gth => true | _ => false

/-- A value of a lane's word is taken: VLD's word holds lanes 2w and 2w + 1. -/
def VecCmd.taken (q : VecCmd) (limit : Nat) (old : Nat) : Nat :=
  if q.lanes = 16 then
    packed 32 ((List.range 16).map fun j =>
      let p := if q.got.has (j / 2 * 2) then q.got.find (j / 2 * 2) else q.got.find j
      match p with
      | some w => if decide (j < limit) && decide (q.base ≤ j) && activeLane q.mask j then elemOf 32 w.toNat (j % 2)
                  else elemOf 32 old j
      | none => elemOf 32 old j)
  else
    packed 64 ((List.range 8).map fun j => match q.got.find j with
      | some w => if j < limit then w.toNat else elemOf 64 old j
      | none => elemOf 64 old j)

/-- A load writes the lanes below a limit into its destination, if its thread lives (R192, R252). -/
def State.writeLanes (s : State) (core : Nat) (q : VecCmd) (limit : Nat) : State :=
  if q.loads && (s.threadOf q.home).isSome then
    s.setV core q.d (BitVec.ofNat 512 (q.taken limit ((s.core core).vregs.find q.d |>.getD 0).toNat))
  else s

/-- The pointer of a part, or the event of its address: the checks of R96 from PERM with reason 0x01 on for VGTH and
VSCT, from PERM with reason 0x04 on for VLD and VST (R261). -/
def State.lanePtr (s : State) (core : Nat) (q : VecCmd) (j : Nat) : Except (Nat × Word) Word :=
  let base := q.args.getD 0 0
  let space (p : Word) : Except (Nat × Word) Word :=
    match s.spaceEvent core q.part p with
    | some e => .error (cPERM, BitVec.ofNat 64 e)
    | none => .ok p
  if q.lanes = 16 then space (shiftPtr base (8 * (j / 2) : Nat))
  else
    match effective base (BitVec.ofNat 64 (elemOf 64 q.offs.toNat j)).toInt with
    | .error e => .error (cPERM, BitVec.ofNat 64 e)
    | .ok p =>
      if p.toNat % 8 ≠ 0 then .error (cALIGN, p)
      else match lastByte p 8 with
        | some e => .error (cPERM, BitVec.ofNat 64 e)
        | none => space p

/-- What a part asks of its word (R262): a whole word is written full, a lane alone is merged. -/
def VecCmd.laneOp (q : VecCmd) (j : Nat) : MemOp × Nat :=
  let both := q.lanes = 16 ∧ j % 2 = 0 ∧ activeLane q.mask (j + 1)
  match q.op with
  | .st =>
    if both then (.write [BitVec.ofNat 64 (elemOf 64 q.data.toNat (j / 2))] true, 0)
    else (.sub 4 (BitVec.ofNat 64 (elemOf 32 q.data.toNat j)) true, 4 * (j % 2))
  | .sct => (.write [BitVec.ofNat 64 (elemOf 64 q.data.toNat j)] true, 0)
  | _ => (.load 8 false, 0)

/-- The request of a part. -/
def VecCmd.req (q : VecCmd) (core j : Nat) (op : MemOp) (p : Word) (since : Nat) : Req :=
  { tid := some q.tid, core := core, ctx := q.ctx, part := q.part, asid := q.asid, op := op, use := .lane q.id j, ptr := p,
    epc := q.epc, npc := q.npc, since := since }

/-- A part meets an event at the core. -/
def State.laneEvent (s : State) (core : Nat) (q : VecCmd) (j code : Nat) (info : Word) : State :=
  let (_, s) := s.addReq { q.req core j (.load 8 false) 0 0 with stage := .stalled, event := some (code, info) }
  s.after 0 7 (.engineFaultInFlight core q.id code info)

/-- Sends a part, redirected to a view where the command's strand has one (R281). -/
def State.sendLane (s : State) (core : Nat) (q : VecCmd) (j since : Nat) : State :=
  match s.lanePtr core q j with
  | .error (code, info) => s.laneEvent core q j code info
  | .ok p =>
    let (op, off) := q.laneOp j
    s.ask (q.req core j op (p + BitVec.ofNat 64 off) since)

/-- Sends the parts in ascending order, each when the part before it has passed its translation (R192); `fuel` bounds
their number. They leave in the cycle after the start (R251); a gather or scatter sends one lane a cycle (R249). -/
def State.sendLanes (s : State) (core id : Nat) : Nat → State
  | 0 => s
  | fuel + 1 =>
    match s.vecCmd core id with
    | none => s
    | some q =>
      match q.todo with
      | [] => s.pokeCore core
      | j :: rest =>
        if q.stalled || q.met.isSome || s.unsure id (!q.loads) then s
        else
          let s := s.upVec core id fun q => { q with todo := rest, left := q.left ++ [j] }
          let turn := if q.lanes = 8 then (q.parts q.base).length - q.todo.length else 0
          (s.sendLane core q j (q.effect + 1 + turn)).sendLanes core id fuel

/-- A memory command ends when every part has been answered, or stops at the event of the first (R192 to R194). -/
def State.vecStops (s : State) (core id : Nat) : State :=
  match s.vecCmd core id with
  | none => s
  | some q =>
    match q.met with
    | none =>
      if q.todo.isEmpty && q.left.isEmpty then ((s.writeLanes core q 16).acquire q.home q.acq).dropVec core id else s
    | some (p, code, info) =>
      if q.stalled || q.left.any fun j => decide (j < p) then s
      else
        let s := s.writeLanes core q p
        if isKernelEvent code then
          let s := s.upVec core id fun q => { q with stalled := true }
          (s.postRecord core { ctx := q.ctx, source := 3, code := code, tid := Tid.word q.tid, resume := 0, info := info,
                               arg := restartVx p, asid := q.asid, epc := q.epc, formed := 0 }).pokeCore core
        else
          (s.dropVec core id).deferTrap q.tid
            { origin := .vector, code := code, info := info, epc := q.epc, vx := restartVx p, issue := id }

/-- A part has been answered, with the word that it read. -/
def State.vecGot (s : State) (core id j : Nat) (v : Word) : State :=
  (s.upVec core id fun q => { q with left := without j q.left, got := q.got.put j v }).vecStops core id

/-- A part has met an event: the first in lane order counts. -/
def State.vecMet (s : State) (core id j code : Nat) (info : Word) : State :=
  (s.upVec core id fun q =>
    { q with left := without j q.left
             met := match q.met with
               | some (p, c, i) => if p ≤ j then some (p, c, i) else some (j, code, info)
               | none => some (j, code, info) }).vecStops core id

/-! ### The steps of the engine (R249 to R253) -/

/-- A command takes its place in the queue. -/
def State.enterVec (s : State) (core : Nat) (q : VecCmd) : State :=
  (s.upCore core fun x => { x with vector := { x.vector with queue := x.vector.queue ++ [{ q with effect := s.cyc }] } }).after
    1 8 (.vectorCommandStart core)

/-- Whether the thread of a command still waits for an entry. -/
def State.vecWaits (s : State) (q : VecCmd) : Bool :=
  match s.threadOf q.tid with
  | some th => match th.status with
    | .parked _ (.queue n) => n == q.id
    | _ => false
  | none => false

/-- Grants freed entries in the order of parking (R155); `fuel` bounds their number. -/
def State.grantVec (s : State) (core : Nat) : Nat → State
  | 0 => s
  | fuel + 1 =>
    let e := (s.core core).vector
    match e.wants with
    | [] => s
    | q :: rest =>
      let take (s : State) : State := s.upCore core fun x => { x with vector := { x.vector with wants := rest } }
      if !s.vecWaits q then (take s).grantVec core fuel
      else if e.queue.length < 2 then
        (((take s).enterVec core q).granted core q.tid.slot q.npc).grantVec core fuel
      else s

/-- The engine accepts the head of its queue in the cycle after it entered, while fewer than 16 are in flight. -/
def State.acceptVec (s : State) (core : Nat) : Nat → State
  | 0 => s
  | fuel + 1 =>
    let e := (s.core core).vector
    match e.queue with
    | [] => s
    | q :: rest =>
      if 16 ≤ e.flight.length ∨ s.cyc < q.effect + 1 then s
      else
        (s.upCore core fun x =>
          { x with vector := { x.vector with queue := rest, flight := x.vector.flight ++ [q] } }).acceptVec core fuel

/-- A command starts: it reads its registers, and its result or its parts follow. -/
def State.startVec (s : State) (core : Nat) (q : VecCmd) : State :=
  let (unit, busy, time) := q.op.timing
  let s := s.upCore core fun x => { x with vector := { x.vector with free := x.vector.free.put unit (s.cyc + busy) } }
  let s := s.after busy 8 (.vectorCommandStart core)
  let reg (n : Nat) : VReg := ((s.core core).vregs.find n).getD 0
  if q.lanes ≠ 0 then
    let s := s.upVec core q.id fun q =>
      { q with started := true, effect := s.cyc, data := reg q.d, offs := reg q.b, todo := q.parts q.base }
    (s.sendLanes core q.id 17).vecStops core q.id
  else
    let x : VIn := { d := (reg q.d).toNat, a := (reg q.a).toNat, b := (reg q.b).toNat, ws := q.args, act := activeLane q.mask,
                     all := q.mask.isNone, rm := q.rm, q := q.modulus.toNat }
    let o := x.run q.op
    let put (n : Nat) (v : Option Nat) (m : Map VReg) : Map VReg :=
      match v with | some v => m.put n (BitVec.ofNat 512 v) | none => m
    (s.upVec core q.id fun q =>
      { q with started := true, result := put q.a o.a (put q.d o.d []), sresult := o.w, sat := o.sat }).after
        time 8 (.vectorResultWrite core q.id)

/-- The next command in flight that may start: its thread's earlier commands are complete, and its unit is free. -/
def State.nextVec (s : State) (core : Nat) (seen : List Tid) : List VecCmd → Option VecCmd
  | [] => none
  | q :: rest =>
    if !q.started && !seen.contains q.tid && decide (((s.core core).vector.free.find q.op.timing.1).getD 0 ≤ s.cyc) then some q
    else s.nextVec core (q.tid :: seen) rest

/-- Starts every command that may start. -/
def State.startAll (s : State) (core : Nat) : Nat → State
  | 0 => s
  | fuel + 1 =>
    match s.nextVec core [] (s.core core).vector.flight with
    | none => s
    | some q => (s.startVec core q).startAll core fuel

/-- VECTOR_COMMAND_START (R249). -/
def execVectorCommandStart (core : Nat) (s : State) : Out :=
  let s := s.acceptVec core 3
  let s := s.grantVec core ((s.core core).vector.wants.length)
  .next (s.startAll core 17)

/-- Sets the sticky saturation flag of a thread (R222). -/
def State.setSat (s : State) (t : Tid) (sat : Bool) : State :=
  if sat then s.upTid t fun th => { th with fmt := fmtSetSat th.fmt } else s

/-- VECTOR_RESULT_WRITE (R252, R253): every destination in one cycle; nothing, if the thread is gone, or was evicted and
restored. -/
def execVectorResultWrite (core cmd : Nat) (s : State) : Out :=
  match s.vecCmd core cmd with
  | none => .next s
  | some q =>
    let s := if (s.threadOf q.home).isSome then
        let s := q.result.foldl (fun s e => s.setV core e.1 e.2) s
        let s := match q.scalar with
          | some n => s.upCore core fun x => { x with regs := x.regs.put n q.sresult }
          | none => s
        s.setSat q.home q.sat
      else s
    .next (s.dropVec core cmd)

/-! ### Issue -/

/-- The registers of a vector instruction: the fields that it names in each file, the mask, and those it writes. -/
structure VForm where
  ws     : List Reg := []
  vs     : List Reg := []
  mask   : Option Reg := none
  writes : List Reg := []
  scalar : Option Reg := none

/-- The checks of a page-4 instruction: deferred vector traps are reported at it (R194). -/
def VForm.kind (f : VForm) : Kind :=
  { names := { w := (f.ws ++ f.mask.toList).map rn, v := f.vs.map rn }, report := [.vector], big := false }

/-- A command with what it captures (R250). -/
def Cx.vecCapture (x : Cx) (s : State) (f : VForm) (op : VOp) (d a b : Reg) (args : List Word) : VecCmd :=
  { id := 0, tid := x.tid s, home := x.tid s, ctx := x.ctx s, part := x.th.part, asid := x.th.asid.toNat, epc := x.pc, npc := x.npc, op := op,
    d := vBase x.th.win + rn d, a := vBase x.th.win + rn a, b := vBase x.th.win + rn b,
    writes := f.writes.map fun r => vBase x.th.win + rn r
    scalar := f.scalar.bind fun r => if rn r = 0 then none else some (8 * wBase x.th.win + rn r)
    args := args, mask := f.mask.map fun r => x.w s (rn r), rm := fmtRm x.th.fmt,
    modulus := (x.res.vecLc.find 0).getD 0, strand := x.th.strand }

/-- Submits a command: into the queue, or to wait for an entry (R249). -/
def Cx.submitVec (x : Cx) (s : State) (q : VecCmd) : Out :=
  let e := (s.core x.core).vector
  let (n, s) := s.fresh
  let q := { q with id := n, effect := s.cyc }
  if e.queue.length < 2 ∧ e.wants = [] then x.done (s.enterVec x.core q)
  else
    let s := s.upCore x.core fun y =>
      { y with vector := { y.vector with wants := insertWant (fun e => (e.effect, e.tid.slot)) q y.vector.wants } }
    .next (x.queued s n)

/-- Issues an arithmetic or move instruction with the scalar registers that it reads. -/
def issueVec (f : VForm) (op : VOp) (d a b : Reg) (args : List Reg) (s : State) : Out :=
  issue f.kind s fun s x => x.submitVec s (x.vecCapture s f op d a b (args.map fun r => x.w s (rn r)))

/-- Issues a modular instruction: a modulus outside its limits raises PERM (R257). -/
def issueMod (f : VForm) (op : VOp) (d a b : Reg) (args : List Reg) (s : State) : Out :=
  issue f.kind s fun s x =>
    let q := x.vecCapture s f op d a b (args.map fun r => x.w s (rn r))
    if modulusOk q.modulus then x.submitVec s q else x.perm s 9

/-- Issues a butterfly: its two destinations differ (R257). -/
def issueBfly (f : VForm) (op : VOp) (d a b : Reg) (s : State) : Out :=
  issue { f.kind with bad := d == a } s fun s x =>
    let q := x.vecCapture s f op d a b []
    if modulusOk q.modulus then x.submitVec s q else x.perm s 9

/-- The lane from which a memory instruction runs (R183, R192). -/
def Cx.restartLane (x : Cx) (n : Nat) : Nat := match x.th.restart with | some i => min n i.toNat | none => 0

/-- The address checks of VLD and VST at issue (R261): the range of the active lanes that remain, and ALIGN with the
address of lane 0. -/
def Cx.laneChecks (x : Cx) (s : State) (base : Word) (delta : Int) (lanes : List Nat) (body : Word → Out) : Out :=
  match lanes.head?, lanes.getLast? with
  | some lo, some hi =>
    match sideRange base (delta + 4 * lo) (delta + 4 * hi + 3) with
    | some e => x.checkPerm s e
    | none =>
      let p := shiftPtr base delta
      if ((offsetOf base : Int) + delta) % 8 ≠ 0 then x.checkTrap s cALIGN p else body p
  | _, _ => body base

/-- Issues VLD or VST (R260, R261). -/
def issueLine (f : VForm) (op : VOp) (m : Mod) (d a : Reg) (imm : Int) (s : State) : Out :=
  issue f.kind s fun s x =>
    let q := x.vecCapture s f op d 0 0 []
    let base := x.restartLane 16
    let lanes := (List.range 16).filter fun j => decide (base ≤ j) && activeLane q.mask j
    x.laneChecks s (x.w s (rn a)) (64 * imm) lanes fun p =>
      x.releasing s m fun s =>
        x.submitVec s { q with lanes := 16, base := base, args := [p], relaxed := m.relaxed, acq := acqOf m }

/-- Issues VGTH or VSCT (R260, R261). -/
def issueEach (f : VForm) (op : VOp) (m : Mod) (d a b : Reg) (s : State) : Out :=
  issue f.kind s fun s x =>
    let q := x.vecCapture s f op d 0 b [x.w s (rn a)]
    x.releasing s m fun s =>
      x.submitVec s { q with lanes := 8, base := x.restartLane 8, relaxed := m.relaxed, acq := acqOf m }

end Sys2Proof.Machine
end

