-- ==== Sys2Proof/Machine/Matrix.lean ====
section
/-! DEFINITION. Page 5: the matrix engine, its configurations, local products, the ring, the modular mode, the
redundant check and the moves of tiles (R222 to R225, R227 to R246). -/

namespace Sys2Proof.Machine

/-! ### Configurations (R229) -/

/-- The width in bits of an operand format (R231). -/
def opWidth (fmt : Nat) : Nat := if fmt = 0 then 16 else if fmt = 3 then 4 else if fmt = 5 then 64 else 8

/-- The floating-point format of an operand code 0 to 3. -/
def opFmt (fmt : Nat) : Fmt := if fmt = 0 then bf16 else if fmt = 1 then e4m3 else if fmt = 2 then e5m2 else fp4

/-- Whether k lies within R229. -/
def kOk (k : Nat) : Bool := decide (k % 8 = 0) && decide (8 ≤ k) && decide (k ≤ 4096)

/-- Whether a configuration block is well-formed (Table 13.3). -/
def matCfgOk (b : List Word) : Bool :=
  let fmt := fieldOf b 0 0 4
  let ksrc := fieldOf b 0 4 4
  decide (fieldOf b 0 8 56 = 0) && decide (fmt ≤ 5) && (ksrc == 0 || decide (8 ≤ ksrc)) && decide (fieldOf b 1 16 48 = 0) &&
  (if ksrc = 0 then kOk (fieldOf b 1 0 16) else decide (fieldOf b 1 0 16 = 0)) &&
  (if fmt = 5 then modulusOk (wordOf b 2) else wordOf b 2 == 0) && (List.range 5).all fun i => wordOf b (3 + i) == 0

/-- The k that a configuration gives: its own, or a loop register's; none when the register has bits above. -/
def kOf (cfg : List Word) (lc : Map Word) : Option Nat :=
  let ksrc := fieldOf cfg 0 4 4
  if ksrc = 0 then some (fieldOf cfg 1 0 16)
  else
    let v := (lc.find (ksrc - 8)).getD 0
    if v.toNat < 65536 then some v.toNat else none

/-- The format codes that an instruction takes. -/
def MatKind.takes (k : MatKind) (fmt : Nat) : Bool :=
  match k with
  | .mma => decide (fmt ≤ 4)
  | .mmod => fmt == 5
  | _ => decide (fmt ≤ 5)

/-- Whether an instruction uses the ring. -/
def MatKind.ring (k : MatKind) : Bool := match k with | .mring | .mmr => true | _ => false

/-- The configuration that the thread about to issue selects. -/
def State.handCfg (s : State) : List Word :=
  match s.hand with
  | none => []
  | some h => match s.thread h.core h.slot with
    | some t => ((s.core h.core).matrix.cfg.find (fmtTag t.fmt)).getD []
    | none => []

/-! ### The ring (R235) -/

/-- The core at the next ring position of a core's cluster. -/
def successor (c : Nat) : Nat := clusterCore (clusterOf c) ((localIndex c + 1) % 16)

/-- The core at the ring position before. -/
def predecessor (c : Nat) : Nat := clusterCore (clusterOf c) ((localIndex c + 15) % 16)

/-! ### Issue (R232) -/

/-- The ranges that a command reads: pointer and bytes of A, B, the block scales and the band scales (R231). -/
def Cx.matRanges (x : Cx) (kind : MatKind) (fmt k : Nat) (pa pb : Word) : List (Word × Nat) :=
  let own := kind != .mmr
  [(pa, k * opWidth fmt)] ++ (if own then [(pb, k * opWidth fmt)] else []) ++
  (if fmt = 3 then [(x.th.sa, k)] ++ (if own then [(x.th.sb, k)] else []) else []) ++
  (if fmt < 4 then [(x.th.band, if own then 4 else 2)] else [])

/-- Whether a pointer names the issuing core's vault (Table 13.4). -/
def ownVault (core : Nat) (p : Word) : Bool := spaceOf p == 1 || (spaceOf p == 2 && ptrCore p == core)

/-- The event of a command's ranges, in the order of R232. -/
def Cx.matEvent (x : Cx) (s : State) (kind : MatKind) (pa pb : Word) (rs : List (Word × Nat)) :
    Option (Nat × Word) :=
  let perm (n : Nat) : Option (Nat × Word) := some (cPERM, BitVec.ofNat 64 n)
  match rs.findSome? fun r => sideRange r.1 0 ((r.2 : Int) - 1) with
  | some e => perm e
  | none =>
    if pa.toNat % 8 ≠ 0 then some (cALIGN, pa)
    else if kind ≠ .mmr ∧ pb.toNat % 8 ≠ 0 then some (cALIGN, pb)
    else if x.th.band.toNat % 2 ≠ 0 then some (cALIGN, x.th.band)
    else if rs.any fun r => !ownVault x.core r.1 then perm 0x0C
    else match rs.findSome? fun r => s.sideSpace x.core x.th.part r.1 0 ((r.2 : Int) - 1) with
      | some e => perm e
      | none =>
        if kind.ring && s.ctxOf (successor x.core) != x.ctx s then perm 0x04
        else if rs.any fun r => (s.redirected x.core x.th.strand r.1 r.2).isSome then perm 0x0D
        else none

/-- The vault ranges that a command reads, numbered: offset and bytes of A (0), B (1), their block scales (2, 3) and the
band scales (4) (R231). -/
def MatCmd.reads (q : MatCmd) : Map (Nat × Nat) :=
  let own := q.kind != .mmr
  if q.kind = .mzero then []
  else
    [(0, q.offA, q.k * opWidth q.fmt)] ++ (if own then [(1, q.offB, q.k * opWidth q.fmt)] else []) ++
    (if q.fmt = 3 then [(2, q.offSa, q.k)] ++ (if own then [(3, q.offSb, q.k)] else []) else []) ++
    (if q.fmt < 4 then [(4, q.offBand, if own then 4 else 2)] else [])

/-- The words that hold some bytes at an offset: the offset of the first, and their number. -/
def wordSpan (off n : Nat) : Nat × Nat := (off / 8 * 8, (off % 8 + n + 7) / 8)

/-- A piece of an operand range: the range, the cycle of its command's fetch in which it is sent, its offset and its words. -/
structure Piece where
  range : Nat
  turn  : Nat
  off   : Nat
  words : Nat
  deriving DecidableEq, Repr

/-- The pieces of a run of words: 64 bytes in a cycle (R228), cut where a bank ends. `fuel` bounds their number. -/
def piecesOf (range turn off words : Nat) : Nat → List Piece
  | 0 => []
  | fuel + 1 =>
    if words = 0 then []
    else
      let k := min words 8
      let room := (8192 - off % 8192) / 8
      (if k ≤ room then [{ range := range, turn := turn, off := off, words := k }]
        else [{ range := range, turn := turn, off := off, words := room },
              { range := range, turn := turn, off := off + 8 * room, words := k - room }]) ++
        piecesOf range (turn + 1) (off + 64) (words - k) fuel

/-- The pieces of some ranges, one range after the other. -/
def piecesFrom : Map (Nat × Nat) → Nat → List Piece
  | [], _ => []
  | (i, off, n) :: rest, turn =>
    let w := wordSpan off n
    piecesOf i turn w.1 w.2 w.2 ++ piecesFrom rest (turn + (w.2 + 7) / 8)

/-- The pieces that a command reads. -/
def MatCmd.pieces (q : MatCmd) : List Piece := piecesFrom q.reads 0

/-- The read of a piece, at the bank's port 2, under the key of the command's context (R105, R246). -/
def MatCmd.req (q : MatCmd) (s : State) (core i first : Nat) (p : Piece) : Req :=
  { tid := some q.tid, core := core, ctx := q.ctx, op := .block p.words, use := .matrix q.id i,
    ptr := BitVec.ofNat 64 (2 ^ 57 + p.off), pa := vaultAddr core p.off, key := (s.context q.ctx).key,
    lat := s.reach core (vaultAddr core p.off), epc := q.epc, npc := q.npc, since := first + p.turn }

/-- The cycle from which a core's matrix engine can fetch: now, or when the pieces of the commands before are sent. -/
def State.fetchFree (s : State) (core : Nat) : Nat :=
  s.reqs.foldl (fun t e => match e.2.use with
    | .matrix _ _ => if e.2.core = core then max t (e.2.since + 1) else t
    | _ => t) s.cyc

/-- The engine fetches a command's operands as it enters the queue (R228): the manual gives the fetch 64 bytes in a cycle,
and the model sends the reads in that order from that cycle on, behind those of the commands before (DEDUCED, log 90). -/
def State.fetchMat (s : State) (core : Nat) (q : MatCmd) : State :=
  let first := s.fetchFree core
  (q.pieces.zipIdx).foldl (fun s e => let (m, s) := s.addReq (q.req s core e.2 first e.1); s.send m (.id 0 q.ctx)) s

/-- A command takes its place in the queue, and its thread is parked until it completes (R228). -/
def State.enterMat (s : State) (core : Nat) (q : MatCmd) : State :=
  let lag := if q.kind = .mzero then 4 else 16
  let e := (s.core core).matrix
  let q := { q with effect := s.cyc, left := List.range q.pieces.length }
  let s := s.upCore core fun x => { x with matrix := { x.matrix with queue := x.matrix.queue ++ [q] } }
  ((s.park core q.tid.slot .engine (.matrix q.id)).post (max (s.cyc + lag) e.ePrev) 8
    (.matrixArithmeticStart core)).fetchMat core q

/-- Submits a command: into the queue, or to wait for an entry (R228). -/
def Cx.submitMat (x : Cx) (s : State) (q : MatCmd) : Out :=
  let e := (s.core x.core).matrix
  let (n, s) := s.fresh
  let q := { q with id := n, effect := s.cyc }
  if e.queue.length < 2 ∧ e.wants = [] then .next (s.enterMat x.core q)
  else
    let s := s.upCore x.core fun y =>
      { y with matrix := { y.matrix with wants := insertWant (fun e => (e.effect, e.tid.slot)) q y.matrix.wants } }
    .next (s.park x.core x.slot .queue (.queue n))

/-- What a command captures (R214, R234). -/
def Cx.matCapture (x : Cx) (s : State) (kind : MatKind) (chk : Bool) (d : Reg) (cfg : List Word) (k : Nat) (pa pb : Word) :
    MatCmd :=
  { id := 0, tid := x.tid s, ctx := x.ctx s, epc := x.pc, npc := x.npc, kind := kind, chk := chk,
    tile := aBase x.th.win + rn d, field := rn d, cfg := fmtTag x.th.fmt, fmt := fieldOf cfg 0 0 4, k := k,
    q := (wordOf cfg 2).toNat, mu := (x.res.matMu.find (fmtTag x.th.fmt)).getD 0, offA := offsetOf pa,
    offB := offsetOf pb, offSa := offsetOf x.th.sa, offSb := offsetOf x.th.sb, offBand := offsetOf x.th.band }

/-- Whether an access or a vector memory command of the thread that is under way touches an operand (R100, R263). -/
def Cx.matConflicts (x : Cx) (s : State) (rs : List (Word × Nat)) : Bool :=
  rs.any fun r =>
    let w := wordSpan (offsetOf r.1) r.2
    let a := vaultAddr x.core w.1
    s.relaxedOn (some (x.tid s)) 0 a w.2 || s.lanesOn (x.tid s) a w.2

/-- Issues MMA, MRING, MMR or MMOD (R232), whose operand reads are ordered as ordinary accesses are (R116, R246). -/
def issueMat (kind : MatKind) (m : Mod) (d a : Reg) (b : Option Reg) (s : State) : Out :=
  let pair : Bool := kind == .mmod || (kind.ring && decide (fieldOf s.handCfg 0 0 4 = 5))
  let names : Names := { w := rn a :: (b.toList.map rn), a := if pair then [rn d, rn d + 1] else [rn d] }
  issue { names := names, big := false } s fun s x =>
    let cfg := (x.res.matCfg.find (fmtTag x.th.fmt)).getD []
    let fmt := fieldOf cfg 0 0 4
    let pa := x.w s (rn a)
    let pb := match b with | some b => x.w s (rn b) | none => 0
    match kOf cfg x.res.matLc with
    | none => x.perm s 9
    | some k =>
      if !kind.takes fmt || !kOk k || (kind.ring && decide (4096 < k * opWidth fmt)) then x.perm s 9
      else
        let rs := x.matRanges kind fmt k pa pb
        match x.matEvent s kind pa pb rs with
        | some (code, info) => x.trap s code info
        | none =>
          if s.heldBack (x.tid s) false || x.matConflicts s rs then x.again s .mem
          else x.submitMat s (x.matCapture s kind m.check d cfg k pa pb)

/-- MZERO (R228, R232, R233): of the checks of R232 that speak of no operand, that of th.band applies. -/
def execMzero (d : Reg) (s : State) : Out :=
  issue { names := { a := [rn d] }, big := false } s fun s x =>
    if x.th.band.toNat % 2 ≠ 0 then x.trap s cALIGN x.th.band
    else x.submitMat s { x.matCapture s .mzero false d [] 0 0 0 with cfg := 8 }

/-- MMA (R234). -/
def execMma (m : Mod) (d a b : Reg) (s : State) : Out := issueMat .mma m d a (some b) s

/-- MMR (R237). -/
def execMmr (m : Mod) (d a : Reg) (s : State) : Out := issueMat .mmr m d a none s

/-- MRING (R236). -/
def execMring (m : Mod) (d a b : Reg) (s : State) : Out := issueMat .mring m d a (some b) s

/-- MMOD (R239). -/
def execMmod (m : Mod) (d a b : Reg) (s : State) : Out := issueMat .mmod m d a (some b) s

/-! ### Operands and products (R223, R224, R231, R239) -/

/-- The bytes of a command's range as a number, lowest first, from the pieces read. -/
def MatCmd.bytesOf (q : MatCmd) (i : Nat) : Nat :=
  match q.reads.find i with
  | none => 0
  | some (off, n) =>
    let ws := (q.pieces.zipIdx).flatMap fun e => if e.1.range = i then (q.got.find e.2).getD [] else []
    packed 64 (ws.map fun w => w.toNat) / 2 ^ (8 * (off % 8)) % 2 ^ (8 * n)

/-- The operands of a command: the bytes of A and B, their block scales and band scales. -/
structure Operands where
  a : Nat
  b : Nat
  blkA : Nat
  blkB : Nat
  bandA : Nat
  bandB : Nat

/-- The operands, with B from the latch for MMR. -/
def MatCmd.operands (q : MatCmd) (e : Option Latched) : Operands :=
  let band := q.bytesOf 4
  match e with
  | some l => { a := q.bytesOf 0, b := l.b, blkA := q.bytesOf 2, blkB := l.blocks, bandA := band, bandB := l.band }
  | none => { a := q.bytesOf 0, b := q.bytesOf 1, blkA := q.bytesOf 2, blkB := q.bytesOf 3, bandA := band % 65536,
              bandB := band / 65536 }

/-- The new value of an FP32 element (R223). -/
def Operands.floatElem (o : Operands) (fmt k i c acc : Nat) : Nat :=
  let w := opWidth fmt
  let f := opFmt fmt
  (List.range (k / 8)).foldl (fun acc g =>
    let ps := (List.range 8).map fun j =>
      (f.value (elemOf w o.a (i * k + 8 * g + j))).mul (f.value (elemOf w o.b (c * k + 8 * g + j)))
    let blk (v r : Nat) : Fp := if fmt = 3 then blockScale (elemOf 8 v (r * (k / 8) + g)) else .fin false 1 0
    groupStep acc ps [blk o.blkA i, blk o.blkB c, bf16.value o.bandA, bf16.value o.bandB]) acc

/-- The new value of an INT32 element, and whether it was clamped (R224). -/
def Operands.intElem (o : Operands) (k i c acc : Nat) : Nat × Bool :=
  (List.range (k / 8)).foldl (fun acc g =>
    let ps := (List.range 8).map fun j =>
      signedOf 8 (elemOf 8 o.a (i * k + 8 * g + j)) * signedOf 8 (elemOf 8 o.b (c * k + 8 * g + j))
    let r := groupStepInt acc.1 ps
    (r.1, acc.2 || r.2)) (acc, false)

/-- The new value of a modular element (R239). -/
def Operands.modElem (o : Operands) (q mu k i c acc : Nat) : Nat :=
  (List.range k).foldl (fun acc j =>
    barrett q mu (barrett q mu (elemOf 64 o.a (i * k + j)) * barrett q mu (elemOf 64 o.b (c * k + j)) + acc))
    (barrett q mu acc)

/-- The new tiles of a command, and whether an accumulation was clamped. -/
def MatCmd.compute (q : MatCmd) (o : Operands) (old : Nat → Tile) : List Tile × Bool :=
  let cells := (List.range 64).map fun n => (n / 8, n % 8, n)
  if q.kind = .mzero then ([0], false)
  else if q.fmt = 5 then
    let c := (old q.tile).toNat + 2 ^ 2048 * (old (q.tile + 1)).toNat
    let v := packed 64 (cells.map fun x => o.modElem q.q q.mu q.k x.1 x.2.1 (elemOf 64 c x.2.2))
    ([BitVec.ofNat 2048 v, BitVec.ofNat 2048 (v / 2 ^ 2048)], false)
  else
    let c := (old q.tile).toNat
    if q.fmt = 4 then
      let rs := cells.map fun x => o.intElem q.k x.1 x.2.1 (elemOf 32 c x.2.2)
      ([BitVec.ofNat 2048 (packed 32 (rs.map Prod.fst))], rs.any Prod.snd)
    else ([BitVec.ofNat 2048 (packed 32 (cells.map fun x => o.floatElem q.fmt q.k x.1 x.2.1 (elemOf 32 c x.2.2)))], false)

/-! ### Timing (R228, Table 13.1) -/

/-- The cycles of a command's arithmetic. -/
def MatCmd.cycles (q : MatCmd) : Nat :=
  if q.kind = .mzero then 0
  else
    let p := if q.fmt = 0 then q.k else if q.fmt = 3 then q.k / 4 else if q.fmt = 5 then 16 * q.k else q.k / 2
    max (if q.chk then 2 * p else p) ((total (q.reads.map fun r => r.2.2) + 63) / 64)

/-- The cycles that a forward takes (R238): 4, and one for each 64 bytes of the entry. -/
def Latched.cycles (l : Latched) : Nat :=
  4 + (l.k * opWidth l.fmt + (if l.fmt = 3 then l.k else 0) + (if l.fmt < 4 then 2 else 0) + 63) / 64

/-! ### The steps of the engine -/

/-- Changes a matrix engine. -/
def State.upMat (s : State) (core : Nat) (f : MatEngine → MatEngine) : State :=
  s.upCore core fun x => { x with matrix := f x.matrix }

/-- The head of the queue may start: a start is put on the agenda. -/
def State.kickMat (s : State) (core : Nat) : State :=
  let e := (s.core core).matrix
  match e.queue with
  | [] => s
  | q :: _ => s.post (max s.cyc (max (q.effect + if q.kind = .mzero then 4 else 16) e.ePrev)) 8 (.matrixArithmeticStart core)

/-- Whether the thread of a command still waits for an entry. -/
def State.matWaits (s : State) (q : MatCmd) : Bool :=
  match s.threadOf q.tid with
  | some th => match th.status with
    | .parked _ (.queue n) => n == q.id
    | _ => false
  | none => false

/-- Grants freed entries in the order of parking (R155). -/
def State.grantMat (s : State) (core : Nat) : Nat → State
  | 0 => s
  | fuel + 1 =>
    let e := (s.core core).matrix
    match e.wants with
    | [] => s
    | q :: rest =>
      if !s.matWaits q then (s.upMat core fun m => { m with wants := rest }).grantMat core fuel
      else if e.queue.length < 2 then ((s.upMat core fun m => { m with wants := rest }).enterMat core q).grantMat core fuel
      else s

/-- MCFG's wait for the commands that captured its slot ends (R230). -/
def stMcfg : Nat := 15
def stMcfgWait : Nat := 16

/-- Loads a configuration when no command has captured its slot (R230). -/
def State.loadMatCfg (s : State) (r : Req) : State :=
  match r.tid with
  | none => s
  | some t =>
    let n := (r.args.getD 0 0).toNat
    let e := (s.core t.core).matrix
    if !matCfgOk r.ans then s.trap t.core t.slot cPERM 9 r.epc 0 false
    else if ((e.queue ++ e.flight).any fun q => q.cfg == n) || e.wants.any fun q => q.cfg == n && s.matWaits q then
      let (m, s) := s.addReq { r with use := .stage stMcfgWait, stage := .stalled }
      s.park t.core t.slot .queue (.reply m)
    else
      let mu := if fieldOf r.ans 0 0 4 = 5 then [(n, muOf (wordOf r.ans 2).toNat)] else []
      (s.upMat t.core fun m =>
        { m with cfg := m.cfg.put n r.ans, mu := mu.foldl (fun t e => t.put e.1 e.2) m.mu }).resumeAt t.core t.slot r.npc

/-- MCFG commands of a core try again. -/
def State.retryMatCfg (s : State) (c : Nat) : State :=
  s.reqs.foldl (fun s e =>
    if e.2.core = c ∧ e.2.use = .stage stMcfgWait then (s.dropReq e.1).loadMatCfg e.2 else s) s

/-- Removes a command from the engine. -/
def State.dropMat (s : State) (core id : Nat) : State :=
  ((s.upMat core fun m => { m with flight := m.flight.filter fun q => q.id != id }).retryMatCfg core).kickMat core

/-- A command's thread returns; a cancellation that came meanwhile acts now (R245). -/
def State.matReturn (s : State) (q : MatCmd) (body : State → State) : State :=
  match s.threadOf q.tid with
  | none => s
  | some th => if s.regionCancelled q.tid.core th.region then s.cancelThread q.tid.core q.tid.slot else body s

/-- A command ends with an event at its instruction. -/
def State.matEnds (s : State) (core : Nat) (q : MatCmd) (code : Nat) (info : Word) : State :=
  (s.dropMat core q.id).matReturn q fun s =>
    if isKernelEvent code then s.kernelFault core q.tid.slot 0 code info 0 q.epc q.epc 0 none
    else s.trap core q.tid.slot code info q.epc 0 false

/-- The information of MATCHECK (Table 13.5). -/
def MatCmd.checkInfo (q : MatCmd) (group elem : Nat) : Word :=
  BitVec.ofNat 64 (q.kind.ring.toNat * 2 ^ 32 + group * 2 ^ 16 + elem * 2 ^ 8 +
    (if q.fmt = 5 ∧ 32 ≤ elem then q.field + 1 else q.field))

/-- The latch entry that MMR uses, with its place: the first that no command not yet committed uses. -/
def MatEngine.entry (e : MatEngine) : Option (Latched × Nat) :=
  let used := (e.flight.filter fun q => q.kind == .mmr && !q.committed).map fun q => q.place
  e.latch.zipIdx.find? fun x => !used.contains x.2

/-- What a ring command forwards when it commits (R236, R237). -/
def MatCmd.forward (q : MatCmd) (core : Nat) (o : Operands) (e : Option Latched) : Option Latched :=
  match q.kind, e with
  | .mring, _ => some { b := o.b, blocks := o.blkB, band := o.bandB, fmt := q.fmt, k := q.k, origin := localIndex core, hop := 1 }
  | .mmr, some l => if l.hop < 15 then some { l with hop := l.hop + 1 } else none
  | _, _ => none

/-- Changes a command, queued or in flight. -/
def State.upMatCmd (s : State) (core id : Nat) (f : MatCmd → MatCmd) : State :=
  let g (l : List MatCmd) : List MatCmd := l.map fun q => if q.id = id then f q else q
  s.upMat core fun m => { m with queue := g m.queue, flight := g m.flight }

/-- What the arithmetic of a command gives (R223, R224, R239, R240): the tiles, what is to be forwarded, and the mismatch
that a checked command meets. -/
def State.runMat (s : State) (core : Nat) (q : MatCmd) : MatCmd :=
  let e := (s.core core).matrix
  let l := if q.kind = .mmr then e.latch[q.place]? else none
  let o := q.operands l
  let r := q.compute o fun n => ((s.core core).accs.find n).getD 0
  let chk := if q.chk then (match e.broken with
    | some (g, i) => if g < q.k / 8 then some (q.checkInfo g i) else none
    | none => none) else none
  { q with result := r.1, sat := r.2, send := q.forward core o l, check := chk }

/-- A command that has started has all its operands: it completes 4 cyc after its arithmetic, which ends no sooner than
they arrive, or meets POISON (R228, R232). -/
def State.matReady (s : State) (core id : Nat) : State :=
  match (s.core core).matrix.flight.find? fun q => q.id == id with
  | none => s
  | some q =>
    if !q.left.isEmpty || !q.result.isEmpty then s
    else match q.met with
      | some (_, p) => (s.upMat core fun m => { m with ePrev := s.cyc }).matEnds core q cPOISON p
      | none =>
        let done := max q.done s.cyc
        let q := s.runMat core q
        let s := (s.upMatCmd core id fun _ => q).upMat core fun m => { m with ePrev := done }
        (s.post (done + 4) 8 (.matrixCommandComplete core id)).kickMat core

/-- A piece of a command's operands has been read. -/
def State.matGot (s : State) (core id i : Nat) (ws : List Word) : State :=
  (s.upMatCmd core id fun q => { q with left := without i q.left, got := q.got.put i ws }).matReady core id

/-- A piece of a command's operands has met an uncorrectable error: the first in the order of the reads counts (R101,
R232). -/
def State.matMet (s : State) (core id i : Nat) (p : Word) : State :=
  (s.upMatCmd core id fun q =>
    { q with left := without i q.left
             met := match q.met with
               | some (j, w) => if j ≤ i then some (j, w) else some (i, p)
               | none => some (i, p) }).matReady core id

/-- The head command's arithmetic starts: it leaves the queue. -/
def State.startMat (s : State) (core : Nat) (q : MatCmd) (rest : List MatCmd) (l : Option (Latched × Nat)) : State :=
  let e := (s.core core).matrix
  let s := s.upMat core fun m => { m with queue := rest }
  let s := s.grantMat core e.wants.length
  let bad := match l with | some (l, _) => l.fmt != q.fmt || l.k != q.k | none => false
  if bad then s.matEnds core q cPERM 9
  else
    let done := s.cyc + q.cycles
    let q := { q with done := done, place := match l with | some (_, i) => i | none => 0 }
    (s.upMat core fun m => { m with flight := m.flight ++ [q], ePrev := done }).matReady core q.id

/-- MATRIX_ARITHMETIC_START (R228, R237). -/
def execMatrixArithmeticStart (core : Nat) (s : State) : Out :=
  let e := (s.core core).matrix
  match e.queue with
  | [] => .next s
  | q :: rest =>
    if s.cyc < q.effect + (if q.kind = .mzero then 4 else 16) ∨ s.cyc < e.ePrev ∨ e.flight.any fun q => q.result.isEmpty then .next s
    else if q.kind = .mmr then
      match e.entry with
      | none => .next s
      | some l => .next (s.startMat core q rest (some l))
    else .next (s.startMat core q rest none)

/-- A command is complete: its thread goes on after it. -/
def State.matDone (s : State) (core : Nat) (q : MatCmd) : State :=
  (s.dropMat core q.id).matReturn q fun s => s.resumeAt core q.tid.slot q.npc

/-- Starts the first forward that waits, when the successor's latch has a place (R238). A successor that has changed its context
since the issue takes no entry: its latch was cleared, and so is the entry, and the command is complete (R245, R246; DEDUCED, log
108). `fuel` bounds the number of such forwards. -/
def State.tryForwards (s : State) (core : Nat) : Nat → State
  | 0 => s
  | fuel + 1 =>
  match (s.core core).matrix.flight.find? fun q => q.committed && q.send.isSome with
  | none => s
  | some q =>
    let n := (s.core (successor core)).matrix
    if q.going then s
    else if s.ctxOf (successor core) ≠ q.ctx then (s.matDone core q).tryForwards core fuel
    else if 2 ≤ n.latch.length + n.coming then s
    else
      let s := s.upMat core fun m => { m with flight := m.flight.map fun x => if x.id = q.id then { x with going := true } else x }
      let s := s.upMat (successor core) fun m => { m with coming := m.coming + 1 }
      match q.send with
      | some l => s.after l.cycles 8 (.ringForward core q.id)
      | none => s

/-- The forwards of a core that wait: no more than its commands in flight. -/
def State.tryForward (s : State) (core : Nat) : State := s.tryForwards core ((s.core core).matrix.flight.length + 1)

/-- The entry of an MMR leaves the latch, and those behind it move up. -/
def MatEngine.unlatch (m : MatEngine) (place : Nat) : MatEngine :=
  { m with latch := m.latch.eraseIdx place
           flight := m.flight.map fun q => if place < q.place then { q with place := q.place - 1 } else q }

/-- A command commits: its tiles and the saturation flag are written, and MMR's entry leaves the latch. Its thread's pc is past it,
for a save from now on, and a cancellation that waited acts now, though a forward may still have to wait (R245). -/
def State.commitMat (s : State) (core : Nat) (q : MatCmd) : State :=
  let s := (q.result.zipIdx).foldl (fun s e => s.setA core (q.tile + e.2) e.1) s
  let s := s.setSat q.tid q.sat
  let s := s.upMat core fun m => { m with flight := m.flight.map fun x => if x.id = q.id then { x with committed := true } else x }
  let s := s.upTid q.tid fun th => { th with pc := q.npc }
  let s := s.matReturn q id
  if q.kind = .mmr then (s.upMat core fun m => m.unlatch q.place).tryForward (predecessor core) else s

/-- MATRIX_COMMAND_COMPLETE (R228, R238, R240). -/
def execMatrixCommandComplete (core cmd : Nat) (s : State) : Out :=
  match (s.core core).matrix.flight.find? fun q => q.id == cmd with
  | none => .next s
  | some q =>
    match q.check with
    | some info =>
      .next ((s.upMat core fun m => { m with checks := min (2 ^ 32 - 1) (m.checks + 1) }).matEnds core q cMATCHECK info)
    | none =>
      if q.committed then .next s
      else
        let s := s.commitMat core q
        match q.send with
        | some _ => .next (s.tryForward core)
        | none => .next (s.matDone core q)

/-- RING_FORWARD (R238): the entry takes its place in the successor's latch, unless that core has changed its context (R246), and the
command is complete. -/
def execRingForward (core cmd : Nat) (s : State) : Out :=
  match (s.core core).matrix.flight.find? fun q => q.id == cmd with
  | none => .next s
  | some q =>
    match q.send with
    | none => .next s
    | some l =>
      let n := successor core
      let s := s.upMat n fun m =>
        { m with latch := if s.ctxOf n = q.ctx then m.latch ++ [l] else m.latch, coming := m.coming - 1 }
      .next (((s.matDone core q).kickMat n).tryForward core)

/-! ### MCFG and MQRY (R230, R244) -/

/-- MCFG (R230). -/
def execMcfg (n : BitVec 3) (a : Reg) (s : State) : Out :=
  issue (smallKind [a]) s fun s x =>
    x.readBlock s (x.w s (rn a)) 8 64 stMcfg {} .mem none [BitVec.ofNat 64 n.toNat]

/-- The latch state (R244). -/
def latchWord (core : Nat) (l : List Latched) : Word :=
  let (o, h) := match l with | e :: _ => (e.origin, e.hop) | [] => (0, 0)
  BitVec.ofNat 64 (l.length + 4 * localIndex core + 64 * o + 1024 * h)

/-- MQRY (R244). -/
def execMqry (d : Reg) (code : BitVec 4) (s : State) : Out :=
  issueRet { smallKind [d] with bad := decide (9 < code.toNat) } s d fun s x =>
    let e := (s.core x.core).matrix
    let n := code.toNat
    if n < 8 then wordOf ((e.cfg.find n).getD []) 0
    else if n = 8 then latchWord x.core e.latch
    else BitVec.ofNat 64 e.checks

/-! ### Moving tiles (R242, R243) -/

/-- A control word (Table 13.6): the conversion's format, if any, the row stride and the row's bytes; none if
malformed. -/
def tileControl (w : Word) (load : Bool) : Option (Option Nat × Nat × Nat) :=
  let stride := (w.extractLsb' 16 16).toNat
  let fmt := w.toNat % 16
  let conv := w.getLsbD 4
  let row := if !conv ∨ fmt = 7 then 32 else opWidth fmt
  if w.extractLsb' 32 32 ≠ 0 ∨ w.extractLsb' 5 11 ≠ 0 ∨ stride % 8 ≠ 0 ∨ (stride ≠ 0 ∧ stride < row) then none
  else if conv then
    if fmt ≤ 4 ∨ (fmt = 7 ∧ !load) then some (some fmt, if stride = 0 then row else stride, row) else none
  else if fmt = 0 then some (none, if stride = 0 then row else stride, row) else none

/-- An element as MST stores it, and whether that saturated. A row of n bytes holds 8 elements of n bits. -/
def storeElem (rm : Nat) (fmt : Option Nat) (x : Nat) : Nat × Bool :=
  match fmt with
  | none => (x, false)
  | some 4 => narrowInt 32 8 x
  | some 7 => toIntBits rm 32 (fp32.value x)
  | some f => convertFp rm fp32 (opFmt f) x

/-- An element as MLDA loads it. -/
def loadElem (fmt : Option Nat) (x : Nat) : Nat :=
  match fmt with
  | none => x
  | some 4 => bitsOf 32 (signedOf 8 x)
  | some f => (convertFp 0 (opFmt f) fp32 x).1

/-- Splits `n` bytes at an address into those of each word: pointer, bytes and value. -/
def splitWords (p : Word) (n v : Nat) : Nat → List (Word × Nat × Nat)
  | 0 => []
  | fuel + 1 =>
    if n = 0 then []
    else
      let k := min n (8 - p.toNat % 8)
      (p, k, v % 2 ^ (8 * k)) :: splitWords (p + BitVec.ofNat 64 k) (n - k) (v / 2 ^ (8 * k)) fuel

/-- Sends one access of MST or MLDA, redirected word by word (R281). -/
def State.tileReq (s : State) (t : Tid) (th : Thread) (m : Moving) (i : Nat) (p : Word) (op : MemOp) (row : Nat) : State :=
  match s.spaceEvent t.core th.part p with
  | some e => s.moveMet t m.id i cPERM (BitVec.ofNat 64 e)
  | none =>
    s.ask { tid := some t, core := t.core, ctx := s.ctxOf t.core, part := th.part, asid := th.asid.toNat, op := op,
            use := .part m.id i, ptr := p, epc := th.pc, npc := m.npc, since := m.start + row }

/-- Whether a store may still meet an event where it is served: a sub-word store reads its word, and a frame may be taken
back (R98, R101, R324). -/
def Req.mayFail (r : Req) : Bool :=
  match r.op with
  | .sub _ _ _ => true
  | .write _ _ => decide (r.pa < 2 ^ 57)
  | _ => false

/-- Whether a word of an MST or MLDA may still meet an event: no word after it is sent (R192, R242). -/
def State.moveUnsure (s : State) (id : Nat) : Bool :=
  s.reqs.any fun e => (match e.2.use with | .part k _ => k == id | _ => false) &&
    (e.2.stage == .translating || e.2.stage == .logging || e.2.mayFail)

/-- The tile that MLDA has read. -/
def Moving.tileValue (m : Moving) (stride row : Nat) (fmt : Option Nat) (ws : List Word) : Tile :=
  let byte (a : Word) : Nat :=
    let w := ((m.got.find (ws.idxOf (a &&& ~~~(7 : Word)))).getD 0).toNat
    elemOf 8 w (a.toNat % 8)
  let rowOf (i : Nat) : Nat := packed 8 ((List.range row).map fun j => byte (m.base + BitVec.ofNat 64 (i * stride + j)))
  BitVec.ofNat 2048 (packed 32 ((List.range 64).map fun n => loadElem fmt (elemOf row (rowOf (n / 8)) (n % 8))))

/-- The words that MLDA reads, in ascending order, each once. -/
def rowWords (base : Word) (stride row : Nat) : List Word :=
  ((List.range 8).flatMap fun i =>
    (splitWords (base + BitVec.ofNat 64 (i * stride)) row 0 9).map fun e => e.1 &&& ~~~(7 : Word)).dedup

/-- An MST or MLDA is done: the tile is written, or th.fmt's sat is set. -/
def State.moveDone (s : State) (t : Tid) (m : Moving) : State :=
  let s := s.upTid t fun th => { th with moving := none }
  if m.load then
    match tileControl m.ctl true with
    | none => s
    | some (fmt, stride, row) =>
      (s.setA t.core m.tile (m.tileValue stride row fmt (rowWords m.base stride row))).resumeAt t.core t.slot m.npc
  else (s.setSat t m.sat).resumeAt t.core t.slot m.npc

/-- Sends the words of an MST or MLDA in ascending order, each when the word before it can meet no event any more, a row of
an MST in each cycle at most (R242, R243, log 27); `fuel` bounds their number. -/
def State.moveNext (s : State) (t : Tid) : Nat → State
  | 0 => s
  | fuel + 1 =>
    match s.threadOf t with
    | none => s
    | some th =>
      match th.moving with
      | none => s
      | some m =>
        if m.met.isSome || s.moveUnsure m.id || th.status != .parked .mem .moving then s
        else
          match m.todo with
          | [] => if m.left.isEmpty then s.moveDone t m else s
          | (p, n, v, row) :: rest =>
            let s := s.upTid t fun th =>
              { th with moving := some { m with todo := rest, sent := m.sent + 1, left := m.left ++ [m.sent] } }
            let op : MemOp := if m.load then .load 8 false else if n = 8 then .write [v] true else .sub n v true
            (s.tileReq t th m m.sent p op row).moveNext t fuel

/-- A word of an MST or MLDA has been answered. -/
def State.moveGot (s : State) (t : Tid) (id i : Nat) (v : Word) : State :=
  let s := s.upTid t fun th => { th with moving := th.moving.map fun m =>
    if m.id = id then { m with left := without i m.left, got := m.got.put i v } else m }
  (s.moveStops t).moveNext t 300

/-- Starts an MST or MLDA: its thread parks. -/
def Cx.move (x : Cx) (s : State) (m : Moving) : Out :=
  let (id, s) := s.fresh
  let s := s.upThread x.core x.slot fun th => { th with moving := some { m with id := id } }
  .next ((s.park x.core x.slot .mem .moving).moveNext (x.tid s) (m.todo.length + 1))

/-- MST (R242): the address checks are over every byte of the rows, before any write. -/
def execMst (d a b : Reg) (s : State) : Out :=
  issue { names := { w := [rn a, rn b], a := [rn d] }, big := false } s fun s x =>
    match tileControl (x.w s (rn b)) false with
    | none => x.perm s 9
    | some (fmt, stride, row) =>
      let base := x.w s (rn a)
      match sideRange base 0 ((7 * stride + row : Nat) - 1 : Int) with
      | some e => x.perm s e
      | none =>
        match (List.range 8).findSome? fun i => s.spanEvent x.core x.th.part (base + BitVec.ofNat 64 (i * stride)) row with
        | some e => x.perm s e
        | none =>
        if s.heldBack (x.tid s) false then x.again s .mem
        else
          let tile := ((s.core x.core).regA x.th (rn d)).toNat
          let es := (List.range 64).map fun n => storeElem (fmtRm x.th.fmt) fmt (elemOf 32 tile n)
          let rows := (List.range 8).map fun i => packed row ((es.drop (8 * i)).take 8 |>.map Prod.fst)
          let parts := (rows.zipIdx).flatMap fun e =>
            (splitWords (base + BitVec.ofNat 64 (e.2 * stride)) row e.1 9).map fun w =>
              (w.1, w.2.1, BitVec.ofNat 64 w.2.2, e.2)
          x.move s { id := 0, npc := x.npc, load := false, tile := 0, base := base, ctl := x.w s (rn b),
                     sat := es.any Prod.snd, start := s.cyc, todo := parts }

/-- MLDA (R243). -/
def execMlda (d a b : Reg) (s : State) : Out :=
  issue { names := { w := [rn a, rn b], a := [rn d] }, big := false } s fun s x =>
    match tileControl (x.w s (rn b)) true with
    | none => x.perm s 9
    | some (_, stride, row) =>
      let base := x.w s (rn a)
      match sideRange base 0 ((7 * stride + row : Nat) - 1 : Int) with
      | some e => x.perm s e
      | none =>
        if s.heldBack (x.tid s) false then x.again s .mem
        else
          x.move s { id := 0, npc := x.npc, load := true, tile := aBase x.th.win + rn d, base := base, ctl := x.w s (rn b),
                     sat := false, start := s.cyc, todo := (rowWords base stride row).map fun p => (p, 8, 0, 0) }

end Sys2Proof.Machine
end

