-- ==== Sys2Proof/Machine/Faults.lean ====
section
/-! DEFINITION. Kernel fault records, events met by engines in flight, and WAKE (R165 to R167, R186 to R189, R194, R196). -/

namespace Sys2Proof.Machine

/-! ### Records (R186 to R188) -/

/-- A record's words (Table 10.4). -/
def FRec.words (r : FRec) : List Word :=
  [ BitVec.ofNat 64 (r.source * 2 ^ 40 + r.code * 2 ^ 32 + r.tid.toNat % 2 ^ 32), r.resume, r.info, r.arg,
    BitVec.ofNat 64 r.formed, BitVec.ofNat 64 r.asid, r.epc, 0 ]

/-- Whether a record is an engine's, whose thread is not parked. -/
def FRec.engine (r : FRec) : Bool := decide (2 ≤ r.source) && decide (r.source ≤ 4)

/-- FAULT_EVENT_ARRIVAL (R186): the unit forms the record in the cycle of arrival. The resume point of an engine's record whose
thread has ended is 0 (DESIGN CHOICE, log 102). -/
def execFaultEventArrival (r : Nat) (s : State) : Out :=
  match s.io.recs.find r with
  | none => .next s
  | some f =>
    let f := { f with formed := s.cyc }
    let f := if f.engine then
        { f with resume := match s.threadOf (tidOf f.tid) with | some t => t.pc | none => 0 }
      else f
    let s := s.upIo fun io => { io with recs := io.recs.put r f }
    let s := s.upCtx f.ctx fun x => { x with records := x.records ++ [r] }
    .next (s.after 0 30 (.faultRecordWrite f.ctx))

/-- FAULT_RECORD_WRITE (R188): the unit waits until word 0 of the ring's next record is empty; a context without a ring
waits for one. -/
def execFaultRecordWrite (ctx : Nat) (s : State) : Out :=
  let x := s.context ctx
  match x.ring, x.records with
  | some g, _ :: _ =>
    if x.writing then .next s
    else .next ((s.upCtx ctx fun x => { x with writing := true }).ringAsk x.kern g.key (g.next 64) .waitEmpty (faultWait ctx) [])
  | _, _ => .next s

/-- The ring's next record is empty: the oldest record is written, and the next one only after it. -/
def State.recordPut (s : State) (ctx : Nat) : State :=
  let x := s.context ctx
  match x.ring, x.records with
  | some g, n :: rest =>
    let ws := match s.io.recs.find n with | some f => f.words | none => []
    let s := s.upCtx ctx fun x => { x with records := rest, ring := some { g with prod := g.prod + 1 } }
    let s := s.upIo fun io => { io with recs := io.recs.drop n }
    s.ringPut x.kern g (g.next 64) ws (faultPut ctx)
  | _, _ => s.upCtx ctx fun x => { x with writing := false }

/-- A record's words but the first have been written. -/
def State.recordEnds (s : State) (ctx : Nat) (r : Req) : State :=
  ((s.ringEnds r).upCtx ctx fun x => { x with writing := false }).after 0 30 (.faultRecordWrite ctx)

/-! ### Engines (R165 to R167, R194) -/

/-- ENGINE_FAULT_IN_FLIGHT (R166, R167): the command meets the event at its part. -/
def execEngineFaultInFlight (core cmd code : Nat) (info : Word) (s : State) : Out :=
  match s.reqs.find? fun e => e.2.engineCmd == some cmd && e.2.stage == .stalled && e.2.event == some (code, info) with
  | none => .next s
  | some (n, r) =>
    match r.use with
    | .copy _ part _ => .next ((s.dropReq n).copyMet core cmd part code info)
    | .list _ i => .next ((s.dropReq n).listMet core cmd i r.ptr code info)
    | .lane _ part => .next ((s.dropReq n).vecMet core cmd part code info)
    | _ => .next s

/-- The requests of a command that are under way no longer belong to it. -/
def State.disown (s : State) (id : Nat) : State :=
  s.reqs.foldl (fun s e => if e.2.engineCmd = some id then s.withdraw e.1 else s)
    { s with reqs := s.reqs.mapVals fun r => if r.engineCmd = some id ∧ r.stage = .sent then { r with use := .none, tid := none } else r }

/-- A thread's stalled copy and gather commands, on whichever core. -/
def State.stalledCopies (s : State) (t : Tid) : List CopyCmd := (s.copiesOf t).filter fun q => q.stalled

/-- A thread's stalled vector commands, each with its core. -/
def State.stalledVecs (s : State) (t : Tid) : List (Nat × VecCmd) := (s.vecsOf t).filter fun e => e.2.stalled

/-- A stalled copy or gather restarts from its restart index (R166, R192); a gather that stalled at its list reads the rest of it
again. -/
def State.restartCopy (s : State) (q : CopyCmd) : State :=
  match q.met with
  | none => s
  | some (p, _, _) =>
    let q := { q with base := p, sent := p, got := [], written := [], acked := [], tail := [], srcs := [], dsts := [], homes := [],
                      met := none, stalled := false }
    let s := (s.disown q.id).upCopy q.core q.id fun _ => q
    if q.kind = .gath ∧ q.known < q.parts then (s.readList q p s.cyc (q.parts + 1)).listNext q.core q.id else s.startReads q

/-- A stalled vector command restarts from its restart index (R192, R194). -/
def State.restartVec (s : State) (core : Nat) (q : VecCmd) : State :=
  match q.met with
  | none => s
  | some (p, _, _) =>
    let s := (s.disown q.id).upVec core q.id fun q =>
      { q with base := p, met := none, stalled := false, got := [], left := [], todo := q.parts p }
    (s.sendLanes core q.id 17).vecStops core q.id

/-- A stalled command ends, and its event, a kernel's by its code, is deferred as a thread trap (R167, R189). -/
def State.endCopy (s : State) (q : CopyCmd) : State :=
  match q.met with
  | none => s
  | some (p, code, info) =>
    ((s.disown q.id).dropCopy q.core q.id).deferTrap q.tid
      { origin := q.origin, code := code, info := info, epc := q.epc, vx := restartVx (q.restart p), trap := true, issue := q.id }

/-- The same of a vector command. -/
def State.endVec (s : State) (core : Nat) (q : VecCmd) : State :=
  match q.met with
  | none => s
  | some (p, code, info) =>
    ((s.disown q.id).dropVec core q.id).deferTrap q.tid
      { origin := .vector, code := code, info := info, epc := q.epc, vx := restartVx p, trap := true, issue := q.id }

/-! ### WAKE (R189) -/

/-- Issues WAKE. -/
def issueWake (a b : Reg) (s : State) : Out :=
  issue (plainKind [a, b]) s fun s x =>
    let act := x.w s (rn b)
    if act.extractLsb' 1 63 ≠ 0 then x.perm s 9
    else if act = 1 ∧ !isKernelCtx (x.ctx s) then x.perm s 0x0B
    else
      let d := BitVec.ofNat 64 ((x.w s (rn a)).toNat % 2 ^ 32)
      let dest := (tidOf d).core
      x.done (if isCore dest then s.sendMsg x.core dest (.wake d (act == 1) (x.ctx s)) .wakeArrival else s.drop x.core)

/-- WAKE with action 0. -/
def execWakeResume (a b : Reg) (s : State) : Out := issueWake a b s

/-- WAKE with action 1. -/
def execWakeTrap (a b : Reg) (s : State) : Out := issueWake a b s

/-- The stalled commands of a thread restart, or end. -/
def State.wakeCommands (s : State) (t : Tid) (trap : Bool) : State :=
  let cs := s.stalledCopies t
  let vs := s.stalledVecs t
  let s := cs.foldl (fun s q => if trap then s.endCopy q else s.restartCopy q) s
  vs.foldl (fun s e => if trap then s.endVec e.1 e.2 else s.restartVec e.1 e.2) s

/-- The held relaxed access of a fault is sent again (R99). -/
def State.sendHeld (s : State) (t : Tid) (held : Option Nat) : State :=
  match held with
  | none => s
  | some n =>
    let s := s.upTid t fun th => { th with relaxed := if th.relaxed.contains n then th.relaxed else th.relaxed ++ [n] }
    s.begin n

/-- The held relaxed access of a fault is abandoned (R99). -/
def State.dropHeld (s : State) (t : Tid) (held : Option Nat) : State :=
  match held with
  | none => s
  | some n => (s.dropReq n).upTid t fun th => { th with relaxed := without n th.relaxed }

/-- A thread that is parked on a fault resumes: where a request of its instruction still waits in a wait list, or for its reply, it
awaits that (R106; DESIGN CHOICE, log 114). -/
def State.resumeFault (s : State) (t : Tid) (resume : Word) : State :=
  match s.reqs.find? fun e => e.2.lingers t && e.2.epc == resume with
  | some (n, r) => s.park t.core t.slot (if r.stage = .waiting then .empty else .mem) (.reply n)
  | none => s.resumeAt t.core t.slot resume

/-- A WAKE acts on a thread that is parked on a fault: one whose held store could not be logged resumes when the store has
been performed (R99). A request that still waits in a wait list is withdrawn as the thread takes the trap (DESIGN CHOICE, log 114). -/
def State.wakeFault (s : State) (t : Tid) (trap : Bool) (resume : Word) (code : Nat) (info epc vx : Word)
    (held : Option Nat) : State :=
  if trap then ((s.dropHeld t held).withdrawAll t).trap t.core t.slot code info epc vx held.isSome
  else match held with
    | some n =>
      if code = cDIRTYFULL then (s.park t.core t.slot .mem (.held n resume)).sendHeld t held
      else (s.resumeAt t.core t.slot resume).sendHeld t held
    | none => s.resumeFault t resume

/-- A WAKE for an evicted thread: a record of source 6 goes to the kernel (R189). Its words 1, 2 and 6, for which Table 10.4 has
no value of an evicted thread, are 0 (DESIGN CHOICE, log 102). -/
def State.wakeEvicted (s : State) (t : Tid) : State :=
  s.postRecord t.core { ctx := s.ctxOf t.core, source := 6, code := 0, tid := Tid.word t, resume := 0, info := 0, arg := 0,
                        asid := ((s.core t.core).slot t.slot).evictedAsid, epc := 0, formed := 0 }

/-- The stages at which the first page of a block of EVICT or RESTORE, and the second, has been reached. -/
def stBlock : Nat := 21
def stBlock2 : Nat := 22

/-- Whether an EVICT that has reached its thread's core waits there for the thread to be saved: a WAKE that comes second finds the
eviction entry (R196). -/
def State.evicting (s : State) (d : Word) : Bool :=
  s.reqs.any fun e => !e.2.orphan && e.2.stage == .sent && (e.2.use == .stage stBlock || e.2.use == .stage stBlock2) && e.2.index == 1 &&
    (e.2.args.getD 2 0).toNat % 2 ^ 32 == d.toNat

/-- WAKE_ARRIVAL (R189): the case table. A WAKE for an evicted thread with stalled commands goes to the kernel (R178). -/
def execWakeArrival (msg : Nat) (s : State) : Out :=
  match s.msgs.find msg with
  | some (.wake d trap ctx) =>
    let t := tidOf d
    if s.behind t.core d then .next (s.press t.core msg)
    else if s.evicting d then .next (s.after 1 13 (.wakeArrival msg))
    else
      let s := s.dropMsg msg
      let evicted := match ((s.core t.core).slot t.slot).evicted with | some (w, _) => w == d | none => false
      if !s.mayReach ctx t.core then .next (s.drop t.core)
      else if evicted then .next (s.wakeEvicted t)
      else
        let stalled := !(s.stalledCopies t).isEmpty || !(s.stalledVecs t).isEmpty
        let fault := match s.threadOf t with
          | some th => match th.status with
            | .parked _ (.fault resume code info epc vx held) => some (resume, code, info, epc, vx, held)
            | _ => none
          | none => none
        match fault with
        | some (resume, code, info, epc, vx, held) =>
          if isKernelCtx ctx then
            .next ((if stalled then s.wakeCommands t trap else s).wakeFault t trap resume code info epc vx held)
          else .next (s.drop t.core)
        | none =>
          if stalled then .next (s.wakeCommands t trap)
          else match s.threadOf t with
            | some th => match th.status with
              | .parked _ (.sleep _) => .next (s.rouse t)
              | .parked _ (.mwait _ _ _ _ _) => .next (s.rouse t)
              | .starting => if th.wakeAt.isSome then .next (s.rouse t) else .next (s.drop t.core)
              | _ => .next (s.drop t.core)
            | none => .next (s.drop t.core)
  | _ => .next s

end Sys2Proof.Machine
end

