-- ==== Sys2Proof/Machine/Saving.lean ====
section
/-! DEFINITION. Save blocks, EVICT and RESTORE (R149, R178, R190, R191, R284, Table 10.6), and reading memory as a thread
of a context would. -/

namespace Sys2Proof.Machine

/-! ### Reading as a thread would -/

/-- A word at a pointer as a thread of an address space on a core reads it, with its place and key; what it reads counts (R101). In place
of a word: an address that it needs and on which a hold stands (R133), or none where the access meets an event. -/
def State.wordAs (s : State) (core ctx part asid : Nat) (p : Word) : Except (Option Nat) (Word × Nat × Nat) × State :=
  match effective p 7 with
  | .error _ => (.error none, s)
  | .ok _ =>
    if (s.spaceEvent core part p).isSome ∨ spaceOf p = 4 ∧ !isKernelCtx ctx then (.error none, s)
    else
      match s.heldWalk core ctx asid { r := true } p with
      | some a => (.error (some a), s)
      | none =>
      match s.locate core ctx asid { r := true } p with
      | (.ok pa key _ _ _, s) =>
        let r : Req := { core := core, ctx := ctx, part := part, asid := asid, op := .block 1, ptr := p, pa := pa }
        if isFar pa ∨ (tierOf pa < 2 ∧ spaceOf p = 4 ∧ !(s.frame (frameOf pa)).passes (s.kernOf ctx)) ∨ (s.wordEvent r pa).isSome ∨
            s.lostAt pa then (.error none, s)
        else if s.heldIn pa 1 then (.error (some pa), s)
        else if s.errorIn pa 1 = 2 then (.error none, s.tellPoison pa)
        else
          (.ok (if inTables pa then s.tableValue (tableSlot pa) else s.mem.read (s.keyOf key) pa, pa, s.keyOf key), s.countRead pa 1)
      | (_, s) => (.error none, s)

/-- A run of words at a pointer, as a thread reads them, each with its place and key. A unit that has to wait for a hold reads them all
when its turn comes, from the state `s` as it then stands. -/
def State.wordsAs (s : State) (core ctx part asid : Nat) (p : Word) : Nat → Except (Option Nat) (List (Word × Nat × Nat)) × State
  | 0 => (.ok [], s)
  | n + 1 =>
    match s.wordAs core ctx part asid p with
    | (.error (some a), _) => (.error (some a), s)
    | (.error none, s) => (.error none, s)
    | (.ok v, s') =>
      match s'.wordsAs core ctx part asid (p + 8) n with
      | (.error (some a), _) => (.error (some a), s)
      | (.error none, s) => (.error none, s)
      | (.ok vs, s) => (.ok (v :: vs), s)

/-- The region that a chain of blocks gives, read as a thread would (R266); `got` holds the blocks read so far, each with its
pointer. -/
def State.chainAs (s : State) (core ctx part asid : Nat) (rect : Rect) (p : Word) (got : List (Word × List (Word × Nat × Nat))) :
    Nat → Except (Option Nat) Region × State
  | 0 => (.error none, s)
  | fuel + 1 =>
    if p.toNat % 256 ≠ 0 then (.error none, s)
    else match s.wordsAs core ctx part asid p 32 with
      | (.error held, s) => (.error held, s)
      | (.ok b, s') =>
        let got := got ++ [(p, b)]
        match judgeChain (got.map fun e => e.2.map Prod.fst) (got.map Prod.fst) (got.map fun e => (e.2.headD (0, 0, 0)).2) rect with
        | .bad => (.error none, s')
        | .done g => (.ok g, s')
        | .more q =>
          match s'.chainAs core ctx part asid rect q got fuel with
          | (.error (some a), _) => (.error (some a), s)
          | o => o

/-! ### The save block (Table 10.6) -/

/-- What a save finds beside the thread itself. -/
structure SaveOf where
  ident : Word
  pc    : Word
  regs  : List Word
  vregs : List VReg
  accs  : List Tile
  pres  : Nat

/-- The words of a vector register. -/
def vregWords (v : VReg) : List Word := (List.range 8).map fun i => v.extractLsb' (64 * i) 64

/-- The words of a tile. -/
def tileWords (v : Tile) : List Word := (List.range 32).map fun i => v.extractLsb' (64 * i) 64

/-- The registers of a thread's windows on a core, zero above their sizes, and its presence bits. -/
def saveRegs (x : Core) (t : Thread) (ident pc : Word) : SaveOf :=
  { ident := ident
    pc := pc
    regs := (List.range 128).map fun i => if i < 8 * wSize t.win then x.regW t i else 0
    vregs := (List.range 32).map fun i => if i < vSize t.win then x.regV t i else 0
    accs := (List.range 8).map fun i => if i < aSize t.win then x.regA t i else 0
    pres := total ((List.range 128).map fun i =>
      if i < 8 * wSize t.win ∧ x.present.contains (8 * wBase t.win + i) then 2 ^ i else 0) }

/-- The words of a deferred trap: cause, epc, info, restart index. -/
def Deferred.words (d : Deferred) : List Word := [BitVec.ofNat 64 (d.code + 256), d.epc, d.info, d.vx]

/-- The flags at offset 0x018. -/
def saveFlags (t : Thread) (sleeping : Bool) : Nat :=
  t.part % 8 + (!t.deferred.isEmpty).toNat * 2 ^ 8 + total (t.mons.map fun m => 2 ^ (9 + m.1)) + t.sect.isSome.toNat * 2 ^ 13 +
    sleeping.toNat * 2 ^ 14 + t.lastArr.isSome.toNat * 2 ^ 15 + t.restart.isSome.toNat * 2 ^ 16

/-- The 928 words of a save block at a physical address. -/
def saveWords (t : Thread) (v : SaveOf) (wake : Option Nat) (pa : Nat) : List Word :=
  let ds := t.deferred.take 64
  let line (m : Nat) : Word := match t.mons.find m with | some x => x.ptr &&& ~~~(63 : Word) | none => 0
  [v.ident, v.pc, t.win, BitVec.ofNat 64 (saveFlags t wake.isSome), BitVec.ofNat 64 v.pres, BitVec.ofNat 64 (v.pres / 2 ^ 64),
    BitVec.ofNat 64 pa, 0,
    t.vec, t.epc, t.cause, t.info, flagWord t.lvl, t.vx, t.fmt, t.sa, t.sb, t.band, t.rcb, t.asid.setWidth 64,
    line 0, line 1, line 2, line 3,
    BitVec.ofNat 64 ds.length, BitVec.ofNat 64 (wake.getD 0),
    (match t.lastArr with | some (b, ph) => BitVec.ofNat 64 (b + 65536 * (ph % 2 ^ 32)) | none => 0),
    (match t.restart with | some i => BitVec.ofNat 64 (2 ^ 62 + i.toNat) | none => 0),
    0, 0, 0, 0] ++
  v.regs ++ v.vregs.flatMap vregWords ++ v.accs.flatMap tileWords ++
  ds.flatMap Deferred.words ++ List.replicate (4 * (64 - ds.length)) 0

/-- Writes a run of words as a unit of a core does: to memory under a key, to a table, or onto a link. -/
def State.putWords (s : State) (core ctx key : Nat) : Nat → List Word → State
  | _, [] => s
  | a, v :: vs =>
    let s :=
      if isFar a then s.emit (.write (s.farPlace a).1 (s.farPlace a).2 [v])
      else if inTables a then s.tableWrite core ctx (tableSlot a) v
      else (s.setMem (s.mem.write key a v (s.mem.attr a).empty)).wrote a
    s.putWords core ctx key (a + 8) vs

/-- Writes a block whose bytes from `head` on lie at `pa`, and the rest, in the next page, at `pb`. -/
def State.putSplit (s : State) (core ctx key pa pb head : Nat) (ws : List Word) : State :=
  (s.putWords core ctx key pa (ws.take head)).putWords core ctx key pb (ws.drop head)

/-- Reads a run of words as a unit of the module does: from memory under a key, or from a table; behind the endpoint and in other
packages they are free (log 5). -/
def State.getWords (s : State) (key a n : Nat) : List Word × State :=
  if isFar a then s.freeWords n
  else ((wordsFrom a n).map fun w => if inTables w then s.tableValue (tableSlot w) else s.mem.read key w, s)

/-- Reads a block laid out the same way. -/
def State.getSplit (s : State) (key pa pb head n : Nat) : List Word × State :=
  let (ws, s) := s.getWords key pa (min head n)
  let (vs, s) := s.getWords key pb (n - min head n)
  (ws ++ vs, s)

/-- The wake time that a save records: that of a SLEEP, which a thread restored and not yet ready goes on with, too. -/
def Thread.sleeping (t : Thread) : Option Nat :=
  match t.status with
  | .parked _ (.sleep _) | .starting => t.wakeAt
  | _ => none

/-- The pc at which a saved thread resumes: that of its section's RSV, the resume point of its fault, or its own. -/
def Thread.resumePc (t : Thread) : Word :=
  match t.sect with
  | some z => z.pc
  | none => match t.status with
    | .parked _ (.fault resume _ _ _ _ _) => resume
    | _ => t.pc

/-- What the view unit keeps of a saved thread (R284), and its deferred events with what reports them (R99, R194). -/
def State.savedOf (s : State) (c : Nat) (id : Tid) (t : Thread) : Saved :=
  { tid := some id, deferred := t.deferred, rcb := t.rcb, region := t.region, strand := t.strand, frames := t.frames, child := t.child,
    binds := match t.strand with
      | some (f, st) => (s.core c).binds.filter fun b => (b.1 == f && b.2.1 == st) || s.seenBy f st 9 == some (b.1, b.2.1)
      | none => []
    inlined := (s.core c).caddy.filter fun e => e.inlined.isSome && e.pusher == id }

/-- The bindings and the inline records of a saved thread leave the core. -/
def State.unbind (s : State) (c : Nat) (v : Saved) : State :=
  s.upCore c fun x =>
    { x with binds := x.binds.filter fun b => !v.binds.contains b, caddy := x.caddy.filter fun e => !v.inlined.contains e }

/-- A relaxed access whose event has been reported, and that has been neither performed nor abandoned, is deferred again as
its thread is saved: the save block records no other trace of it (DESIGN CHOICE, log 92). -/
def State.deferAgain (s : State) (t : Thread) : Thread :=
  match t.status with
  | .parked _ (.fault _ code info epc vx (some n)) =>
    match s.reqs.find n with
    | some r =>
      let d : Deferred := { origin := .relaxed, code := code, info := info, epc := epc, vx := vx, word := r.first,
                            reg := (match r.use with | .relaxed d => d | _ => none), held := some n, issue := n }
      { t with deferred := deferIn d t.deferred }
    | none => t
  | _ => t

/-- Withdraws what a saved thread has under way; its held relaxed accesses stay, for its return (R99, R190). -/
def State.withdrawSaved (s : State) (t : Tid) : State :=
  let s := s.dropGather t
  s.reqs.foldl (fun s e =>
    if e.2.tid == some t && !e.2.ofEngine && !e.2.runsOn && !e.2.parksHeld then s.withdraw e.1 else s) s

/-- Saves a thread into a block: its section is abandoned, its monitors are recorded and disarmed, and its slot becomes
free; `mark`: the identifier goes into the eviction entry (R190, R345). -/
def State.saveThread (s : State) (c k pa pb head : Nat) (mark : Bool) : State :=
  match s.thread c k with
  | none => s
  | some t =>
    let t := s.deferAgain t
    let ctx := s.ctxOf c
    let id := Tid.word (s.tidAt c k)
    let v := saveRegs (s.core c) t id t.resumePc
    let ws := saveWords t v t.sleeping pa
    let s := s.mergeHalts (s.tidAt c k)
    let keep := s.savedOf c (s.tidAt c k) t
    let s := s.abandon c k
    let s := s.withdrawSaved (s.tidAt c k)
    let s := s.putSplit c ctx (s.context ctx).key pa pb head ws
    let s := { (s.unbind c keep) with saved := s.saved.put pa keep }
    let s := if mark then s.upCore c fun x => x.upSlot k fun sl => { sl with evicted := some (id, t.part), evictedAsid := t.asid.toNat } else s
    s.leave c k

/-! ### Blocks named by an instruction -/

/-- The bytes of a save block. -/
def blockBytes : Nat := 7424

/-- How many words of a block lie before the end of the page of its address. -/
def headWords (p : Word) : Nat := min (blockBytes / 8) ((65536 - offsetOf p % 65536) / 8)

/-- Issues EVICT or RESTORE: the checks of the block's access, and its translation (args: d, operation, W[a], W[b]). -/
def issueBlock (op : Nat) (d a b : Reg) (s : State) : Out :=
  issue (plainKind [d, a, b]) s fun s x =>
    if !isKernelCtx (x.ctx s) then x.perm s 0x0B
    else
      let p := if op = 0 then x.w s (rn b) else x.w s (rn a)
      x.access s p 0
        { op := if op = 0 then .write [] true else .block 0, use := .stage stBlock, align := 256, bytes := blockBytes,
          args := [BitVec.ofNat 64 (rn d), BitVec.ofNat 64 op, x.w s (rn a), x.w s (rn b)] }

/-- EVICT (R190). -/
def execEvict (d a b : Reg) (s : State) : Out := issueBlock 0 d a b s

/-- RESTORE (R191). -/
def execRestore (d a b : Reg) (s : State) : Out := issueBlock 1 d a b s

/-! ### EVICT -/

/-- An EVICT has reached its thread's core and cannot act yet (`index` 1; R196). -/
def State.evictStands (s : State) (n : Nat) : State := s.upReq n fun r => { r with index := 1 }

/-- An EVICT that has reached its thread's core and cannot act yet waits there. -/
def State.evictWaits (s : State) (n : Nat) : State := (s.evictStands n).after 1 12 (.bankRequestArrival n)

/-- EVICT acts on its target; while relaxed accesses of the target run, or its matrix command, it waits (R190, R245), and for the
reply of a waiting request that its bank has served (R106). -/
def State.evict (s : State) (n : Nat) (r : Req) (pa pb head : Nat) : State :=
  let d := BitVec.ofNat 64 ((r.args.getD 2 0).toNat % 2 ^ 32)
  let t := tidOf d
  match s.threadOf t with
  | none => s.unitSays n (-2)
  | some th =>
    if (r.args.getD 2 0).toNat ≠ d.toNat ∨ s.kernOf (s.ctxOf t.core) ≠ s.kernOf r.ctx then s.unitSays n (-2)
    else match th.status with
      | .parked _ (.fault _ _ _ _ _ _) =>
        if !s.quiet th || s.reqs.any (fun e => e.2.lingers t && e.2.stage == .served) then s.evictWaits n
        else (s.saveThread t.core t.slot pa pb head true).unitSays n 0
      | _ => if s.inMatrix t.core th then s.evictWaits n else s.unitSays n (-1)

/-! ### RESTORE -/

/-- A register list as a table of a file, from a base; zeros are not listed. -/
def fileFrom {α : Type} [BEq α] (zero : α) (base : Nat) (l : List α) (m : Map α) : Map α :=
  ((List.range l.length).zip l).foldl (fun m e => if e.2 == zero then m else m.put (base + e.1) e.2) m

/-- A vector register from its words, and a tile. -/
def vregOf (ws : List Word) : VReg := BitVec.ofNat 512 (packed 64 (ws.map BitVec.toNat))
def tileOf (ws : List Word) : Tile := BitVec.ofNat 2048 (packed 64 (ws.map BitVec.toNat))

/-- The pieces of a list, `k` words each. -/
def pieces (k : Nat) (ws : List Word) : Nat → List (List Word)
  | 0 => []
  | n + 1 => ws.take k :: pieces k (ws.drop k) n

/-- A deferred trap that a block records: with what reports it, where it was saved so; else a relaxed access's count tells
its origin, and the others are reported as a copy's (log 18). -/
def deferredOf (kept : List Deferred) (ws : List Word) : Deferred :=
  (kept.find? fun d => d.words == ws).getD
    { origin := if (wordOf ws 3).extractLsb' 62 2 = 2 then .relaxed else .copy, code := (wordOf ws 0).toNat % 256,
      info := wordOf ws 2, epc := wordOf ws 1, vx := wordOf ws 3, trap := (wordOf ws 3).extractLsb' 62 2 != 2 }

/-- The deferred traps of a restored thread: those of its block, and those that its commands have met since (R178, R191). -/
def restoredTraps (b : List Word) (keep : Option Saved) : List Deferred :=
  let kept := match keep with | some v => v.deferred | none => []
  let late := match keep with | some v => v.late | none => []
  late.foldl (fun l d => deferIn d l) (((pieces 4 (b.drop 672) 64).take (wordOf b 24).toNat).map (deferredOf kept))

/-- Whether a block's header is well-formed, at its address (R191; which fields count: DESIGN CHOICE, log 117). -/
def headerOk (b : List Word) (pa : Nat) : Bool :=
  wordOf b 6 == BitVec.ofNat 64 pa && wordOf b 7 == 0 && (wordOf b 3).extractLsb' 17 47 == 0 &&
    (wordOf b 3).extractLsb' 3 5 == 0 && decide (1 ≤ wSize (wordOf b 2)) && decide (wSize (wordOf b 2) ≤ 16) &&
    decide (vSize (wordOf b 2) ≤ 32) && decide (aSize (wordOf b 2) ≤ 8) && decide ((wordOf b 24).toNat ≤ 64) &&
    fmtOk (wordOf b 14) && decide ((wordOf b 12).toNat ≤ 1) && decide ((wordOf b 19).toNat < 4096) &&
    !(wordOf b 1).getLsbD 0 && (List.range 4).all fun i => wordOf b (28 + i) == 0

/-- The thread that a block holds. -/
def blockThread (b : List Word) (win : Word) (g : Region) : Thread :=
  let flags := wordOf b 3
  { pc := wordOf b 1, win := win, vec := wordOf b 8, epc := wordOf b 9, cause := wordOf b 10, info := wordOf b 11,
    lvl := wordOf b 12 == 1, vx := wordOf b 13, fmt := wordOf b 14, sa := wordOf b 15, sb := wordOf b 16, band := wordOf b 17,
    rcb := wordOf b 18, asid := (wordOf b 19).setWidth 12, part := flags.toNat % 8, region := g,
    restart := if flags.getLsbD 16 then some ((wordOf b 27).extractLsb' 0 40) else none,
    lastArr := if flags.getLsbD 15 then some ((wordOf b 26).toNat % 32, (wordOf b 26).toNat / 65536 % 2 ^ 32) else none }

/-- Fills the windows of a restored thread, and its presence bits. -/
def Core.fillFrom (x : Core) (win : Word) (b : List Word) : Core :=
  let pres := (wordOf b 4).toNat + 2 ^ 64 * (wordOf b 5).toNat
  { x with
    regs := fileFrom 0 (8 * wBase win) ((b.drop 32).take (8 * wSize win)) x.regs
    vregs := fileFrom 0 (vBase win) ((pieces 8 (b.drop 160) (vSize win)).map vregOf) x.vregs
    accs := fileFrom 0 (aBase win) ((pieces 32 (b.drop 416) (aSize win)).map tileOf) x.accs
    present := x.present ++ (((List.range (8 * wSize win)).filter fun i => i != 0 && pres.testBit i).map fun i => 8 * wBase win + i) }

/-- The monitors that a block records as armed. -/
def armedOf (b : List Word) : List Nat := [0, 1, 2, 3].filter fun m => (wordOf b 3).getLsbD (9 + m)

/-- Arms a recorded monitor again, with its fired bit set (R149). DESIGN CHOICE (log 111): where the line's watch table is full, or
the pointer no longer translates, the monitor is armed and fired all the same, and watches no line. -/
def State.rearm (s : State) (t : Tid) (ctx asid m : Nat) (p : Word) : State :=
  let (o, s) := s.locate t.core ctx asid { r := true } p
  match o with
  | .ok pa key _ route _ =>
    let h := homeOf s.sys.image pa
    let mon : Mon := { ptr := p, line := pa / 64 * 64, route := route, fired := true, key := s.keyOf key }
    let s := s.upTid t fun th => { th with mons := th.mons.put m mon }
    if (s.bank h.num).watches.length < watchMax h then
      s.upBank h.num fun x => { x with watches := x.watches ++ [{ line := pa / 64 * 64, tid := t, mon := m, lat := latency t.core h }] }
    else s
  | .event _ _ => s.upTid t fun th => { th with mons := th.mons.put m { ptr := p, line := 0, route := .plain, fired := true } }

/-- The region of a restored thread: the one that was saved with it, or, where the block names another, the one that
its chain gives. -/
def State.regionOfBlock (s : State) (core part : Nat) (b : List Word) (keep : Option Saved) :
    Except (Option Nat) Region × State :=
  let rcb := wordOf b 18
  if rcb = 0 then (.ok {}, s)
  else match keep with
    | some k =>
      if k.rcb = rcb then (.ok k.region, s)
      else s.chainAs core (s.ctxOf core) part (wordOf b 19).toNat { first := core, rows := 1, cols := 1 } rcb [] 8
    | none => s.chainAs core (s.ctxOf core) part (wordOf b 19).toNat { first := core, rows := 1, cols := 1 } rcb [] 8

/-- Puts a restored thread into a slot of a core: it starts, and goes on with a recorded sleep when it has become ready (R57,
R191). -/
def State.bring (s : State) (core k : Nat) (win : Word) (b : List Word) (g : Region) (keep : Option Saved) : State :=
  let t := blockThread b win g
  let t := { t with deferred := restoredTraps b keep }
  let t := match keep with
    | some v => { t with strand := v.strand, frames := v.frames, child := v.child }
    | none => t
  let t := { t with relaxed := t.deferred.filterMap fun d => if d.code = cDIRTYFULL then d.held else none }
  let delay := s.startDelay core win
  let s := (s.settle core k t (s.cyc + delay)).upCore core fun x => x.fillFrom win b
  let s := match keep with
    | some v => match v.tid with
      | some old => s.rename old (s.tidAt core k)
      | none => s
    | none => s
  let s := match keep with
    | some v =>
      let mine (e : Cont) : Cont := { e with pusher := s.tidAt core k }
      s.upCore core fun x => { x with binds := x.binds ++ v.binds, caddy := x.caddy ++ v.inlined.map mine }
    | none => s
  let tid := s.tidAt core k
  let s := (armedOf b).foldl (fun s m => s.rearm tid (s.ctxOf core) t.asid.toNat m (wordOf b (20 + m))) s
  let wake := (wordOf b 25).toNat
  let s := if (wordOf b 3).getLsbD 14 then s.upThread core k fun t => { t with wakeAt := some wake } else s
  s.after delay 20 (.threadReady tid)

/-- A saved thread's eviction entry is cleared by its RESTORE. -/
def State.clearEvicted (s : State) (id : Word) : State :=
  let t := tidOf id
  match ((s.core t.core).slot t.slot).evicted with
  | some (w, _) => if w = id then (s.upCore t.core fun x => x.upSlot t.slot fun sl => { sl with evicted := none }).drainCheck t.core else s
  | none => s

/-- A word on which a hold stands among those that arming a block's monitors again reads (R133). -/
def State.rearmHeld (s : State) (core : Nat) (b : List Word) : Option Nat :=
  (armedOf b).findSome? fun m =>
    s.heldWalk core (s.ctxOf core) ((wordOf b 19).setWidth 12 : BitVec 12).toNat { r := true } (wordOf b (20 + m))

/-- RESTORE acts on its core; it waits for a hold on a word of the chain that the block names, or of a walk for its monitors (R133).
Each word of the block counts as read (R101). -/
def State.restore (s : State) (n : Nat) (r : Req) (pa pb head : Nat) : State :=
  let core := (r.args.getD 3 0).toNat
  let read (s : State) : State := (s.countRead pa head).countRead pb (blockBytes / 8 - head)
  if 2 ^ 18 ≤ core ∨ !isCore core ∨ s.kernOf (s.ctxOf core) ≠ s.kernOf r.ctx then (read s).unitSays n (-3)
  else
    let (b, s) := s.getSplit (s.context (s.ctxOf core)).key pa pb head (blockBytes / 8)
    if !headerOk b pa then (read s).unitSays n (-2)
    else
      let part := (wordOf b 3).toNat % 8
      let keep := s.saved.find pa
      match s.regionOfBlock core part b keep with
      | (.error (some a), s) => s.awaitTurn a (.bankRequestArrival n)
      | (.error none, s) => (read s).unitSays n (-2)
      | (.ok g, s') =>
        match s'.rearmHeld core b with
        | some a => s.awaitTurn a (.bankRequestArrival n)
        | none =>
        let s := read s'
        match s.freeSlot core part with
        | none => s.unitSays n (-1)
        | some k =>
          match s.windowFor core k (wSize (wordOf b 2)) (vSize (wordOf b 2)) (aSize (wordOf b 2)) with
          | none => s.unitSays n (-1)
          | some win =>
            let s := s.bring core k win b g keep
            let s := if (wordOf b 0).getLsbD 63 then s
              else s.clearEvicted (BitVec.ofNat 64 ((wordOf b 0).toNat % 2 ^ 32))
            let s := { s with saved := s.saved.drop pa }
            s.reply n [Tid.word (s.tidAt core k)]

/-! ### Reaching a block -/

/-- Whether a word among some carries an uncorrectable error. -/
def State.poisoned (s : State) (a n : Nat) : Bool := s.errorIn a n == 2

/-- EVICT or RESTORE with both pages of its block known: it waits for a hold on one of the block's words, and RESTORE's read
meets the block's errors (R98, R101). -/
def State.blockKnown (s : State) (n : Nat) (r : Req) (pa pb head : Nat) : State :=
  let rest := blockBytes / 8 - head
  match s.heldWord [(pa, head), (pb, rest)] with
  | some a => (if r.args.getD 1 0 = 0 then s.evictStands n else s).awaitTurn a (.bankRequestArrival n)
  | none =>
  if (r.args.getD 1 0) = 0 then s.evict n r pa pb head
  else if s.poisoned pa head then (s.tellPoison (s.badWord pa head)).refuse n cPOISON (r.ptr + BitVec.ofNat 64 (s.badWord pa head - pa))
  else if s.poisoned pb rest then
    (s.tellPoison (s.badWord pb rest)).refuse n cPOISON (r.ptr + BitVec.ofNat 64 (8 * head + (s.badWord pb rest - pb)))
  else s.restore n r pa pb head

/-- The first page of a block has been reached: where the block goes on in another page, that page is translated too; in K
space its words are judged as those of the first, and the other frame is checked (R295 to R297, R334). -/
def State.blockReached (s : State) (n : Nat) (r : Req) : State :=
  let head := headWords r.ptr
  if head = blockBytes / 8 then s.blockKnown n r r.pa (r.pa + 8 * head) head
  else if spaceOf r.ptr = 4 then
    let pb := r.pa + 8 * head
    match s.runEvent r pb (blockBytes / 8 - head), s.admitEvent { r with pa := pb } with
    | some (e, info), _ => s.refuse n e info
    | none, some e => s.refuse n e r.ptr
    | none, none => s.blockKnown n r r.pa pb head
  else
    s.upReq n (fun q => { q with use := .stage stBlock2, ptr := r.ptr + BitVec.ofNat 64 (8 * head),
                                 args := r.args.take 4 ++ [BitVec.ofNat 64 r.pa, BitVec.ofNat 64 head] }) |>.begin n

/-- The second page of a block has been reached. -/
def State.blockReached2 (s : State) (n : Nat) (r : Req) : State :=
  s.blockKnown n r (r.args.getD 4 0).toNat r.pa (r.args.getD 5 0).toNat

end Sys2Proof.Machine
end

