-- ==== Sys2Proof/Machine/Partitions.lean ====
section
/-! DEFINITION. Partitions, contexts and their cores, keys, address spaces and rings, and draining: PARTSET, OWNSET and
DRAIN (R328 to R332, R341 to R346, R361). -/

namespace Sys2Proof.Machine

/-- PARTSET and OWNSET, as their units know them. -/
def uPartset : Nat := 7
def uOwnset : Nat := 8

/-- The stages at which PARTSET has read its record, and DRAIN its block. -/
def stPart : Nat := 23
def stDrain : Nat := 24

/-- Whether a context is one of the own contexts of another's kernel (R328). -/
def State.ownCtx (s : State) (kctx ctx : Nat) : Bool := s.io.ctxs.has ctx && s.kernOf ctx != 0 && s.kernOf ctx == s.kernOf kctx

/-- A parked instruction goes on to a unit. -/
def State.askOn (s : State) (r : Req) (args : List Word) (lat : Nat) : State :=
  match r.tid, r.tid.bind s.threadOf with
  | some t, some th =>
    let (n, s) := s.addReq { r with op := .unit, use := .stage stUnit, args := args, lat := lat, stage := .sent, route := .plain,
                                    ans := [], event := none, view := none, acq := none }
    (s.park t.core t.slot th.why (.reply n)).after (half lat) 12 (.bankRequestArrival n)
  | _, _ => s

/-- Extends a context's measurement by an operation on it, with its result (R361). -/
def State.measure (s : State) (ctx : Nat) (a b : Word) (v : Int) : State :=
  s.upCtx ctx fun x => { x with measured := x.measured ++ [(a, b, BitVec.ofInt 64 v)] }

/-- PARTSET and OWNSET answer. Every ASSIGN, BINDKEY, BINDASID and PARTSET that the context's own kernel issues for it extends its
measurement, with whatever result (R361). -/
def State.judged (s : State) (n : Nat) (r : Req) (ctx op : Nat) (v : Int) : State :=
  (if s.ownCtx r.ctx ctx && [3, 4, 6, uPartset].contains op then s.measure ctx r.opA r.opB v else s).unitSays n v

/-- Packets of a context, and messages at its cores, that waited for a place try again. -/
def State.retryCtx (s : State) (ctx : Nat) : State :=
  let s := s.dies.foldl (fun s d => d.2.queues.foldl (fun s q => q.2.foldl (fun s (p : Packet) =>
    if p.ctx = ctx then s.postAll 21 (.dispatch p.id) p.todo else s) s) s) s
  (s.coresOf ctx).foldl (fun s c =>
    (s.seatAll c (s.core c).doors).drainCheck c) s

/-! ### PARTSET (R341) -/

/-- PARTSET: the record is read first. -/
def execPartset (d a b : Reg) (s : State) : Out :=
  issue (plainKind [d, a, b]) s fun s x =>
    if !isKernelCtx (x.ctx s) then x.perm s 0x10
    else x.readBlock s (x.w s (rn b)) 2 16 stPart {} .mem none [BitVec.ofNat 64 (rn d), x.w s (rn a), x.w s (rn b)]

/-- The record has been read (args: d, W[a], W[b]): the cores and the memory controllers take it. -/
def State.partRead (s : State) (r : Req) : State :=
  s.askOn r ([r.args.getD 0 0, BitVec.ofNat 64 uPartset] ++ r.args.drop 1 ++ r.ans.take 2) 600

/-- Whether a thread of a partition lives on a core of its context. -/
def State.partLives (s : State) (ctx p : Nat) : Bool :=
  (s.coresOf ctx).any fun c => (s.core c).threads.any fun t => t.2.part == p

/-- PARTSET's effect (args: d, code, W[a], W[b], the record). -/
def State.partset (s : State) (n : Nat) (r : Req) : State :=
  let a := r.opA
  let ctx := a.toNat % 65536
  let p := a.toNat / 65536 % 8
  let mask := (r.args.getD 4 0).toNat
  let w := r.args.getD 5 0
  let banks := w.toNat % 256
  let weight := w.toNat / 256 % 256
  let parts := (s.context ctx).parts
  if a.extractLsb' 19 45 ≠ 0 ∨ w.extractLsb' 16 48 ≠ 0 then s.judged n r ctx uPartset (-4)
  else if !s.ownCtx r.ctx ctx then s.unitSays n (-1)
  else if (parts.any fun e => e.1 != p && (mask &&& e.2.slots) != 0) || (weight != 0 && (mask == 0 || banks == 0)) ||
      (weight == 0 && s.partLives ctx p) then s.judged n r ctx uPartset (-3)
  else
    let s := s.upCtx ctx fun x => { x with parts := x.parts.put p { slots := mask, banks := banks, weight := weight } }
    (s.retryCtx ctx).judged n r ctx uPartset 0

/-! ### OWNSET (R330, R331) -/

/-- The time of OWNSET (R331). -/
def ownsetTime (a b : Word) : Nat :=
  if a.toNat % 256 = 3 then 4096 + 8 * (match rectOf b with | some r => r.rows * r.cols | none => 0) else 2000

/-- Issues OWNSET. -/
def issueOwnset (d a b : Reg) (s : State) : Out :=
  issue (plainKind [d, a, b]) s fun s x =>
    if !isKernelCtx (x.ctx s) then x.perm s 0x10
    else
      let va := x.w s (rn a)
      let vb := x.w s (rn b)
      x.askUnit s d uOwnset [va, vb] (ownsetTime va vb) 0 .bankRequestArrival

/-- OWNSET CREATE. -/
def execOwnsetCreate (d a b : Reg) (s : State) : Out := issueOwnset d a b s

/-- OWNSET DESTROY. -/
def execOwnsetDestroy (d a b : Reg) (s : State) : Out := issueOwnset d a b s

/-- OWNSET ASSIGN. -/
def execOwnsetAssign (d a b : Reg) (s : State) : Out := issueOwnset d a b s

/-- OWNSET BINDKEY. -/
def execOwnsetBindkey (d a b : Reg) (s : State) : Out := issueOwnset d a b s

/-- OWNSET UNBINDKEY. -/
def execOwnsetUnbindkey (d a b : Reg) (s : State) : Out := issueOwnset d a b s

/-- OWNSET BINDASID. -/
def execOwnsetBindasid (d a b : Reg) (s : State) : Out := issueOwnset d a b s

/-- OWNSET UNBINDASID. -/
def execOwnsetUnbindasid (d a b : Reg) (s : State) : Out := issueOwnset d a b s

/-- OWNSET SETRING. -/
def execOwnsetSetring (d a b : Reg) (s : State) : Out := issueOwnset d a b s

/-- OWNSET SETINBOX. -/
def execOwnsetSetinbox (d a b : Reg) (s : State) : Out := issueOwnset d a b s

/-- A free tenant context id, the lowest, while fewer than 4,096 are live (R328). -/
def State.freeCtx (s : State) : Option Nat :=
  if 4096 ≤ (s.io.ctxs.filter fun e => decide (3 ≤ e.1)).length then none
  else firstFrom (fun c => !s.io.ctxs.has c) 3 65533

/-- The lowest free key id. -/
def State.freeKid (s : State) : Option Nat := firstFrom (fun k => !s.io.kids.has k) 1 4095

/-- The context that CREATE makes, with the key id granted. -/
def State.createWith (s : State) (n : Nat) (r : Req) (c : Nat) (kid : Option Nat) : State :=
  if s.io.rngFails then s.unitSays n (-2)
  else
    let (key, s) := s.draw
    let v : Nat := c + (match kid with | some k => k * 65536 | none => 0)
    let s := s.upIo fun io =>
      { io with ctxs := io.ctxs.put c { kern := s.kernOf r.ctx, conf := r.opB.getLsbD 0, key := key }
                kids := match kid with | some k => io.kids.put k (r.ctx, key) | none => io.kids }
    (s.measure c r.opA r.opB v).unitSays n v

/-- CREATE: a tenant context with a fresh key. The results are judged in the order −3, −1, −2 (log 13). -/
def State.createCtx (s : State) (n : Nat) (r : Req) : State :=
  let grant := r.opB.getLsbD 1
  if r.opB.getLsbD 0 && grant then s.unitSays n (-3)
  else match s.freeCtx, s.freeKid with
    | none, _ => s.unitSays n (-1)
    | some c, some k => s.createWith n r c (if grant then some k else none)
    | some c, none => if grant then s.unitSays n (-1) else s.createWith n r c none

/-- Whether an address space is bound to a context. -/
def State.holdsAsid (s : State) (ctx : Nat) : Bool :=
  s.io.asids.any fun e => e.1 % 8 == 0 && e.2.getLsbD 63 && e.2.toNat % 65536 == ctx

/-- DESTROY: the context's translations are shot down, and then it is gone. -/
def State.destroyCtx (s : State) (n ctx : Nat) : State :=
  if ctx < 3 ∨ !(s.coresOf ctx).isEmpty ∨ s.holdsAsid ctx then s.unitSays n (-3)
  else s.shootDown { req := some n, kind := .destroy, ctx := ctx } 30 60

/-- Whether a core is empty (R330). -/
def Core.empty (x : Core) : Bool :=
  (x.slots.all fun e => e.2.thread.isNone && e.2.evicted.isNone) &&
  (x.copy.queue ++ x.copy.flight).isEmpty && (x.vector.queue ++ x.vector.flight).isEmpty &&
  (x.matrix.queue ++ x.matrix.flight).isEmpty && x.caddy.isEmpty && x.binds.isEmpty && x.matrix.latch.isEmpty &&
  x.matrix.coming == 0

/-- A core cleared for a context (R330): generations and the count of corrected errors stay. -/
def Core.cleared (x : Core) (owner : Word) (ctx : Nat) : Core :=
  { owner := owner, slots := x.slots.mapVals fun sl => { gen := sl.gen }, issueAt := x.issueAt, issued := x.issued, held := x.held, claimed := x.claimed,
    pressed := x.pressed, doors := x.doors, links := x.links, fixed := x.fixed, keys := [.id 0 ctx], probing := x.probing,
    matrix := { broken := x.matrix.broken, ePrev := x.matrix.ePrev } }

/-- The team barriers that hold a core become unconfigured (R72, R330). -/
def State.unbar (s : State) (c : Nat) : State :=
  let cl := clusterOf c
  (List.range 32).foldl (fun s b => if (s.bar cl b).members.testBit (localIndex c) then s.unconfigure cl b else s) s

/-- Clears a core and gives it to a context. -/
def State.clearCore (s : State) (c ctx : Nat) : State :=
  let x := s.context ctx
  let s := if isLarge c then s else s.unbar c
  let s := (s.upCore c fun y => y.cleared (ownerWord (isKernelCore c || isLarge c) x.conf x.kern ctx) ctx).retryPressed c
  if isSmall c then s.tryForward (predecessor c) else s

/-- ASSIGN: the cores of a set move to the target. -/
def State.assign (s : State) (n : Nat) (r : Req) (ctx : Nat) : State :=
  match rectOf r.opB with
  | none => s.judged n r ctx 3 (-4)
  | some q =>
    if !q.onDie || (q.cores.any fun c => isKernelCore c || !(s.core c).empty || !s.ownCtx r.ctx (s.ctxOf c)) then
      s.judged n r ctx 3 (-3)
    else
      let s := q.cores.foldl (fun s c => s.clearCore c ctx) s
      (s.retryCtx ctx).judged n r ctx 3 0

/-- BINDKEY: a fresh key under the lowest free key id. -/
def State.bindKey (s : State) (n : Nat) (r : Req) (ctx : Nat) : State :=
  match s.freeKid with
  | none => s.judged n r ctx 4 (-1)
  | some k =>
    if s.io.rngFails then s.judged n r ctx 4 (-2)
    else
      let (key, s) := s.draw
      let s := s.upIo fun io => { io with kids := io.kids.put k (ctx, key) }
      s.judged n r ctx 4 k

/-- UNBINDKEY: every translation under the key id is shot down, and then it is free. -/
def State.unbindKey (s : State) (n : Nat) (r : Req) (ctx : Nat) : State :=
  let k := r.opB.toNat
  if s.kidBound k ctx then s.shootDown { req := some n, kind := .unbindKey, kid := k, ctx := ctx } 100 200 else s.unitSays n (-3)

/-- BINDASID: word 0 of the descriptor is written. -/
def State.bindAsid (s : State) (n : Nat) (r : Req) (ctx : Nat) : State :=
  let i := r.opB.toNat
  if (s.desc i 0).getLsbD 63 then s.judged n r ctx 6 (-3)
  else
    let v : Word := BitVec.ofNat 64 (2 ^ 63 + (s.kernOf ctx - 1) * 65536 + ctx)
    let s := s.upIo fun io => { io with asids := io.asids.put (i * 8) v }
    s.judged n r ctx 6 0

/-- UNBINDASID: valid is cleared, and the space's translations are shot down. -/
def State.unbindAsid (s : State) (n : Nat) (r : Req) (ctx : Nat) : State :=
  let i := r.opB.toNat
  let w := s.desc i 0
  if w.getLsbD 63 ∧ w.toNat % 65536 ≠ ctx then s.unitSays n (-3)
  else
    let s := s.upIo fun io => { io with asids := io.asids.put (i * 8) (w &&& 0x7FFFFFFFFFFFFFFF) }
    s.shootDown { req := some n, kind := .unbindAsid, asid := i } 100 200

/-- The ring that a pointer names: K space, 64-aligned, 2^4 to 2^20 records. -/
def ringOf (p : Word) (key : Nat) : Option RingRef :=
  let l := p.toNat % 32
  if spaceOf p = 4 ∧ !p.getLsbD 5 ∧ 4 ≤ l ∧ l ≤ 20 then some { base := offsetOf p / 64 * 64, log2 := l, key := key, prod := 0 }
  else none

/-- A record writer gives up its wait for a ring. -/
def State.stopWriter (s : State) (u : Use) : State :=
  s.reqs.foldl (fun s e => if e.2.use == u then s.withdraw e.1 else s) s

/-- SETRING: names the target's fault ring. -/
def State.setRing (s : State) (n : Nat) (r : Req) (ctx : Nat) : State :=
  match ringOf r.opB (s.context r.ctx).key with
  | none => s.unitSays n (-4)
  | some g =>
    let s := s.stopWriter (faultWait ctx)
    let s := s.upCtx ctx fun x => { x with ring := some g, writing := s.reqs.any fun e => e.2.use == faultPut ctx }
    (s.after 0 30 (.faultRecordWrite ctx)).unitSays n 0

/-- SETINBOX: names the inbox of the issuer's kernel. -/
def State.setInbox (s : State) (n : Nat) (r : Req) (ctx : Nat) : State :=
  match ringOf r.opB (s.context r.ctx).key with
  | none => s.unitSays n (-4)
  | some g =>
    if ctx ≠ r.ctx then s.unitSays n (-4)
    else
      let k := s.kernOf r.ctx
      let s := s.stopWriter (noticeWait k)
      let s := s.upKernel k fun x => { x with inbox := some g, writing := s.reqs.any fun e => e.2.use == noticePutting k }
      (s.after 0 30 (.noticeWrite k)).unitSays n 0

/-- Whether the reserved bits of OWNSET's operands are zero, and the operation is in the table. -/
def ownsetOk (a b : Word) : Bool :=
  a.extractLsb' 24 40 == 0 &&
  (match a.toNat % 256 with
   | 1 => b.extractLsb' 2 62 == 0 && a.toNat / 256 == 0
   | 2 => b == 0
   | 3 => (rectOf b).isSome
   | 4 => b == 0
   | 5 => b.extractLsb' 12 52 == 0
   | 6 => b.extractLsb' 12 52 == 0
   | 7 => b.extractLsb' 12 52 == 0
   | 8 => (ringOf b 0).isSome
   | 9 => (ringOf b 0).isSome
   | _ => false)

/-- OWNSET at the security core. -/
def State.ownset (s : State) (n : Nat) (r : Req) : State :=
  let ctx := r.opA.toNat / 256 % 65536
  let op := r.opA.toNat % 256
  if !ownsetOk r.opA r.opB then (if op = uPartset then s.unitSays n (-4) else s.judged n r ctx op (-4))
  else if op = 1 then s.createCtx n r
  else if !s.ownCtx r.ctx ctx then s.unitSays n (-1)
  else match op with
    | 2 => s.destroyCtx n ctx
    | 3 => s.assign n r ctx
    | 4 => s.bindKey n r ctx
    | 5 => s.unbindKey n r ctx
    | 6 => s.bindAsid n r ctx
    | 7 => s.unbindAsid n r ctx
    | 8 => s.setRing n r ctx
    | _ => s.setInbox n r ctx

/-! ### DRAIN (R344, R345) -/

/-- Issues DRAIN: its block is read first. -/
def issueDrain (d a b : Reg) (s : State) : Out :=
  issue (plainKind [d, a, b]) s fun s x =>
    if !isKernelCtx (x.ctx s) then x.perm s 0x10
    else x.readBlock s (x.w s (rn b)) 4 32 stDrain {} .mem none [BitVec.ofNat 64 (rn d), x.w s (rn a), BitVec.ofNat 64 s.cyc]

/-- DRAIN of a block without resume. -/
def execDrain (d a b : Reg) (s : State) : Out := issueDrain d a b s

/-- DRAIN of a block with resume. -/
def execDrainResume (d a b : Reg) (s : State) : Out := issueDrain d a b s

/-- Whether a drain block is well-formed (Table 19.8). -/
def drainOk (b : List Word) : Bool :=
  (wordOf b 0).extractLsb' 21 43 == 0 && decide ((wordOf b 1).toNat ≤ 2 ^ 32) && (wordOf b 3).extractLsb' 32 32 == 0 &&
    (wordOf b 2 == 0 || (spaceOf (wordOf b 2) == 4 && decide (offsetOf (wordOf b 2) % 256 = 0)))

/-- The partitions that a drain block names. -/
def drainPart (b : List Word) : Option Nat := if (wordOf b 0).getLsbD 19 then none else some (fieldOf b 0 16 3)

/-- The numbers of the partitions named. -/
def partsOf (p : Option Nat) : List Nat := match p with | some q => [q] | none => List.range 8

/-- Placement of some partitions stops on a core, or goes on. -/
def State.stopPlace (s : State) (ps : List Nat) (stop : Bool) (c : Nat) : State :=
  let s := s.upCore c fun x =>
    let l := x.stopped.filter fun p => !ps.contains p
    { x with stopped := if stop then l ++ ps else l }
  if stop then s else s.vacated c

/-- DRAIN has read its block (args: d, W[a], the cycle of its issue). What the units that serve memory do in a cycle comes before its
limit in that cycle (R106). -/
def State.drainRead (s : State) (r : Req) : State :=
  let d := (r.args.getD 0 0).toNat
  let b := r.ans
  let ctx := fieldOf b 0 0 16
  match r.tid, rectOf (r.args.getD 1 0) with
  | some t, some q =>
    if !drainOk b || !s.ownCtx r.ctx ctx then s.answerErr r d (-4)
    else if !q.onDie || (q.cores.any fun c => s.ctxOf c != ctx) then s.answerErr r d (-3)
    else if (wordOf b 0).getLsbD 20 then
      (q.cores.foldl (fun s c => s.stopPlace (partsOf (drainPart b)) false c) s).answer r d 0
    else
      let s := q.cores.foldl (fun s c => s.stopPlace (partsOf (drainPart b)) true c) s
      let limit := (r.args.getD 2 0).toNat + (wordOf b 1).toNat
      let (n, s) := s.addReq { r with op := .unit, use := .stage stUnit, args := [BitVec.ofNat 64 d], lat := 0, stage := .stalled,
                                      ans := [], event := none, acq := none, view := none, route := .plain }
      let e : Drain := { ctx := ctx, part := drainPart b, cores := q.cores, limit := limit, area := (wordOf b 2).toNat,
                         blocks := (wordOf b 3).toNat, dpa := r.pa + 24, dkey := r.key, seen := r.view.isSome }
      let s := (s.upIo fun io => { io with drains := io.drains.put n e }).park t.core t.slot .mem (.reply n)
      let s := if e.area = 0 then s else s.post (max s.cyc limit) 46 (.drainLimitExpiry n)
      s.after 0 46 (.drainLimitExpiry n)
  | _, _ => s.answerErr r d (-4)

/-- What is left of a drained set: a thread in a slot, or a continuation. -/
inductive Item where
  | thread (core slot : Nat)
  | cont (core : Nat) (e : Cont)

/-- Whether a partition is one of those drained. -/
def Drain.of (d : Drain) (p : Nat) : Bool := match d.part with | none => true | some q => p == q

/-- The next item of a drained set: cores in set order, threads by slot, then the oldest continuation. -/
def State.nextItem (s : State) (d : Drain) : Option Item :=
  d.cores.findSome? fun c =>
    match (s.core c).threads.find? fun t => d.of t.2.part with
    | some t => some (.thread c t.1)
    | none => ((s.core c).caddy.find? fun e => e.inlined.isNone && d.of e.part).map fun e => .cont c e

/-- Whether a request holds up the save of its thread: it has been sent and is neither queued nor answered; a granted
reservation is given back instead (R345). R140 does not speak of a REL on its way: the save waits for its reply (DESIGN
CHOICE, log 97). -/
def Req.holdsUp (r : Req) : Bool :=
  match r.stage with
  | .sent | .refused => true
  | .held | .served => (match r.op with | .rsv _ => false | _ => true)
  | _ => false

/-- Whether a thread can be saved now (R345). -/
def State.savable (s : State) (c k : Nat) (t : Thread) : Bool :=
  let id := s.tidAt c k
  !(s.reqs.any fun e => e.2.tid == some id && !e.2.ofEngine && e.2.holdsUp) && s.quiet t && !s.inMatrix c t &&
    !(s.msgs.any fun m => match m.2 with | .move dest _ _ => dest == id | _ => false)

/-- The block of a continuation (R345): the thread that it would start, with its pusher's identifier. -/
def contWords (e : Cont) (pa : Nat) : List Word :=
  let v : SaveOf :=
    { ident := 0x8000000000000000 ||| Tid.word e.pusher, pc := e.pc,
      regs := (List.range 128).map fun i => if i = e.reg ∧ i ≠ 0 then e.word else 0
      vregs := List.replicate 32 0, accs := List.replicate 8 0, pres := 0 }
  saveWords (contThread e e.win) v none pa

/-- Saves a continuation into a block. -/
def State.saveCont (s : State) (c : Nat) (e : Cont) (pa : Nat) : State :=
  let ctx := s.ctxOf c
  let keep : Saved := { rcb := e.rcb, region := e.region, strand := e.strand, frames := e.frames, child := e.child, binds := [],
                        inlined := [], tid := none, deferred := [] }
  let s := s.putWords c ctx (s.context ctx).key pa (contWords e pa)
  { (s.dropCont c e) with saved := s.saved.put pa keep }

/-- The event of the save area's block at an address, if it may not be written (R295 to R297, R334, R357). -/
def State.areaEvent (s : State) (q : Req) (pa : Nat) : Option (Nat × Word) :=
  let w (a : Nat) : Req := { q with op := .write [] true, ptr := BitVec.ofNat 64 (4 * 2 ^ 57 + a), pa := a }
  let one (a : Nat) : Option (Nat × Word) :=
    if s.lostAt a then some (cPOISON, (w a).ptr) else (s.admitEvent (w a)).map fun e => (e, (w a).ptr)
  let last := pa + blockBytes - 8
  (s.runEvent (w pa) pa (blockBytes / 8)).orElse fun _ =>
    (s.runEvent (w last) last 1).orElse fun _ => (one pa).orElse fun _ => one last

/-- A DRAIN's count goes into its block, as a store of its thread: the pointer is translated for writing, the frame is checked, and
a clean page is logged first (R303, R304, R334, R357); a block in a view is written there. The store meets an event, or a hold that it
waits for (R133). -/
def State.drainCount (s : State) (q : Req) (d : Drain) : Except Stop Unit × State :=
  let v := BitVec.ofNat 64 d.saved
  let p := q.ptr + 24
  if d.seen then (.ok (), s.putWords q.core q.ctx d.dkey d.dpa [v])
  else match s.heldWalk q.core q.ctx q.asid { w := true } p with
    | some a => (.error (.held a), s)
    | none =>
    match s.locate q.core q.ctx q.asid { w := true } p with
    | (.event code info, s) => (.error (.event code info), s)
    | (.ok pa key _ _ log, s) =>
      let w : Req := { q with op := .write [v] true, ptr := p, pa := pa }
      if s.lostAt pa then (.error (.event cPOISON p), s)
      else match s.admitEvent w, s.tableEvent w with
        | some code, _ => (.error (.event code p), s)
        | none, some (code, info) => (.error (.event code info), s)
        | none, none =>
          if s.heldIn pa 1 then (.error (.held pa), s)
          else match (match log with | some leaf => s.logNow q.core q.asid p leaf | none => (.ok (), s)) with
          | (.error e, s) => (.error e, s)
          | (.ok (), s) => (.ok (), s.putWords q.core q.ctx (s.keyOf key) pa [v])

/-- A DRAIN goes on when its turn comes at a word on which a hold stands (R133). -/
def State.drainWaits (s : State) (r : Nat) (d : Drain) (a : Nat) : State :=
  (s.upIo fun io => { io with drains := io.drains.put r d }).awaitTurn a (.drainLimitExpiry r) 46

/-- What a DRAIN's count has come to. -/
inductive Count where
  | done
  | held (a : Nat)
  | met (code : Nat) (info : Word)

/-- A DRAIN ends with a number: the count goes into its block, and eviction entries are cleared. Where the count's store meets an
event, the event is DRAIN's own (DEDUCED, log 110). -/
def State.drainEnd (s : State) (r : Nat) (d : Drain) (v : Int) : State :=
  let s := s.upIo fun io => { io with drains := io.drains.drop r }
  let (met, s) : Count × State := match s.reqs.find r with
    | none => (.done, s)
    | some q => match s.drainCount q d with
      | (.ok (), s) => (.done, s)
      | (.error (.held a), s) => (.held a, s)
      | (.error (.event code info), s) => (.met code info, s)
  let clear (sl : Slot) : Slot :=
    match sl.evicted with
    | some (_, p) => if d.of p then { sl with evicted := none } else sl
    | none => sl
  let s := if v < 0 then s
    else d.cores.foldl (fun s c => if (s.core c).slots.any fun e => e.2.evicted.isSome then
      s.upCore c fun x => { x with slots := x.slots.mapVals clear } else s) s
  match met with
  | .met code info => s.refuse r code info
  | .held a => s.drainWaits r d a
  | .done => s.unitSays r v

/-- Saves the items that are left, one after the other; one that cannot be saved yet is waited for. `fuel` bounds the
items. -/
def State.drainSave (s : State) (r : Nat) (q : Req) (d : Drain) : Nat → State
  | 0 => s
  | fuel + 1 =>
    match s.nextItem d with
    | none => s.drainEnd r d d.saved
    | some item =>
      let pa := offsetOf (BitVec.ofNat 64 d.area) + blockBytes * d.saved
      let wait (s : State) : State :=
        (s.upIo fun io => { io with drains := io.drains.put r d }).after 1 46 (.drainLimitExpiry r)
      if d.blocks ≤ d.saved then s.drainEnd r d (-5)
      else match s.areaEvent q pa with
        | some (code, info) => (s.upIo fun io => { io with drains := io.drains.drop r }).refuse r code info
        | none =>
          let next := { d with saved := d.saved + 1 }
          match s.heldWord [(pa, blockBytes / 8)] with
          | some a => s.drainWaits r d a
          | none => match item with
          | .thread c k =>
            match s.thread c k with
            | none => s
            | some t => if s.savable c k t then (s.saveThread c k pa pa (blockBytes / 8) false).drainSave r q next fuel else wait s
          | .cont c e =>
            if s.underWay e.waits then wait s else (s.saveCont c e pa).drainSave r q next fuel

/-- How many items a drained set holds. -/
def State.itemCount (s : State) (d : Drain) : Nat :=
  total (d.cores.map fun c => (s.core c).threads.length + (s.core c).caddy.length)

/-- DRAIN_LIMIT_EXPIRY (R344): the set is empty, or the limit has come and what is left is saved; its block's count waits for
a hold on it (R98). -/
def execDrainLimitExpiry (r : Nat) (s : State) : Out :=
  match s.io.drains.find r, s.reqs.find r with
  | some d, some q =>
    if s.heldIn d.dpa 1 then .next (s.drainWaits r d d.dpa)
    else if s.drained d then .next (s.drainEnd r d d.saved)
    else if d.area = 0 ∨ s.cyc < d.limit then .next s
    else .next (s.drainSave r q d (s.itemCount d + 1))
  | _, _ => .next (s.upIo fun io => { io with drains := io.drains.drop r })

end Sys2Proof.Machine
end

