-- ==== Sys2Proof/Machine/Rings.lean ====
section
/-! DEFINITION. Authenticated command rings, and the hot reset of the endpoint (R353 to R356). -/

namespace Sys2Proof.Machine

/-! ### An entry (R354, R355) -/

/-- Whether an entry's tag is right under the ring's key. -/
def Ring.tagOk (g : Ring) : Bool :=
  match g.key with
  | some k => ringTag k (g.entry.take 6) == (wordOf g.entry 7 ++ wordOf g.entry 6)
  | none => false

/-- Whether an entry's zero fields are zero (Table 20.2). -/
def Ring.zerosOk (g : Ring) : Bool :=
  (wordOf g.entry 1).extractLsb' 8 56 == 0 && wordOf g.entry 4 == 0 && wordOf g.entry 5 == 0

/-- Adds one to a 32-bit count in a word, at a bit, saturating. -/
def countUp (w : Word) (lo : Nat) : Word :=
  let n := w.toNat / 2 ^ lo % 2 ^ 32
  if n = 2 ^ 32 - 1 then w else w + BitVec.ofNat 64 (2 ^ lo)

/-- Adds one to a count of a ring. -/
def State.ringCount (s : State) (n i lo : Nat) : State :=
  s.upRing n fun g => { g with ws := g.ws.put i (countUp (g.word i) lo) }

/-- The slot of the entry is emptied, and i advances. -/
def State.emptySlot (s : State) (n : Nat) : State :=
  (s.ringSend n .sete .none ((s.ring n).next + 56)).upRing n fun g => { g with i := g.i + 1 }

/-- A ring unit is done with its entry, and goes on while it runs. -/
def State.ringDone (s : State) (n : Nat) : State :=
  (s.upRing n fun g => { g with entry := [], due := false }).ringStart n

/-- Stores a value with STS as a thread of the ring's context: nothing, where the access would meet an event. -/
def State.ringStore (s : State) (n : Nat) (p v : Word) : State :=
  match effective p 7 with
  | .error _ => s
  | .ok _ =>
    let s := s.upCore (ringCore n) fun x => { x with owner := BitVec.ofNat 64 (s.ring n).ctx }
    if p.toNat % 8 ≠ 0 ∨ spaceOf p = 1 ∨ (s.spaceEvent (ringCore n) 0 p).isSome then s else s.ringSend n (.sts v) .none p

/-- Judges an entry in the order of R355: it is dropped, or halts the ring, or its slot is emptied, expect rises, and it is
performed. A launch that waits for room was accepted before. -/
def State.ringJudge (s : State) (n : Nat) (perform : State → State) : State :=
  let g := s.ring n
  let q := wordOf g.entry 0
  let want := g.word 2
  if g.entry = [] then s
  else if g.due then perform s
  else if !g.tagOk || !g.zerosOk then ((s.emptySlot n).ringCount n 4 32).ringDone n
  else if q.toNat < want.toNat then ((s.emptySlot n).ringCount n 4 0).ringDone n
  else if want.toNat < q.toNat then
    s.upRing n fun g => { g with ws := (g.ws.put 3 2).put 5 q, entry := [] }
  else perform ((s.emptySlot n).upRing n fun g => { g with ws := g.ws.put 2 (want + 1) })

/-- What a ring unit's LAUNCH makes of a packet. -/
inductive RingPacket where
  /-- a result that says why it is not launched (R66) -/
  | result (v : Int)
  | packet (p : Packet) (rect : Rect)
  /-- a hold stands on a word that it reads (R133) -/
  | held (a : Nat)

/-- What a ring unit's LAUNCH makes of the packet at a pointer (R66, R266); the words that it reads count (R101). -/
def State.ringPacket (s : State) (n : Nat) (p : Word) : RingPacket × State :=
  let g := s.ring n
  let s := s.upCore (ringCore n) fun x => { x with owner := BitVec.ofNat 64 g.ctx }
  if p.toNat % 128 ≠ 0 then (.result (-1), s)
  else match s.wordsAs (ringCore n) g.ctx 0 g.asid p 16 with
    | (.error (some a), s) => (.held a, s)
    | (.error none, s) => (.result (-2), s)
    | (.ok got, s') =>
      let ws := got.map Prod.fst
      match s'.packetCheck g.ctx ws with
      | .error e => (.result e, s')
      | .ok rect =>
        match s'.chainAs (ringCore n) g.ctx 0 g.asid rect (wordOf ws 0) [] 8 with
        | (.error (some a), _) => (.held a, s)
        | (.error none, s) => (.result (-2), s)
        | (.ok r, s) => (.packet { id := 0, ptr := p, ws := ws, ctx := g.ctx, part := 0, region := r, todo := [] } rect, s)

/-- The entry of kind 1 is performed: its packet is launched, or waits for room in its queue or for a hold on a word that it
reads, and the result stored. -/
def State.ringLaunch (s : State) (n : Nat) : State :=
  let e := (s.ring n).entry
  let finish (s : State) (v : Int) : State := (s.ringStore n (wordOf e 3) (BitVec.ofInt 64 v)).ringDone n
  let due (s : State) : State := s.upRing n fun g => { g with due := true }
  match s.ringPacket n (wordOf e 2) with
  | (.held a, s) => (due s).awaitTurn a (.ringEntryLaunch n)
  | (.result v, s) => finish s v
  | (.packet p rect, s') =>
    if s'.queueRoom (dieOf rect.first) p.region.cls then finish (s'.enqueue p rect) 0 else (due s).after 1 20 (.ringEntryLaunch n)

/-- RING_ENTRY_LAUNCH (R355, kind 1). -/
def execRingEntryLaunch (ring : Nat) (s : State) : Out := .next (s.ringJudge ring fun s => s.ringLaunch ring)

/-- RING_ENTRY_FILL (R355, kind 2). -/
def execRingEntryFill (ring : Nat) (s : State) : Out :=
  .next (s.ringJudge ring fun s =>
    let e := (s.ring ring).entry
    (s.ringStore ring (wordOf e 2) (wordOf e 3)).ringDone ring)

/-- RING_ENTRY_UNKNOWN_KIND (R355). -/
def execRingEntryUnknownKind (ring : Nat) (s : State) : Out :=
  .next (s.ringJudge ring fun s => (s.ringCount ring 6 0).ringDone ring)

/-- A ring unit's next entry has become full: it is read (R355). -/
def State.ringLooked (s : State) (n : Nat) : State := s.ringSend n (.block 8) (ringRead n) (s.ring n).next

/-- A ring unit has read its entry: the step that judges it, by its kind. -/
def State.ringGot (s : State) (n : Nat) (ws : List Word) : State :=
  let s := s.upRing n fun g => { g with entry := ws }
  match (wordOf ws 1).toNat % 256 with
  | 1 => s.after 0 20 (.ringEntryLaunch n)
  | 2 => s.after 0 20 (.ringEntryFill n)
  | _ => s.after 0 20 (.ringEntryUnknownKind n)

/-! ### Hot reset (R356) -/

/-- Sessions over the endpoint's mailbox are numbered below this; those over Exrin Link ports from it on. -/
def doeSessions : Nat := 65536

/-- A request of a thread that is out behind the endpoint completes as an Unsupported Request: a load returns ones. -/
def State.failFar (s : State) (n : Nat) (r : Req) : State :=
  let ones := match r.op with
    | .load k sg => [extractBytes (BitVec.allOnes 64) 0 k sg]
    | .block k => List.replicate k (BitVec.allOnes 64)
    | _ => [BitVec.allOnes 64]
  if r.stage = .sent then s.reply n ones else s.upReq n fun r => { r with ans := ones }

/-- HOT_RESET (R356): an inbound write that has not been sent to a route is discarded, with the procedure of R304 that precedes it. -/
def execHotReset (s : State) : Out :=
  let rs := (List.range 64).filter fun n => (s.ring n).state = 1
  let s := rs.foldl (fun s n => (s.ringStop n).upRing n fun g => { g with ws := g.ws.put 3 2 }) s
  let going (i : Inbound) : Bool := i.src == 0 && i.read == 0
  let s := (s.links.inbound.filter going).foldl (fun s i => match i.req with | some n => s.dropReq n | none => s) s
  let s := s.upLinks fun l =>
    { l with rings := l.rings.mapVals (fun g => { g with key := none })
             inbound := l.inbound.filter (fun i => !going i)
             sessions := l.sessions.filter fun e => decide (doeSessions ≤ e.1) }
  let far := s.reqs.filter fun e => decide (tierOf e.2.pa = 2) && (e.2.stage == .sent || e.2.stage == .served)
  let s := far.foldl (fun s e => s.failFar e.1 e.2) s
  let s := (s.links.farWrites.filter fun w => w.2.2).foldl (fun s w => s.after 0 7 (.farEndCompletion w.2.1)) s
  .next (s.notice 1 10 0 0)

end Sys2Proof.Machine
end

