-- ==== Sys2Proof/Machine/Inbound.lean ====
section
/-! DEFINITION. What comes in over the endpoint and the Exrin Link: the ordering point, inbound writes and reads, flits
(R118, R309, R352, R358, R365). -/

namespace Sys2Proof.Machine

/-- The number by which the endpoint and the Exrin Link ports issue requests, as a core does (log 10). -/
def portCore : Nat := 2 ^ 19

/-- How inbound writes and reads of a source are told apart. -/
def inWrite (src : Nat) : Use := .record (2 ^ 44 + src)
def inRead (src : Nat) : Use := .record (2 ^ 45 + src)

/-- Whether bring-up has completed. -/
def Sys.isReady (y : Sys) : Bool := y.ready.getLsbD 0

/-- The context and the address space in which a source's requests are made: the endpoint's space; another package's
requests name physical addresses, checked as the host kernel's (log 19). -/
def State.inCtx (s : State) (src : Nat) : Nat × Nat :=
  if src = 0 then ((s.desc s.links.asid 0).toNat % 65536, s.links.asid) else (1, 0)

/-- The bytes that one part of an inbound request takes at an address: up to the end of a 1 KiB block, so that it has one
route; of a write either whole words or one aligned piece of a word (DEDUCED, log 93). -/
def partAt (a n : Nat) (read : Bool) : Nat :=
  if read then min n (1024 - a % 1024)
  else if a % 8 = 0 ∧ 8 ≤ n then 8 * min (n / 8) ((1024 - a % 1024) / 8)
  else if a % 4 = 0 ∧ 4 ≤ n then 4
  else if a % 2 = 0 ∧ 2 ≤ n then 2
  else 1

/-- Splits a run of bytes into the parts of an inbound request: offset and number of bytes. -/
def partsAt (p : Word) (read : Bool) (at0 : Nat) : Nat → Nat → List (Nat × Nat)
  | 0, _ => []
  | fuel + 1, n =>
    if n = 0 then []
    else
      let k := partAt (p.toNat + at0) n read
      (at0, k) :: partsAt p read (at0 + k) fuel (n - k)

/-- An inbound request comes to the ordering point, in parts of one route each. -/
def State.comeIn (s : State) (src : Nat) (p : Word) (data : List Byte) (read : Nat) (ro : Bool) : State :=
  let n := if read = 0 then data.length else read
  let s := (partsAt p (read != 0) 0 (n + 1) n).foldl (fun s e =>
    let (q, s) := s.fresh
    let i : Inbound :=
      { seq := q, addr := p + BitVec.ofNat 64 e.1, data := (data.drop e.1).take e.2, read := if read = 0 then 0 else e.2,
        ro := ro, src := src }
    s.upLinks fun l => { l with inbound := l.inbound ++ [i] }) s
  s.after 0 20 .orderingPointSend

/-- What an inbound request does where it is served: whole words are written full, a piece of a word is stored as a
sub-word store that sets the word full (R98, R352), and a read reads the words of its bytes. -/
def Inbound.op (i : Inbound) : MemOp :=
  if i.read ≠ 0 then .block ((i.addr.toNat % 8 + i.read + 7) / 8)
  else if i.addr.toNat % 8 = 0 ∧ i.data.length % 8 = 0 then .write (wordsOfBytes i.data (i.data.length / 8)) true
  else .sub i.data.length ((wordsOfBytes i.data 1).getD 0 0) true

/-- Changes a request at the ordering point. -/
def State.upIn (s : State) (q : Nat) (f : Inbound → Inbound) : State :=
  s.upLinks fun l => { l with inbound := l.inbound.map fun j => if j.seq = q then f j else j }

/-- Takes a request out of the ordering point. -/
def State.takeIn (s : State) (i : Inbound) : State :=
  s.upLinks fun l => { l with inbound := l.inbound.filter fun j => j.seq != i.seq }

/-- An inbound request leaves the ordering point for its route; a write is noted until it is acknowledged. -/
def State.letIn (s : State) (i : Inbound) (n : Nat) (b : Nat) : State :=
  let s := s.takeIn i
  let s := if i.read = 0 then s.upLinks fun l => { l with sending := l.sending ++ [(n, i.seq, b, i.src)] } else s
  s.go n

/-- Sends an inbound request to the place its address translates to; where it may not go, it is answered with
Unsupported Request, and so is one of the upstream host whose address lies outside its address space (R352). A hold on a word that the
translation reads is waited for (R133). A write that is not relaxed waits for the earlier writes to other routes (R118). A key fill (R308), and
the procedure of a first write to a clean page (R304), come before it leaves, so that the writes to one route leave in the
order of their arrival. -/
def State.sendIn (s : State) (i : Inbound) : State :=
  let waits : Bool := i.req.isSome || (match i.ready with | some t => decide (s.cyc < t) | none => false)
  if waits then s
  else
  let (ctx, asid) := s.inCtx i.src
  let want : Want := if i.read = 0 then { w := true } else { r := true }
  let s := s.upCore portCore fun x => { x with owner := BitVec.ofNat 64 ctx }
  if i.src = 0 ∧ spaceOf i.addr ≠ 0 then (s.takeIn i).emit .unsupported
  else match s.heldWalk portCore ctx asid want i.addr with
  | some a => s.awaitTurn a .orderingPointSend
  | none =>
  match s.locate portCore ctx asid want i.addr with
  | (.event _ _, s) => (s.takeIn i).emit .unsupported
  | (.ok pa key atom route log, s) =>
    if isFar pa ∨ inTables pa ∨ homeOf s.sys.image pa = .nowhere then (s.takeIn i).emit .unsupported
    else
      let b := (homeOf s.sys.image pa).num
      let blocked := !i.ro && i.read == 0 && s.links.sending.any fun w => w.2.2.2 == i.src && decide (w.2.1 < i.seq) && w.2.2.1 != b
      if blocked then s
      else if !s.hasKey portCore key && i.ready.isNone then
        (s.upIn i.seq fun j => { j with ready := some (s.cyc + 300) }).after 300 20 .orderingPointSend
      else
        let r : Req :=
          { core := portCore, ctx := ctx, asid := asid, op := i.op, use := if i.read = 0 then inWrite i.src else inRead i.src,
            ptr := i.addr, pa := if i.read = 0 then pa else pa / 8 * 8, key := s.keyOf key, atom := atom,
            lat := s.reach portCore pa, route := route, args := [BitVec.ofNat 64 i.read] }
        let (n, s) := (s.useKey portCore key).addReq r
        match log with
        | some leaf => ((s.upReq n fun r => { r with stage := .logging }).holdLeaf n r leaf).upIn i.seq fun j => { j with req := some n }
        | none => s.letIn i n b

/-- The procedure of a first write to a clean page has ended for an inbound write: it leaves, or it has no effect and is
answered with Unsupported Request (R304, R352). -/
def State.inLogged (s : State) (n : Nat) (r : Req) (ok : Bool) : State :=
  match s.links.inbound.find? fun i => i.req == some n with
  | none => s.dropReq n
  | some i =>
    let s := if ok then s.letIn i n (s.bankOf r) else ((s.dropReq n).takeIn i).emit .unsupported
    s.after 0 20 .orderingPointSend

/-- Sends what the rules of R118 let go, in order of arrival; `held`: sources of which an earlier write is held. -/
def State.sendAllIn (s : State) (held : List Nat) : List Inbound → State
  | [] => s
  | i :: rest =>
    let barred :=
      if i.read = 0 then !i.ro && held.contains i.src
      else held.contains i.src || s.links.sending.any fun w => w.2.2.2 == i.src && decide (w.2.1 < i.seq)
    let s := if barred then s else s.sendIn i
    let stays := i.read == 0 && s.links.inbound.any fun j => j.seq == i.seq
    s.sendAllIn (if stays then i.src :: held else held) rest

/-- ORDERING_POINT_SEND (R118). -/
def execOrderingPointSend (s : State) : Out := .next (s.sendAllIn [] s.links.inbound)

/-- PCIE_INBOUND_WRITE (R118, R352, R365). -/
def execPcieInboundWrite (addr : Word) (data : List Byte) (ro : Bool) (s : State) : Out :=
  if !s.sys.isReady then .next (s.emit .unsupported) else .next (s.comeIn 0 addr data 0 ro)

/-- PCIE_INBOUND_READ (R118, R352, R365), of `n` bytes. -/
def execPcieInboundRead (addr : Word) (n : Nat) (s : State) : Out :=
  if !s.sys.isReady ∨ n = 0 then .next (s.emit .unsupported) else .next (s.comeIn 0 addr [] n false)

/-- PCIE_INBOUND_ATOMICOP (R352): answered with Unsupported Request. -/
def execPcieInboundAtomicop (_addr : Word) (s : State) : Out := .next (s.emit .unsupported)

/-- PCIE_CONFIGURATION_REQUEST (R365): Request Retry Status until bring-up has completed, and then a completion. -/
def execPcieConfigurationRequest (s : State) : Out :=
  .next (s.emit (if s.sys.isReady then .completion [] else .retry))

/-- An inbound request has been performed, or has met an event: a read is completed, and a write lets others go. -/
def State.inDone (s : State) (n : Nat) (r : Req) : State :=
  let s := if r.event.isSome then s.emit .unsupported
    else match r.op with
      | .block _ =>
        let n := (r.args.getD 0 0).toNat
        s.emit (.completion (wordsOfBytes (((r.ans.flatMap wordBytes).drop (r.ptr.toNat % 8)).take n) ((n + 7) / 8)))
      | _ => s
  (s.upLinks fun l => { l with sending := l.sending.filter fun w => w.1 != n }).after 0 20 .orderingPointSend

/-- EXRIN_FLIT_RECEIVE (R358): a flit that fails authentication is asked for again, and three failures in a row take the
port down. -/
def execExrinFlitReceive (port : Nat) (authentic : Bool) (s : State) : Out :=
  if s.links.downPorts.contains port then .next s
  else if authentic then .next (s.upLinks fun l => { l with failures := l.failures.put port 0 })
  else
    let n := (s.links.failures.find port).getD 0 + 1
    let s := (s.upLinks fun l => { l with failures := l.failures.put port n }).emit .retry
    .next (if n < 3 then s else s.upLinks fun l => { l with downPorts := port :: l.downPorts })

/-- EXRIN_INBOUND_REQUEST (R358): of a read, `data` has as many bytes as are asked for. -/
def execExrinInboundRequest (pkg : Nat) (addr : Word) (data : List Byte) (write ordered : Bool) (s : State) : Out :=
  if !s.sys.isReady then .next (s.emit .unsupported)
  else
    let p := BitVec.ofNat 64 (4 * 2 ^ 57 + addr.toNat % 2 ^ 57)
    .next (if write then s.comeIn (pkg + 1) p data 0 (!ordered) else s.comeIn (pkg + 1) p [] data.length false)

end Sys2Proof.Machine
end

