-- ==== Sys2Proof/Machine/Merges.lean ====
section
/-! DEFINITION. The element operators of Table 15.5, word by word (R282, R360). -/

namespace Sys2Proof.Machine

/-- Bits of an element. -/
def Merge.width (m : Merge) : Nat := if m.elem = 1 then 16 else if m.elem = 3 then 64 else 32

/-- The format of a floating-point element. -/
def Merge.fmt (m : Merge) : Fmt := if m.elem = 1 then bf16 else fp32

/-- One element combined with another (Table 15.5). -/
def Merge.one (m : Merge) (x y : Nat) : Nat :=
  let w := m.width
  let less : Bool := decide (signedOf w x < signedOf w y)
  match m.op with
  | .fadd => m.fmt.add m.rm x y
  | .iadd => (x + y) % 2 ^ w
  | .modadd => addMod m.q.toNat x y
  | .vmin => if m.elem < 2 then m.fmt.min x y else if less then x else y
  | .vmax => if m.elem < 2 then m.fmt.max x y else if less then y else x
  | .vand => x &&& y
  | .vor => x ||| y
  | .vxor => x ^^^ y

/-- A word combined with another, element by element. -/
def Merge.combine (m : Merge) (x y : Word) : Word :=
  let n := 64 / m.width
  BitVec.ofNat 64 (packed m.width (((elementsIn m.width x.toNat n).zip (elementsIn m.width y.toNat n)).map fun e => m.one e.1 e.2))

end Sys2Proof.Machine
end

