-- ==== Sys2Proof/Machine/Collective.lean ====
section
/-! DEFINITION. The collective engine and the membership of the group (R176, R177, R359, R360, R363). -/

namespace Sys2Proof.Machine

/-- The stages at which COLL has read its block, and at which the engine acknowledges it. -/
def stColl : Nat := 25
def stCollAck : Nat := 26

/-- How the writes of a collective's result are told apart. -/
def collWrite (ticket : Nat) : Use := .record (2 ^ 46 + ticket)

/-! ### COLL -/

/-- Issues COLL (R176): the block is read first. -/
def issueColl (m : Mod) (d a b : Reg) (s : State) : Out :=
  issue (smallKind [d, a, b]) s fun s x =>
    let c := x.w s (rn a)
    let p := x.w s (rn b)
    if c.extractLsb' 7 57 ≠ 0 ∨ p.toNat % 64 ≠ 0 then x.perm s 9
    else x.readBlock s p 8 64 stColl m .queue none [BitVec.ofNat 64 (rn d), c, x.th.fmt] true

/-- COLL with op 1. -/
def execCollAllreduce (m : Mod) (d a b : Reg) (s : State) : Out := issueColl m d a b s

/-- COLL with op 2. -/
def execCollBroadcast (m : Mod) (d a b : Reg) (s : State) : Out := issueColl m d a b s

/-- COLL with op 3. -/
def execCollAllgather (m : Mod) (d a b : Reg) (s : State) : Out := issueColl m d a b s

/-- The operation of a command block. -/
def collOp (b : List Word) : Nat := fieldOf b 0 0 8

/-- The merge of a command block, in a rounding mode. -/
def collMerge (b : List Word) (rm : Nat) : Merge := { elem := fieldOf b 0 12 2, op := viewOp (fieldOf b 0 8 3), rm := rm, q := wordOf b 7 }

/-- Whether a command block is well-formed (Table 20.3). -/
def collOk (b : List Word) : Bool :=
  let m := collMerge b 0
  let n := (wordOf b 3).toNat
  (wordOf b 0).extractLsb' 14 50 == 0 && !(wordOf b 0).getLsbD 11 && decide (1 ≤ collOp b) && decide (collOp b ≤ 3) &&
    viewOk m.op m.elem && decide ((wordOf b 1).toNat % 8 = 0) && decide ((wordOf b 2).toNat % 8 = 0) &&
    decide (n % 8 = 0) && decide (8 ≤ n) && decide (n ≤ 2 ^ 30) && (wordOf b 4).extractLsb' 16 48 == 0 &&
    decide (1 ≤ fieldOf b 6 32 32) && decide (fieldOf b 6 32 32 ≤ 1000000) && decide (fieldOf b 6 8 24 = 0) &&
    (collOp b == 2 || decide (fieldOf b 6 0 8 = 0)) && (if m.op = .modadd then modulusOk m.q else m.q == 0)

/-- COLL has read its block (args: d, W[a], th.fmt): it is sent to the engine. -/
def State.collRead (s : State) (r : Req) : State :=
  match r.tid, r.tid.bind s.threadOf with
  | some t, some th =>
    if !collOk r.ans then s.trap t.core t.slot cPERM 9 r.epc 0 false
    else
      let (n, s) := s.addReq { r with op := .unit, use := .stage stCollAck, args := r.args ++ r.ans, lat := latency t.core .control,
                                      stage := .sent, ans := [], event := none, view := none, acq := none, route := .plain }
      (s.park t.core t.slot th.why (.reply n)).after (half (latency t.core .control)) 12 (.bankRequestArrival n)
  | _, _ => s

/-! ### Tickets (R359, R360) -/

/-- A ticket. -/
def State.ticket (s : State) (k : Nat) : Option Ticket := s.links.tickets.find k

/-- Changes a ticket. -/
def State.upTicket (s : State) (k : Nat) (f : Ticket → Ticket) : State :=
  s.upLinks fun l => { l with tickets := l.tickets.adjust k f }

/-- The rank of this package in the view: how many members have a lower id. -/
def Links.rank (l : Links) (pkg : Nat) : Nat := (l.members.filter fun m => decide (m < pkg)).length

/-- Room for one more ticket among 256: the oldest one goes that is finished and has no write of its result left. None when
there is none. -/
def State.roomFor (s : State) : Option Links :=
  let l := s.links
  if l.tickets.length < 256 then some l
  else match l.tickets.find? fun e => e.2.state != 0 && !(s.reqs.any fun q => q.2.use == collWrite e.1) with
    | some e => some { l with tickets := l.tickets.drop e.1 }
    | none => none

/-- A ticket ends without a result. -/
def State.abortTicket (s : State) (k state rank : Nat) : State :=
  (s.upTicket k fun t => if t.state = 0 then { t with state := state, failed := rank, parts := [] } else t).emit (.abort k)

/-- The engine contributes the member's source (R122), after the rounding mode of its thread; a source that cannot be read
fails the member. -/
def State.contribute (s : State) (k : Nat) (t : Ticket) (ws : Option (List (Word × Nat × Nat))) : State :=
  let rank := s.links.rank s.sys.image.package
  match ws with
  | some ws =>
    let data := BitVec.ofNat 64 t.rm :: ws.map Prod.fst
    (s.emit (.contribution k data)).after 0 20 (.collectiveContribution k rank data)
  | none => s.abortTicket k 2 rank

/-- Whether the package is a member of a group on which a context is permitted (R359). -/
def Links.permits (l : Links) (group ctx : Nat) : Bool :=
  match l.groups.find group with
  | some cs => cs.contains ctx
  | none => false

/-- The words that a member's destination receives. -/
def Ticket.result (t : Ticket) (n : Nat) : List Word :=
  let part (i : Nat) : List Word := (((t.parts.find i).getD []).drop 1).take ((wordOf t.ws 3).toNat / 8)
  match collOp t.ws with
  | 2 => part (fieldOf t.ws 6 0 8)
  | 3 => (List.range n).flatMap part
  | _ =>
    let m := collMerge t.ws (wordOf ((t.parts.find 0).getD []) 0).toNat
    ((List.range n).drop 1).foldl (fun acc i => List.zipWith m.combine acc (part i)) (part 0)

/-- Writes a result, word by word, as an engine of the thread's core does. -/
def State.writeResult (s : State) (k : Nat) (t : Ticket) (p : Word) : List Word → State
  | [] => s
  | v :: vs =>
    let s := match effective p 7, s.spaceEvent t.core t.part p with
      | .ok _, none =>
        let (n, s) := s.addReq { core := t.core, ctx := t.ctx, part := t.part, asid := t.asid, op := .write [v] true,
                                 use := collWrite k, ptr := p }
        s.begin n
      | _, _ => s
    s.writeResult k t (p + 8) vs

/-- A write of a result has been performed: its bytes count (R176), and a release of its thread that waits for it looks
again (R122). -/
def State.collWrote (s : State) (k : Nat) : State :=
  match s.ticket k with
  | some t =>
    (match t.tb with
     | some n => s.countBytes t.core n 8
     | none => s).poke t.tid
  | none => s

/-- A member's part of a collective, which came in a cycle: when the last member has contributed, the collective commits; a
member that fails, or issues EMSG ABORT, aborts it (R360). DESIGN CHOICE (log 109): a contribution is the member's rounding
mode and its data; no word at all stands for the member's failure, and one word alone for its ABORT. -/
def State.contributed (s : State) (ticket rank cyc : Nat) (data : List Word) : State :=
  match s.ticket ticket with
  | none => s
  | some t =>
    let n := s.links.members.length
    if t.state ≠ 0 ∨ n ≤ rank then s
    else match data with
    | [] => s.abortTicket ticket 2 rank
    | [_] => s.abortTicket ticket 4 0
    | _ =>
      if t.parts.has rank then s
      else
        let s := if t.started.isSome then s
          else s.after (cyc + 1600 * fieldOf t.ws 6 32 32 - s.cyc) 20 (.collectiveTimeout ticket)
        let t := { t with parts := t.parts.put rank data, started := some (t.started.getD cyc) }
        if t.parts.length = n then
          (s.upTicket ticket fun _ => { t with state := 1, parts := [] }).writeResult ticket t (wordOf t.ws 2) (t.result n)
        else s.upTicket ticket fun _ => t

/-- COLLECTIVE_CONTRIBUTION (R360): one whose collective this package has not begun is kept until its own COLL, and so is a failure or
an ABORT of a member after its contribution. -/
def execCollectiveContribution (ticket rank : Nat) (data : List Word) (s : State) : Out :=
  let l := s.links
  if l.tickets.has ticket then .next (s.contributed ticket rank s.cyc data)
  else if 2 ^ 31 ≤ (ticket + 2 ^ 32 - l.nextTicket) % 2 ^ 32 ∨ (l.early.any fun e => e.1 == ticket && e.2.1 == rank && e.2.2.2 == data) then .next s
  else .next (s.upLinks fun l => { l with early := l.early ++ [(ticket, rank, s.cyc, data)] })

/-- The contributions that came before this package's COLL are its collective's, in the order in which they came (R360). -/
def State.takeEarly (s : State) (k : Nat) : State :=
  let mine := s.links.early.filter fun e => e.1 == k
  let s := s.upLinks fun l => { l with early := l.early.filter fun e => e.1 != k }
  mine.foldl (fun s e => s.contributed k e.2.1 e.2.2.1 e.2.2.2) s

/-- COLL reaches the engine (args: d, W[a], th.fmt, the block): it reads the member's source, which waits for a hold on one of its
words (R133), and begins. -/
def State.collArrives (s : State) (n : Nat) (r : Req) : State :=
  let c := r.args.getD 1 0
  let b := r.args.drop 3
  match s.roomFor with
  | none => s.unitSays n (-1)
  | some l =>
    if (wordOf b 5).toNat ≠ l.viewNo then s.unitSays n (-2)
    else if !l.members.contains s.sys.image.package || !l.permits (fieldOf b 4 0 16) r.ctx then s.unitSays n (-3)
    else
      let (ws, s) := s.wordsAs r.core r.ctx r.part r.asid (wordOf b 1) ((wordOf b 3).toNat / 8)
      match ws with
      | .error (some a) => s.awaitTurn a (.bankRequestArrival n)
      | _ =>
        let k := l.nextTicket
        let t : Ticket :=
          { ctx := r.ctx, part := r.part, tid := r.tid.getD { core := 0, slot := 0, gen := 0 }, core := r.core, ws := b,
            tb := if c.getLsbD 6 then some (c.toNat % 64) else none, rm := fmtRm (r.args.getD 2 0), asid := r.asid, view := l.viewNo }
        let s := s.upLinks fun _ => { l with nextTicket := (k + 1) % 2 ^ 32, tickets := l.tickets.put k t }
        ((s.reply n [BitVec.ofNat 64 k]).contribute k t ws.toOption).takeEarly k

/-- COLLECTIVE_TIMEOUT (R360): a contribution is missing, and the collective aborts. -/
def execCollectiveTimeout (ticket : Nat) (s : State) : Out :=
  match s.ticket ticket with
  | some t =>
    if t.state ≠ 0 then .next s
    else match firstFrom (fun i => !t.parts.has i) 0 s.links.members.length with
    | some i => .next (s.abortTicket ticket 2 i)
    | none => .next s
  | none => .next s

/-! ### Membership (R363) -/

/-- The lowest rank of a view whose member is not in another, and has not contributed. -/
def lostMember (old new : List Nat) (t : Ticket) : Option Nat :=
  firstFrom (fun i => !(new.contains (old.getD i 0)) && !t.parts.has i) 0 old.length

/-- The packages whose evidence the leader has accepted, in rank order, each with the digest of its transcript (R363). -/
def acceptedMembers (l : List (Nat × Option (BitVec 512))) : Map (BitVec 512) :=
  l.foldl (fun (m : Map (BitVec 512)) (e : Nat × Option (BitVec 512)) => match e.2 with | some d => m.put e.1 d | none => m) []

/-- The leader of a view, its member of lowest package id, signs the root of its tree and publishes it (R363). -/
def State.publishRoot (s : State) (view : Word) (m : Map (BitVec 512)) : State :=
  match m with
  | (p, _) :: _ =>
    if p = s.sys.image.package then
      let root := treeRoot view.toNat m
      s.emit (.root view root (Config.signature (wordBytes view ++ root)))
    else s
  | [] => s

/-- MEMBERSHIP_VIEW_CHANGE (R360, R363): a view of the next number over the members whose evidence is accepted, a new link
key, and every collective in flight aborted, the ones of other members that this package has not begun with them; one that a lost member had still to contribute to names it. A member comes with
the digest of its transcript, or with none where its evidence fails. -/
def execMembershipViewChange (members : List (Nat × Option (BitVec 512))) (s : State) : Out :=
  let old := s.links.members
  let m := acceptedMembers members
  let new := m.map Prod.fst
  let s := (s.links.tickets.filter fun e => e.2.state == 0).foldl (fun s e =>
    match lostMember old new e.2 with
    | some i => s.abortTicket e.1 2 i
    | none => s.abortTicket e.1 3 0) s
  let (k, s) := s.draw
  let view := (s.links.viewNo + 1) % 2 ^ 64
  .next ((s.upLinks fun l => { l with members := new, viewNo := view, linkKey := some k, early := [] }).publishRoot (BitVec.ofNat 64 view) m)

end Sys2Proof.Machine
end

