-- ==== Sys2Proof/Machine/Control.lean ====
section
/-! DEFINITION. Branches and jumps of page 0 (R28, R93, R94), and the traps of page 6 that an instruction raises or
returns from: TRAP, ERET and BREAK (R183 to R185). -/

namespace Sys2Proof.Machine

/-- BR.cc (R93): the target is formed, and may trap, only when the branch is taken. -/
def execBrCc (c : Cond) (a : Reg) (imm : Imm) (s : State) : Out :=
  issue (pageZero [a]) s fun s x =>
    if condHolds c (x.w s (rn a)) then
      match effective x.pc (2 * immInt imm) with
      | .ok p => x.goTo s p
      | .error r => x.perm s r
    else x.done s

/-- JAL (R94). -/
def execJal (d : Reg) (imm : Imm) (s : State) : Out :=
  issue (pageZero [d]) s fun s x =>
    match effective x.pc (2 * immInt imm) with
    | .ok p => x.goTo (s.setW x.core x.slot (rn d) x.npc) p
    | .error r => x.perm s r

/-- JR (R94): an odd target raises ALIGN on the jump (R28). -/
def execJr (a : Reg) (s : State) : Out :=
  issue (pageZero [a]) s fun s x =>
    let t := x.w s (rn a)
    if t.getLsbD 0 then x.trap s cALIGN t else x.goTo s t

/-- JALR (R94): W[a] is read before the link is written. -/
def execJalr (d a : Reg) (s : State) : Out :=
  issue (pageZero [d, a]) s fun s x =>
    let t := x.w s (rn a)
    if t.getLsbD 0 then x.trap s cALIGN t else x.goTo (s.setW x.core x.slot (rn d) x.npc) t

/-- TRAP (R184): the kernel fault SYSCALL, with its argument and the resume point after the TRAP. -/
def execTrap (a : Reg) (n : BitVec 12) (s : State) : Out :=
  issue (plainKind [a]) s fun s x =>
    .next (s.kernelFault x.core x.slot 0 cSYSCALL (n.setWidth 64) (x.w s (rn a)) x.npc x.pc 0 none)

/-- ERET (R183): at level 0 it raises ILLEGAL with reason 0x0A. -/
def execEret (s : State) : Out :=
  issue {} s fun s x =>
    if x.th.lvl then .next (s.eret x.core x.slot) else x.illegal s 0x0A

/-- BREAK (R185): the thread trap BREAK with the immediate; on a core on which exdb has claimed BREAK it holds the core
instead, with the pc at the BREAK; it counts as its slot's issue, so that the turn is not taken back (R15; DEDUCED, log 11). -/
def execBrk (n : BitVec 8) (s : State) : Out :=
  issue {} s fun s x =>
    if (s.core x.core).claimed then .next (s.upCore x.core fun c => { c with held := true })
    else x.trap s cBREAK (n.setWidth 64)

end Sys2Proof.Machine
end

