-- ==== Sys2Proof/Machine/Integer.lean ====
section
/-! DEFINITION. The integer instructions of page 0: arithmetic, shifts, comparisons, bit counts, bit fields,
constants (R81 to R88). -/

namespace Sys2Proof.Machine

/-- The shift count of an operand (R83). -/
def shiftOf (b : Word) : Nat := (b.extractLsb' 0 6).toNat

/-- The number of leading zero bits of the low `n` bits. -/
def leadingZeros (v : Word) : Nat → Nat
  | 0 => 0
  | n + 1 => if v.getLsbD n then 0 else leadingZeros v n + 1

/-- The number of trailing zero bits from bit `i` on, of `n` bits. -/
def trailingZeros (v : Word) (i : Nat) : Nat → Nat
  | 0 => 0
  | n + 1 => if v.getLsbD i then 0 else trailingZeros v (i + 1) n + 1

/-- The number of one bits among the low `n`. -/
def oneBits (v : Word) : Nat → Nat
  | 0 => 0
  | n + 1 => (v.getLsbD n).toNat + oneBits v n

/-- The eight bytes in reverse order (R86). -/
def swapBytes (v : Word) : Word :=
  v.extractLsb' 0 8 ++ v.extractLsb' 8 8 ++ v.extractLsb' 16 8 ++ v.extractLsb' 24 8 ++ v.extractLsb' 32 8 ++
    v.extractLsb' 40 8 ++ v.extractLsb' 48 8 ++ v.extractLsb' 56 8

/-- The low `n` bits set. -/
def lowOnes (n : Nat) : Word := BitVec.ofNat 64 (2 ^ n - 1)

/-- The field of `n` bits at a position (R87). -/
def fieldAt (v : Word) (pos n : Nat) : Word := (v >>> pos) &&& lowOnes n

/-- A value of `n` bits, sign-extended. -/
def signFrom (f : Word) (n : Nat) : Word := (f <<< (64 - n)).sshiftRight (64 - n)

/-- INS (R87). -/
def insertField (old v : Word) (pos n : Nat) : Word :=
  (old &&& ~~~(lowOnes n <<< pos)) ||| ((v &&& lowOnes n) <<< pos)

/-- The result of a division: the quotient, the remainder, and the trap information of its two fixed cases (R84). -/
structure Quot where
  q : Word
  r : Word
  trap : Option Nat

/-- The divide family (R84): quotient truncated toward zero, remainder with the sign of the dividend. -/
def divide (signed : Bool) (a b : Word) : Quot :=
  if b = 0 then { q := BitVec.allOnes 64, r := a, trap := some 1 }
  else if signed ∧ a = 0x8000000000000000 ∧ b = BitVec.allOnes 64 then { q := a, r := 0, trap := some 2 }
  else if signed then
    { q := BitVec.ofInt 64 (a.toInt.tdiv b.toInt), r := BitVec.ofInt 64 (a.toInt.tmod b.toInt), trap := none }
  else { q := BitVec.ofNat 64 (a.toNat / b.toNat), r := BitVec.ofNat 64 (a.toNat % b.toNat), trap := none }

/-- Whether th.fmt enables the trap of a division's fixed case (R152). -/
def divTraps (fmt : Word) (q : Quot) : Option Nat :=
  match q.trap with
  | some 1 => if fmtDz fmt then some 1 else none
  | some n => if fmtOvf fmt then some n else none
  | none => none

/-- Issues a division (R84); on a large core it does not read th.fmt (R212). -/
def issueDiv (signed quotient : Bool) (d a b : Reg) (s : State) : Out :=
  issue (pageZero [d, a, b]) s fun s x =>
    let q := divide signed (x.w s (rn a)) (x.w s (rn b))
    match divTraps (if isLarge x.core then 0 else x.th.fmt) q with
    | some n => x.trap s cARITH (BitVec.ofNat 64 n)
    | none => x.ret s d (if quotient then q.q else q.r)

/-- Issues a three-register integer instruction (R82). -/
def issueAlu (d a b : Reg) (s : State) (f : Word → Word → Word) : Out :=
  issue (pageZero [d, a, b]) s fun s x => x.ret s d (f (x.w s (rn a)) (x.w s (rn b)))

/-- Issues a two-register integer instruction (R86). -/
def issueUnary (d a : Reg) (s : State) (f : Word → Word) : Out :=
  issue (pageZero [d, a]) s fun s x => x.ret s d (f (x.w s (rn a)))

/-- ADD (R82). -/
def execAdd (d a b : Reg) (s : State) : Out := issueAlu d a b s (fun u v => u + v)

/-- SUB (R82). -/
def execSub (d a b : Reg) (s : State) : Out := issueAlu d a b s (fun u v => u - v)

/-- AND (R82). -/
def execAnd (d a b : Reg) (s : State) : Out := issueAlu d a b s (fun u v => u &&& v)

/-- OR (R82). -/
def execOr (d a b : Reg) (s : State) : Out := issueAlu d a b s (fun u v => u ||| v)

/-- XOR (R82). -/
def execXor (d a b : Reg) (s : State) : Out := issueAlu d a b s (fun u v => u ^^^ v)

/-- SHL (R83) (R82). -/
def execShl (d a b : Reg) (s : State) : Out := issueAlu d a b s (fun u v => u <<< shiftOf v)

/-- SLT (R82). -/
def execSlt (d a b : Reg) (s : State) : Out := issueAlu d a b s (fun u v => flagWord (decide (u.toInt < v.toInt)))

/-- SHR (R82). -/
def execShr (d a b : Reg) (s : State) : Out := issueAlu d a b s (fun u v => u >>> shiftOf v)

/-- MUL (R82). -/
def execMul (d a b : Reg) (s : State) : Out := issueAlu d a b s (fun u v => u * v)

/-- SRA (R82). -/
def execSra (d a b : Reg) (s : State) : Out := issueAlu d a b s (fun u v => u.sshiftRight (shiftOf v))

/-- ROT, right (R82). -/
def execRot (d a b : Reg) (s : State) : Out := issueAlu d a b s (fun u v => u.rotateRight (shiftOf v))

/-- ANDN (R82). -/
def execAndn (d a b : Reg) (s : State) : Out := issueAlu d a b s (fun u v => u &&& ~~~v)

/-- MULH (R82). -/
def execMulh (d a b : Reg) (s : State) : Out := issueAlu d a b s (fun u v => BitVec.ofInt 64 (u.toInt * v.toInt / 2 ^ 64))

/-- MULH.z (R82). -/
def execMulhZ (d a b : Reg) (s : State) : Out := issueAlu d a b s (fun u v => BitVec.ofNat 64 (u.toNat * v.toNat / 2 ^ 64))

/-- SLT.z (R82). -/
def execSltZ (d a b : Reg) (s : State) : Out := issueAlu d a b s (fun u v => flagWord (decide (u.toNat < v.toNat)))

/-- SEQ (R82). -/
def execSeq (d a b : Reg) (s : State) : Out := issueAlu d a b s (fun u v => flagWord (u == v))

/-- MIN (R82). -/
def execMin (d a b : Reg) (s : State) : Out := issueAlu d a b s (fun u v => if u.toInt < v.toInt then u else v)

/-- MAX (R82). -/
def execMax (d a b : Reg) (s : State) : Out := issueAlu d a b s (fun u v => if u.toInt < v.toInt then v else u)

/-- MIN.z (R82). -/
def execMinZ (d a b : Reg) (s : State) : Out := issueAlu d a b s (fun u v => if u.toNat < v.toNat then u else v)

/-- MAX.z (R82). -/
def execMaxZ (d a b : Reg) (s : State) : Out := issueAlu d a b s (fun u v => if u.toNat < v.toNat then v else u)

/-- DIV (R84). -/
def execDiv (d a b : Reg) (s : State) : Out := issueDiv true true d a b s

/-- DIV.z (R84). -/
def execDivZ (d a b : Reg) (s : State) : Out := issueDiv false true d a b s

/-- REM (R84). -/
def execRem (d a b : Reg) (s : State) : Out := issueDiv true false d a b s

/-- REM.z (R84). -/
def execRemZ (d a b : Reg) (s : State) : Out := issueDiv false false d a b s

/-- SEL (R85). -/
def execSel (d a b : Reg) (s : State) : Out :=
  issue (pageZero [d, a, b]) s fun s x => x.ret s d (if x.w s (rn d) ≠ 0 then x.w s (rn a) else x.w s (rn b))

/-- CLZ (R86). -/
def execClz (d a : Reg) (s : State) : Out := issueUnary d a s fun v => BitVec.ofNat 64 (leadingZeros v 64)

/-- CTZ (R86). -/
def execCtz (d a : Reg) (s : State) : Out := issueUnary d a s fun v => BitVec.ofNat 64 (trailingZeros v 0 64)

/-- POPC (R86). -/
def execPopc (d a : Reg) (s : State) : Out := issueUnary d a s fun v => BitVec.ofNat 64 (oneBits v 64)

/-- BSWAP (R86). -/
def execBswap (d a : Reg) (s : State) : Out := issueUnary d a s swapBytes

/-- EXTR (R87). -/
def execExtr (d a : Reg) (pos len1 : BitVec 6) (s : State) : Out :=
  issueUnary d a s fun v => signFrom (fieldAt v pos.toNat (len1.toNat + 1)) (len1.toNat + 1)

/-- EXTR.z (R87). -/
def execExtrZ (d a : Reg) (pos len1 : BitVec 6) (s : State) : Out :=
  issueUnary d a s fun v => fieldAt v pos.toNat (len1.toNat + 1)

/-- INS (R87). -/
def execIns (d a : Reg) (pos len1 : BitVec 6) (s : State) : Out :=
  issue (pageZero [d, a]) s fun s x =>
    x.ret s d (insertField (x.w s (rn d)) (x.w s (rn a)) pos.toNat (len1.toNat + 1))

/-- ADDI (R88). -/
def execAddi (d a : Reg) (imm : Imm) (s : State) : Out := issueUnary d a s fun v => v + imm.signExtend 64

/-- LDI (R88). -/
def execLdi (d : Reg) (imm : Imm) (s : State) : Out :=
  issue (pageZero [d]) s fun s x => x.ret s d (imm.signExtend 64)

/-- LDH (R88): bits [33:30] of the immediate are ignored. -/
def execLdh (d a : Reg) (imm : Imm) (s : State) : Out :=
  issueUnary d a s fun v => imm.extractLsb' 0 30 ++ v.extractLsb' 0 34

/-- PSP (R91): the immediate's 3 bits hold a space of 0 to 4; the decoder has refused any other. -/
def execPsp (d a : Reg) (sp : BitVec 3) (s : State) : Out :=
  issueUnary d a s fun v => sp.setWidth 7 ++ v.extractLsb' 0 57

/-- PADD (R92). -/
def execPadd (d a b : Reg) (s : State) : Out :=
  issue (pageZero [d, a, b]) s fun s x =>
    match effective (x.w s (rn a)) (x.w s (rn b)).toInt with
    | .ok p => x.ret s d p
    | .error r => x.perm s r

end Sys2Proof.Machine
end

