-- ==== Sys2Proof/Machine/Lanes.lean ====
section
/-! DEFINITION. Page 4: the vector instructions (R247 to R264). -/

namespace Sys2Proof.Machine

/-- VADD (R254). -/
def execVadd (d a b : Reg) (s : State) : Out :=
  issueVec { vs := [d, a, b], writes := [d] } (.float .add false) d a b [] s

/-- VSUB (R254). -/
def execVsub (d a b : Reg) (s : State) : Out :=
  issueVec { vs := [d, a, b], writes := [d] } (.float .sub false) d a b [] s

/-- VMUL (R254). -/
def execVmul (d a b : Reg) (s : State) : Out :=
  issueVec { vs := [d, a, b], writes := [d] } (.float .mul false) d a b [] s

/-- VFMA (R254). -/
def execVfma (d a b : Reg) (s : State) : Out :=
  issueVec { vs := [d, a, b], writes := [d] } (.float .fma false) d a b [] s

/-- VMIN (R254). -/
def execVmin (d a b : Reg) (s : State) : Out :=
  issueVec { vs := [d, a, b], writes := [d] } (.float .min false) d a b [] s

/-- VMAX (R254). -/
def execVmax (d a b : Reg) (s : State) : Out :=
  issueVec { vs := [d, a, b], writes := [d] } (.float .max false) d a b [] s

/-- VABS (R254). -/
def execVabs (d a : Reg) (s : State) : Out :=
  issueVec { vs := [d, a], writes := [d] } (.float .abs false) d a 0 [] s

/-- VNEG (R254). -/
def execVneg (d a : Reg) (s : State) : Out :=
  issueVec { vs := [d, a], writes := [d] } (.float .neg false) d a 0 [] s

/-- VCMP.eq (R254). -/
def execVcmpEq (d a b : Reg) (s : State) : Out :=
  issueVec { ws := [d], vs := [a, b], scalar := some d } (.cmp .eq false) 0 a b [] s

/-- VCMP.lt (R254). -/
def execVcmpLt (d a b : Reg) (s : State) : Out :=
  issueVec { ws := [d], vs := [a, b], scalar := some d } (.cmp .lt false) 0 a b [] s

/-- VCMP.le (R254). -/
def execVcmpLe (d a b : Reg) (s : State) : Out :=
  issueVec { ws := [d], vs := [a, b], scalar := some d } (.cmp .le false) 0 a b [] s

/-- VRED.sum (R219, R255). -/
def execVredSum (d a : Reg) (s : State) : Out :=
  issueVec { vs := [d, a], writes := [d] } (.red .sum false) d a 0 [] s

/-- VRED.max (R219, R255). -/
def execVredMax (d a : Reg) (s : State) : Out :=
  issueVec { vs := [d, a], writes := [d] } (.red .max false) d a 0 [] s

/-- VRED.min (R219, R255). -/
def execVredMin (d a : Reg) (s : State) : Out :=
  issueVec { vs := [d, a], writes := [d] } (.red .min false) d a 0 [] s

/-- VADD.bf16 (R254). -/
def execVaddBf16 (d a b : Reg) (s : State) : Out :=
  issueVec { vs := [d, a, b], writes := [d] } (.float .add true) d a b [] s

/-- VSUB.bf16 (R254). -/
def execVsubBf16 (d a b : Reg) (s : State) : Out :=
  issueVec { vs := [d, a, b], writes := [d] } (.float .sub true) d a b [] s

/-- VMUL.bf16 (R254). -/
def execVmulBf16 (d a b : Reg) (s : State) : Out :=
  issueVec { vs := [d, a, b], writes := [d] } (.float .mul true) d a b [] s

/-- VFMA.bf16 (R254). -/
def execVfmaBf16 (d a b : Reg) (s : State) : Out :=
  issueVec { vs := [d, a, b], writes := [d] } (.float .fma true) d a b [] s

/-- VMIN.bf16 (R254). -/
def execVminBf16 (d a b : Reg) (s : State) : Out :=
  issueVec { vs := [d, a, b], writes := [d] } (.float .min true) d a b [] s

/-- VMAX.bf16 (R254). -/
def execVmaxBf16 (d a b : Reg) (s : State) : Out :=
  issueVec { vs := [d, a, b], writes := [d] } (.float .max true) d a b [] s

/-- VABS.bf16 (R254). -/
def execVabsBf16 (d a : Reg) (s : State) : Out :=
  issueVec { vs := [d, a], writes := [d] } (.float .abs true) d a 0 [] s

/-- VNEG.bf16 (R254). -/
def execVnegBf16 (d a : Reg) (s : State) : Out :=
  issueVec { vs := [d, a], writes := [d] } (.float .neg true) d a 0 [] s

/-- VCMP.eq.bf16 (R254). -/
def execVcmpEqBf16 (d a b : Reg) (s : State) : Out :=
  issueVec { ws := [d], vs := [a, b], scalar := some d } (.cmp .eq true) 0 a b [] s

/-- VCMP.lt.bf16 (R254). -/
def execVcmpLtBf16 (d a b : Reg) (s : State) : Out :=
  issueVec { ws := [d], vs := [a, b], scalar := some d } (.cmp .lt true) 0 a b [] s

/-- VCMP.le.bf16 (R254). -/
def execVcmpLeBf16 (d a b : Reg) (s : State) : Out :=
  issueVec { ws := [d], vs := [a, b], scalar := some d } (.cmp .le true) 0 a b [] s

/-- VRED.sum.bf16 (R219, R255). -/
def execVredSumBf16 (d a : Reg) (s : State) : Out :=
  issueVec { vs := [d, a], writes := [d] } (.red .sum true) d a 0 [] s

/-- VRED.max.bf16 (R219, R255). -/
def execVredMaxBf16 (d a : Reg) (s : State) : Out :=
  issueVec { vs := [d, a], writes := [d] } (.red .max true) d a 0 [] s

/-- VRED.min.bf16 (R219, R255). -/
def execVredMinBf16 (d a : Reg) (s : State) : Out :=
  issueVec { vs := [d, a], writes := [d] } (.red .min true) d a 0 [] s

/-- VIADD (R254). -/
def execViadd (d a b : Reg) (s : State) : Out :=
  issueVec { vs := [d, a, b], writes := [d] } (.int .add) d a b [] s

/-- VISUB (R254). -/
def execVisub (d a b : Reg) (s : State) : Out :=
  issueVec { vs := [d, a, b], writes := [d] } (.int .sub) d a b [] s

/-- VIMUL (R254). -/
def execVimul (d a b : Reg) (s : State) : Out :=
  issueVec { vs := [d, a, b], writes := [d] } (.int .mul) d a b [] s

/-- VSHL (R254). -/
def execVshl (d a b : Reg) (s : State) : Out :=
  issueVec { vs := [d, a, b], writes := [d] } (.int .shl) d a b [] s

/-- VSHR (R254). -/
def execVshr (d a b : Reg) (s : State) : Out :=
  issueVec { vs := [d, a, b], writes := [d] } (.int .shr) d a b [] s

/-- VAND (R254). -/
def execVand (d a b : Reg) (s : State) : Out :=
  issueVec { vs := [d, a, b], writes := [d] } (.int .and) d a b [] s

/-- VOR (R254). -/
def execVor (d a b : Reg) (s : State) : Out :=
  issueVec { vs := [d, a, b], writes := [d] } (.int .or) d a b [] s

/-- VXOR (R254). -/
def execVxor (d a b : Reg) (s : State) : Out :=
  issueVec { vs := [d, a, b], writes := [d] } (.int .xor) d a b [] s

/-- VMADDM (R257). -/
def execVmaddm (d a b : Reg) (s : State) : Out :=
  issueMod { vs := [d, a, b], writes := [d] } .maddm d a b [] s

/-- VMSUBM (R257). -/
def execVmsubm (d a b : Reg) (s : State) : Out :=
  issueMod { vs := [d, a, b], writes := [d] } .msubm d a b [] s

/-- VMMULM (R257). -/
def execVmmulm (d a b : Reg) (s : State) : Out :=
  issueMod { vs := [d, a, b], writes := [d] } .mmulm d a b [] s

/-- VBFLY.ct (R257). -/
def execVbflyCt (d a b : Reg) (s : State) : Out :=
  issueBfly { vs := [d, a, b], writes := [d, a] } .bflyCt d a b s

/-- VBFLY.gs (R257). -/
def execVbflyGs (d a b : Reg) (s : State) : Out :=
  issueBfly { vs := [d, a, b], writes := [d, a] } .bflyGs d a b s

/-- VTWID (R257). -/
def execVtwid (d a b : Reg) (s : State) : Out :=
  issueMod { ws := [a, b], vs := [d], writes := [d] } .twid d 0 0 [a, b] s

/-- VSEL (R258). -/
def execVsel (d a b : Reg) (s : State) : Out :=
  issueVec { ws := [b], vs := [d, a], writes := [d] } .sel d a 0 [b] s

/-- VCVT (R259). -/
def execVcvt (d a : Reg) (code : BitVec 4) (s : State) : Out :=
  issueVec { vs := [d, a], writes := [d] } (.cvt code.toNat) d a 0 [] s

/-- VEXP2 (R218, R256). -/
def execVexp2 (d a : Reg) (s : State) : Out :=
  issueVec { vs := [d, a], writes := [d] } .exp2 d a 0 [] s

/-- VRCP (R218, R256). -/
def execVrcp (d a : Reg) (s : State) : Out :=
  issueVec { vs := [d, a], writes := [d] } .rcp d a 0 [] s

/-- VRSQ (R218, R256). -/
def execVrsq (d a : Reg) (s : State) : Out :=
  issueVec { vs := [d, a], writes := [d] } .rsq d a 0 [] s

/-- VSHUF (R258). -/
def execVshuf (d a b : Reg) (s : State) : Out :=
  issueVec { vs := [d, a, b], writes := [d] } .shuf d a b [] s

/-- VBCAST (R258). -/
def execVbcast (d a : Reg) (s : State) : Out :=
  issueVec { ws := [a], vs := [d], writes := [d] } .bcast d 0 0 [a] s

/-- VMOVX (R258). -/
def execVmovx (d a : Reg) (i : BitVec 3) (s : State) : Out :=
  issueVec { ws := [d], vs := [a], scalar := some d } (.movx i.toNat) 0 a 0 [] s

/-- VMOVV (R258). -/
def execVmovv (d a : Reg) (i : BitVec 3) (s : State) : Out :=
  issueVec { ws := [a], vs := [d], writes := [d] } (.movv i.toNat) d 0 0 [a] s

/-- VLD (R260 to R263). -/
def execVld (m : Mod) (d a : Reg) (imm : Imm) (s : State) : Out :=
  issueLine { ws := [a], vs := [d], writes := [d] } .ld m d a (immInt imm) s

/-- VST (R260 to R263). -/
def execVst (m : Mod) (d a : Reg) (imm : Imm) (s : State) : Out :=
  issueLine { ws := [a], vs := [d] } .st m d a (immInt imm) s

/-- VGTH (R260 to R263). -/
def execVgth (m : Mod) (d a b : Reg) (s : State) : Out :=
  issueEach { ws := [a], vs := [d, b], writes := [d] } .gth m d a b s

/-- VSCT (R260 to R263). -/
def execVsct (m : Mod) (d a b : Reg) (s : State) : Out :=
  issueEach { ws := [a], vs := [d, b] } .sct m d a b s

end Sys2Proof.Machine
end

