-- ==== Sys2Proof/Machine/LoadStore.lean ====
section
/-! DEFINITION. The ordinary loads and stores and the full/empty instructions of page 0 (R95 to R104). -/

namespace Sys2Proof.Machine

/-- The kind of an access that names scalar registers. -/
def accessKind (ws : List Reg) : Kind := { names := { w := ws.map rn } }

/-- What becomes of a load's answer (R97, R99). -/
def loadUse (m : Mod) (d : Reg) : Use := if m.relaxed then .relaxed (some (rn d)) else .reg (rn d)

/-- What becomes of a store's acknowledgement (R97, R99). -/
def storeUse (m : Mod) : Use := if m.relaxed then .relaxed none else .done

/-- Issues an ordinary load of `w` bytes (R95). -/
def issueLoad (m : Mod) (w : Nat) (signed : Bool) (d a : Reg) (imm : Imm) (s : State) : Out :=
  issue (accessKind [d, a]) s fun s x =>
    x.access s (x.w s (rn a)) (w * immInt imm)
      { op := .load w signed, use := loadUse m d, align := w, bytes := w, mod := m, redir := .follows }

/-- Issues an ordinary store of `w` bytes: W[d] is captured at issue (R95, R98). -/
def issueStore (m : Mod) (w : Nat) (d a : Reg) (imm : Imm) (s : State) : Out :=
  issue (accessKind [d, a]) s fun s x =>
    let v := x.w s (rn d)
    x.access s (x.w s (rn a)) (w * immInt imm)
      { op := if w = 8 then .store v else .sub w v false, use := storeUse m, align := w, bytes := w, mod := m,
        redir := .follows }

/-- Issues a full/empty instruction (R102). -/
def issueSync (m : Mod) (ws : List Reg) (a : Reg) (imm : Imm) (use : Use) (s : State) (op : State → Cx → MemOp) : Out :=
  issue (accessKind ws) s fun s x =>
    x.access s (x.w s (rn a)) (8 * immInt imm)
      { op := op s x, use := use, align := 8, mod := m, redir := .forbidden }

/-- LD (R95). -/
def execLd (m : Mod) (d a : Reg) (imm : Imm) (s : State) : Out := issueLoad m 8 false d a imm s

/-- ST (R95). -/
def execSt (m : Mod) (d a : Reg) (imm : Imm) (s : State) : Out := issueStore m 8 d a imm s

/-- LD8 (R95). -/
def execLd8 (m : Mod) (d a : Reg) (imm : Imm) (s : State) : Out := issueLoad m 1 true d a imm s

/-- LD8.z (R95). -/
def execLd8Z (m : Mod) (d a : Reg) (imm : Imm) (s : State) : Out := issueLoad m 1 false d a imm s

/-- LD16 (R95). -/
def execLd16 (m : Mod) (d a : Reg) (imm : Imm) (s : State) : Out := issueLoad m 2 true d a imm s

/-- LD16.z (R95). -/
def execLd16Z (m : Mod) (d a : Reg) (imm : Imm) (s : State) : Out := issueLoad m 2 false d a imm s

/-- LD32 (R95). -/
def execLd32 (m : Mod) (d a : Reg) (imm : Imm) (s : State) : Out := issueLoad m 4 true d a imm s

/-- LD32.z (R95). -/
def execLd32Z (m : Mod) (d a : Reg) (imm : Imm) (s : State) : Out := issueLoad m 4 false d a imm s

/-- ST8 (R95, R98). -/
def execSt8 (m : Mod) (d a : Reg) (imm : Imm) (s : State) : Out := issueStore m 1 d a imm s

/-- ST16 (R95, R98). -/
def execSt16 (m : Mod) (d a : Reg) (imm : Imm) (s : State) : Out := issueStore m 2 d a imm s

/-- ST32 (R95, R98). -/
def execSt32 (m : Mod) (d a : Reg) (imm : Imm) (s : State) : Out := issueStore m 4 d a imm s

/-- LDF (R102). -/
def execLdf (m : Mod) (d a : Reg) (imm : Imm) (s : State) : Out :=
  issueSync m [d, a] a imm (.reg (rn d)) s fun _ _ => .ldf

/-- LDE (R102). -/
def execLde (m : Mod) (d a : Reg) (imm : Imm) (s : State) : Out :=
  issueSync m [d, a] a imm (.reg (rn d)) s fun _ _ => .lde

/-- STF (R102). -/
def execStf (m : Mod) (d a : Reg) (imm : Imm) (s : State) : Out :=
  issueSync m [d, a] a imm .done s fun s x => .stf (x.w s (rn d))

/-- STS (R102). -/
def execSts (m : Mod) (d a : Reg) (imm : Imm) (s : State) : Out :=
  issueSync m [d, a] a imm .done s fun s x => .sts (x.w s (rn d))

/-- SETE (R102). -/
def execSete (m : Mod) (a : Reg) (imm : Imm) (s : State) : Out :=
  issueSync m [a] a imm .done s fun _ _ => .sete

/-- FEQ (R102). -/
def execFeq (m : Mod) (d a : Reg) (imm : Imm) (s : State) : Out :=
  issueSync m [d, a] a imm (.reg (rn d)) s fun _ _ => .feq

end Sys2Proof.Machine
end

