-- ==== Sys2Proof/Machine/Masked.lean ====
section
/-! DEFINITION. Page 4: the masked vector instructions (R39, R248). -/

namespace Sys2Proof.Machine

/-- VADD.m (R254, R248). -/
def execVaddM (k : Reg) (d a b : Reg) (s : State) : Out :=
  issueVec { mask := some k, vs := [d, a, b], writes := [d] } (.float .add false) d a b [] s

/-- VSUB.m (R254, R248). -/
def execVsubM (k : Reg) (d a b : Reg) (s : State) : Out :=
  issueVec { mask := some k, vs := [d, a, b], writes := [d] } (.float .sub false) d a b [] s

/-- VMUL.m (R254, R248). -/
def execVmulM (k : Reg) (d a b : Reg) (s : State) : Out :=
  issueVec { mask := some k, vs := [d, a, b], writes := [d] } (.float .mul false) d a b [] s

/-- VFMA.m (R254, R248). -/
def execVfmaM (k : Reg) (d a b : Reg) (s : State) : Out :=
  issueVec { mask := some k, vs := [d, a, b], writes := [d] } (.float .fma false) d a b [] s

/-- VMIN.m (R254, R248). -/
def execVminM (k : Reg) (d a b : Reg) (s : State) : Out :=
  issueVec { mask := some k, vs := [d, a, b], writes := [d] } (.float .min false) d a b [] s

/-- VMAX.m (R254, R248). -/
def execVmaxM (k : Reg) (d a b : Reg) (s : State) : Out :=
  issueVec { mask := some k, vs := [d, a, b], writes := [d] } (.float .max false) d a b [] s

/-- VABS.m (R254, R248). -/
def execVabsM (k : Reg) (d a : Reg) (s : State) : Out :=
  issueVec { mask := some k, vs := [d, a], writes := [d] } (.float .abs false) d a 0 [] s

/-- VNEG.m (R254, R248). -/
def execVnegM (k : Reg) (d a : Reg) (s : State) : Out :=
  issueVec { mask := some k, vs := [d, a], writes := [d] } (.float .neg false) d a 0 [] s

/-- VCMP.eq.m (R254, R248). -/
def execVcmpEqM (k : Reg) (d a b : Reg) (s : State) : Out :=
  issueVec { mask := some k, ws := [d], vs := [a, b], scalar := some d } (.cmp .eq false) 0 a b [] s

/-- VCMP.lt.m (R254, R248). -/
def execVcmpLtM (k : Reg) (d a b : Reg) (s : State) : Out :=
  issueVec { mask := some k, ws := [d], vs := [a, b], scalar := some d } (.cmp .lt false) 0 a b [] s

/-- VCMP.le.m (R254, R248). -/
def execVcmpLeM (k : Reg) (d a b : Reg) (s : State) : Out :=
  issueVec { mask := some k, ws := [d], vs := [a, b], scalar := some d } (.cmp .le false) 0 a b [] s

/-- VRED.sum.m (R219, R255, R248). -/
def execVredSumM (k : Reg) (d a : Reg) (s : State) : Out :=
  issueVec { mask := some k, vs := [d, a], writes := [d] } (.red .sum false) d a 0 [] s

/-- VRED.max.m (R219, R255, R248). -/
def execVredMaxM (k : Reg) (d a : Reg) (s : State) : Out :=
  issueVec { mask := some k, vs := [d, a], writes := [d] } (.red .max false) d a 0 [] s

/-- VRED.min.m (R219, R255, R248). -/
def execVredMinM (k : Reg) (d a : Reg) (s : State) : Out :=
  issueVec { mask := some k, vs := [d, a], writes := [d] } (.red .min false) d a 0 [] s

/-- VADD.bf16.m (R254, R248). -/
def execVaddBf16M (k : Reg) (d a b : Reg) (s : State) : Out :=
  issueVec { mask := some k, vs := [d, a, b], writes := [d] } (.float .add true) d a b [] s

/-- VSUB.bf16.m (R254, R248). -/
def execVsubBf16M (k : Reg) (d a b : Reg) (s : State) : Out :=
  issueVec { mask := some k, vs := [d, a, b], writes := [d] } (.float .sub true) d a b [] s

/-- VMUL.bf16.m (R254, R248). -/
def execVmulBf16M (k : Reg) (d a b : Reg) (s : State) : Out :=
  issueVec { mask := some k, vs := [d, a, b], writes := [d] } (.float .mul true) d a b [] s

/-- VFMA.bf16.m (R254, R248). -/
def execVfmaBf16M (k : Reg) (d a b : Reg) (s : State) : Out :=
  issueVec { mask := some k, vs := [d, a, b], writes := [d] } (.float .fma true) d a b [] s

/-- VMIN.bf16.m (R254, R248). -/
def execVminBf16M (k : Reg) (d a b : Reg) (s : State) : Out :=
  issueVec { mask := some k, vs := [d, a, b], writes := [d] } (.float .min true) d a b [] s

/-- VMAX.bf16.m (R254, R248). -/
def execVmaxBf16M (k : Reg) (d a b : Reg) (s : State) : Out :=
  issueVec { mask := some k, vs := [d, a, b], writes := [d] } (.float .max true) d a b [] s

/-- VABS.bf16.m (R254, R248). -/
def execVabsBf16M (k : Reg) (d a : Reg) (s : State) : Out :=
  issueVec { mask := some k, vs := [d, a], writes := [d] } (.float .abs true) d a 0 [] s

/-- VNEG.bf16.m (R254, R248). -/
def execVnegBf16M (k : Reg) (d a : Reg) (s : State) : Out :=
  issueVec { mask := some k, vs := [d, a], writes := [d] } (.float .neg true) d a 0 [] s

/-- VCMP.eq.bf16.m (R254, R248). -/
def execVcmpEqBf16M (k : Reg) (d a b : Reg) (s : State) : Out :=
  issueVec { mask := some k, ws := [d], vs := [a, b], scalar := some d } (.cmp .eq true) 0 a b [] s

/-- VCMP.lt.bf16.m (R254, R248). -/
def execVcmpLtBf16M (k : Reg) (d a b : Reg) (s : State) : Out :=
  issueVec { mask := some k, ws := [d], vs := [a, b], scalar := some d } (.cmp .lt true) 0 a b [] s

/-- VCMP.le.bf16.m (R254, R248). -/
def execVcmpLeBf16M (k : Reg) (d a b : Reg) (s : State) : Out :=
  issueVec { mask := some k, ws := [d], vs := [a, b], scalar := some d } (.cmp .le true) 0 a b [] s

/-- VRED.sum.bf16.m (R219, R255, R248). -/
def execVredSumBf16M (k : Reg) (d a : Reg) (s : State) : Out :=
  issueVec { mask := some k, vs := [d, a], writes := [d] } (.red .sum true) d a 0 [] s

/-- VRED.max.bf16.m (R219, R255, R248). -/
def execVredMaxBf16M (k : Reg) (d a : Reg) (s : State) : Out :=
  issueVec { mask := some k, vs := [d, a], writes := [d] } (.red .max true) d a 0 [] s

/-- VRED.min.bf16.m (R219, R255, R248). -/
def execVredMinBf16M (k : Reg) (d a : Reg) (s : State) : Out :=
  issueVec { mask := some k, vs := [d, a], writes := [d] } (.red .min true) d a 0 [] s

/-- VIADD.m (R254, R248). -/
def execViaddM (k : Reg) (d a b : Reg) (s : State) : Out :=
  issueVec { mask := some k, vs := [d, a, b], writes := [d] } (.int .add) d a b [] s

/-- VISUB.m (R254, R248). -/
def execVisubM (k : Reg) (d a b : Reg) (s : State) : Out :=
  issueVec { mask := some k, vs := [d, a, b], writes := [d] } (.int .sub) d a b [] s

/-- VIMUL.m (R254, R248). -/
def execVimulM (k : Reg) (d a b : Reg) (s : State) : Out :=
  issueVec { mask := some k, vs := [d, a, b], writes := [d] } (.int .mul) d a b [] s

/-- VSHL.m (R254, R248). -/
def execVshlM (k : Reg) (d a b : Reg) (s : State) : Out :=
  issueVec { mask := some k, vs := [d, a, b], writes := [d] } (.int .shl) d a b [] s

/-- VSHR.m (R254, R248). -/
def execVshrM (k : Reg) (d a b : Reg) (s : State) : Out :=
  issueVec { mask := some k, vs := [d, a, b], writes := [d] } (.int .shr) d a b [] s

/-- VAND.m (R254, R248). -/
def execVandM (k : Reg) (d a b : Reg) (s : State) : Out :=
  issueVec { mask := some k, vs := [d, a, b], writes := [d] } (.int .and) d a b [] s

/-- VOR.m (R254, R248). -/
def execVorM (k : Reg) (d a b : Reg) (s : State) : Out :=
  issueVec { mask := some k, vs := [d, a, b], writes := [d] } (.int .or) d a b [] s

/-- VXOR.m (R254, R248). -/
def execVxorM (k : Reg) (d a b : Reg) (s : State) : Out :=
  issueVec { mask := some k, vs := [d, a, b], writes := [d] } (.int .xor) d a b [] s

/-- VMADDM.m (R257, R248). -/
def execVmaddmM (k : Reg) (d a b : Reg) (s : State) : Out :=
  issueMod { mask := some k, vs := [d, a, b], writes := [d] } .maddm d a b [] s

/-- VMSUBM.m (R257, R248). -/
def execVmsubmM (k : Reg) (d a b : Reg) (s : State) : Out :=
  issueMod { mask := some k, vs := [d, a, b], writes := [d] } .msubm d a b [] s

/-- VMMULM.m (R257, R248). -/
def execVmmulmM (k : Reg) (d a b : Reg) (s : State) : Out :=
  issueMod { mask := some k, vs := [d, a, b], writes := [d] } .mmulm d a b [] s

/-- VBFLY.ct.m (R257, R248). -/
def execVbflyCtM (k : Reg) (d a b : Reg) (s : State) : Out :=
  issueBfly { mask := some k, vs := [d, a, b], writes := [d, a] } .bflyCt d a b s

/-- VBFLY.gs.m (R257, R248). -/
def execVbflyGsM (k : Reg) (d a b : Reg) (s : State) : Out :=
  issueBfly { mask := some k, vs := [d, a, b], writes := [d, a] } .bflyGs d a b s

/-- VTWID.m (R257, R248). -/
def execVtwidM (k : Reg) (d a b : Reg) (s : State) : Out :=
  issueMod { mask := some k, ws := [a, b], vs := [d], writes := [d] } .twid d 0 0 [a, b] s

/-- VCVT.m (R259, R248). -/
def execVcvtM (k : Reg) (d a : Reg) (code : BitVec 4) (s : State) : Out :=
  issueVec { mask := some k, vs := [d, a], writes := [d] } (.cvt code.toNat) d a 0 [] s

/-- VEXP2.m (R218, R256, R248). -/
def execVexp2M (k : Reg) (d a : Reg) (s : State) : Out :=
  issueVec { mask := some k, vs := [d, a], writes := [d] } .exp2 d a 0 [] s

/-- VRCP.m (R218, R256, R248). -/
def execVrcpM (k : Reg) (d a : Reg) (s : State) : Out :=
  issueVec { mask := some k, vs := [d, a], writes := [d] } .rcp d a 0 [] s

/-- VRSQ.m (R218, R256, R248). -/
def execVrsqM (k : Reg) (d a : Reg) (s : State) : Out :=
  issueVec { mask := some k, vs := [d, a], writes := [d] } .rsq d a 0 [] s

/-- VMOVV.m (R258, R248). -/
def execVmovvM (k : Reg) (d a : Reg) (s : State) : Out :=
  issueVec { mask := some k, ws := [a], vs := [d], writes := [d] } .movvAll d 0 0 [a] s

/-- VLD.m (R260 to R263, R248). -/
def execVldM (m : Mod) (k : Reg) (d a : Reg) (s : State) : Out :=
  issueLine { mask := some k, ws := [a], vs := [d], writes := [d] } .ld m d a 0 s

/-- VST.m (R260 to R263, R248). -/
def execVstM (m : Mod) (k : Reg) (d a : Reg) (s : State) : Out :=
  issueLine { mask := some k, ws := [a], vs := [d] } .st m d a 0 s

/-- VGTH.m (R260 to R263, R248). -/
def execVgthM (m : Mod) (k : Reg) (d a b : Reg) (s : State) : Out :=
  issueEach { mask := some k, ws := [a], vs := [d, b], writes := [d] } .gth m d a b s

/-- VSCT.m (R260 to R263, R248). -/
def execVsctM (m : Mod) (k : Reg) (d a b : Reg) (s : State) : Out :=
  issueEach { mask := some k, ws := [a], vs := [d, b] } .sct m d a b s

end Sys2Proof.Machine
end

