-- ==== Sys2Proof/Machine/Security.lean ====
section
/-! DEFINITION. The security core: SPDM and vendor-defined requests, the random number generator, errors that strike a
kernel or a core, lost devices (R316, R347, R348, R357, R361, R362). -/

namespace Sys2Proof.Machine

/-! ### SPDM (R361) -/

/-- The SPDM request codes (PRESUMED, log 20). -/
def rGetDigests : Nat := 0x81
def rGetCertificate : Nat := 0x82
def rChallenge : Nat := 0x83
def rGetVersion : Nat := 0x84
def rGetMeasurements : Nat := 0xE0
def rGetCapabilities : Nat := 0xE1
def rNegotiateAlgorithms : Nat := 0xE3
def rKeyExchange : Nat := 0xE4
def rFinish : Nat := 0xE5
def rEndSession : Nat := 0xEC
def rVendor : Nat := 0xFE

/-- The security core answers a request. -/
def State.spdm (s : State) (request sess status : Nat) (payload : List SpdmItem) : State :=
  s.emit (.spdm request sess status payload)

/-- Changes a session. -/
def State.upSession (s : State) (n : Nat) (f : Session → Session) : State :=
  s.upLinks fun l => { l with sessions := l.sessions.adjust n f }

/-- The requests that the security core supports (R361). -/
def spdmRequests : List Nat :=
  [rGetVersion, rGetCapabilities, rNegotiateAlgorithms, rGetDigests, rGetCertificate, rChallenge, rGetMeasurements, rKeyExchange,
   rFinish, rEndSession]

/-- The algorithms that the security core supports, and no others (R361). -/
def spdmAlgorithms : List SpdmAlgorithm := [.ed448, .sha3, .secp384r1, .aes256gcm]

/-- The first-level digest of an index of Table 20.4. -/
def Image.digest (i : Image) (index : Nat) : BitVec 512 := i.digests.getD (index - 1) (Config.imageDigest index)

/-- The certificate chain, which ends in the device key (R361). -/
def State.chainBytes (s : State) : List Byte := Config.certificates (Config.deviceKey (s.sys.image.digest 1))

/-- GET_VERSION: SPDM 1.3. -/
def execGetVersion (sess : Nat) (s : State) : Out := .next (s.spdm rGetVersion sess 0 [.version 0x13])

/-- GET_CAPABILITIES: the requests that are supported. -/
def execGetCapabilities (sess : Nat) (s : State) : Out := .next (s.spdm rGetCapabilities sess 0 (spdmRequests.map .request))

/-- NEGOTIATE_ALGORITHMS: the algorithms that are supported. -/
def execNegotiateAlgorithms (sess : Nat) (s : State) : Out :=
  .next (s.spdm rNegotiateAlgorithms sess 0 (spdmAlgorithms.map .algorithm))

/-- GET_DIGESTS: the digest of the certificate chain. -/
def execGetDigests (sess : Nat) (s : State) : Out := .next (s.spdm rGetDigests sess 0 [.digest (sha3 s.chainBytes)])

/-- GET_CERTIFICATE: the chain. -/
def execGetCertificate (sess : Nat) (s : State) : Out := .next (s.spdm rGetCertificate sess 0 [.certificates s.chainBytes])

/-- CHALLENGE: the digest of the chain, a nonce, and the signature of the transcript (log 7). -/
def execChallenge (sess : Nat) (s : State) : Out :=
  let k := s.free
  .next ({ s with free := k + 1 }.spdm rChallenge sess 0
    [.digest (sha3 s.chainBytes), .nonce (Config.nonce k), .signature (Config.signature (Config.transcript k))])

/-- The SHA3-512 hash chain over a context's measured operations (R361, Table 20.4, index 5): each link is the digest of the link
before it, W[a], W[b] and the result. The first link, for which the manual gives no value, is zero, and the words stand in order, low
byte first (DESIGN CHOICE, log 68). -/
def measurementChain (l : List (Word × Word × Word)) : BitVec 512 :=
  l.foldl (fun d e => sha3 (bytesOf 64 d.toNat ++ wordBytes e.1 ++ wordBytes e.2.1 ++ wordBytes e.2.2)) 0

/-- The measurements of Table 20.4: indices 1 to 4, and 5 when the session is bound to a context. -/
def State.measurements (s : State) (sess : Nat) : List SpdmItem :=
  ([1, 2, 3, 4].map fun i => .measurement i (s.sys.image.digest i)) ++
    (match (s.links.sessions.find sess).bind fun e => e.bound with
     | some c => [.measurement 5 (measurementChain (s.context c).measured)]
     | none => [])

/-- GET_MEASUREMENTS (R361, Table 20.4). -/
def execGetMeasurements (sess : Nat) (s : State) : Out := .next (s.spdm rGetMeasurements sess 0 (s.measurements sess))

/-- KEY_EXCHANGE: a session with a secret of its own begins; the response carries the responder's key and the signature of the
transcript (log 7). -/
def execKeyExchange (sess : Nat) (s : State) : Out :=
  let k := s.free
  let s := { s with free := s.free + 1 }
  let e : Session := { stage := 1, secret := Config.exportSecret k }
  .next ((s.upLinks fun l => { l with sessions := l.sessions.put sess e }).spdm rKeyExchange sess 0
    [.exchange (Config.exchangeKey k), .signature (Config.signature (Config.transcript k))])

/-- FINISH: the session may carry vendor-defined requests. -/
def execFinish (sess : Nat) (s : State) : Out :=
  match s.links.sessions.find sess with
  | some e => if e.stage = 1 then .next ((s.upSession sess fun e => { e with stage := 2 }).spdm rFinish sess 0 [])
    else .next (s.spdm rFinish sess 1 [])
  | none => .next (s.spdm rFinish sess 1 [])

/-- END_SESSION. -/
def execEndSession (sess : Nat) (s : State) : Out :=
  .next ((s.upLinks fun l => { l with sessions := l.sessions.drop sess }).spdm rEndSession sess 0 [])

/-! ### Vendor-defined requests (R362) -/

/-- A response to a vendor-defined request carries the identifiers of the leaf certificate, and begins with the opcode (R362). -/
def State.vendor (s : State) (sess op status : Nat) : State :=
  s.spdm rVendor sess status [.names Config.standardsBody Config.vendorName, .opcode op]

/-- BIND (R362), with what follows the opcode: the first vendor-defined request after FINISH, for a context that exists. A malformed
payload is judged first (DESIGN CHOICE, log 20). -/
def execBind (sess : Nat) (payload : List Byte) (s : State) : Out :=
  match s.links.sessions.find sess with
  | none => .next (s.vendor sess 1 1)
  | some e =>
    if e.stage ≠ 2 then .next (s.vendor sess 1 1)
    else if payload.length ≠ 2 then .next ((s.upSession sess fun e => { e with asked := true }).vendor sess 1 4)
    else if e.asked then .next (s.vendor sess 1 2)
    else
      let ctx := numberOf payload
      let s := s.upSession sess fun e => { e with asked := true }
      if s.io.ctxs.has ctx then .next ((s.upSession sess fun e => { e with bound := some ctx }).vendor sess 1 0)
      else .next (s.vendor sess 1 1)

/-- RINGKEY (R361, R362), with what follows the opcode: a key derived from the session's secret is installed in a ring of the bound
context; a running ring halts to rekey. A payload of the wrong length is judged first, and a number that no ring has when the
session is bound (DESIGN CHOICE, log 20). -/
def execRingkey (sess : Nat) (payload : List Byte) (s : State) : Out :=
  match s.links.sessions.find sess with
  | none => .next (s.vendor sess 2 1)
  | some e =>
    if e.stage ≠ 2 then .next (s.vendor sess 2 1)
    else
      let s := s.upSession sess fun e => { e with asked := true }
      let ring := numberOf payload
      if payload.length ≠ 1 then .next (s.vendor sess 2 4)
      else match e.bound with
      | none => .next (s.vendor sess 2 3)
      | some c =>
        if 64 ≤ ring then .next (s.vendor sess 2 4)
        else if (s.ring ring).ctx ≠ c then .next (s.vendor sess 2 1)
        else
          let runs := (s.ring ring).state = 1
          let s := s.upRing ring fun g => { g with key := some (ringKeyOf e.secret ring) }
          let s := if runs then (s.upRing ring fun g => { g with ws := g.ws.put 3 3 }).ringStop ring else s
          .next (s.vendor sess 2 0)

/-- VENDOR_UNKNOWN_OPCODE (R362). -/
def execVendorUnknownOpcode (sess op : Nat) (s : State) : Out :=
  .next ((s.upSession sess fun e => { e with asked := e.asked || e.stage == 2 }).vendor sess op 5)

/-! ### The generator (R316) -/

/-- RNG_HEALTH_FAILURE. -/
def execRngHealthFailure (s : State) : Out := .next (s.upIo fun io => { io with rngFails := true })

/-- START_UP_TESTS_PASSED. -/
def execStartUpTestsPassed (s : State) : Out := .next (s.upIo fun io => { io with rngFails := false })

/-! ### Lost devices (R357) -/

/-- CXL_DEVICE_LOST: the port completes each of its requests as POISON, those that wait at it too. -/
def execCxlDeviceLost (port : Nat) (s : State) : Out :=
  let b := (Home.port port).num
  let x := s.bank b
  let waiting := x.arrived.map (fun w => w.req) ++ x.queue ++ x.waiters
  let s := s.upLinks fun l => { l with lost := if l.lost.contains port then l.lost else port :: l.lost }
  let s := s.upBank b fun x => { x with arrived := [], queue := [], waiters := [] }
  let lost := s.reqs.filter fun e => waiting.contains e.1 || (match e.2.lead with | some m => waiting.contains m | none => false)
  .next (lost.foldl (fun s e => ((s.upReq e.1 fun r => { r with lead := none }).unwait e.2).refuse e.1 cPOISON e.2.ptr) s)

/-! ### Errors that strike a kernel (R347, R348) -/

/-- The cores on which a kernel's services run: the large cores, or the kernel cores of every die. -/
def serviceCores (kern : Nat) : List Nat :=
  if kern = 1 then (List.range 16).map fun i => 0x0FF00 + i
  else (List.range 4).flatMap fun d => (List.range 16).map fun i => d * 65536 + i / 4 * 256 + i % 4

/-- Every thread of a core is stopped. -/
def State.stopThreads (s : State) (c : Nat) : State :=
  (s.core c).threads.foldl (fun s e => s.cancelThread c e.1) s

/-- The threads that a core still holds leave it, and what they have under way is given up: their identifiers are not those of a
later thread of the slot (R50, R348). -/
def State.forceOut (s : State) (c : Nat) : State :=
  (s.core c).threads.foldl (fun s e =>
    let t := s.tidAt c e.1
    let s := s.reqs.foldl (fun s q => if q.2.tid == some t && !q.2.ofEngine then s.withdraw q.1 else s) s
    (s.upThread c e.1 fun t => { t with relaxed := [], deferred := [] }).leave c e.1) s

/-- KERNEL_TERMINATION (R348): the kernel's threads are stopped, its service cores cleared, and the other kernel told; nothing
is placed on the kernel's cores until the restart, which follows after a time that is left open. -/
def execKernelTermination (kern : Nat) (s : State) : Out :=
  if kern ≠ 1 ∧ kern ≠ 2 then .next s
  else
    let s := (s.coresOf kern).foldl State.stopThreads s
    let s := (serviceCores kern).foldl (fun s c => (s.forceOut c).clearCore c kern) s
    let s := (s.upKernel kern fun k => { k with down := true }).notice (3 - kern) 8 0 0
    let d := Config.freeNat s.free
    .next ({ s with free := s.free + 1 }.after d 20 (.kernelRestart kern))

/-- KERNEL_RESTART (R348): the kernel starts at the image's entry, and the other kernel is told. -/
def execKernelRestart (kern : Nat) (s : State) : Out :=
  if !(s.kernel kern).down then .next s
  else
    let c := if kern = 1 then 0x0FF00 else 0
    let entry := if kern = 1 then s.sys.image.hostEntry else s.sys.image.arrayEntry
    let s := (s.upKernel kern fun k => { k with down := false }).create c 0 (bootThread entry 0x1000)
    .next ((s.retryCtx kern).notice (3 - kern) 9 0 0)

/-- A thread of a core that an error has struck parks with POISON, and posts a record. A request of it that waits in a wait list
stays there (R106; DESIGN CHOICE, log 114). -/
def State.strike (s : State) (c k : Nat) : State :=
  match s.thread c k with
  | none => s
  | some t =>
    let s := (s.abandon c k).withdrawRest (s.tidAt c k)
    s.kernelFault c k 0 cPOISON 0 0 t.resumePc t.pc 0 none

/-- UNCORRECTABLE_CORE_STATE_ERROR (R347): charged to the kernel whose core it strikes, or to the context of a small
core, whose threads park. -/
def execUncorrectableCoreStateError (core : Nat) (s : State) : Out :=
  if isLarge core then .next (s.after 0 20 (.kernelTermination 1))
  else if isKernelCore core then .next (s.after 0 20 (.kernelTermination 2))
  else .next ((s.core core).threads.foldl (fun s e => s.strike core e.1) s)

end Sys2Proof.Machine
end

