-- ==== Sys2Proof/Machine/Power.lean ====
section
/-! DEFINITION. Bring-up, power, heat, time and the debugger's release of a core (R111, R351, R364 to R366). -/

namespace Sys2Proof.Machine

/-- The module without power: nothing but the image, which lies outside, is left. -/
def State.off (s : State) : State :=
  { free := s.free, serial := s.serial, io := { draws := s.io.draws },
    sys := { ready := 0, powered := false, image := s.sys.image } }

/-- POWER_UP (R365): the stages of Table 20.6; one that fails ends bring-up, and no kernel starts. Ports that fail training
are left down (R357, R358). -/
def execPowerUp (s : State) : Out :=
  if s.sys.powered then .next s
  else
    let s := { s with free := s.free + 1 }
    match Config.failedStage (s.free - 1) with
    | some k =>
      let v : Word := BitVec.ofNat 64 (256 * (k.val + 1) + 4 * s.sys.image.attached.toNat)
      .next { s with sys := { s.sys with powered := true, ready := v } }
    | none =>
      let down := Config.downPorts (s.free - 1)
      let s' := State.boot { s.sys.image with cxlDown := down.1 } s.io.draws s.free
      .next { s' with serial := s.serial, links := { s'.links with downPorts := down.2 } }

/-- POWER_REMOVED (R351). -/
def execPowerRemoved (s : State) : Out := .next s.off

/-- THERMAL_THROTTLE (R366): every core issues in one cycle of two. -/
def execThermalThrottle (s : State) : Out :=
  let s := { s with sys := { s.sys with throttle := true } }
  .next (s.cores.foldl (fun s e => (s.upCore e.1 fun x => { x with issueAt := none }).kick e.1) s)

/-- THERMAL_SHUTDOWN (R366): the module shuts down, as when power is removed. -/
def execThermalShutdown (s : State) : Out := .next s.off

/-- IEEE_1588_TIMING_MESSAGE (R364): sys.ptp is disciplined. -/
def execIeee1588TimingMessage (ptp : Word) (s : State) : Out :=
  .next { s with sys := { s.sys with ptp := ptp, ptpAt := s.cyc } }

/-- HELD_CORE_RELEASE (R111): a held core starts to issue again. -/
def execHeldCoreRelease (core : Nat) (s : State) : Out := .next ((s.upCore core fun x => { x with held := false }).kick core)

end Sys2Proof.Machine
end

