-- ==== Sys2Proof/Machine/MemoryEvents.lean ====
section
/-! DEFINITION. The steps of a request on its way: translation and key fills, arrival, admission, write-back, refusal and
reply (R97 to R106, R116, R120, R129, R133 to R143, R302, R304, R308, R343). -/

namespace Sys2Proof.Machine

/-! ### Arrival (R105, R124) -/

/-- A request reaches a unit of the I/O die, the security core or a shared engine. -/
def State.unitArrives (s : State) (n : Nat) (r : Req) : State :=
  if r.use = .stage stEmsg then s.emsgArrives n r
  else if r.use = .stage stCollAck then s.collArrives n r
  else
    let code := (r.args.getD 1 0).toNat
    if code = uXinv then s.xinv n r
    else if code = uSeqnew then s.seqnew n r
    else if code = uSeqmap then s.seqmap n r
    else if code = uSequnmap then s.sequnmap n r
    else if code = uSeqend then s.seqend n r
    else if code = uSeqq then s.seqq n r
    else if code = uPartset then s.partset n r
    else s.ownset n r

/-- A request reaches the endpoint, an Exrin Link port or a table, with the reads merged with it. -/
def State.withMerged (s : State) (n : Nat) (r : Req) (f : State → Nat → Req → State) : State :=
  (s.merged n).foldl (fun s e => f (s.upReq e.1 fun q => { q with lead := none }) e.1 e.2) (f s n r)

/-- A page of a save block is reached: it is checked as the access of its instruction, which then goes on. -/
def State.blockArrives (s : State) (n : Nat) (r : Req) : State :=
  match s.admitEvent r with
  | some e => s.refuse n e r.ptr
  | none => if r.use = .stage stBlock then s.blockReached n r else s.blockReached2 n r

/-- BANK_REQUEST_ARRIVAL (R105, R124): a request reaches the place that performs it. -/
def execBankRequestArrival (r : Nat) (s : State) : Out :=
  match s.reqs.find r with
  | none => .next s
  | some q =>
    if q.stage ≠ .sent then .next s
    else if q.op = .unit then .next (s.unitArrives r q)
    else if s.lostAt q.pa then .next (s.withMerged r q fun s n q => s.refuse n cPOISON q.ptr)
    else if q.use = .stage stBlock ∨ q.use = .stage stBlock2 then .next (s.blockArrives r q)
    else match homeOf s.sys.image q.pa with
      | .asidTable | .control => .next (s.withMerged r q State.tableArrives)
      | .pcie | .exrin => .next (s.withMerged r q State.farArrives)
      | .nowhere => .next (s.withMerged r q fun s n _ => s.refuse n cPERM 0x03)
      | _ => .next (s.arrive r)

/-- CHANNEL_ADMISSION (R343). -/
def execChannelAdmission (ch : Nat) (s : State) : Out := .next (s.admitNext ch)

/-- REFUSED_REQUEST_RESEND (R103, R135): the core sends the request again. -/
def execRefusedRequestResend (r : Nat) (s : State) : Out :=
  match s.reqs.find r with
  | none => .next s
  | some q =>
    if q.stage ≠ .refused then .next s
    else if q.orphan then .next (s.dropReq r)
    else
      let time := s.cyc + half q.lat
      .next ((s.upReq r fun q => { q with stage := .sent, portAt := none }).post time (s.arrivalRank time q) (s.arrivalOf r q))

/-! ### Write-backs (R133, R136, R142, R282) -/

/-- What a holder's write-back writes: the word or the pair, and whether the word is set full; `v0` and `v1` left for the
core at the grant. -/
def State.newWords (s : State) (r : Req) (v0 v1 : Word) : List Word × Bool :=
  match r.op with
  | .sub w v full => ([mergeBytes v0 r.pa w v], full)
  | .atom op e x => ([op.apply v0 e x], false)
  | .cas2 e0 e1 x0 x1 => (if v0 = e0 ∧ v1 = e1 then [x0, x1] else [v0, v1], false)
  | .rel p a b | .giveBack p a b => (if p then [a, b] else [a], false)
  | .merge m v => ([if s.mem.full r.first then m.combine v0 v else v], true)
  | .cancel => ([v0 ||| 1], false)
  | .leaf _ => ([if r.event.isNone then v0 &&& ~~~0x80 else v0], false)
  | _ => ([v0], false)

/-- The answer of a holder's instruction. -/
def Req.heldAnswer (r : Req) (v0 v1 : Word) : List Word :=
  match r.op with
  | .atom _ _ _ => [v0]
  | .cas2 _ _ _ _ => [v0, v1]
  | .cancel => [v0 &&& 1]
  | _ => []

/-- A write-back is performed: the write, the end of the hold, the waiters of the word, the queue, the reply. -/
def State.writeBack (s : State) (n : Nat) (r : Req) (v0 v1 : Word) : State :=
  let b := s.bankOf r
  let (ws, full) := s.newWords r v0 v1
  let s := s.writeRun r full r.first ws
  let s := s.upBank b fun x => { x with holds := x.holds.filter fun h => !(decide (h.pa = r.first)) }
  let s := if (s.bank b).waiters = [] then s else s.scan b r.first ((s.bank b).waiters.length + 1)
  let s := match r.op with | .sub _ _ _ => s.farStore n r | _ => s
  let s := s.release b r.first r.span
  match r.op with
  | .giveBack _ _ _ => s.dropReq n
  | _ => s.reply n (r.heldAnswer v0 v1)

/-- Whether the hold that a section's write-back ends still stands. -/
def State.sectHeld (s : State) (r : Req) : Bool :=
  (s.bank (s.bankOf r)).holds.any fun h => h.pa == r.first &&
    (match h.sect with | some (t, _) => Tid.word t == r.args.getD 0 0 | none => false)

/-- A section's write-back reaches its bank: it is rejected where the hold has ended at a revocation, or where the frame
is no longer the kernel's (R141, R324). -/
def State.sectionBack (s : State) (n : Nat) (r : Req) : State :=
  let rejected := !s.sectHeld r || (s.admitEvent r).isSome
  if !rejected then s.writeBack n r 0 0
  else
    let s := if s.sectHeld r then s.release (s.bankOf r) r.first r.span else s
    match r.op with
    | .giveBack _ _ _ => s.dropReq n
    | _ => s.refuse n cREVOKED r.ptr

/-- A section's write-back reaches a lost device: its hold ends, and a REL meets POISON (R357). -/
def State.sectionLost (s : State) (n : Nat) (r : Req) : State :=
  let s := if s.sectHeld r then s.release (s.bankOf r) r.first r.span else s
  match r.op with
  | .giveBack _ _ _ => s.dropReq n
  | _ => s.refuse n cPOISON r.ptr

/-- HOLD_WRITE_BACK (R133): the holder's write-back is performed; a unit that has had its turn gives the word back. -/
def execHoldWriteBack (r : Nat) (s : State) : Out :=
  match s.reqs.find r with
  | none => .next s
  | some q =>
    match q.op with
    | .rel _ _ _ | .giveBack _ _ _ => .next (if s.lostAt q.pa then s.sectionLost r q else s.sectionBack r q)
    | .turn => .next (if q.stage = .held then (s.dropReq r).release (s.bankOf q) q.first q.span else s)
    | _ =>
      if q.stage ≠ .held then .next s
      else if s.lostAt q.pa then .next ((s.release (s.bankOf q) q.first q.span).refuse r cPOISON q.ptr)
      else .next (s.writeBack r q (q.ans.getD 0 0) (q.ans.getD 1 0))

/-! ### Replies (R97, R99, R116) -/

/-- A relaxed access has completed: th.vx's count is of all that have (R99). -/
def State.relaxedDone (s : State) (n : Nat) (t : Tid) (r : Req) (d : Option Nat) (ans : List Word) : State :=
  let s := match d with
    | some d => if (s.threadOf t).isSome then s.setW t.core t.slot d (ans.getD 0 0) else s
    | none => s
  let s := s.acquire t r.acq
  let s := s.upTid t fun th => { th with relaxed := without n th.relaxed, passed := th.passed + 1 }
  ((s.resumeHeld t n).poke t).accessDone n

/-- A thread's instruction is complete: it goes on at the next one, or, where an error has struck its core meanwhile, that is where its
fault resumes (R106). -/
def State.passes (s : State) (t : Tid) (npc : Word) : State :=
  match s.threadOf t with
  | some th => match th.status with
    | .parked why (.fault _ code info epc vx held) =>
      s.upTid t fun th => { th with status := .parked why (.fault npc code info epc vx held) }
    | _ => s.resumeAt t.core t.slot npc
  | none => s

/-- An access's answer completes its instruction: its registers are written, its acquire has effect, and its thread goes
on at the next instruction. -/
def State.complete (s : State) (n : Nat) (r : Req) (ans : List Word) : State :=
  match r.tid with
  | none => s
  | some t =>
    match r.use with
    | .relaxed d => s.relaxedDone n t r d ans
    | .reg d =>
      if (s.threadOf t).isNone then s
      else
        let s := s.setW t.core t.slot d (ans.getD 0 0)
        let s := match r.op with
          | .cas2 _ _ _ _ => s.setW t.core t.slot (d + 1) (ans.getD 1 0)
          | .cancel => s.sendNotices r.core r.ctx (r.args.getD 0 0)
          | _ => s
        (s.acquire t r.acq).passes t r.npc
    | _ => if (s.threadOf t).isNone then s else (s.acquire t r.acq).passes t r.npc

/-- The accesses that wait for a line fill of another. -/
def State.waitFill (s : State) (n : Nat) : List (Nat × Req) := s.reqs.filter fun e => e.2.after == [n] && e.2.cacheable

/-- The accesses that a line fill serves: the one that asked for it, and those that wait for it, in their order, where the
latency from their own issue has passed (R4). -/
def State.missers (s : State) (n m : Nat) : List (Nat × Req) :=
  ((s.reqs.find m).map fun q => (m, q)).toList ++ (s.waitFill n).filter fun e => decide (e.2.since ≤ s.cyc)

/-- The accesses that wait for a line fill and have still to wait ask for their line again at the end of their latency (R4). -/
def State.waitOn (s : State) (n : Nat) : State :=
  ((s.waitFill n).filter fun e => decide (s.cyc < e.2.since)).foldl (fun s e =>
    (s.upReq e.1 fun r => { r with after := [] }).post e.2.since 5 (.keyFill e.1)) s

/-- The effects of accesses on a cached line, one after the other: the line after them, and the value that each loads; none
where its word has an uncorrectable error. -/
def CLine.applyAll (l : CLine) : List (Nat × Req) → CLine × List (Nat × Req × Option (List Word))
  | [] => (l, [])
  | e :: rest =>
    let p := if l.lacks e.2 then (l, none) else ((l.apply e.2.core e.2).1, some (l.apply e.2.core e.2).2.toList)
    let q := p.1.applyAll rest
    (q.1, (e.1, e.2, p.2) :: q.2)

/-- A line that falls under a shoot-down that runs is not kept: its dirty words are written back, and the shoot-down awaits
that (R314); a revocation discards them (R324). -/
def State.passLine (s : State) (r : Req) (l : CLine) : State :=
  if s.io.shoots.any fun e => e.2.kind == .revoke && s.accessFalls e.2 l.route l.line l.key then s
  else
  let t := s.sendDirty r.core l l.dirtyWords
  let ns := (List.range (t.serial - s.serial)).map fun i => s.serial + i
  t.upIo fun io =>
    { io with shoots := io.shoots.mapVals fun h => if s.accessFalls h l.route l.line l.key then { h with waits := h.waits ++ ns } else h }

/-- The fill `n` of a line of the large cores' caches has read it: it is cached, unless a fill before has brought it, and the
accesses that missed it are done, or meet an uncorrectable error in their word (R101, R120, R382). -/
def State.lineGot (s : State) (n : Nat) (r : Req) (m : Nat) : State :=
  let ws := r.ans.take 8
  let bad := (List.range 8).filter fun i => (r.ans.getD 8 0).getLsbD i
  let stale := !((wordsFrom r.pa 8).map (s.mem.read r.key) == ws)
  let l := match s.cached r.pa r.key with
    | some l => l.refill ws bad
    | none => { line := r.pa, ws := ws, dirty := [], stale := stale, key := r.key, route := r.route, bad := bad }
  let p := l.applyAll (s.missers n m)
  let s := s.waitOn n
  let s := p.2.foldl (fun s e => if e.2.2.isSome || e.2.1.orphan then s.dropReq e.1 else s) s
  let s := if s.shot r.route r.pa r.key then s.passLine r p.1 else s.cacheLine r.core p.1
  p.2.foldl (fun s e => if e.2.1.orphan then s else match e.2.2 with
    | some v => s.complete e.1 e.2.1 v
    | none => (s.tellPoison e.2.1.pa).meetEvent e.1 cPOISON e.2.1.ptr) s

/-- A line fill has met an event: the accesses that waited for it ask for the line again. -/
def State.fillAgain (s : State) (n : Nat) : State :=
  (s.waitFill n).foldl (fun s e =>
    (s.upReq e.1 fun r => { r with after := [] }).after 0 20 (.keyFill e.1)) s

/-- The instruction that awaited a stage goes on. -/
def State.stageDone (s : State) (r : Req) (k : Nat) : State :=
  let f := (r.args.getD 1 0).toNat
  match r.tid with
  | none => s
  | some t =>
    if (s.threadOf t).isNone then s
    else if k = stPacket then s.launchPacket r
    else if k = stRegion then s.launchRegion r
    else if k = stAmsg then s.amsgRead r
    else if k = stInlined then s.recordWritten t f (r.args.getD 2 0)
    else if k = stInline then s.inlineRead t
    else if k = stRsv then s.rsvGot r (match r.op with | .rsv p => p | _ => false)
    else if k = stCfg then s.loadCfg r
    else if k = stProbe then s.probed r
    else if k = stMcfg then s.loadMatCfg r
    else if k = stPart then s.partRead r
    else if k = stDrain then s.drainRead r
    else if k = stColl then s.collRead r
    else s.answer r (r.args.getD 0 0).toNat (r.ans.getD 0 0)

/-- A record writer, a ring unit, the ordering point or the collective engine has its answer. -/
def State.recordDone (s : State) (n : Nat) (r : Req) (who : Nat) : State :=
  let k := who % 2 ^ 40
  match who / 2 ^ 40 with
  | 1 => if r.event.isSome then s else s.ringLooked k
  | 2 => if r.event.isSome then s else s.ringGot k r.ans
  | 4 => if r.event.isSome then s else s.noticePut (who - 2 ^ 42)
  | 8 => if r.event.isSome then s else s.recordPut (who - 2 ^ 43)
  | 16 => s.inDone n r
  | 32 => s.inDone n r
  | 64 => if r.event.isSome then s else s.collWrote (who - 2 ^ 46)
  | 128 => if who - 2 ^ 47 < 2 ^ 16 then s.recordEnds (who - 2 ^ 47) r else s.noticeEnds (who - 2 ^ 47 - 2 ^ 16) r
  | _ => s

/-- An answer that nobody awaits any more: a reservation's word goes back (R140), and a cancellation that has set its flag
sends its notices (R269). -/
def State.orphanDone (s : State) (n : Nat) (r : Req) : State :=
  let s := s.dropReq n
  match r.op with
  | .rsv p => if r.event.isSome then s else s.rsvBack r p
  | .cancel => if r.event.isSome then s else s.sendNotices r.core r.ctx (r.args.getD 0 0)
  | _ => s

/-! ### The first write to a clean page (R304) -/

/-- The requests of a command that waited for a translation follow. -/
def State.afterFill (s : State) (r : Req) : State :=
  match r.use with
  | .copy id _ true => s.pushAll r.core id
  | .copy id _ false => s.readParts r.core id (match s.copyCmd r.core id with | some q => q.parts + 1 | none => 0)
  | .lane id _ => s.sendLanes r.core id 17
  | .part _ _ => match r.tid with
    | some t => s.moveNext t 300
    | none => s
  | .merge _ _ _ false => match r.tid with
    | some t => s.mergeSend r t (r.args.getD 1 0).toNat (2 ^ 20)
    | none => s
  | _ => s

/-- A fill ends: the translation is known, or an event is met; it waits for a hold on a word of the tables (R133). A request that has
waited for the allocation of its view takes its route. -/
def State.filled (s : State) (n : Nat) (r : Req) : State :=
  if r.placing then s.route n
  else match s.lookup r.core r.ctx r.asid r.want r.ptr with
  | .now t => s.translated n t
  | .later _ =>
    match s.heldWalk r.core r.ctx r.asid r.want r.ptr with
    | some a => (s.upReq n fun r => { r with stage := .translating }).awaitTurn a (.translationFill n)
    | none =>
      let (t, s) := s.refill r.core r.ctx r.asid r.want r.ptr
      s.translated n t

/-- The key of a write to a clean page is at hand: the hold of the leaf is asked for (R304, R308). -/
def State.keyedLog (s : State) (n : Nat) (r : Req) : State :=
  match s.lookup r.core r.ctx r.asid r.want r.ptr with
  | .now (.ok _ key _ _ none) => (s.useKey r.core key).depart n key
  | .now (.ok _ key _ _ (some leaf)) => (s.useKey r.core key).holdLeaf n r leaf
  | .now (.event code info) => s.meetEvent n code info
  | .later _ => s.filled n r

/-- The log unit answers the walker that holds a clean leaf: the entry is appended, or the log meets an event; a hold on its
slot is waited for, and an LDE that waits on the slot is served (R103, R133, R304). -/
def State.askLog (s : State) (n : Nat) (r : Req) : State :=
  match r.op with
  | .leaf entry =>
    let slot := s.logSlot r.asid
    if s.heldIn slot 1 then s.awaitTurn slot (.translationFill n)
    else match s.logAppend r.asid entry with
      | (none, s) => (s.scanWord slot).postBack n r (150 + half r.lat)
      | (some code, s) => (s.upReq n fun r => { r with event := some (code, r.ptr) }).postBack n r (150 + half r.lat)
  | _ => s

/-- The leaf's write-back has been performed: the write itself follows, where its translation still stands (R304). -/
def State.leafDone (s : State) (w : Nat) : State :=
  match s.reqs.find w with
  | none => s
  | some q =>
    if q.stage ≠ .logging then s
    else if s.links.inbound.any fun i => i.req == some w then
      (s.noteDirty q.core q.asid (offsetOf q.ptr)).inLogged w q true
    else
      let s := s.noteDirty q.core q.asid (offsetOf q.ptr)
      (match s.lookup q.core q.ctx q.asid q.want q.ptr with
       | .now (.ok _ key _ _ _) => s.depart w key
       | .now (.event code info) => s.meetEvent w code info
       | .later _ => s.filled w q).afterFill q

/-- The procedure has ended with an event: DIRTYFULL, a leaf's POISON, or PAGE where the leaf is not its kernel's
(DESIGN CHOICE, log 94); the write has no effect. -/
def State.leafMet (s : State) (w code : Nat) : State :=
  match s.reqs.find w with
  | none => s
  | some q =>
    if q.stage ≠ .logging then s
    else if s.links.inbound.any fun i => i.req == some w then s.inLogged w q false
    else (s.meetEvent w (if code = cDIRTYFULL ∨ code = cPOISON then code else cPAGE) q.ptr).afterFill q

/-! ### Replies -/

/-- A request that nobody awaits has been answered: what waits for it goes on, the cores whose words it wrote back and the
one that sent it; the cancellation of a fault domain goes on (R115, R269), and so does a unit that waited for its turn at a lost device. -/
def State.nobodys (s : State) (r : Req) (set : Bool) : State :=
  match r.op with
  | .cancel => s.domainCancelled r set
  | .turn => match r.instr with | some ev => s.after 0 r.index ev | none => s
  | _ => r.owners.foldl State.pokeCore (s.pokeCore r.core)

/-- A request that met an event has been answered. -/
def State.eventDone (s : State) (n : Nat) (r : Req) (code : Nat) (info : Word) : State :=
  match r.use with
  | .record who => (s.dropReq n).recordDone n r who
  | .line m => ((s.dropReq n).meetEvent m code info).fillAgain n
  | .leaf w => (s.dropReq n).leafMet w code
  | .matrix id i => (s.dropReq n).matMet r.core id i info
  | .none => (s.dropReq n).nobodys r false
  | _ => s.meetEvent n code info

/-- MEM_REPLY (R97): the reply of a request reaches its core. -/
def execMemReply (r : Nat) (s : State) : Out :=
  match s.reqs.find r with
  | none => .next s
  | some q =>
    if q.stage ≠ .served then .next s
    else if q.orphan then .next (s.orphanDone r q)
    else match q.event with
      | some (code, info) => .next (s.eventDone r q code info)
      | none =>
        let s := s.dropReq r
        match q.use with
        | .stage k => .next (s.stageDone q k)
        | .copy id part w => .next (if w then s.copyAcked q.core id part (q.args.getD 0 1).toNat else s.copyGot q.core id part (q.ans.getD 0 0))
        | .part id i =>
          match q.tid with
          | some t => .next (s.moveGot t id i (q.ans.getD 0 0))
          | none => .next s
        | .merge num i k h =>
          match q.tid with
          | some t => .next (if h then s.mergeAcked q t else s.mergeGot q t num i k)
          | none => .next s
        | .list id i => .next (s.listGot q.core id i q.ans)
        | .lane id part => .next (s.vecGot q.core id part (q.ans.getD 0 0))
        | .record who => .next (s.recordDone r q who)
        | .line m => .next (s.lineGot r q m)
        | .leaf w => .next (s.leafDone w)
        | .matrix id i => .next (s.matGot q.core id i q.ans)
        | .fetch => .next s
        | .none => .next (s.nobodys q true)
        | _ => .next (s.complete r q q.ans)

/-! ### Fills (R302, R304, R308) -/

/-- TRANSLATION_FILL (R302, R304): a translation ends, the key of a write to a clean page is at hand, or the walker that
holds its leaf has the log unit's answer. -/
def execTranslationFill (r : Nat) (s : State) : Out :=
  match s.reqs.find r with
  | none => .next s
  | some q =>
    match q.stage with
    | .translating => .next ((s.filled r q).afterFill q)
    | .logging => .next ((s.keyedLog r q).afterFill q)
    | .held => .next (s.askLog r q)
    | _ => .next s

/-- KEY_FILL (R308): a key is at hand, or what had to be performed before a request has been; the request is sent. An access
of a large core asks for its line again, and so does the one whose fill has waited for the key: another fill may have brought the line
meanwhile (R4). -/
def execKeyFill (r : Nat) (s : State) : Out :=
  match s.reqs.find r with
  | none => .next s
  | some q =>
    if q.stage ≠ .keying ∨ q.after ≠ [] then .next s
    else match s.lookup q.core q.ctx q.asid q.want q.ptr with
      | .now (.ok _ key _ _ _) =>
        let s := s.useKey q.core key
        match q.use with
        | .line m => .next ((s.dropReq r).depart m key)
        | _ => .next ((if q.cacheable then s.depart r key else s.go r).afterFill q)
      | _ => match q.use with
        | .line m => match s.reqs.find m with
          | some p => .next ((s.dropReq r).filled m p)
          | none => .next (s.dropReq r)
        | _ => .next ((if q.cacheable then s.filled r q else s.go r).afterFill q)

end Sys2Proof.Machine
end

