-- ==== Sys2Proof/Machine/Dispatch.lean ====
section
/-! DEFINITION. The dispatch: one arm per row of the table of operations and events, each a direct call of its meaning. -/

namespace Sys2Proof.Machine

/-- The effect of one row of the table. -/
def exec (i : Instr) (s : State) : Host.Outcome State Fault Refusal :=
  match i with
  | .dispatch pkt core => Sys2Proof.Machine.execDispatch pkt core s
  | .threadReady t => Sys2Proof.Machine.execThreadReady t s
  | .bankRetention core => Sys2Proof.Machine.execBankRetention core s
  | .issueRotation core => Sys2Proof.Machine.execIssueRotation core s
  | .bankRequestArrival r => Sys2Proof.Machine.execBankRequestArrival r s
  | .holdWriteBack r => Sys2Proof.Machine.execHoldWriteBack r s
  | .refusedRequestResend r => Sys2Proof.Machine.execRefusedRequestResend r s
  | .memReply r => Sys2Proof.Machine.execMemReply r s
  | .channelAdmission ch => Sys2Proof.Machine.execChannelAdmission ch s
  | .sleepExpiry t => Sys2Proof.Machine.execSleepExpiry t s
  | .mwaitTimeout t => Sys2Proof.Machine.execMwaitTimeout t s
  | .waitpTimeReached t => Sys2Proof.Machine.execWaitpTimeReached t s
  | .yieldExpiry t => Sys2Proof.Machine.execYieldExpiry t s
  | .iflushExpiry t => Sys2Proof.Machine.execIflushExpiry t s
  | .teamBarrierCompletion cl bar => Sys2Proof.Machine.execTeamBarrierCompletion cl bar s
  | .barWaitReturn cl bar => Sys2Proof.Machine.execBarWaitReturn cl bar s
  | .registerWriteArrival msg => Sys2Proof.Machine.execRegisterWriteArrival msg s
  | .nputLinkArrival msg => Sys2Proof.Machine.execNputLinkArrival msg s
  | .amsgArrival msg => Sys2Proof.Machine.execAmsgArrival msg s
  | .wakeArrival msg => Sys2Proof.Machine.execWakeArrival msg s
  | .migrationArrival msg => Sys2Proof.Machine.execMigrationArrival msg s
  | .ibufLineFill core line => Sys2Proof.Machine.execIbufLineFill core line s
  | .copyCommandStart core => Sys2Proof.Machine.execCopyCommandStart core s
  | .engineWriteAck core cmd bytes => Sys2Proof.Machine.execEngineWriteAck core cmd bytes s
  | .engineCommandComplete core cmd => Sys2Proof.Machine.execEngineCommandComplete core cmd s
  | .engineFaultInFlight core cmd code info => Sys2Proof.Machine.execEngineFaultInFlight core cmd code info s
  | .gatherRequestAccept cl => Sys2Proof.Machine.execGatherRequestAccept cl s
  | .vectorCommandStart core => Sys2Proof.Machine.execVectorCommandStart core s
  | .vectorResultWrite core cmd => Sys2Proof.Machine.execVectorResultWrite core cmd s
  | .matrixArithmeticStart core => Sys2Proof.Machine.execMatrixArithmeticStart core s
  | .matrixCommandComplete core cmd => Sys2Proof.Machine.execMatrixCommandComplete core cmd s
  | .ringForward core cmd => Sys2Proof.Machine.execRingForward core cmd s
  | .faultEventArrival r => Sys2Proof.Machine.execFaultEventArrival r s
  | .faultRecordWrite ctx => Sys2Proof.Machine.execFaultRecordWrite ctx s
  | .monitorFire t mon => Sys2Proof.Machine.execMonitorFire t mon s
  | .stealProbe core => Sys2Proof.Machine.execStealProbe core s
  | .cancelNotice core rcb => Sys2Proof.Machine.execCancelNotice core rcb s
  | .launchTableEvaluation die => Sys2Proof.Machine.execLaunchTableEvaluation die s
  | .launchTableStore r => Sys2Proof.Machine.execLaunchTableStore r s
  | .controlCounterStore r => Sys2Proof.Machine.execControlCounterStore r s
  | .asidDescriptorStore r => Sys2Proof.Machine.execAsidDescriptorStore r s
  | .controlWindowWrite r => Sys2Proof.Machine.execControlWindowWrite r s
  | .translationFill r => Sys2Proof.Machine.execTranslationFill r s
  | .keyFill r => Sys2Proof.Machine.execKeyFill r s
  | .shootDownArrival h => Sys2Proof.Machine.execShootDownArrival h s
  | .shootDownComplete h => Sys2Proof.Machine.execShootDownComplete h s
  | .fotPerform r => Sys2Proof.Machine.execFotPerform r s
  | .revocation frame => Sys2Proof.Machine.execRevocation frame s
  | .noticeWrite kern => Sys2Proof.Machine.execNoticeWrite kern s
  | .pcieInboundWrite addr data ro => Sys2Proof.Machine.execPcieInboundWrite addr data ro s
  | .pcieInboundRead addr n => Sys2Proof.Machine.execPcieInboundRead addr n s
  | .orderingPointSend => Sys2Proof.Machine.execOrderingPointSend s
  | .pcieInboundAtomicop addr => Sys2Proof.Machine.execPcieInboundAtomicop addr s
  | .hotReset => Sys2Proof.Machine.execHotReset s
  | .ringControlStore r => Sys2Proof.Machine.execRingControlStore r s
  | .ringEntryLaunch ring => Sys2Proof.Machine.execRingEntryLaunch ring s
  | .ringEntryFill ring => Sys2Proof.Machine.execRingEntryFill ring s
  | .ringEntryUnknownKind ring => Sys2Proof.Machine.execRingEntryUnknownKind ring s
  | .apertureStore r => Sys2Proof.Machine.execApertureStore r s
  | .exrinFlitReceive port authentic => Sys2Proof.Machine.execExrinFlitReceive port authentic s
  | .exrinInboundRequest pkg addr data write ordered => Sys2Proof.Machine.execExrinInboundRequest pkg addr data write ordered s
  | .collectiveContribution ticket rank data => Sys2Proof.Machine.execCollectiveContribution ticket rank data s
  | .collectiveTimeout ticket => Sys2Proof.Machine.execCollectiveTimeout ticket s
  | .membershipViewChange members => Sys2Proof.Machine.execMembershipViewChange members s
  | .getVersion sess => Sys2Proof.Machine.execGetVersion sess s
  | .getCapabilities sess => Sys2Proof.Machine.execGetCapabilities sess s
  | .negotiateAlgorithms sess => Sys2Proof.Machine.execNegotiateAlgorithms sess s
  | .getDigests sess => Sys2Proof.Machine.execGetDigests sess s
  | .getCertificate sess => Sys2Proof.Machine.execGetCertificate sess s
  | .challenge sess => Sys2Proof.Machine.execChallenge sess s
  | .getMeasurements sess => Sys2Proof.Machine.execGetMeasurements sess s
  | .keyExchange sess => Sys2Proof.Machine.execKeyExchange sess s
  | .finish sess => Sys2Proof.Machine.execFinish sess s
  | .endSession sess => Sys2Proof.Machine.execEndSession sess s
  | .bind sess payload => Sys2Proof.Machine.execBind sess payload s
  | .ringkey sess payload => Sys2Proof.Machine.execRingkey sess payload s
  | .vendorUnknownOpcode sess op => Sys2Proof.Machine.execVendorUnknownOpcode sess op s
  | .rngHealthFailure => Sys2Proof.Machine.execRngHealthFailure s
  | .cxlDeviceLost port => Sys2Proof.Machine.execCxlDeviceLost port s
  | .kernelTermination kern => Sys2Proof.Machine.execKernelTermination kern s
  | .kernelRestart kern => Sys2Proof.Machine.execKernelRestart kern s
  | .drainLimitExpiry r => Sys2Proof.Machine.execDrainLimitExpiry r s
  | .powerUp => Sys2Proof.Machine.execPowerUp s
  | .thermalThrottle => Sys2Proof.Machine.execThermalThrottle s
  | .thermalShutdown => Sys2Proof.Machine.execThermalShutdown s
  | .unassignedEncoding reason pos => Sys2Proof.Machine.execUnassignedEncoding reason pos s
  | .farEndCompletion r => Sys2Proof.Machine.execFarEndCompletion r s
  | .startUpTestsPassed => Sys2Proof.Machine.execStartUpTestsPassed s
  | .powerRemoved => Sys2Proof.Machine.execPowerRemoved s
  | .pcieConfigurationRequest => Sys2Proof.Machine.execPcieConfigurationRequest s
  | .uncorrectableCoreStateError core => Sys2Proof.Machine.execUncorrectableCoreStateError core s
  | .ieee1588TimingMessage ptp => Sys2Proof.Machine.execIeee1588TimingMessage ptp s
  | .heldCoreRelease core => Sys2Proof.Machine.execHeldCoreRelease core s
  | .add d a b => Sys2Proof.Machine.execAdd d a b s
  | .sub d a b => Sys2Proof.Machine.execSub d a b s
  | .and d a b => Sys2Proof.Machine.execAnd d a b s
  | .or d a b => Sys2Proof.Machine.execOr d a b s
  | .xor d a b => Sys2Proof.Machine.execXor d a b s
  | .shl d a b => Sys2Proof.Machine.execShl d a b s
  | .slt d a b => Sys2Proof.Machine.execSlt d a b s
  | .addi d a imm => Sys2Proof.Machine.execAddi d a imm s
  | .ldi d imm => Sys2Proof.Machine.execLdi d imm s
  | .ld m d a imm => Sys2Proof.Machine.execLd m d a imm s
  | .st m d a imm => Sys2Proof.Machine.execSt m d a imm s
  | .brCc c a imm => Sys2Proof.Machine.execBrCc c a imm s
  | .jal d imm => Sys2Proof.Machine.execJal d imm s
  | .shr d a b => Sys2Proof.Machine.execShr d a b s
  | .mul d a b => Sys2Proof.Machine.execMul d a b s
  | .sra d a b => Sys2Proof.Machine.execSra d a b s
  | .rot d a b => Sys2Proof.Machine.execRot d a b s
  | .andn d a b => Sys2Proof.Machine.execAndn d a b s
  | .mulh d a b => Sys2Proof.Machine.execMulh d a b s
  | .mulhZ d a b => Sys2Proof.Machine.execMulhZ d a b s
  | .div d a b => Sys2Proof.Machine.execDiv d a b s
  | .divZ d a b => Sys2Proof.Machine.execDivZ d a b s
  | .rem d a b => Sys2Proof.Machine.execRem d a b s
  | .remZ d a b => Sys2Proof.Machine.execRemZ d a b s
  | .sltZ d a b => Sys2Proof.Machine.execSltZ d a b s
  | .seq d a b => Sys2Proof.Machine.execSeq d a b s
  | .min d a b => Sys2Proof.Machine.execMin d a b s
  | .max d a b => Sys2Proof.Machine.execMax d a b s
  | .minZ d a b => Sys2Proof.Machine.execMinZ d a b s
  | .maxZ d a b => Sys2Proof.Machine.execMaxZ d a b s
  | .sel d a b => Sys2Proof.Machine.execSel d a b s
  | .clz d a => Sys2Proof.Machine.execClz d a s
  | .ctz d a => Sys2Proof.Machine.execCtz d a s
  | .popc d a => Sys2Proof.Machine.execPopc d a s
  | .bswap d a => Sys2Proof.Machine.execBswap d a s
  | .extr d a pos len1 => Sys2Proof.Machine.execExtr d a pos len1 s
  | .extrZ d a pos len1 => Sys2Proof.Machine.execExtrZ d a pos len1 s
  | .ins d a pos len1 => Sys2Proof.Machine.execIns d a pos len1 s
  | .ldh d a imm => Sys2Proof.Machine.execLdh d a imm s
  | .psp d a sp => Sys2Proof.Machine.execPsp d a sp s
  | .padd d a b => Sys2Proof.Machine.execPadd d a b s
  | .jr a => Sys2Proof.Machine.execJr a s
  | .jalr d a => Sys2Proof.Machine.execJalr d a s
  | .ld8 m d a imm => Sys2Proof.Machine.execLd8 m d a imm s
  | .ld8Z m d a imm => Sys2Proof.Machine.execLd8Z m d a imm s
  | .ld16 m d a imm => Sys2Proof.Machine.execLd16 m d a imm s
  | .ld16Z m d a imm => Sys2Proof.Machine.execLd16Z m d a imm s
  | .ld32 m d a imm => Sys2Proof.Machine.execLd32 m d a imm s
  | .ld32Z m d a imm => Sys2Proof.Machine.execLd32Z m d a imm s
  | .st8 m d a imm => Sys2Proof.Machine.execSt8 m d a imm s
  | .st16 m d a imm => Sys2Proof.Machine.execSt16 m d a imm s
  | .st32 m d a imm => Sys2Proof.Machine.execSt32 m d a imm s
  | .ldf m d a imm => Sys2Proof.Machine.execLdf m d a imm s
  | .lde m d a imm => Sys2Proof.Machine.execLde m d a imm s
  | .stf m d a imm => Sys2Proof.Machine.execStf m d a imm s
  | .sts m d a imm => Sys2Proof.Machine.execSts m d a imm s
  | .sete m a imm => Sys2Proof.Machine.execSete m a imm s
  | .feq m d a imm => Sys2Proof.Machine.execFeq m d a imm s
  | .tnew d a b => Sys2Proof.Machine.execTnew d a b s
  | .tend => Sys2Proof.Machine.execTend s
  | .sleep a imm => Sys2Proof.Machine.execSleep a imm s
  | .yield => Sys2Proof.Machine.execYield s
  | .migrate d a => Sys2Proof.Machine.execMigrate d a s
  | .roam d a => Sys2Proof.Machine.execRoam d a s
  | .fmtset d imm => Sys2Proof.Machine.execFmtset d imm s
  | .barCfg d a b => Sys2Proof.Machine.execBarCfg d a b s
  | .barArr m d => Sys2Proof.Machine.execBarArr m d s
  | .barWait m d => Sys2Proof.Machine.execBarWait m d s
  | .launch d a => Sys2Proof.Machine.execLaunch d a s
  | .cancel d a => Sys2Proof.Machine.execCancel d a s
  | .send m d a b => Sys2Proof.Machine.execSend m d a b s
  | .nput dir a b => Sys2Proof.Machine.execNput dir a b s
  | .amsg a b => Sys2Proof.Machine.execAmsg a b s
  | .cont a b => Sys2Proof.Machine.execCont a b s
  | .contid d a => Sys2Proof.Machine.execContid d a s
  | .movT d a => Sys2Proof.Machine.execMovT d a s
  | .spawn d a => Sys2Proof.Machine.execSpawn d a s
  | .blend => Sys2Proof.Machine.execBlend s
  | .join => Sys2Proof.Machine.execJoin s
  | .vdecl d a b => Sys2Proof.Machine.execVdecl d a b s
  | .vdrop d => Sys2Proof.Machine.execVdrop d s
  | .rsv m d a => Sys2Proof.Machine.execRsv m d a s
  | .rel m d => Sys2Proof.Machine.execRel m d s
  | .rsvx m d a => Sys2Proof.Machine.execRsvx m d a s
  | .aadd m d a b => Sys2Proof.Machine.execAadd m d a b s
  | .aand m d a b => Sys2Proof.Machine.execAand m d a b s
  | .aor m d a b => Sys2Proof.Machine.execAor m d a b s
  | .axor m d a b => Sys2Proof.Machine.execAxor m d a b s
  | .amin m d a b => Sys2Proof.Machine.execAmin m d a b s
  | .amax m d a b => Sys2Proof.Machine.execAmax m d a b s
  | .aminZ m d a b => Sys2Proof.Machine.execAminZ m d a b s
  | .amaxZ m d a b => Sys2Proof.Machine.execAmaxZ m d a b s
  | .axchg m d a b => Sys2Proof.Machine.execAxchg m d a b s
  | .cas m d a b => Sys2Proof.Machine.execCas m d a b s
  | .cas2 m d a b => Sys2Proof.Machine.execCas2 m d a b s
  | .fence m => Sys2Proof.Machine.execFence m s
  | .monArm d a mon => Sys2Proof.Machine.execMonArm d a mon s
  | .monClr mon => Sys2Proof.Machine.execMonClr mon s
  | .mwait m d a => Sys2Proof.Machine.execMwait m d a s
  | .cpy m d a b => Sys2Proof.Machine.execCpy m d a b s
  | .tcpy m d a b => Sys2Proof.Machine.execTcpy m d a b s
  | .waitp m a b => Sys2Proof.Machine.execWaitp m a b s
  | .lcwC n a => Sys2Proof.Machine.execLcwC n a s
  | .lcwV n a => Sys2Proof.Machine.execLcwV n a s
  | .lcwM n a => Sys2Proof.Machine.execLcwM n a s
  | .lcwCfg n a => Sys2Proof.Machine.execLcwCfg n a s
  | .lcrC d n => Sys2Proof.Machine.execLcrC d n s
  | .lcrV d n => Sys2Proof.Machine.execLcrV d n s
  | .lcrM d n => Sys2Proof.Machine.execLcrM d n s
  | .eqry d a => Sys2Proof.Machine.execEqry d a s
  | .efence => Sys2Proof.Machine.execEfence s
  | .emsgGatherQuery m d a b => Sys2Proof.Machine.execEmsgGatherQuery m d a b s
  | .emsgCollectiveQuery m d a b => Sys2Proof.Machine.execEmsgCollectiveQuery m d a b s
  | .emsgAbort m d a b => Sys2Proof.Machine.execEmsgAbort m d a b s
  | .gath m d a b => Sys2Proof.Machine.execGath m d a b s
  | .collAllreduce m d a b => Sys2Proof.Machine.execCollAllreduce m d a b s
  | .collBroadcast m d a b => Sys2Proof.Machine.execCollBroadcast m d a b s
  | .collAllgather m d a b => Sys2Proof.Machine.execCollAllgather m d a b s
  | .tbInit d => Sys2Proof.Machine.execTbInit d s
  | .tbExp d a => Sys2Proof.Machine.execTbExp d a s
  | .tbArr m d a => Sys2Proof.Machine.execTbArr m d a s
  | .tbWait m d a => Sys2Proof.Machine.execTbWait m d a s
  | .tbPhase d a => Sys2Proof.Machine.execTbPhase d a s
  | .vadd d a b => Sys2Proof.Machine.execVadd d a b s
  | .vsub d a b => Sys2Proof.Machine.execVsub d a b s
  | .vmul d a b => Sys2Proof.Machine.execVmul d a b s
  | .vfma d a b => Sys2Proof.Machine.execVfma d a b s
  | .vmin d a b => Sys2Proof.Machine.execVmin d a b s
  | .vmax d a b => Sys2Proof.Machine.execVmax d a b s
  | .vabs d a => Sys2Proof.Machine.execVabs d a s
  | .vneg d a => Sys2Proof.Machine.execVneg d a s
  | .vcmpEq d a b => Sys2Proof.Machine.execVcmpEq d a b s
  | .vcmpLt d a b => Sys2Proof.Machine.execVcmpLt d a b s
  | .vcmpLe d a b => Sys2Proof.Machine.execVcmpLe d a b s
  | .vredSum d a => Sys2Proof.Machine.execVredSum d a s
  | .vredMax d a => Sys2Proof.Machine.execVredMax d a s
  | .vredMin d a => Sys2Proof.Machine.execVredMin d a s
  | .vaddBf16 d a b => Sys2Proof.Machine.execVaddBf16 d a b s
  | .vsubBf16 d a b => Sys2Proof.Machine.execVsubBf16 d a b s
  | .vmulBf16 d a b => Sys2Proof.Machine.execVmulBf16 d a b s
  | .vfmaBf16 d a b => Sys2Proof.Machine.execVfmaBf16 d a b s
  | .vminBf16 d a b => Sys2Proof.Machine.execVminBf16 d a b s
  | .vmaxBf16 d a b => Sys2Proof.Machine.execVmaxBf16 d a b s
  | .vabsBf16 d a => Sys2Proof.Machine.execVabsBf16 d a s
  | .vnegBf16 d a => Sys2Proof.Machine.execVnegBf16 d a s
  | .vcmpEqBf16 d a b => Sys2Proof.Machine.execVcmpEqBf16 d a b s
  | .vcmpLtBf16 d a b => Sys2Proof.Machine.execVcmpLtBf16 d a b s
  | .vcmpLeBf16 d a b => Sys2Proof.Machine.execVcmpLeBf16 d a b s
  | .vredSumBf16 d a => Sys2Proof.Machine.execVredSumBf16 d a s
  | .vredMaxBf16 d a => Sys2Proof.Machine.execVredMaxBf16 d a s
  | .vredMinBf16 d a => Sys2Proof.Machine.execVredMinBf16 d a s
  | .viadd d a b => Sys2Proof.Machine.execViadd d a b s
  | .visub d a b => Sys2Proof.Machine.execVisub d a b s
  | .vimul d a b => Sys2Proof.Machine.execVimul d a b s
  | .vshl d a b => Sys2Proof.Machine.execVshl d a b s
  | .vshr d a b => Sys2Proof.Machine.execVshr d a b s
  | .vand d a b => Sys2Proof.Machine.execVand d a b s
  | .vor d a b => Sys2Proof.Machine.execVor d a b s
  | .vxor d a b => Sys2Proof.Machine.execVxor d a b s
  | .vmaddm d a b => Sys2Proof.Machine.execVmaddm d a b s
  | .vmsubm d a b => Sys2Proof.Machine.execVmsubm d a b s
  | .vmmulm d a b => Sys2Proof.Machine.execVmmulm d a b s
  | .vbflyCt d a b => Sys2Proof.Machine.execVbflyCt d a b s
  | .vbflyGs d a b => Sys2Proof.Machine.execVbflyGs d a b s
  | .vtwid d a b => Sys2Proof.Machine.execVtwid d a b s
  | .vsel d a b => Sys2Proof.Machine.execVsel d a b s
  | .vcvt d a code => Sys2Proof.Machine.execVcvt d a code s
  | .vexp2 d a => Sys2Proof.Machine.execVexp2 d a s
  | .vrcp d a => Sys2Proof.Machine.execVrcp d a s
  | .vrsq d a => Sys2Proof.Machine.execVrsq d a s
  | .vshuf d a b => Sys2Proof.Machine.execVshuf d a b s
  | .vbcast d a => Sys2Proof.Machine.execVbcast d a s
  | .vmovx d a ii => Sys2Proof.Machine.execVmovx d a ii s
  | .vmovv d a ii => Sys2Proof.Machine.execVmovv d a ii s
  | .vld m d a imm => Sys2Proof.Machine.execVld m d a imm s
  | .vst m d a imm => Sys2Proof.Machine.execVst m d a imm s
  | .vgth m d a b => Sys2Proof.Machine.execVgth m d a b s
  | .vsct m d a b => Sys2Proof.Machine.execVsct m d a b s
  | .vaddM k d a b => Sys2Proof.Machine.execVaddM k d a b s
  | .vsubM k d a b => Sys2Proof.Machine.execVsubM k d a b s
  | .vmulM k d a b => Sys2Proof.Machine.execVmulM k d a b s
  | .vfmaM k d a b => Sys2Proof.Machine.execVfmaM k d a b s
  | .vminM k d a b => Sys2Proof.Machine.execVminM k d a b s
  | .vmaxM k d a b => Sys2Proof.Machine.execVmaxM k d a b s
  | .vabsM k d a => Sys2Proof.Machine.execVabsM k d a s
  | .vnegM k d a => Sys2Proof.Machine.execVnegM k d a s
  | .vcmpEqM k d a b => Sys2Proof.Machine.execVcmpEqM k d a b s
  | .vcmpLtM k d a b => Sys2Proof.Machine.execVcmpLtM k d a b s
  | .vcmpLeM k d a b => Sys2Proof.Machine.execVcmpLeM k d a b s
  | .vredSumM k d a => Sys2Proof.Machine.execVredSumM k d a s
  | .vredMaxM k d a => Sys2Proof.Machine.execVredMaxM k d a s
  | .vredMinM k d a => Sys2Proof.Machine.execVredMinM k d a s
  | .vaddBf16M k d a b => Sys2Proof.Machine.execVaddBf16M k d a b s
  | .vsubBf16M k d a b => Sys2Proof.Machine.execVsubBf16M k d a b s
  | .vmulBf16M k d a b => Sys2Proof.Machine.execVmulBf16M k d a b s
  | .vfmaBf16M k d a b => Sys2Proof.Machine.execVfmaBf16M k d a b s
  | .vminBf16M k d a b => Sys2Proof.Machine.execVminBf16M k d a b s
  | .vmaxBf16M k d a b => Sys2Proof.Machine.execVmaxBf16M k d a b s
  | .vabsBf16M k d a => Sys2Proof.Machine.execVabsBf16M k d a s
  | .vnegBf16M k d a => Sys2Proof.Machine.execVnegBf16M k d a s
  | .vcmpEqBf16M k d a b => Sys2Proof.Machine.execVcmpEqBf16M k d a b s
  | .vcmpLtBf16M k d a b => Sys2Proof.Machine.execVcmpLtBf16M k d a b s
  | .vcmpLeBf16M k d a b => Sys2Proof.Machine.execVcmpLeBf16M k d a b s
  | .vredSumBf16M k d a => Sys2Proof.Machine.execVredSumBf16M k d a s
  | .vredMaxBf16M k d a => Sys2Proof.Machine.execVredMaxBf16M k d a s
  | .vredMinBf16M k d a => Sys2Proof.Machine.execVredMinBf16M k d a s
  | .viaddM k d a b => Sys2Proof.Machine.execViaddM k d a b s
  | .visubM k d a b => Sys2Proof.Machine.execVisubM k d a b s
  | .vimulM k d a b => Sys2Proof.Machine.execVimulM k d a b s
  | .vshlM k d a b => Sys2Proof.Machine.execVshlM k d a b s
  | .vshrM k d a b => Sys2Proof.Machine.execVshrM k d a b s
  | .vandM k d a b => Sys2Proof.Machine.execVandM k d a b s
  | .vorM k d a b => Sys2Proof.Machine.execVorM k d a b s
  | .vxorM k d a b => Sys2Proof.Machine.execVxorM k d a b s
  | .vmaddmM k d a b => Sys2Proof.Machine.execVmaddmM k d a b s
  | .vmsubmM k d a b => Sys2Proof.Machine.execVmsubmM k d a b s
  | .vmmulmM k d a b => Sys2Proof.Machine.execVmmulmM k d a b s
  | .vbflyCtM k d a b => Sys2Proof.Machine.execVbflyCtM k d a b s
  | .vbflyGsM k d a b => Sys2Proof.Machine.execVbflyGsM k d a b s
  | .vtwidM k d a b => Sys2Proof.Machine.execVtwidM k d a b s
  | .vcvtM k d a code => Sys2Proof.Machine.execVcvtM k d a code s
  | .vexp2M k d a => Sys2Proof.Machine.execVexp2M k d a s
  | .vrcpM k d a => Sys2Proof.Machine.execVrcpM k d a s
  | .vrsqM k d a => Sys2Proof.Machine.execVrsqM k d a s
  | .vmovvM k d a => Sys2Proof.Machine.execVmovvM k d a s
  | .vldM m k d a => Sys2Proof.Machine.execVldM m k d a s
  | .vstM m k d a => Sys2Proof.Machine.execVstM m k d a s
  | .vgthM m k d a b => Sys2Proof.Machine.execVgthM m k d a b s
  | .vsctM m k d a b => Sys2Proof.Machine.execVsctM m k d a b s
  | .mcfg n a => Sys2Proof.Machine.execMcfg n a s
  | .mzero d => Sys2Proof.Machine.execMzero d s
  | .mma m d a b => Sys2Proof.Machine.execMma m d a b s
  | .mmr m d a => Sys2Proof.Machine.execMmr m d a s
  | .mring m d a b => Sys2Proof.Machine.execMring m d a b s
  | .mmod m d a b => Sys2Proof.Machine.execMmod m d a b s
  | .mst d a b => Sys2Proof.Machine.execMst d a b s
  | .mlda d a b => Sys2Proof.Machine.execMlda d a b s
  | .mqry d code => Sys2Proof.Machine.execMqry d code s
  | .trap a n => Sys2Proof.Machine.execTrap a n s
  | .eret => Sys2Proof.Machine.execEret s
  | .rds d r => Sys2Proof.Machine.execRds d r s
  | .wrs r a => Sys2Proof.Machine.execWrs r a s
  | .xinvPage d a b => Sys2Proof.Machine.execXinvPage d a b s
  | .xinvAsid d a b => Sys2Proof.Machine.execXinvAsid d a b s
  | .xinvRlb d a b => Sys2Proof.Machine.execXinvRlb d a b s
  | .xinvFrame d a b => Sys2Proof.Machine.execXinvFrame d a b s
  | .iflush => Sys2Proof.Machine.execIflush s
  | .brk n => Sys2Proof.Machine.execBrk n s
  | .seqnew d => Sys2Proof.Machine.execSeqnew d s
  | .seqmap d a b => Sys2Proof.Machine.execSeqmap d a b s
  | .sequnmap d a => Sys2Proof.Machine.execSequnmap d a s
  | .seqend d a => Sys2Proof.Machine.execSeqend d a s
  | .seqq d a => Sys2Proof.Machine.execSeqq d a s
  | .fofferOffer d a b => Sys2Proof.Machine.execFofferOffer d a b s
  | .fofferRelease d a b => Sys2Proof.Machine.execFofferRelease d a b s
  | .fofferWithdraw d a b => Sys2Proof.Machine.execFofferWithdraw d a b s
  | .faccept d a => Sys2Proof.Machine.execFaccept d a s
  | .flend d a b => Sys2Proof.Machine.execFlend d a b s
  | .frecall d a => Sys2Proof.Machine.execFrecall d a s
  | .freturn d a => Sys2Proof.Machine.execFreturn d a s
  | .fquery d a => Sys2Proof.Machine.execFquery d a s
  | .fstrikeClear d a b => Sys2Proof.Machine.execFstrikeClear d a b s
  | .fstrikeSetLimit d a b => Sys2Proof.Machine.execFstrikeSetLimit d a b s
  | .wakeResume a b => Sys2Proof.Machine.execWakeResume a b s
  | .wakeTrap a b => Sys2Proof.Machine.execWakeTrap a b s
  | .evict d a b => Sys2Proof.Machine.execEvict d a b s
  | .restore d a b => Sys2Proof.Machine.execRestore d a b s
  | .drain d a b => Sys2Proof.Machine.execDrain d a b s
  | .drainResume d a b => Sys2Proof.Machine.execDrainResume d a b s
  | .partset d a b => Sys2Proof.Machine.execPartset d a b s
  | .ownsetCreate d a b => Sys2Proof.Machine.execOwnsetCreate d a b s
  | .ownsetDestroy d a b => Sys2Proof.Machine.execOwnsetDestroy d a b s
  | .ownsetAssign d a b => Sys2Proof.Machine.execOwnsetAssign d a b s
  | .ownsetBindkey d a b => Sys2Proof.Machine.execOwnsetBindkey d a b s
  | .ownsetUnbindkey d a b => Sys2Proof.Machine.execOwnsetUnbindkey d a b s
  | .ownsetBindasid d a b => Sys2Proof.Machine.execOwnsetBindasid d a b s
  | .ownsetUnbindasid d a b => Sys2Proof.Machine.execOwnsetUnbindasid d a b s
  | .ownsetSetring d a b => Sys2Proof.Machine.execOwnsetSetring d a b s
  | .ownsetSetinbox d a b => Sys2Proof.Machine.execOwnsetSetinbox d a b s

end Sys2Proof.Machine
end

