-- ==== Sys2Proof/Machine/Turn.lean ====
section
/-! DEFINITION. What one step of the machine runs: the instruction of the slot that issues, fetched and decoded, or
the next coming event of the agenda, with the passing of time. -/

namespace Sys2Proof.Machine

/-- What a step runs: a row of the table in a state, or a state that needs none. -/
inductive Turn where
  | run (i : Instr) (s : State)
  | pass (s : State)

/-! ### The slot that issues (R27, R29, R107) -/

/-- The scalar registers of a thread's window, by number. -/
def Core.window (c : Core) (t : Thread) : Map Word := (List.range (8 * wSize t.win)).map fun n => (n, c.regW t n)

/-- A chain has been fetched: the lines it came from are used, the next line may be fetched ahead (R107), and the thread
keeps the words of what it issues, the registers, and what the engines hold, as they stand. -/
def State.fetched (s : State) (h : Hand) (t : Thread) (ws : List Half) (len : Nat) : State :=
  let last := stepPc t.pc (len - 1)
  let s := (s.spend h.core t).upThread h.core h.slot fun u =>
    { u with chain := ws, kept := (s.core h.core).window t, resident := (s.core h.core).resident }
  let s := s.upCore h.core fun x => x.useLine (fetchAsid t t.pc) t.pc
  let s := if linePtr last = linePtr t.pc then s else s.upCore h.core fun x => x.useLine (fetchAsid t last) last
  { s.prefetch h.core t last with hand := some { h with len := len } }

/-- A scalar register of a thread as its instruction named it at issue. -/
def State.keptW (s : State) (c : Nat) (t : Thread) (n : Nat) : Word := (t.kept.find n).getD ((s.core c).regW t n)

/-- An instruction that has issued goes on: the words of its issue stand for it. -/
noncomputable def State.resumeTurn (s : State) (h : Hand) (t : Thread) : Turn :=
  match decode t.chain with
  | .instr i n => .run (select (fun r => s.keptW h.core t (rn r)) i) { s with hand := some { h with len := n } }
  | _ => .pass { s with hand := none }

/-- The slot at hand fetches its chain and decodes it. -/
noncomputable def State.issueTurn (s : State) (h : Hand) : Turn :=
  match s.thread h.core h.slot with
  | none => .pass { s with hand := none }
  | some t =>
    if t.resumes then s.resumeTurn h t
    else match s.fetch h.core t with
    | .event code info => .pass (({ s.spend h.core t with hand := none }).fetchEvent h code info)
    | .miss p => .pass (({ s with hand := none }).startFill h.core h.slot p)
    | .words ws =>
      match decode ws with
      | .instr i n => .run (select (fun r => (s.core h.core).regW t (rn r)) i) (s.fetched h t ws n)
      | .reject r => .run (.unassignedEncoding r.reason r.pos) (s.fetched h t ws ws.length)
      | .short => .pass (({ s.spend h.core t with hand := none }).fetchEvent h cILLEGAL 0x403)

/-! ### The agenda -/

/-- Time passes to a cycle: the barriers that the ending cycle touched are settled first (R172). -/
def State.tick (s : State) (time : Nat) : State := { s.settle2 with cyc := max s.cyc time }

/-- The next coming event: in this cycle, or, once this cycle has ended, in the cycle in which the next one falls; with
nothing to come, the next cycle. -/
def State.eventTurn (s : State) : Turn :=
  match s.agenda with
  | [] => .pass (s.tick (s.cyc + 1))
  | d :: rest =>
    if d.time ≤ s.cyc then .run d.ev { s with agenda := rest }
    else if s.touched = [] then .run d.ev { s with agenda := rest, cyc := d.time }
    else .pass s.settle2

/-- What the next step runs. -/
noncomputable def State.turn (s : State) : Turn :=
  match s.hand with
  | some h => s.issueTurn h
  | none => s.eventTurn

/-! ### Placing an instruction -/

/-- Writes the bytes of a chain at an address, readable under every key. -/
def Memory.putHalves (m : Memory) (a : Nat) : List Half → Memory
  | [] => m
  | h :: hs => ((m.putBytes a 2 h.toNat).setAttr a {}).putHalves (a + 2) hs

/-- The chain of a word of the table: its 16-bit words, and zeros up to five (log 9). -/
def chainOf (nbits w : Nat) : List Half := tableWords nbits w ++ List.replicate (5 - (nbits + 15) / 16) 0

/-- Puts the line of a pointer of core 0's vault into its instruction buffer, as memory holds it. -/
def State.bufferLine (s : State) (asid : Nat) (p : Word) : State :=
  let pa := vaultAddr 0 (offsetOf (linePtr p))
  s.upCore 0 fun x => x.addLine
    { asid := asid, ptr := linePtr p, pa := pa, key := 2, ws := (wordsFrom pa 8).map (s.mem.read 2) }

/-- The chain of a table word stands at the pc of core 0's first thread, in its vault and its instruction buffer, and
the slot has its turn. -/
def State.placeChain (s : State) (nbits w : Nat) : State :=
  match s.thread 0 0 with
  | none => s
  | some t =>
    let s := s.setMem (s.mem.putHalves (vaultAddr 0 (offsetOf t.pc)) (chainOf nbits w))
    let s := s.bufferLine (fetchAsid t t.pc) t.pc
    let last := stepPc t.pc 4
    let s := if linePtr last = linePtr t.pc then s else s.bufferLine (fetchAsid t last) last
    s.takeTurn 0 0

end Sys2Proof.Machine
end

