-- ==== Sys2Proof/Machine/Step.lean ====
section
/-! DEFINITION. One step of the machine, and the placing of an instruction where the next step runs it. -/

namespace Sys2Proof.Machine

/-- One step: the slot at hand issues its instruction, or the next coming event takes place. -/
noncomputable def step (s : State) : Host.Outcome State Fault Refusal :=
  match s.turn with
  | .run i s' => exec i s'
  | .pass s' => .next s'

/-- The state in which the next step runs the instruction of a word of the table. -/
def State.withFetchWord (s : State) (nbits w : Nat) : State := s.placeChain nbits w

end Sys2Proof.Machine
end

