-- ==== Sys2Proof/Safety.lean ====
section
/-! DEFINITION. The words in which the statements speak: a good state, a thread that issues an instruction, and the
state that an instruction leaves. -/

namespace Sys2Proof.Machine

/-- The memory keeps its canonical form. -/
abbrev State.MemOk (s : State) : Prop := s.mem.wf = true

/-- A step of the machine: it answers a next state. -/
def Steps (s t : State) : Prop := step s = .next t

/-- The instruction at issue, by the slot at hand and its thread. -/
def cxOf (h : Hand) (t : Thread) : Cx :=
  { core := h.core, slot := h.slot, th := t, pc := t.pc, npc := stepPc t.pc h.len, base := h.len - 1 }

/-- The same, with what the core's engines hold at the issue. -/
def cxAt (s : State) (h : Hand) (t : Thread) : Cx := { cxOf h t with res := (s.core h.core).resident }

/-- An open section counts one instruction more (R138). -/
def counted (z : Sect) : Sect := { z with issued := z.issued + 1 }

/-- The state as the checks of an issue leave it to the instruction: the hand is empty, no restart index is pending, and
an open section counts one instruction more (R138). -/
def begun (s : State) (h : Hand) : State :=
  ({ s with hand := none }).upThread h.core h.slot fun t =>
    { t with restart := none, sect := t.sect.map counted }

/-- The thread `t` in the slot at hand issues an instruction of a kind for the first time, and every check of an issue lets
it: no deferred event falls due at it (R196), its fields are allowed, its registers lie inside the windows (R19, R30), its
core implements it (R31), an open section admits it (R137, R138), and none of its registers is pending (R99, R250). -/
structure Issues (s : State) (k : Kind) (h : Hand) (t : Thread) : Prop where
  hand    : s.hand = some h
  live    : s.thread h.core h.slot = some t
  fresh   : t.resumes = false
  fields  : k.bad = false
  inside  : outside h.core t k.names = false
  here    : k.big = true ∨ isLarge h.core = false
  quiet   : (cxOf h t).due k = none
  sectOk  : (cxOf h t).sectTrap k.sec = none
  relaxed : k.names.w.any (s.pendingRelaxed t) = false
  vector  : s.pendingVector h.core h.slot t k.names.w k.names.v = false

/-- A scalar register of the thread at hand. -/
def regOf (s : State) (h : Hand) (t : Thread) (r : Reg) : Word := (s.core h.core).regW t (rn r)

/-- The thread at hand goes on at an address, and nothing else has happened. -/
def goesTo (s : State) (h : Hand) (pc : Word) : State :=
  (begun s h).upThread h.core h.slot fun t => { t with pc := pc }

/-- From a state that an instruction has made, the thread goes on after it. -/
def passes (b : State) (h : Hand) (t : Thread) : State :=
  b.upThread h.core h.slot fun u => { u with pc := stepPc t.pc h.len }

/-- From a state that an instruction has made, W[d] is written (w0 discards), and the thread goes on after it. -/
def ends (b : State) (h : Hand) (t : Thread) (d : Reg) (v : Word) : State := passes (b.setW h.core h.slot (rn d) v) h t

/-- The instruction has written W[d] (w0 discards), and the thread goes on after it; nothing else has happened. -/
def retires (s : State) (h : Hand) (t : Thread) (d : Reg) (v : Word) : State := ends (begun s h) h t d v

/-- The instructions that read registers and write W[d], and nothing else: the registers they name and the one they
write. -/
def registerForm : Instr → Option (List Reg × Reg)
  | .add d a b | .sub d a b | .and d a b | .or d a b | .xor d a b | .andn d a b | .mul d a b | .mulh d a b | .mulhZ d a b
  | .shl d a b | .shr d a b | .sra d a b | .rot d a b | .slt d a b | .sltZ d a b | .seq d a b | .min d a b | .max d a b
  | .minZ d a b | .maxZ d a b | .sel d a b => some ([d, a, b], d)
  | .clz d a | .ctz d a | .popc d a | .bswap d a | .addi d a _ | .ldh d a _ | .psp d a _ | .extr d a _ _ | .extrZ d a _ _
  | .ins d a _ _ => some ([d, a], d)
  | .ldi d _ => some ([d], d)
  | _ => none

/-! ### Accesses -/

/-- Every check of an access lets it at an accepted address (R96): no deferred event on its word (R99), alignment, the range
of its bytes, the edge of its space, a roaming thread does not move with it (R79), no vector command and no acquire holds it
back (R100, R116, R263), its release has had its effect (R115, R122), fewer than eight relaxed accesses are outstanding (R99), and
no view redirects it (R281). -/
structure Admits (s : State) (h : Hand) (t : Thread) (p : Word) (q : Ask) : Prop where
  clear    : (cxOf h t).dueOn (begun s h) p q = none
  aligned  : offsetOf p % q.align = 0
  whole    : lastByte p q.bytes = none
  inside   : (begun s h).reachEvent h.core t.part p q.bytes = none
  stays    : (cxOf h t).roams (begun s h) p = none
  unheld   : (begun s h).heldBack ((cxOf h t).tid (begun s h)) q.mod.relaxed = false
  released : q.mod.release = false ∨ ((begun s h).accessesDone ((cxOf h t).tid (begun s h)) t &&
    (begun s h).releaseDone ((cxOf h t).tid (begun s h)) q.mod.scope &&
    !(q.far && q.mod.scope == .system && (begun s h).farOwed ((cxOf h t).tid (begun s h)))) = true
  room     : (q.mod.relaxed && decide (8 ≤ t.relaxed.length)) = false
  direct   : (begun s h).redirect h.core t.strand q.redir p q.bytes = (.same, begun s h)

/-- The request of an access: who asks what of which address, the addresses of the instruction and of the next one, and
the acquire mark. -/
def requestOf (s : State) (h : Hand) (t : Thread) (p : Word) (q : Ask) : Req :=
  { tid := some ((cxOf h t).tid (begun s h)), core := h.core, ctx := s.ctxOf h.core, part := t.part, asid := t.asid.toNat,
    op := q.op, use := q.use, instr := q.instr, args := q.args, ptr := p, epc := t.pc, npc := stepPc t.pc h.len,
    acq := acqOf q.mod }

/-- Whether the thread leaves the rotation with its access: a relaxed access does so only while its translation is not at
hand (R97, R99). -/
def leaves (s : State) (r : Req) : Bool :=
  match r.use with
  | .relaxed _ => (match s.lookup r.core r.ctx r.asid r.want r.ptr with | .now _ => false | .later _ => true)
  | _ => true

/-- The access has been asked: its request has the next serial number, the thread is parked until the reply, and the
request is on its way. -/
def asks (s : State) (h : Hand) (t : Thread) (p : Word) (q : Ask) : State :=
  let r := requestOf s h t p q
  let b := ((begun s h).addReq r).2
  (if leaves b r then b.park h.core h.slot q.why (.reply s.serial) else b).begin s.serial

/-- The loads: marks, width in bytes, whether signed, registers and immediate (R95). -/
def loadForm : Instr → Option (Mod × Nat × Bool × Reg × Reg × Imm)
  | .ld m d a imm => some (m, 8, false, d, a, imm)
  | .ld8 m d a imm => some (m, 1, true, d, a, imm)
  | .ld8Z m d a imm => some (m, 1, false, d, a, imm)
  | .ld16 m d a imm => some (m, 2, true, d, a, imm)
  | .ld16Z m d a imm => some (m, 2, false, d, a, imm)
  | .ld32 m d a imm => some (m, 4, true, d, a, imm)
  | .ld32Z m d a imm => some (m, 4, false, d, a, imm)
  | _ => none

/-- The stores: marks, width in bytes, registers and immediate (R95, R98). -/
def storeForm : Instr → Option (Mod × Nat × Reg × Reg × Imm)
  | .st m d a imm => some (m, 8, d, a, imm)
  | .st8 m d a imm => some (m, 1, d, a, imm)
  | .st16 m d a imm => some (m, 2, d, a, imm)
  | .st32 m d a imm => some (m, 4, d, a, imm)
  | _ => none

/-- The synchronising instructions: marks, the registers named, the address register and immediate, what the access asks
with the value of W[d], and what becomes of its answer (R102). -/
def syncForm : Instr → Option (Mod × List Reg × Reg × Imm × Reg × (Word → MemOp) × Use)
  | .ldf m d a imm => some (m, [d, a], a, imm, d, fun _ => .ldf, .reg (rn d))
  | .lde m d a imm => some (m, [d, a], a, imm, d, fun _ => .lde, .reg (rn d))
  | .stf m d a imm => some (m, [d, a], a, imm, d, fun v => .stf v, .done)
  | .sts m d a imm => some (m, [d, a], a, imm, d, fun v => .sts v, .done)
  | .sete m a imm => some (m, [a], a, imm, a, fun _ => .sete, .done)
  | .feq m d a imm => some (m, [d, a], a, imm, d, fun _ => .feq, .reg (rn d))
  | _ => none

/-- The atomics on one word: operator, marks and registers (R142). -/
def atomForm : Instr → Option (AtomOp × Mod × Reg × Reg × Reg)
  | .aadd m d a b => some (.aadd, m, d, a, b)
  | .aand m d a b => some (.aand, m, d, a, b)
  | .aor m d a b => some (.aor, m, d, a, b)
  | .axor m d a b => some (.axor, m, d, a, b)
  | .amin m d a b => some (.amin, m, d, a, b)
  | .amax m d a b => some (.amax, m, d, a, b)
  | .aminZ m d a b => some (.aminZ, m, d, a, b)
  | .amaxZ m d a b => some (.amaxZ, m, d, a, b)
  | .axchg m d a b => some (.axchg, m, d, a, b)
  | .cas m d a b => some (.acas, m, d, a, b)
  | _ => none

/-! ### Requests to units (R177, R290, R313, R317, R321, R331) -/

/-- A request to a unit has been sent: it reaches the unit after half its time and some cycles more, and the thread is
parked until the answer. -/
def asksUnit (s : State) (h : Hand) (t : Thread) (use : Use) (args : List Word) (asid lat extra : Nat) (ev : Nat → Instr) : State :=
  let b := ((begun s h).addReq
    { tid := some ((cxOf h t).tid (begun s h)), core := h.core, ctx := s.ctxOf h.core, part := t.part, asid := asid, op := .unit,
      use := use, args := args, lat := lat, epc := t.pc, npc := stepPc t.pc h.len }).2
  (b.park h.core h.slot .mem (.reply s.serial)).after (lat / 2 + extra) 12 (ev s.serial)

/-- The sequence instructions: the unit's code, the cycles beyond the way there, W[d] and the operands (R313). -/
def seqForm : Instr → Option (Nat × Nat × Reg × List Reg)
  | .seqnew d => some (uSeqnew, 60, d, [])
  | .seqmap d a b => some (uSeqmap, 60, d, [a, b])
  | .sequnmap d a => some (uSequnmap, 0, d, [a])
  | .seqend d a => some (uSeqend, 0, d, [a])
  | .seqq d a => some (uSeqq, 60, d, [a])
  | _ => none

/-- The frame instructions: the unit's code, whether a large core's release effects come first, W[d] and the operands
(R321, R121). -/
def frameForm : Instr → Option (Nat × Bool × Reg × Reg × List Reg)
  | .fofferOffer d a b | .fofferRelease d a b | .fofferWithdraw d a b => some (uFoffer, true, d, a, [b])
  | .faccept d a => some (uFaccept, false, d, a, [])
  | .flend d a b => some (uFlend, true, d, a, [b])
  | .frecall d a => some (uFrecall, true, d, a, [])
  | .freturn d a => some (uFreturn, true, d, a, [])
  | .fquery d a => some (uFquery, false, d, a, [])
  | .fstrikeClear d a b | .fstrikeSetLimit d a b => some (uFstrike, false, d, a, [b])
  | _ => none

/-- OWNSET's operations (R331). -/
def ownsetForm : Instr → Option (Reg × Reg × Reg)
  | .ownsetCreate d a b | .ownsetDestroy d a b | .ownsetAssign d a b | .ownsetBindkey d a b | .ownsetUnbindkey d a b
  | .ownsetBindasid d a b | .ownsetUnbindasid d a b | .ownsetSetring d a b | .ownsetSetinbox d a b => some (d, a, b)
  | _ => none

/-- XINV's kinds (R317). -/
def xinvForm : Instr → Option (Reg × Reg × Reg)
  | .xinvPage d a b | .xinvAsid d a b | .xinvRlb d a b | .xinvFrame d a b => some (d, a, b)
  | _ => none

/-- EMSG's operations (R177). -/
def emsgForm : Instr → Option (Mod × Reg × Reg × Reg)
  | .emsgGatherQuery m d a b | .emsgCollectiveQuery m d a b | .emsgAbort m d a b => some (m, d, a, b)
  | _ => none

/-- COLL's operations (R176). -/
def collForm : Instr → Option (Mod × Reg × Reg × Reg)
  | .collAllreduce m d a b | .collBroadcast m d a b | .collAllgather m d a b => some (m, d, a, b)
  | _ => none

/-- DRAIN, with and without resume. -/
def drainForm : Instr → Option (Reg × Reg × Reg)
  | .drain d a b | .drainResume d a b => some (d, a, b)
  | _ => none

/-! ### Engine commands (R229 to R239, R247 to R260) -/

/-- A vector instruction that touches no memory: its registers, its operation, its register fields, the scalar registers
that it captures, and whether it needs a modulus and distinct destinations (R257). -/
structure VIssue where
  form    : VForm
  op      : VOp
  d       : Reg := 0
  a       : Reg := 0
  b       : Reg := 0
  args    : List Reg := []
  modular : Bool := false
  apart   : Bool := false

/-- V[d] from V[a] and V[b]. -/
def lanes3 (k : Option Reg) (op : VOp) (d a b : Reg) : Option VIssue :=
  some { form := { vs := [d, a, b], mask := k, writes := [d] }, op := op, d := d, a := a, b := b }

/-- V[d] from V[a]. -/
def lanes2 (k : Option Reg) (op : VOp) (d a : Reg) : Option VIssue :=
  some { form := { vs := [d, a], mask := k, writes := [d] }, op := op, d := d, a := a }

/-- A mask in W[d] from V[a] and V[b]. -/
def compares (k : Option Reg) (op : VOp) (d a b : Reg) : Option VIssue :=
  some { form := { ws := [d], vs := [a, b], mask := k, scalar := some d }, op := op, a := a, b := b }

/-- V[d] from V[a] and V[b] under the modulus. -/
def modulo3 (k : Option Reg) (op : VOp) (d a b : Reg) : Option VIssue :=
  some { form := { vs := [d, a, b], mask := k, writes := [d] }, op := op, d := d, a := a, b := b, modular := true }

/-- V[d] and V[a], both written, under the modulus. -/
def butterfly (k : Option Reg) (op : VOp) (d a b : Reg) : Option VIssue :=
  some { form := { vs := [d, a, b], mask := k, writes := [d, a] }, op := op, d := d, a := a, b := b, modular := true, apart := true }

/-- The powers of VTWID. -/
def powers (k : Option Reg) (d a b : Reg) : Option VIssue :=
  some { form := { ws := [a, b], vs := [d], mask := k, writes := [d] }, op := .twid, d := d, args := [a, b], modular := true }

/-- V[d] from W[a]. -/
def spread (k : Option Reg) (op : VOp) (d a : Reg) : Option VIssue :=
  some { form := { ws := [a], vs := [d], mask := k, writes := [d] }, op := op, d := d, args := [a] }

/-- The vector instructions that touch no memory (Tables 14.2 to 14.5), masked ones with their mask's register (R248). -/
def vectorForm : Instr → Option VIssue
  | .vadd d a b => lanes3 none (.float .add false) d a b
  | .vsub d a b => lanes3 none (.float .sub false) d a b
  | .vmul d a b => lanes3 none (.float .mul false) d a b
  | .vfma d a b => lanes3 none (.float .fma false) d a b
  | .vmin d a b => lanes3 none (.float .min false) d a b
  | .vmax d a b => lanes3 none (.float .max false) d a b
  | .vabs d a => lanes2 none (.float .abs false) d a
  | .vneg d a => lanes2 none (.float .neg false) d a
  | .vcmpEq d a b => compares none (.cmp .eq false) d a b
  | .vcmpLt d a b => compares none (.cmp .lt false) d a b
  | .vcmpLe d a b => compares none (.cmp .le false) d a b
  | .vredSum d a => lanes2 none (.red .sum false) d a
  | .vredMax d a => lanes2 none (.red .max false) d a
  | .vredMin d a => lanes2 none (.red .min false) d a
  | .vaddM k d a b => lanes3 (some k) (.float .add false) d a b
  | .vsubM k d a b => lanes3 (some k) (.float .sub false) d a b
  | .vmulM k d a b => lanes3 (some k) (.float .mul false) d a b
  | .vfmaM k d a b => lanes3 (some k) (.float .fma false) d a b
  | .vminM k d a b => lanes3 (some k) (.float .min false) d a b
  | .vmaxM k d a b => lanes3 (some k) (.float .max false) d a b
  | .vabsM k d a => lanes2 (some k) (.float .abs false) d a
  | .vnegM k d a => lanes2 (some k) (.float .neg false) d a
  | .vcmpEqM k d a b => compares (some k) (.cmp .eq false) d a b
  | .vcmpLtM k d a b => compares (some k) (.cmp .lt false) d a b
  | .vcmpLeM k d a b => compares (some k) (.cmp .le false) d a b
  | .vredSumM k d a => lanes2 (some k) (.red .sum false) d a
  | .vredMaxM k d a => lanes2 (some k) (.red .max false) d a
  | .vredMinM k d a => lanes2 (some k) (.red .min false) d a
  | .vaddBf16 d a b => lanes3 none (.float .add true) d a b
  | .vsubBf16 d a b => lanes3 none (.float .sub true) d a b
  | .vmulBf16 d a b => lanes3 none (.float .mul true) d a b
  | .vfmaBf16 d a b => lanes3 none (.float .fma true) d a b
  | .vminBf16 d a b => lanes3 none (.float .min true) d a b
  | .vmaxBf16 d a b => lanes3 none (.float .max true) d a b
  | .vabsBf16 d a => lanes2 none (.float .abs true) d a
  | .vnegBf16 d a => lanes2 none (.float .neg true) d a
  | .vcmpEqBf16 d a b => compares none (.cmp .eq true) d a b
  | .vcmpLtBf16 d a b => compares none (.cmp .lt true) d a b
  | .vcmpLeBf16 d a b => compares none (.cmp .le true) d a b
  | .vredSumBf16 d a => lanes2 none (.red .sum true) d a
  | .vredMaxBf16 d a => lanes2 none (.red .max true) d a
  | .vredMinBf16 d a => lanes2 none (.red .min true) d a
  | .vaddBf16M k d a b => lanes3 (some k) (.float .add true) d a b
  | .vsubBf16M k d a b => lanes3 (some k) (.float .sub true) d a b
  | .vmulBf16M k d a b => lanes3 (some k) (.float .mul true) d a b
  | .vfmaBf16M k d a b => lanes3 (some k) (.float .fma true) d a b
  | .vminBf16M k d a b => lanes3 (some k) (.float .min true) d a b
  | .vmaxBf16M k d a b => lanes3 (some k) (.float .max true) d a b
  | .vabsBf16M k d a => lanes2 (some k) (.float .abs true) d a
  | .vnegBf16M k d a => lanes2 (some k) (.float .neg true) d a
  | .vcmpEqBf16M k d a b => compares (some k) (.cmp .eq true) d a b
  | .vcmpLtBf16M k d a b => compares (some k) (.cmp .lt true) d a b
  | .vcmpLeBf16M k d a b => compares (some k) (.cmp .le true) d a b
  | .vredSumBf16M k d a => lanes2 (some k) (.red .sum true) d a
  | .vredMaxBf16M k d a => lanes2 (some k) (.red .max true) d a
  | .vredMinBf16M k d a => lanes2 (some k) (.red .min true) d a
  | .viadd d a b => lanes3 none (.int .add) d a b
  | .visub d a b => lanes3 none (.int .sub) d a b
  | .vimul d a b => lanes3 none (.int .mul) d a b
  | .vshl d a b => lanes3 none (.int .shl) d a b
  | .vshr d a b => lanes3 none (.int .shr) d a b
  | .vand d a b => lanes3 none (.int .and) d a b
  | .vor d a b => lanes3 none (.int .or) d a b
  | .vxor d a b => lanes3 none (.int .xor) d a b
  | .vmaddm d a b => modulo3 none .maddm d a b
  | .vmsubm d a b => modulo3 none .msubm d a b
  | .vmmulm d a b => modulo3 none .mmulm d a b
  | .vbflyCt d a b => butterfly none .bflyCt d a b
  | .vbflyGs d a b => butterfly none .bflyGs d a b
  | .vtwid d a b => powers none d a b
  | .vcvt d a code => lanes2 none (.cvt code.toNat) d a
  | .vexp2 d a => lanes2 none .exp2 d a
  | .vrcp d a => lanes2 none .rcp d a
  | .vrsq d a => lanes2 none .rsq d a
  | .viaddM k d a b => lanes3 (some k) (.int .add) d a b
  | .visubM k d a b => lanes3 (some k) (.int .sub) d a b
  | .vimulM k d a b => lanes3 (some k) (.int .mul) d a b
  | .vshlM k d a b => lanes3 (some k) (.int .shl) d a b
  | .vshrM k d a b => lanes3 (some k) (.int .shr) d a b
  | .vandM k d a b => lanes3 (some k) (.int .and) d a b
  | .vorM k d a b => lanes3 (some k) (.int .or) d a b
  | .vxorM k d a b => lanes3 (some k) (.int .xor) d a b
  | .vmaddmM k d a b => modulo3 (some k) .maddm d a b
  | .vmsubmM k d a b => modulo3 (some k) .msubm d a b
  | .vmmulmM k d a b => modulo3 (some k) .mmulm d a b
  | .vbflyCtM k d a b => butterfly (some k) .bflyCt d a b
  | .vbflyGsM k d a b => butterfly (some k) .bflyGs d a b
  | .vtwidM k d a b => powers (some k) d a b
  | .vcvtM k d a code => lanes2 (some k) (.cvt code.toNat) d a
  | .vexp2M k d a => lanes2 (some k) .exp2 d a
  | .vrcpM k d a => lanes2 (some k) .rcp d a
  | .vrsqM k d a => lanes2 (some k) .rsq d a
  | .vsel d a b => some { form := { ws := [b], vs := [d, a], writes := [d] }, op := .sel, d := d, a := a, args := [b] }
  | .vshuf d a b => lanes3 none .shuf d a b
  | .vbcast d a => spread none .bcast d a
  | .vmovx d a i => some { form := { ws := [d], vs := [a], scalar := some d }, op := .movx i.toNat, a := a }
  | .vmovv d a i => spread none (.movv i.toNat) d a
  | .vmovvM k d a => spread (some k) .movvAll d a
  | _ => none

/-- The checks of a vector instruction's issue. -/
def VIssue.kind (v : VIssue) : Kind := { v.form.kind with bad := v.apart && v.d == v.a }

/-- VLD and VST: whether it loads, marks, mask, registers and immediate (R260). -/
def lineForm : Instr → Option (Bool × Mod × Option Reg × Reg × Reg × Imm)
  | .vld m d a imm => some (true, m, none, d, a, imm)
  | .vst m d a imm => some (false, m, none, d, a, imm)
  | .vldM m k d a => some (true, m, some k, d, a, 0)
  | .vstM m k d a => some (false, m, some k, d, a, 0)
  | _ => none

/-- VGTH and VSCT: whether it loads, marks, mask and registers (R260). -/
def eachForm : Instr → Option (Bool × Mod × Option Reg × Reg × Reg × Reg)
  | .vgth m d a b => some (true, m, none, d, a, b)
  | .vsct m d a b => some (false, m, none, d, a, b)
  | .vgthM m k d a b => some (true, m, some k, d, a, b)
  | .vsctM m k d a b => some (false, m, some k, d, a, b)
  | _ => none

/-- The products of the matrix engine: kind, the check mark, tile, A and B (R232). -/
def matForm : Instr → Option (MatKind × Bool × Reg × Reg × Option Reg)
  | .mma m d a b => some (.mma, m.check, d, a, some b)
  | .mmr m d a => some (.mmr, m.check, d, a, none)
  | .mring m d a b => some (.mring, m.check, d, a, some b)
  | .mmod m d a b => some (.mmod, m.check, d, a, some b)
  | _ => none

/-- The checks of such an instruction's issue: where its results fill two tiles, it names both (R232, R239). -/
def matKind (s : State) (kind : MatKind) (d a : Reg) (b : Option Reg) : Kind :=
  let pair : Bool := kind == .mmod || (kind.ring && decide (fieldOf s.handCfg 0 0 4 = 5))
  { names := { w := rn a :: b.toList.map rn, a := if pair then [rn d, rn d + 1] else [rn d] }, big := false }

/-- The events of the machine: the forms that come from the agenda and not from an issue. -/
def isEvent : Instr → Bool
  | .dispatch _ _ | .threadReady _ | .bankRetention _ | .issueRotation _ | .bankRequestArrival _ | .holdWriteBack _
  | .refusedRequestResend _ | .memReply _ | .channelAdmission _ | .sleepExpiry _ | .mwaitTimeout _ | .waitpTimeReached _
  | .yieldExpiry _ | .iflushExpiry _ | .teamBarrierCompletion _ _ | .barWaitReturn _ _ | .registerWriteArrival _
  | .nputLinkArrival _ | .amsgArrival _ | .wakeArrival _ | .migrationArrival _ | .ibufLineFill _ _ | .copyCommandStart _
  | .engineWriteAck _ _ _ | .engineCommandComplete _ _ | .engineFaultInFlight _ _ _ _ | .gatherRequestAccept _
  | .vectorCommandStart _ | .vectorResultWrite _ _ | .matrixArithmeticStart _ | .matrixCommandComplete _ _
  | .ringForward _ _ | .faultEventArrival _ | .faultRecordWrite _ | .monitorFire _ _ | .stealProbe _ | .cancelNotice _ _
  | .launchTableEvaluation _ | .launchTableStore _ | .controlCounterStore _ | .asidDescriptorStore _ | .controlWindowWrite _
  | .translationFill _ | .keyFill _ | .shootDownArrival _ | .shootDownComplete _ | .fotPerform _ | .revocation _
  | .noticeWrite _ | .pcieInboundWrite _ _ _ | .pcieInboundRead _ _ | .orderingPointSend | .pcieInboundAtomicop _
  | .hotReset | .ringControlStore _ | .ringEntryLaunch _ | .ringEntryFill _ | .ringEntryUnknownKind _ | .apertureStore _
  | .exrinFlitReceive _ _ | .exrinInboundRequest _ _ _ _ _ | .collectiveContribution _ _ _ | .collectiveTimeout _
  | .membershipViewChange _ | .getVersion _ | .getCapabilities _ | .negotiateAlgorithms _ | .getDigests _
  | .getCertificate _ | .challenge _ | .getMeasurements _ | .keyExchange _ | .finish _ | .endSession _ | .bind _ _
  | .ringkey _ _ | .vendorUnknownOpcode _ _ | .rngHealthFailure | .cxlDeviceLost _ | .kernelTermination _ | .kernelRestart _
  | .drainLimitExpiry _ | .powerUp | .thermalThrottle | .thermalShutdown | .farEndCompletion _ | .startUpTestsPassed
  | .powerRemoved | .pcieConfigurationRequest | .uncorrectableCoreStateError _ | .ieee1588TimingMessage _
  | .heldCoreRelease _ => true
  | _ => false

/-- No bank of a thread's windows is in retention (R57). -/
def warm (s : State) (c : Nat) (t : Thread) : Prop :=
  (winBanks t.win).any (fun b => (s.core c).retain.contains b) = false

/-- The port by which a request comes to a bank of core `c`'s vault takes it in this cycle (R105). -/
def State.portFree (s : State) (n : Nat) (r : Req) (c : Nat) : Prop :=
  r.portAt.isSome = true ∨ portTurn s.cyc (r.sender n) ((s.bank (s.bankOf r)).ports.find (r.port c)) ≤ s.cyc

/-- A step is on the agenda, whatever its rank within its cycle. -/
def coming (s : State) (time : Nat) (i : Instr) : Prop := ∃ rank, Due.mk time rank i ∈ s.agenda

end Sys2Proof.Machine
end

