-- ==== Sys2Proof/Certificates/Slice0/Obligations.lean ====
section
/-! DEFINITION. The statements for the provers. Each names the rule of the manual that it formalises; a statement that
rests on a choice of the model says so and names the log entry. Every statement about an instruction assumes `Issues`:
that a slot has its turn, and that every check of an issue lets the instruction (the checks have statements of their
own). -/

open Sys2Proof Sys2Proof.Machine

/-! ### Decoding and encoding (R18 to R46, R372) -/

/-- Words written out from Tables 2.1 to 2.4 and the opcode map decode to the instructions they stand for. -/
def Obligations.WordsOfTheTablesDecode : Prop :=
  decode [0b0000_0011_0001_0010] = .instr (.add 3 1 2) 1 ∧
  decode [0b0111_0101_0100_1000] = .instr (.addi 5 4 (-8)) 1 ∧
  decode [0b1111_00_0000000001, 0b1000_0111_0000_0010] = .instr (.ldi 7 18) 2 ∧
  decode [0b1111_10_000000_0010, 0b1100_0001_0010_0000] = .instr (.jalr 1 2) 2 ∧
  decode [0b1111_10_000000_0011, 0b1111_11_0_011_1_0_0_000, 0b1001_0011_0001_0000] =
    .instr (.ldf { scope := .package, acquire := true } 3 1 0) 3 ∧
  decode [0b1111_01_000_001_000_0, 0b0000_0000_0000_0000] = .instr (.add 0 16 0) 2 ∧
  decode [0b1111_10_000110_0000, 0b0001_0000_0000_0000] = .instr .eret 2

/-- The chain that `encode` writes for a well-formed instruction of pages 0 to 6 decodes to that instruction, with
every operand at every value the encoding admits, whatever follows the chain in memory. Rows that share one word, and
differ only in what a register holds at issue, decode to the first of them (log 8). -/
def Obligations.EveryEncodedInstructionDecodesToItself : Prop :=
  ∀ (i : Instr) (rest : List Half), i.encodable = true → i.wf = true →
    decode (encode i ++ rest) = .instr i.canon (encode i).length

/-- The chain of a well-formed instruction has one to five words, and only the last of them is no prefix (R21, R22,
R27). -/
def Obligations.EncodedChainsEndAtTheirBaseWord : Prop :=
  ∀ i : Instr, i.encodable = true → i.wf = true →
    1 ≤ (encode i).length ∧ (encode i).length ≤ 5 ∧
    (∀ w ∈ (encode i).dropLast, isPrefix w = true) ∧ (∀ w, (encode i).getLast? = some w → isPrefix w = false)

/-! ### The step -/

/-- A step at a slot that has its turn runs the instruction that its chain decodes to, with the hand's chain length set
and the lines that the chain came from marked as used (R27, R107); where an issue selects among rows of one word, the
row is that of the register's value (log 8). An instruction that has issued and waited goes on in a step that runs it again,
from the words and with the registers of its issue (R59). -/
def Obligations.AStepRunsTheDecodedInstruction : Prop :=
  ∀ (s : State) (h : Hand) (t : Thread) (ws : List Half) (i : Instr) (n : Nat),
    s.hand = some h → s.thread h.core h.slot = some t →
    (t.resumes = false → s.fetch h.core t = .words ws → decode ws = .instr i n →
      step s = exec (select (fun r => (s.core h.core).regW t (rn r)) i) (s.fetched h t ws n)) ∧
    (t.resumes = true → decode t.chain = .instr i n →
      step s = exec (select (fun r => s.keptW h.core t (rn r)) i) { s with hand := some { h with len := n } })

/-- Every event, each of the machine's own steps, completes in every state: it goes on to a next state. A step with no
slot at hand takes the first event of the agenda, once its cycle has come; the agenda is the model's own (log 1). -/
def Obligations.AStepTakesTheFirstComingEvent : Prop :=
  (∀ (s : State) (i : Instr), isEvent i = true → ∃ u, exec i s = .next u) ∧
  ∀ (s : State) (e : Due) (rest : List Due), s.hand = none → s.agenda = e :: rest →
    (e.time ≤ s.cyc → step s = exec e.ev { s with agenda := rest }) ∧
    (s.cyc < e.time → s.touched = [] → step s = exec e.ev { s with agenda := rest, cyc := e.time }) ∧
    (isEvent e.ev = true → (s.cyc < e.time → s.touched = []) → ∃ u, Steps s u ∧ exec e.ev { s with agenda := rest, cyc := Max.max s.cyc e.time } = .next u)

/-! ### Reset (R365) -/

/-- At sys.ready both kernels' first threads stand at the image's entries (host in large core 0, array in core 0 of die
0), every word is full and zero, no key id is bound and no address space is configured. The entries themselves, and the
image that names them, are the model's choice (logs 2, 3).
Reset memory is in its canonical form. -/
def Obligations.ResetLeavesTheKernelsReadyAndMemoryCanonical : Prop :=
  (
    let s := State.reset
    s.sys.ready = 1 ∧ s.mem = {} ∧ (∀ a, s.mem.byte a = 0 ∧ s.mem.full a = true) ∧
    s.io.kids = [] ∧ s.io.asids = [] ∧ s.io.seqs = [] ∧
    (∃ t, s.thread 0 0 = some t ∧ t.status = .ready ∧ t.lvl = false ∧ t.part = 0 ∧ t.pc = s.sys.image.arrayEntry) ∧
    (∃ t, s.thread 0x0FF00 0 = some t ∧ t.status = .ready ∧ t.lvl = false ∧ t.part = 0 ∧ t.pc = s.sys.image.hostEntry) ∧
    s.ctxOf 0 = 2 ∧ s.ctxOf 0x0FF00 = 1) ∧
  (
   State.reset.MemOk)

/-- Every step of the machine keeps memory in its canonical form. -/
def Obligations.EveryStepKeepsMemoryCanonical : Prop :=
  ∀ s t : State, s.MemOk → step s = .next t → t.MemOk

/-! ### Integer instructions (R81 to R92) -/

/-- R82, R83: the results of the three-register integer instructions. W[d] receives the value, w0 discards it, and
the thread goes on after the instruction; nothing else changes. -/
def Obligations.IntegerInstructionsWriteTheirResults : Prop :=
  ∀ (s : State) (h : Hand) (t : Thread) (d a b : Reg), Issues s (pageZero [d, a, b]) h t →
    let u := regOf s h t a
    let v := regOf s h t b
    let n := v.toNat % 64
    exec (.add d a b) s = .next (retires s h t d (u + v)) ∧
    exec (.sub d a b) s = .next (retires s h t d (u - v)) ∧
    exec (.and d a b) s = .next (retires s h t d (u &&& v)) ∧
    exec (.or d a b) s = .next (retires s h t d (u ||| v)) ∧
    exec (.xor d a b) s = .next (retires s h t d (u ^^^ v)) ∧
    exec (.andn d a b) s = .next (retires s h t d (u &&& ~~~v)) ∧
    exec (.mul d a b) s = .next (retires s h t d (u * v)) ∧
    exec (.mulh d a b) s = .next (retires s h t d (BitVec.ofInt 64 (u.toInt * v.toInt / 2 ^ 64))) ∧
    exec (.mulhZ d a b) s = .next (retires s h t d (BitVec.ofNat 64 (u.toNat * v.toNat / 2 ^ 64))) ∧
    exec (.shl d a b) s = .next (retires s h t d (u <<< n)) ∧
    exec (.shr d a b) s = .next (retires s h t d (u >>> n)) ∧
    exec (.sra d a b) s = .next (retires s h t d (u.sshiftRight n)) ∧
    exec (.rot d a b) s = .next (retires s h t d (u.rotateRight n)) ∧
    exec (.slt d a b) s = .next (retires s h t d (if u.toInt < v.toInt then 1 else 0)) ∧
    exec (.sltZ d a b) s = .next (retires s h t d (if u.toNat < v.toNat then 1 else 0)) ∧
    exec (.seq d a b) s = .next (retires s h t d (if u = v then 1 else 0)) ∧
    exec (.min d a b) s = .next (retires s h t d (BitVec.ofInt 64 (Min.min u.toInt v.toInt))) ∧
    exec (.max d a b) s = .next (retires s h t d (BitVec.ofInt 64 (Max.max u.toInt v.toInt))) ∧
    exec (.minZ d a b) s = .next (retires s h t d (BitVec.ofNat 64 (Min.min u.toNat v.toNat))) ∧
    exec (.maxZ d a b) s = .next (retires s h t d (BitVec.ofNat 64 (Max.max u.toNat v.toNat)))

/-- R84: quotients truncated toward zero and remainders with the sign of the dividend; the two fixed cases give fixed
results, and on a small core trap with ARITH where th.fmt enables it (R152, R212). -/
def Obligations.DivisionsGiveQuotientsAndRemainders : Prop :=
  ∀ (s : State) (h : Hand) (t : Thread) (d a b : Reg), Issues s (pageZero [d, a, b]) h t →
    let u := regOf s h t a
    let v := regOf s h t b
    let corner := u = 0x8000000000000000 ∧ v = 0xFFFFFFFFFFFFFFFF
    let trap (n : Nat) : Out := .next ((begun s h).trap h.core h.slot 0x03 (BitVec.ofNat 64 n) t.pc 0 false)
    (v ≠ 0 → exec (.divZ d a b) s = .next (retires s h t d (u.udiv v)) ∧
             exec (.remZ d a b) s = .next (retires s h t d (u.umod v))) ∧
    (v ≠ 0 → ¬ corner →
      exec (.div d a b) s = .next (retires s h t d (u.sdiv v)) ∧
      exec (.rem d a b) s = .next (retires s h t d (u.srem v))) ∧
    (v = 0 → t.fmt.getLsbD 8 = false ∨ isLarge h.core = true →
      exec (.div d a b) s = .next (retires s h t d (-1)) ∧ exec (.divZ d a b) s = .next (retires s h t d (-1)) ∧
      exec (.rem d a b) s = .next (retires s h t d u) ∧ exec (.remZ d a b) s = .next (retires s h t d u)) ∧
    (v = 0 → t.fmt.getLsbD 8 = true → isLarge h.core = false →
      exec (.div d a b) s = trap 1 ∧ exec (.divZ d a b) s = trap 1 ∧
      exec (.rem d a b) s = trap 1 ∧ exec (.remZ d a b) s = trap 1) ∧
    (corner → t.fmt.getLsbD 9 = false ∨ isLarge h.core = true →
      exec (.div d a b) s = .next (retires s h t d u) ∧ exec (.rem d a b) s = .next (retires s h t d 0)) ∧
    (corner → t.fmt.getLsbD 9 = true → isLarge h.core = false → exec (.div d a b) s = trap 2 ∧ exec (.rem d a b) s = trap 2)

/-- R85, R86: SEL chooses by W[d]; CLZ, CTZ and POPC count bits; BSWAP reverses the bytes. R87: bit fields of len1 + 1 bits
from a position, that lie within the word, are extracted with and without sign, and inserted. -/
def Obligations.SelectionsBitCountsAndBitFields : Prop :=
  (
    (∀ (s : State) (h : Hand) (t : Thread) (d a b : Reg), Issues s (pageZero [d, a, b]) h t →
      exec (.sel d a b) s = .next (retires s h t d (if regOf s h t d = 0 then regOf s h t b else regOf s h t a))) ∧
    ∀ (s : State) (h : Hand) (t : Thread) (d a : Reg), Issues s (pageZero [d, a]) h t →
      let v := regOf s h t a
      (∃ n ≤ 64, exec (.clz d a) s = .next (retires s h t d (BitVec.ofNat 64 n)) ∧
        (∀ i < n, v.getLsbD (63 - i) = false) ∧ (n < 64 → v.getLsbD (63 - n) = true)) ∧
      (∃ n ≤ 64, exec (.ctz d a) s = .next (retires s h t d (BitVec.ofNat 64 n)) ∧
        (∀ i < n, v.getLsbD i = false) ∧ (n < 64 → v.getLsbD n = true)) ∧
      exec (.popc d a) s =
        .next (retires s h t d (BitVec.ofNat 64 ((List.range 64).filter fun i => v.getLsbD i).length)) ∧
      (∃ r : Word, exec (.bswap d a) s = .next (retires s h t d r) ∧
        ∀ i < 8, ∀ j < 8, r.getLsbD (8 * i + j) = v.getLsbD (8 * (7 - i) + j))) ∧
  (
    ∀ (s : State) (h : Hand) (t : Thread) (d a : Reg) (pos len1 : BitVec 6), Issues s (pageZero [d, a]) h t →
      pos.toNat + len1.toNat + 1 ≤ 64 →
      let v := regOf s h t a
      let old := regOf s h t d
      let p := pos.toNat
      let n := len1.toNat + 1
      (∃ r : Word, exec (.extrZ d a pos len1) s = .next (retires s h t d r) ∧
        ∀ i < 64, r.getLsbD i = (decide (i < n) && v.getLsbD (p + i))) ∧
      (∃ r : Word, exec (.extr d a pos len1) s = .next (retires s h t d r) ∧
        ∀ i < 64, r.getLsbD i = v.getLsbD (p + Min.min i (n - 1))) ∧
      (∃ r : Word, exec (.ins d a pos len1) s = .next (retires s h t d r) ∧
        ∀ i < 64, r.getLsbD i = if p ≤ i ∧ i < p + n then v.getLsbD (i - p) else old.getLsbD i))

/-- R88, R91: ADDI adds and LDI loads the sign-extended immediate; LDH places 30 bits above the low 34; PSP replaces the
space number.
R90, R92: PADD adds a signed displacement to a pointer's offset where the pointer and the sum stay inside its space,
and otherwise raises PERM with the reason. -/
def Obligations.ConstantsAndPointersAreFormed : Prop :=
  (
    (∀ (s : State) (h : Hand) (t : Thread) (d : Reg) (imm : Imm), Issues s (pageZero [d]) h t →
      exec (.ldi d imm) s = .next (retires s h t d (BitVec.ofInt 64 imm.toInt))) ∧
    ∀ (s : State) (h : Hand) (t : Thread) (d a : Reg) (imm : Imm) (sp : BitVec 3), Issues s (pageZero [d, a]) h t →
      let v := regOf s h t a
      exec (.addi d a imm) s = .next (retires s h t d (v + BitVec.ofInt 64 imm.toInt)) ∧
      exec (.ldh d a imm) s =
        .next (retires s h t d (BitVec.ofNat 64 (imm.toNat % 2 ^ 30 * 2 ^ 34 + v.toNat % 2 ^ 34))) ∧
      exec (.psp d a sp) s = .next (retires s h t d (BitVec.ofNat 64 (sp.toNat * 2 ^ 57 + v.toNat % 2 ^ 57)))) ∧
  (
    ∀ (s : State) (h : Hand) (t : Thread) (d a b : Reg), Issues s (pageZero [d, a, b]) h t →
      let p := regOf s h t a
      let n := 2 ^ offsetBits (spaceOf p)
      let off : Int := (p.toNat % n : Nat) + (regOf s h t b).toInt
      let perm (r : Nat) : Out := .next ((begun s h).trap h.core h.slot 0x09 (BitVec.ofNat 64 r) t.pc 0 false)
      (4 < spaceOf p → exec (.padd d a b) s = perm 1) ∧
      (spaceOf p ≤ 4 → ptrOk p = false → exec (.padd d a b) s = perm 2) ∧
      (spaceOf p ≤ 4 → ptrOk p = true → (off < 0 ∨ (n : Int) ≤ off) → exec (.padd d a b) s = perm 3) ∧
      (spaceOf p ≤ 4 → ptrOk p = true → 0 ≤ off → off < (n : Int) →
        exec (.padd d a b) s = .next (retires s h t d (BitVec.ofNat 64 (p.toNat / n * n + off.toNat)))))

/-- A register-only instruction leaves everything but W[d] and the thread's pc, pending restart index and section count
as it was: every other register of the core, every vector register and tile, every special register of the thread,
memory, and every other core. -/
def Obligations.RegisterInstructionsLeaveTheRest : Prop :=
  ∀ (s u : State) (h : Hand) (t : Thread) (i : Instr) (ws : List Reg) (d : Reg),
    registerForm i = some (ws, d) → Issues s (pageZero ws) h t → exec i s = .next u →
    (∀ n, (rn d = 0 ∨ n ≠ 8 * wBase t.win + rn d) → (u.core h.core).regs.find n = (s.core h.core).regs.find n) ∧
    (u.core h.core).vregs = (s.core h.core).vregs ∧ (u.core h.core).accs = (s.core h.core).accs ∧
    (u.core h.core).present = (s.core h.core).present ∧ (u.core h.core).owner = (s.core h.core).owner ∧
    (∃ pc, u.thread h.core h.slot = some { t with pc := pc, restart := none, sect := t.sect.map counted }) ∧
    (∀ k, k ≠ h.slot → u.thread h.core k = s.thread h.core k) ∧
    (∀ c, c ≠ h.core → u.core c = s.core c) ∧
    u.mem = s.mem ∧ u.reqs = s.reqs ∧ u.banks = s.banks ∧ u.io = s.io ∧ u.links = s.links ∧ u.sys = s.sys ∧
    u.agenda = s.agenda ∧ u.cyc = s.cyc

/-! ### Branches, traps and returns (R93, R94, R181 to R185) -/

/-- R93: a branch whose condition holds goes to its pc plus twice the immediate, and one whose condition does not hold goes
on after itself; a target outside the space traps with PERM when the branch is taken.
R94, R28: JAL and JALR write the address after the jump to W[d] and go to the target; JALR and JR read W[a] first, and
an odd target traps with ALIGN on the jump. -/
def Obligations.BranchesAndJumpsGoToTheirTargets : Prop :=
  (
    ∀ (s : State) (h : Hand) (t : Thread) (c : Cond) (a : Reg) (imm : Imm), Issues s (pageZero [a]) h t →
      let v := (regOf s h t a).toInt
      let taken : Prop := match c with
        | .eqz => v = 0 | .nez => v ≠ 0 | .ltz => v < 0 | .gez => 0 ≤ v | .gtz => 0 < v | .lez => v ≤ 0 | .always => True
      (¬ taken → exec (.brCc c a imm) s = .next (goesTo s h (stepPc t.pc h.len))) ∧
      (∀ p, taken → effective t.pc (2 * imm.toInt) = .ok p → exec (.brCc c a imm) s = .next (goesTo s h p)) ∧
      (∀ r, taken → effective t.pc (2 * imm.toInt) = .error r →
        exec (.brCc c a imm) s = .next ((begun s h).trap h.core h.slot 0x09 (BitVec.ofNat 64 r) t.pc 0 false))) ∧
  (
    (∀ (s : State) (h : Hand) (t : Thread) (d : Reg) (imm : Imm), Issues s (pageZero [d]) h t →
      (∀ p, effective t.pc (2 * imm.toInt) = .ok p →
        exec (.jal d imm) s = .next (((begun s h).setW h.core h.slot (rn d) (stepPc t.pc h.len)).upThread h.core h.slot
          fun u => { u with pc := p })) ∧
      (∀ r, effective t.pc (2 * imm.toInt) = .error r →
        exec (.jal d imm) s = .next ((begun s h).trap h.core h.slot 0x09 (BitVec.ofNat 64 r) t.pc 0 false))) ∧
    (∀ (s : State) (h : Hand) (t : Thread) (a : Reg), Issues s (pageZero [a]) h t →
      let p := regOf s h t a
      (p.getLsbD 0 = false → exec (.jr a) s = .next (goesTo s h p)) ∧
      (p.getLsbD 0 = true → exec (.jr a) s = .next ((begun s h).trap h.core h.slot 0x02 p t.pc 0 false))) ∧
    (∀ (s : State) (h : Hand) (t : Thread) (d a : Reg), Issues s (pageZero [d, a]) h t →
      let p := regOf s h t a
      (p.getLsbD 0 = false →
        exec (.jalr d a) s = .next (((begun s h).setW h.core h.slot (rn d) (stepPc t.pc h.len)).upThread h.core h.slot
          fun u => { u with pc := p })) ∧
      (p.getLsbD 0 = true → exec (.jalr d a) s = .next ((begun s h).trap h.core h.slot 0x02 p t.pc 0 false))))

/-- R181: a thread at level 0 with a handler takes a trap: th.epc, th.cause (the code, with bit 8 for a deferred event),
th.info and th.vx are saved, the level is 1 and the pc is th.vec; registers and memory are as they were. -/
def Obligations.TakingATrapSavesAndEnters : Prop :=
  ∀ (s : State) (c k code : Nat) (info epc vx : Word) (late : Bool) (t : Thread),
    s.thread c k = some t → t.lvl = false → t.vec ≠ 0 → t.sect = none → t.status = .ready →
    let u := s.trap c k code info epc vx late
    u.thread c k = some { t with epc := epc, cause := BitVec.ofNat 64 (code + if late then 256 else 0), info := info,
                                 vx := vx, lvl := true, pc := t.vec, restart := none } ∧
    (∀ k', k' ≠ k → u.thread c k' = s.thread c k') ∧ (∀ c', c' ≠ c → u.core c' = s.core c') ∧
    (u.core c).regs = (s.core c).regs ∧ (u.core c).vregs = (s.core c).vregs ∧ (u.core c).accs = (s.core c).accs ∧
    u.mem = s.mem ∧ u.io = s.io ∧ u.agenda = s.agenda

/-- R184, R185, R186: TRAP raises SYSCALL to the kernel with its number as info and W[a] as argument, and the thread parks
with its resume point after the TRAP; BREAK raises the thread trap BREAK with its immediate, and on a core on which exdb has
claimed BREAK it holds the core instead, with the pc at the BREAK. -/
def Obligations.TrapAndBreakRaiseTheirEvents : Prop :=
  (∀ (s : State) (h : Hand) (t : Thread) (a : Reg) (n : BitVec 12), Issues s (plainKind [a]) h t →
    let next := stepPc t.pc h.len
    ∃ u, exec (.trap a n) s = .next u ∧
      u = (begun s h).kernelFault h.core h.slot 0 0x0C (n.setWidth 64) (regOf s h t a) next t.pc 0 none ∧
      (∃ v, u.thread h.core h.slot = some v ∧
        v.status = .parked .fault (.fault next 0x0C (n.setWidth 64) t.pc 0 none) ∧ v.pc = t.pc) ∧
      u.io.recs.find s.serial = some { ctx := s.ctxOf h.core, source := 0, code := 0x0C, tid := Tid.word (s.tidAt h.core h.slot), resume := next, info := n.setWidth 64, arg := regOf s h t a, asid := t.asid.toNat, epc := t.pc, formed := 0, met := s.cyc }) ∧
  (∀ (s : State) (h : Hand) (t : Thread) (n : BitVec 8), Issues s {} h t →
    ((s.core h.core).claimed = false →
      exec (.brk n) s = .next ((begun s h).trap h.core h.slot 0x0B (n.setWidth 64) t.pc 0 false)) ∧
    ((s.core h.core).claimed = true →
      exec (.brk n) s = .next ((begun s h).upCore h.core fun c => { c with held := true })))

/-- R183: ERET at level 1 returns: the pc is th.epc, the level 0, th.vx is cleared, and a restart index of kind 1 is
pending; at level 0 it raises ILLEGAL with reason 0x0A. -/
def Obligations.EretReturnsFromTheHandler : Prop :=
  ∀ (s : State) (h : Hand) (t : Thread), Issues s {} h t →
    (t.lvl = true → exec .eret s = .next ((begun s h).upThread h.core h.slot fun u =>
      { u with pc := t.epc, lvl := false, vx := 0,
               restart := if t.vx.extractLsb' 62 2 = 1 then some (t.vx.extractLsb' 0 40) else none })) ∧
    (t.lvl = false → exec .eret s =
      .next ((begun s h).trap h.core h.slot 0x01 (BitVec.ofNat 64 (0x0A + 256 * (h.len - 1))) t.pc 0 false))

/-! ### Loads, stores and the full/empty instructions (R89 to R106) -/

/-- R95 to R99: an ordinary load asks its bytes at W[a] plus the immediate scaled by its width, a store asks to write W[d]
as it stands at issue; a relaxed one leaves its thread in the rotation while its translation is at hand, every other parks
its thread until the reply.
R102: LDF, LDE, STF, STS, SETE and FEQ ask their synchronising access of the word at W[a] plus eight times the
immediate, and park their thread until the reply. -/
def Obligations.MemoryInstructionsAskTheirAccess : Prop :=
  (
    (∀ (s : State) (h : Hand) (t : Thread) (i : Instr) (m : Mod) (w : Nat) (sg : Bool) (d a : Reg) (imm : Imm) (p : Word),
      let q : Ask := { op := .load w sg, use := if m.relaxed then .relaxed (some (rn d)) else .reg (rn d), align := w,
                       bytes := w, mod := m, redir := .follows }
      loadForm i = some (m, w, sg, d, a, imm) → Issues s (accessKind [d, a]) h t →
      effective (regOf s h t a) (w * imm.toInt) = .ok p → Admits s h t p q →
      exec i s = .next (asks s h t p q)) ∧
    (∀ (s : State) (h : Hand) (t : Thread) (i : Instr) (m : Mod) (w : Nat) (d a : Reg) (imm : Imm) (p : Word),
      let q : Ask := { op := if w = 8 then .store (regOf s h t d) else .sub w (regOf s h t d) false,
                       use := if m.relaxed then .relaxed none else .done, align := w,
                       bytes := w, mod := m, redir := .follows }
      storeForm i = some (m, w, d, a, imm) → Issues s (accessKind [d, a]) h t →
      effective (regOf s h t a) (w * imm.toInt) = .ok p → Admits s h t p q →
      exec i s = .next (asks s h t p q))) ∧
  (
    ∀ (s : State) (h : Hand) (t : Thread) (i : Instr) (m : Mod) (ws : List Reg) (a : Reg) (imm : Imm) (v : Reg)
      (op : Word → MemOp) (use : Use) (p : Word),
      let q : Ask := { op := op (regOf s h t v), use := use, align := 8, bytes := 8, mod := m, redir := .forbidden }
      syncForm i = some (m, ws, a, imm, v, op, use) → Issues s (accessKind ws) h t →
      effective (regOf s h t a) (8 * imm.toInt) = .ok p → Admits s h t p q →
      exec i s = .next (asks s h t p q))

/-- R96: an address outside its space traps with PERM and the reason, a misaligned one with ALIGN and the address, where no
deferred event on its word comes first (R99); the access then has no effect on memory. -/
def Obligations.BadAddressesTrapBeforeTheAccess : Prop :=
  ∀ (s u : State) (h : Hand) (t : Thread) (i : Instr) (m : Mod) (w : Nat) (sg : Bool) (d a : Reg) (imm : Imm),
    loadForm i = some (m, w, sg, d, a, imm) ∨ storeForm i = some (m, w, d, a, imm) → Issues s (accessKind [d, a]) h t →
    exec i s = .next u →
    (∀ r, effective (regOf s h t a) (w * imm.toInt) = .error r →
      u = (begun s h).trap h.core h.slot 0x09 (BitVec.ofNat 64 r) t.pc 0 false) ∧
    (∀ p, effective (regOf s h t a) (w * imm.toInt) = .ok p → (∀ q, (cxOf h t).dueOn (begun s h) p q = none) →
      offsetOf p % w ≠ 0 → u = (begun s h).trap h.core h.slot 0x02 p t.pc 0 false)

/-- R97: an access to a vault arrives at its bank half its latency, down, after it was asked: a load or a store that is not
relaxed, of a small core that holds its context's key, through an L-space or C-space pointer, past the same-word rule.
R97, R105, R106: a load or a store that no hold and no check stands against is performed when it arrives at its vault
bank: the load answers the bytes of its word as they decipher, the store writes its word, and the reply leaves for the core
with half the latency, up. Every byte outside the word stored reads as before, and an ordinary store leaves the full/empty
bit. -/
def Obligations.VaultAccessesArriveAndArePerformed : Prop :=
  (
    ∀ (s : State) (n : Nat) (r : Req) (t : Tid) (th : Thread) (v : Nat),
      s.reqs.find n = some r → r.tid = some t → s.threadOf t = some th → isLarge r.core = false → r.use = .done ∨ (∃ d, r.use = .reg d) →
      (match r.op with | .load _ _ | .store _ | .sub _ _ _ => True | _ => False) →
      (spaceOf r.ptr = 1 ∧ v = r.core ∨ spaceOf r.ptr = 2 ∧ v = ptrCore r.ptr) → isSmall v = true →
      s.hasKey r.core (.id 0 (s.ctxOf r.core)) = true →
      (let r' : Req := { r with pa := vaultAddr v (offsetOf r.ptr), key := s.keyOf (.id 0 (s.ctxOf r.core)), atom := 1, route := .plain, lat := latency r.core (.bank v (offsetOf r.ptr / 8192)) }
       th.deferredOn r' = none ∧ s.conflicts n r' = false) →
      coming (s.begin n) (max s.cyc r.since + latency r.core (.bank v (offsetOf r.ptr / 8192)) / 2) (.bankRequestArrival n) ∧
        (∃ r', (s.begin n).reqs.find n = some r' ∧ r'.pa = vaultAddr v (offsetOf r.ptr) ∧ r'.stage = .sent ∧
          r'.op = r.op ∧ r'.lat = latency r.core (.bank v (offsetOf r.ptr / 8192))) ∧
        (s.begin n).mem = s.mem) ∧
  (
    ∀ (s : State) (n : Nat) (r : Req) (c b : Nat), s.MemOk →
      s.reqs.find n = some r → r.stage = .sent → (r.use = .done ∨ ∃ d, r.use = .reg d) → r.view = none →
      homeOf s.sys.image r.pa = .bank c b → s.portFree n r c →
      (s.bank (s.bankOf r)).holds.any (fun x => x.covers r) = false → (s.bank (s.bankOf r)).waiters = [] →
      s.admitEvent r = none → s.merged n = [] → s.errorIn r.first r.words = 0 →
      (∀ w sg, r.op = .load w sg → ∃ u, exec (.bankRequestArrival n) s = .next u ∧ u.mem = s.mem ∧
        u.reqs.find n = some { r with stage := .served, ans := [extractBytes (s.mem.read r.key r.first) r.pa w sg] } ∧
        { time := s.cyc + (r.lat + 1) / 2, rank := 7, ev := .memReply n } ∈ u.agenda) ∧
      (∀ v, r.op = .store v → ∃ u, exec (.bankRequestArrival n) s = .next u ∧ u.mem.read r.key r.first = v ∧
        u.mem.full r.first = s.mem.full r.first ∧ (∀ a, a / 8 ≠ r.pa / 8 → u.mem.byte a = s.mem.byte a) ∧
        { time := s.cyc + (r.lat + 1) / 2, rank := 7, ev := .memReply n } ∈ u.agenda))

/-- R102, R103: at its bank, LDF and LDE return a full word's value (LDE leaves it empty), STF fills an empty word, STS writes
and fills, SETE empties, FEQ answers the bit; LDF and LDE of an empty word, and STF of a full one, wait in the bank's list. -/
def Obligations.FullAndEmptyWordsAreSynchronised : Prop :=
  ∀ (s : State) (n : Nat) (r : Req) (c b : Nat), s.MemOk →
    s.reqs.find n = some r → r.stage = .sent → (r.use = .done ∨ ∃ d, r.use = .reg d) → r.view = none → r.orphan = false →
    homeOf s.sys.image r.pa = .bank c b → s.portFree n r c →
    (s.bank (s.bankOf r)).holds.any (fun x => x.covers r) = false → (s.bank (s.bankOf r)).waiters = [] →
    s.admitEvent r = none → s.merged n = [] → s.errorIn r.first r.words = 0 →
    let full := s.mem.full r.first
    let served (ans : List Word) (u : State) : Prop := u.reqs.find n = some { r with stage := .served, ans := ans }
    let waits (u : State) : Prop := (u.bank (s.bankOf r)).waiters = [n] ∧ u.mem = s.mem ∧ ∃ r', u.reqs.find n = some r' ∧ r'.stage = .waiting
    (r.op = .ldf → ∃ u, exec (.bankRequestArrival n) s = .next u ∧
      if full then served [s.mem.read r.key r.first] u ∧ u.mem = s.mem else waits u) ∧
    (r.op = .lde → ∃ u, exec (.bankRequestArrival n) s = .next u ∧
      if full then served [s.mem.read r.key r.first] u ∧ u.mem = s.mem.setEmpty r.first true else waits u) ∧
    (∀ v, r.op = .stf v → ∃ u, exec (.bankRequestArrival n) s = .next u ∧
      if full then waits u else served [] u ∧ u.mem = s.mem.write r.key r.first v false) ∧
    (∀ v, r.op = .sts v → ∃ u, exec (.bankRequestArrival n) s = .next u ∧ served [] u ∧
      u.mem = s.mem.write r.key r.first v false) ∧
    (r.op = .sete → ∃ u, exec (.bankRequestArrival n) s = .next u ∧ served [] u ∧
      u.mem = s.mem.setEmpty r.first true) ∧
    (r.op = .feq → ∃ u, exec (.bankRequestArrival n) s = .next u ∧ served [if full then 1 else 0] u ∧ u.mem = s.mem)

/-- R97: the reply of an access writes W[d] where it has one, and its thread goes on after the instruction. -/
def Obligations.RepliesCompleteTheirInstruction : Prop :=
  ∀ (s : State) (n : Nat) (r : Req) (t : Tid) (th : Thread),
    s.reqs.find n = some r → r.stage = .served → r.orphan = false → r.event = none → r.tid = some t →
    s.threadOf t = some th → th.status = .parked .mem (.reply n) → r.acq = none →
    warm s t.core th →
    (match r.op with | .load _ _ | .store _ | .sub _ _ _ | .ldf | .lde | .stf _ | .sts _ | .sete | .feq | .atom _ _ _ => True | _ => False) →
    (∀ d, r.use = .reg d → ∃ u v, exec (.memReply n) s = .next u ∧ u.thread t.core t.slot = some v ∧
      v.status = .ready ∧ v.pc = r.npc ∧ (u.core t.core).regW v d = (if d = 0 then 0 else r.ans.getD 0 0) ∧
      (∀ j, j ≠ 8 * wBase th.win + d → (u.core t.core).regs.find j = (s.core t.core).regs.find j) ∧
      u.mem = s.mem) ∧
    (r.use = .done → ∃ u v, exec (.memReply n) s = .next u ∧ u.thread t.core t.slot = some v ∧
      v.status = .ready ∧ v.pc = r.npc ∧ (u.core t.core).regs = (s.core t.core).regs ∧ u.mem = s.mem)

/-! ### Atomics, reservation sections, fences and monitors (R115, R126, R133 to R150) -/

/-- R142: a one-instruction atomic asks its word at W[a] with W[d] and W[b] as they stand at issue; CAS2 asks a pair, with
the two registers from W[d] as the expected values and the two from W[b] as the new ones. -/
def Obligations.AtomicsAskTheirWord : Prop :=
  (∀ (s : State) (h : Hand) (t : Thread) (i : Instr) (op : AtomOp) (m : Mod) (d a b : Reg) (p : Word),
    let q : Ask := { op := .atom op (regOf s h t d) (regOf s h t b), use := .reg (rn d), align := 8, bytes := 8, mod := m,
                     redir := .forbidden }
    atomForm i = some (op, m, d, a, b) → Issues s (plainKind [d, a, b]) h t →
    effective (regOf s h t a) 0 = .ok p → Admits s h t p q →
    exec i s = .next (asks s h t p q)) ∧
  (∀ (s : State) (h : Hand) (t : Thread) (m : Mod) (d a b : Reg) (p : Word),
    let w (n : Nat) : Word := (s.core h.core).regW t n
    let q : Ask := { op := .cas2 (w (rn d)) (w (rn d + 1)) (w (rn b)) (w (rn b + 1)), use := .reg (rn d), align := 16,
                     bytes := 16, mod := m, redir := .forbidden }
    Issues s { names := { w := [rn d, rn d + 1, rn a, rn b, rn b + 1] } } h t →
    effective (regOf s h t a) 0 = .ok p → Admits s h t p q →
    exec (.cas2 m d a b) s = .next (asks s h t p q))

/-- R133, R142, R98: an atomic or a sub-word store that reaches its bank holds the word (CAS2 its pair), and its write-back
follows its whole latency later.
R133, R142, Table 7.3: the write-back of an atomic writes the operator's value over the word that the holder was given,
ends the hold, and answers the old value; CAS2 writes both new words where both old ones are as expected, and both old ones where
not, and answers the two; R98: a sub-word store writes its bytes over the held word, and an engine's sets it full; R136: REL's
write-back writes the word or the pair and ends the section's hold. Every byte outside the word or the pair reads as before. -/
def Obligations.AtomicsHoldAndWriteBackTheirWord : Prop :=
  (
    ∀ (s : State) (n : Nat) (r : Req) (c b : Nat),
      s.reqs.find n = some r → r.stage = .sent → (r.use = .done ∨ ∃ d, r.use = .reg d) → r.view = none →
      homeOf s.sys.image r.pa = .bank c b → s.portFree n r c →
      (s.bank (s.bankOf r)).holds.any (fun x => x.covers r) = false →
      s.admitEvent r = none → s.merged n = [] → s.errorIn r.first r.words = 0 → (s.bank (s.bankOf r)).waiters = [] →
      let held (size : Nat) (ans : List Word) : Prop := ∃ u, exec (.bankRequestArrival n) s = .next u ∧ u.mem = s.mem ∧
        (u.bank (s.bankOf r)).holds = (s.bank (s.bankOf r)).holds ++ [{ pa := r.first, size := size, req := n }] ∧
        u.reqs.find n = some { r with stage := .held, ans := ans } ∧
        coming u (s.cyc + r.lat) (.holdWriteBack n)
      (∀ op e x, r.op = .atom op e x → held 8 [s.mem.read r.key r.first, 0]) ∧
      (∀ w v full, r.op = .sub w v full → held 8 [s.mem.read r.key r.first, 0]) ∧
      (∀ e0 e1 x0 x1, r.op = .cas2 e0 e1 x0 x1 → held 16 [s.mem.read r.key r.first, s.mem.read r.key (r.first + 8)])) ∧
  (
    ∀ (s : State) (n : Nat) (r : Req) (c b : Nat) (op : AtomOp) (e x old : Word), s.MemOk →
      s.reqs.find n = some r → r.stage = .held → r.view = none → r.op = .atom op e x → r.ans = [old, 0] →
      homeOf s.sys.image r.pa = .bank c b → (s.bank (s.bankOf r)).waiters = [] → (s.bank (s.bankOf r)).queue = [] →
      let new : Word := match op with
        | .aadd => old + x | .aand => old &&& x | .aor => old ||| x | .axor => old ^^^ x
        | .amin => BitVec.ofInt 64 (Min.min old.toInt x.toInt) | .amax => BitVec.ofInt 64 (Max.max old.toInt x.toInt)
        | .aminZ => BitVec.ofNat 64 (Min.min old.toNat x.toNat) | .amaxZ => BitVec.ofNat 64 (Max.max old.toNat x.toNat)
        | .axchg => x | .acas => if old = e then x else old
      ∃ u, exec (.holdWriteBack n) s = .next u ∧ u.mem.read r.key r.first = new ∧
        (∀ a, a / 8 ≠ r.pa / 8 → u.mem.byte a = s.mem.byte a) ∧
        (u.bank (s.bankOf r)).holds.any (fun z => decide (z.pa = r.first)) = false ∧
        u.reqs.find n = some { r with stage := .served, ans := [old] } ∧ coming u (s.cyc + (r.lat + 1) / 2) (.memReply n)) ∧
  (
    ∀ (s : State) (n : Nat) (r : Req) (c b : Nat), s.MemOk →
      s.reqs.find n = some r → r.view = none → homeOf s.sys.image r.pa = .bank c b →
      (s.bank (s.bankOf r)).waiters = [] → (s.bank (s.bankOf r)).queue = [] →
      let done (size : Nat) (ans : List Word) (u : State) : Prop :=
        (∀ a, (a < r.first ∨ r.first + size ≤ a) → u.mem.byte a = s.mem.byte a) ∧
        (u.bank (s.bankOf r)).holds.any (fun z => decide (z.pa = r.first)) = false ∧
        u.reqs.find n = some { r with stage := .served, ans := ans } ∧ coming u (s.cyc + (r.lat + 1) / 2) (.memReply n)
      (∀ w v full old, r.stage = .held → r.op = .sub w v full → r.ans = [old, 0] → r.pa % 8 + w ≤ 8 →
        ∃ u, exec (.holdWriteBack n) s = .next u ∧ done 8 [] u ∧ u.mem.full r.first = (full || s.mem.full r.first) ∧
          ∀ i < 8, (u.mem.read r.key r.first).extractLsb' (8 * i) 8 =
            if r.pa % 8 ≤ i ∧ i < r.pa % 8 + w then v.extractLsb' (8 * (i - r.pa % 8)) 8 else old.extractLsb' (8 * i) 8) ∧
      (∀ e0 e1 x0 x1 old0 old1, r.stage = .held → r.op = .cas2 e0 e1 x0 x1 → r.ans = [old0, old1] →
        ∃ u, exec (.holdWriteBack n) s = .next u ∧ done 16 [old0, old1] u ∧
          u.mem.read r.key r.first = (if old0 = e0 ∧ old1 = e1 then x0 else old0) ∧
          u.mem.read r.key (r.first + 8) = (if old0 = e0 ∧ old1 = e1 then x1 else old1)) ∧
      (∀ pair x y, r.op = .rel pair x y → s.sectHeld r = true → s.admitEvent r = none →
        ∃ u, exec (.holdWriteBack n) s = .next u ∧ done (if pair then 16 else 8) [] u ∧
          u.mem.full r.first = s.mem.full r.first ∧ u.mem.read r.key r.first = x ∧
          (pair = true → u.mem.full (r.first + 8) = s.mem.full (r.first + 8) ∧ u.mem.read r.key (r.first + 8) = y)))

/-- R136, R140: RSV asks a hold of its word (RSVX of its pair) for a section, only outside a section; when the value comes,
W[d] (and W[d+1]) receive it and the section is open; REL, within it, sends the write-back of W[d] (and W[d+1]) and waits
for its acknowledgement, with the section closed. -/
def Obligations.SectionsOpenAndClose : Prop :=
  (∀ (s : State) (h : Hand) (t : Thread) (m : Mod) (d a : Reg) (p : Word) (pair : Bool),
    let q : Ask := { op := .rsv pair, use := .stage stRsv, align := if pair then 16 else 8, bytes := if pair then 16 else 8,
                     mod := m, redir := .forbidden, args := [BitVec.ofNat 64 (rn d)] }
    Issues s { names := { w := if pair then [rn d, rn d + 1, rn a] else [rn d, rn a] }, sec := .opens } h t →
    effective (regOf s h t a) 0 = .ok p → Admits s h t p q →
    exec (if pair then .rsvx m d a else .rsv m d a) s = .next (asks s h t p q)) ∧
  (∀ (s : State) (n : Nat) (r : Req) (t : Tid) (th : Thread) (v v1 : Word) (d : Nat) (pair : Bool),
    s.reqs.find n = some r → r.stage = .served → r.orphan = false → r.event = none → r.tid = some t → r.use = .stage stRsv →
    r.op = .rsv pair → r.args = [BitVec.ofNat 64 d] → d < 128 → r.ans = (if pair then [v, v1] else [v]) → s.threadOf t = some th →
    th.status = .parked .mem (.reply n) →
    warm s t.core th →
    ∃ u x, exec (.memReply n) s = .next u ∧ u.thread t.core t.slot = some x ∧ x.status = .ready ∧ x.pc = r.npc ∧
      x.sect = some { ptr := r.ptr, pa := r.first, pair := pair, key := r.key, v0 := v, v1 := if pair then v1 else 0,
                      issued := 0, pc := r.epc, lat := r.lat, route := r.route } ∧
      (u.core t.core).regW x d = (if d = 0 then 0 else v) ∧ (pair = true → (u.core t.core).regW x (d + 1) = v1) ∧
      u.mem = s.mem) ∧
  (∀ (s : State) (h : Hand) (t : Thread) (m : Mod) (d : Reg) (z : Sect), t.sect = some z → m.release = false →
    Issues s { names := { w := if z.pair then [rn d, rn d + 1] else [rn d] }, sec := .closes } h t →
    let w1 : Word := if z.pair then (s.core h.core).regW t (rn d + 1) else 0
    ∃ u x, exec (.rel m d) s = .next u ∧ u.thread h.core h.slot = some x ∧ x.sect = none ∧
      x.status = .parked .mem (.reply s.serial) ∧ coming u (s.cyc + z.lat / 2) (.holdWriteBack s.serial) ∧
      (∃ r, u.reqs.find s.serial = some r ∧ r.op = .rel z.pair (regOf s h t d) w1 ∧ r.pa = z.pa ∧ r.key = z.key ∧
        r.npc = stepPc t.pc h.len) ∧ u.mem = s.mem)

/-- R126: FENCE, with every earlier access of its thread complete, no deferred event to report and its release effects
finished, goes on after itself, with the acquire effects of its scope once they have finished; on a small core those are
none; while an earlier access is out it waits. R145 to R148: MON.ARM asks its line's bank to watch;
MON.CLR drops one monitor or all four; MWAIT with nothing to wait for answers 0x40, with a fired monitor answers the fired
ones and clears them, and otherwise parks until a cause or its time. -/
def Obligations.FencesWaitAndMonitorsAreArmed : Prop :=
  (
    ∀ (s : State) (h : Hand) (t : Thread) (m : Mod),
      Issues s (lateKind .barred) h t →
      let id := (cxOf h t).tid (begun s h)
      let got := (begun s h).acquire id (acqOf m)
      ((begun s h).accessesDone id t = true → t.deferred.find? (dueAt (lateKind .barred)) = none →
        (m.release = true → (begun s h).releaseDone id m.scope = true) → (m.acquire = true → got.acquiring id = false) →
        exec (.fence m) s = .next (passes got h t)) ∧
      (isLarge h.core = false → got = begun s h) ∧
      ((begun s h).quiet t = false ∨ (begun s h).vecMemory id true = true → ∃ u v, exec (.fence m) s = .next u ∧ u.thread h.core h.slot = some v ∧
        v.status = .parked .mem .retry ∧ v.pc = t.pc ∧ u.mem = s.mem)) ∧
  (
    (∀ (s : State) (h : Hand) (t : Thread) (d a : Reg) (mon : BitVec 2) (p : Word),
      let q : Ask := { op := .arm mon.toNat, use := .reg (rn d), align := 1, bytes := 1, redir := .forbidden }
      Issues s (plainKind [d, a]) h t → effective (regOf s h t a) 0 = .ok p →
      Admits s h t p q → exec (.monArm d a mon) s = .next (asks s h t p q)) ∧
    (∀ (s : State) (h : Hand) (t : Thread) (mon : BitVec 3), Issues s { bad := decide (4 < mon.toNat) } h t →
      exec (.monClr mon) s = .next (passes (if mon = 4 then (begun s h).disarmAll h.core h.slot
        else (begun s h).disarm h.core h.slot mon.toNat) h t)) ∧
    (∀ (s : State) (h : Hand) (t : Thread) (m : Mod) (d a : Reg), Issues s (plainKind [d, a]) h t → isLarge h.core = false →
      let time := (regOf s h t a).toNat
      (t.mons = [] → time = 0 → exec (.mwait m d a) s = .next (retires s h t d 0x40)) ∧
      (t.fired ≠ 0 → exec (.mwait m d a) s =
        .next (ends ((begun s h).upThread h.core h.slot Thread.calm) h t d (BitVec.ofNat 64 t.fired))) ∧
      (t.fired = 0 → (t.mons ≠ [] ∨ time ≠ 0) → ∃ u v, exec (.mwait m d a) s = .next u ∧ u.thread h.core h.slot = some v ∧
        v.status = .parked .mwait (.mwait (rn d) (if time = 0 then none else some (s.cyc + Max.max 8 time)) (stepPc t.pc h.len) (acqOf m) false) ∧
        (time ≠ 0 → coming u (s.cyc + Max.max 8 time) (.mwaitTimeout (s.tidAt h.core h.slot))))))

/-- R147, R148: a bank's notice sets the monitor's fired bit at its core and ends an MWAIT at the end of the cycle; the wait's
end writes every cause present to W[d], clears the fired bits, and the thread goes on after the MWAIT. -/
def Obligations.FiredMonitorsEndWaits : Prop :=
  (∀ (s : State) (t : Tid) (th : Thread) (mon : Nat) (x : Mon), s.threadOf t = some th → th.mons.find mon = some x →
    ∃ u v, exec (.monitorFire t mon) s = .next u ∧ u.thread t.core t.slot = some v ∧
      v.mons.find mon = some { x with fired := true } ∧ v.pc = th.pc ∧ v.status = th.status ∧
      (∀ d l npc acq woken, th.status = .parked .mwait (.mwait d l npc acq woken) → coming u s.cyc (.mwaitTimeout t)) ∧
      u.mem = s.mem ∧ (u.core t.core).regs = (s.core t.core).regs) ∧
  (∀ (s : State) (t : Tid) (th : Thread) (d : Nat) (l : Option Nat) (npc : Word) (woken : Bool),
    s.threadOf t = some th → th.status = .parked .mwait (.mwait d l npc none woken) →
    warm s t.core th →
    let late : Bool := match l with | some n => decide (n ≤ s.cyc) | none => false
    let causes := th.fired + (if late then 16 else 0) + (if woken then 32 else 0)
    causes ≠ 0 → ∃ u v, exec (.mwaitTimeout t) s = .next u ∧ u.thread t.core t.slot = some v ∧ v.status = .ready ∧
      v.pc = npc ∧ v.fired = 0 ∧ (u.core t.core).regW v d = (if d = 0 then 0 else BitVec.ofNat 64 causes) ∧ u.mem = s.mem)

/-! ### Threads (R11, R54 to R64, R78 to R80, R107, R108, R213) -/

/-- R61, R54: TNEW on a small core answers an error for an odd entry (-4), a malformed window (-2), a window that overlaps a
live one (-3) or no free slot (-1), and otherwise creates a thread in the lowest free slot of the partition: it inherits the
creator's special registers, its w1 holds the creator's identifier, every other register of its windows is zero with its
presence bit clear, it becomes ready after the delay of R57, and W[d] receives its identifier. -/
def Obligations.TnewCreatesAThread : Prop :=
  ∀ (s : State) (h : Hand) (t : Thread) (d a b : Reg), Issues s (plainKind [d, a, b]) h t → isLarge h.core = false →
    let entry := regOf s h t a
    let win := regOf s h t b
    let taken := ((begun s h).core h.core).winTaken win
    let answers (n : Int) : Prop := exec (.tnew d a b) s = .next (retires s h t d (BitVec.ofInt 64 n))
    (entry.getLsbD 0 = true → answers (-4)) ∧
    (entry.getLsbD 0 = false → winOk win = false → answers (-2)) ∧
    (entry.getLsbD 0 = false → winOk win = true → taken = true → answers (-3)) ∧
    (entry.getLsbD 0 = false → winOk win = true → taken = false → (begun s h).freeSlot h.core t.part = none → answers (-1)) ∧
    (∀ k, entry.getLsbD 0 = false → winOk win = true → taken = false → (begun s h).freeSlot h.core t.part = some k →
      (begun s h).fits h.core t.region 1 = true →
      ∃ u v, exec (.tnew d a b) s = .next u ∧ u.thread h.core k = some v ∧ v.status = .starting ∧ v.pc = entry ∧
        v.win = win ∧ v.lvl = false ∧ v.vec = t.vec ∧ v.fmt = t.fmt ∧ v.sa = t.sa ∧ v.sb = t.sb ∧ v.band = t.band ∧
        v.rcb = t.rcb ∧ v.asid = t.asid ∧ v.part = t.part ∧ v.region = t.region ∧
        (u.core h.core).regW v 1 = Tid.word (s.tidAt h.core h.slot) ∧
        (∀ n, n ≠ 1 → n < 8 * wSize win → (u.core h.core).regW v n = 0) ∧
        (∀ n, n < 8 * wSize win → ((u.core h.core).present.contains (8 * wBase win + n)) = false) ∧
        (∀ n, n < vSize win → (u.core h.core).regV v n = 0) ∧ (∀ n, n < aSize win → (u.core h.core).regA v n = 0) ∧
        (rn d ≠ 0 → (u.core h.core).regs.find (8 * wBase t.win + rn d) = some (Tid.word (s.tidAt h.core k))) ∧
        coming u (s.cyc + (begun s h).startDelay h.core win) (.threadReady (s.tidAt h.core k)) ∧ u.mem = s.mem)

/-- R62: TEND, with the thread's relaxed accesses complete, no deferred event to report and no child left, frees the slot and raises its generation; R63:
SLEEP parks its thread for the sum of W[a] and its immediate, at least 8 cyc; R64: YIELD holds its thread back until the
others in the rotation have issued, for at most 64 cyc. -/
def Obligations.ThreadsEndSleepAndYield : Prop :=
  (∀ (s : State) (h : Hand) (t : Thread),
    Issues s (lateKind .ends) h t → t.relaxed = [] → t.deferred.find? (dueAt (lateKind .ends)) = none →
    (begun s h).endBarred t = false →
    exec .tend s = .next ((begun s h).endThread h.core h.slot) ∧
    (((s.core h.core).doors = [] → ((begun s h).endThread h.core h.slot).thread h.core h.slot = none) ∧
      (((begun s h).endThread h.core h.slot).core h.core |>.slot h.slot).gen = (((s.core h.core).slot h.slot).gen + 1) % 256)) ∧
  (∀ (s : State) (h : Hand) (t : Thread) (a : Reg) (imm : Imm), Issues s (plainKind [a]) h t →
    let time := s.cyc + Max.max 8 (regOf s h t a + BitVec.ofInt 64 imm.toInt).toNat
    ∃ u v, exec (.sleep a imm) s = .next u ∧ u.thread h.core h.slot = some v ∧
      v.status = .parked .sleep (.sleep (stepPc t.pc h.len)) ∧ v.wakeAt = some time ∧
      (time < 2 ^ 64 → coming u time (.sleepExpiry (s.tidAt h.core h.slot))) ∧ u.mem = s.mem ∧
      (u.core h.core).regs = (s.core h.core).regs) ∧
  (∀ (s : State) (h : Hand) (t : Thread), Issues s {} h t →
    let others := ((s.core h.core).threads.filter fun e => e.1 != h.slot && e.2.status == .ready).map Prod.fst
    ∃ u v, exec .yield s = .next u ∧ u.thread h.core h.slot = some v ∧ v.pc = stepPc t.pc h.len ∧ v.status = t.status ∧
      v.yield = some (others, s.cyc + 64) ∧ coming u (s.cyc + 64) (.yieldExpiry (s.tidAt h.core h.slot)) ∧ u.mem = s.mem)

/-- R78, R80: ROAM sets or clears roaming for a thread of few registers and answers 0, and otherwise answers -1; MIGRATE
moves such a thread, with W[d] zero, to a free slot of another core of its context, and answers an error where it cannot: the
first of -4, -3, -2, -1 (log 13), with -4 for an id that names no core and -1 for a target without window space (log 83). -/
def Obligations.ThreadsRoamAndMigrate : Prop :=
  (∀ (s : State) (h : Hand) (t : Thread) (d a : Reg), Issues s (smallKind [d, a]) h t →
    ((begun s h).slim h.core t = true → exec (.roam d a) s =
      .next (ends ((begun s h).upThread h.core h.slot fun u => { u with roaming := regOf s h t a != 0 }) h t d 0)) ∧
    ((begun s h).slim h.core t = false → exec (.roam d a) s = .next (retires s h t d (-1)))) ∧
  (∀ (s : State) (h : Hand) (t : Thread) (d a : Reg), Issues s (plainKind [d, a]) h t →
    let v := regOf s h t a
    let dest := if v.getLsbD 18 then 0x0FF00 + v.toNat % 16 else v.toNat % 2 ^ 18
    let b := begun s h
    let ok : Bool := if v.getLsbD 18 then isLarge dest else isSmall dest
    let answers (n : Int) : Prop := exec (.migrate d a) s = .next (retires s h t d (BitVec.ofInt 64 n))
    ((ok = false ∨ s.ctxOf dest ≠ s.ctxOf h.core) → answers (-4)) ∧
    (ok = true → s.ctxOf dest = s.ctxOf h.core → b.slim h.core t = false → answers (-3)) ∧
    (ok = true → s.ctxOf dest = s.ctxOf h.core → b.slim h.core t = true → b.movable h.core h.slot t = false → answers (-2)) ∧
    (ok = true → s.ctxOf dest = s.ctxOf h.core → b.slim h.core t = true → b.movable h.core h.slot t = true →
      b.berth h.core dest t = none → answers (-1)) ∧
    (∀ k w, ok = true → s.ctxOf dest = s.ctxOf h.core → b.slim h.core t = true →
      b.movable h.core h.slot t = true → b.berth h.core dest t = some (k, w) →
      b.releaseDone ((cxOf h t).tid b) .package = true →
      exec (.migrate d a) s = .next ((b.setW h.core h.slot (rn d) 0).move h.core h.slot dest k w (stepPc t.pc h.len))))

/-- R57, R63, R64, R108: a starting thread whose time has come enters the rotation, a restored one (R191) first goes on with
the SLEEP it was in; a sleep, a YIELD and an IFLUSH end at their time; R79, R80: a thread that has moved receives its registers and becomes ready. R56: a register bank enters retention
when every thread whose window touches it has been out of the rotation for 1,024 cyc; nothing else changes. -/
def Obligations.ThreadsReturnAndQuietBanksRest : Prop :=
  (
    (∀ (s : State) (t : Tid) (th : Thread), s.threadOf t = some th → th.status = .starting → th.readyAt ≤ s.cyc →
      (th.next ≠ 0 ∨ s.regionCancelled t.core th.region = false) →
      ((th.wakeAt = none ∨ ∃ w, th.wakeAt = some w ∧ w ≤ s.cyc) → (th.next = 0 ∨ th.cold = true ∨ warm s t.core th) →
        ∃ u v, exec (.threadReady t) s = .next u ∧ u.thread t.core t.slot = some v ∧ v.status = .ready ∧ v.outSince = none ∧
          v.pc = th.pc ∧ (u.core t.core).regs = (s.core t.core).regs ∧ u.mem = s.mem) ∧
      (∀ w, th.wakeAt = some w → s.cyc < w →
        ∃ u v, exec (.threadReady t) s = .next u ∧ u.thread t.core t.slot = some v ∧
          v.status = .parked .sleep (.sleep th.pc) ∧ v.wakeAt = some w ∧ v.pc = th.pc ∧
          (w < 2 ^ 64 → coming u w (.sleepExpiry t)) ∧ (u.core t.core).regs = (s.core t.core).regs ∧ u.mem = s.mem)) ∧
    (∀ (s : State) (t : Tid) (th : Thread) (npc : Word), s.threadOf t = some th → warm s t.core th →
      (th.status = .parked .sleep (.sleep npc) → th.wakeAt = some s.cyc →
        ∃ u v, exec (.sleepExpiry t) s = .next u ∧ u.thread t.core t.slot = some v ∧ v.status = .ready ∧ v.pc = npc) ∧
      (th.status = .parked .mem (.flush npc) →
        ∃ u v, exec (.iflushExpiry t) s = .next u ∧ u.thread t.core t.slot = some v ∧ v.status = .ready ∧ v.pc = npc) ∧
      (∀ l, th.yield = some (l, s.cyc) →
        ∃ u v, exec (.yieldExpiry t) s = .next u ∧ u.thread t.core t.slot = some v ∧ v.yield = none ∧ v.status = th.status)) ∧
    (∀ (s : State) (n : Nat) (t : Tid) (th : Thread) (regs : List Word) (ready : Nat), isLarge t.core = false →
      s.msgs.find n = some (.move t regs ready) → s.threadOf t = some th →
      ∃ u, exec (.migrationArrival n) s = .next u ∧ u.msgs.find n = (s.msgs.drop n).find n ∧
        u = ({ s with msgs := s.msgs.drop n }.setWs t.core t.slot 1 ((regs.take (8 * wSize th.win)).drop 1)).post
          (Max.max s.cyc ready) 20 (.threadReady t))) ∧
  (
    ∀ (s : State) (c : Nat), ∃ u, exec (.bankRetention c) s = .next u ∧
      (∀ b, b ∈ (u.core c).retain ↔ b ∈ (s.core c).retain ∨ b < 24 ∧
        (∃ e ∈ (s.core c).threads, b ∈ winBanks e.2.win) ∧
        (∀ e ∈ (s.core c).threads, b ∈ winBanks e.2.win → ∃ n, e.2.outSince = some n ∧ n + 1024 ≤ s.cyc)) ∧
      (u.core c).regs = (s.core c).regs ∧ (u.core c).slots = (s.core c).slots ∧ u.mem = s.mem ∧
      ∀ c', c' ≠ c → u.core c' = s.core c')

/-- R11, R15, R382: when its cycle has come, a core that exdb does not hold gives the turn to the first eligible slot after the one
that issued last, if that slot's next instruction lies in a buffered line; the slot may issue again 8 cyc later (R11), 7 on a
large core (R382). -/
def Obligations.TheRotationChoosesTheNextSlot : Prop :=
  ∀ (s : State) (c k : Nat) (t : Thread) (ws : List Half), s.hand = none → (s.core c).issueAt = some s.cyc → (s.core c).held = false →
    s.chooses c = some k → s.thread c k = some t →
    (s.upCore c fun x => { x with issueAt := none }).fetch c t = .words ws →
    ∃ u v, exec (.issueRotation c) s = .next u ∧ u.hand = some { core := c, slot := k, len := 1, was := (s.core c).last } ∧
      u.thread c k = some v ∧ v.pc = t.pc ∧ v.next = s.cyc + (if isLarge c then 7 else 8) ∧ v.yield = none ∧
      (u.core c).last = some k ∧ u.mem = s.mem

/-! ### Messages between threads (R50, R73 to R77, R189) -/

/-- R76, R50: SEND and CONT send a word to a register of the thread that an identifier names, from the core's context; an
identifier that names no core is dropped and counted; CONTID forms an identifier with a register number. R74: MOV.t of a
register whose presence bit is set takes its value into W[d], clears the bit and goes on, and of one whose bit is clear
parks; R75: NPUT into a link with room sends W[b] to a register of the neighbour's slot; R76: AMSG reads its 64-byte message
first. -/
def Obligations.WordsAreSentAndTaken : Prop :=
  (
    (∀ (s : State) (h : Hand) (t : Thread) (m : Mod) (d a b : Reg), Issues s (plainKind [d, a, b]) h t → m.release = false →
      (begun s h).vecMemory ((cxOf h t).tid (begun s h)) false = false →
      let dest := (tidOf (regOf s h t a)).core
      let w := BitVec.ofNat 64 ((regOf s h t a).toNat % 2 ^ 32)
      (isCore dest = false → exec (.send m d a b) s = .next (passes ((begun s h).drop h.core) h t)) ∧
      (isCore dest = true → ∃ u, exec (.send m d a b) s = .next u ∧
        u.msgs.find s.serial = some (.word w ((regOf s h t d).toNat % 128) (regOf s h t b) (s.ctxOf h.core) false) ∧
        coming u (s.cyc + messageTime h.core dest) (.registerWriteArrival s.serial) ∧
        (∃ v, u.thread h.core h.slot = some v ∧ v.pc = stepPc t.pc h.len ∧ v.status = t.status) ∧ u.mem = s.mem)) ∧
    (∀ (s : State) (h : Hand) (t : Thread) (a b : Reg), Issues s (plainKind [a, b]) h t →
      (begun s h).vecMemory ((cxOf h t).tid (begun s h)) false = false →
      let dest := (tidOf (regOf s h t a)).core
      let w := BitVec.ofNat 64 ((regOf s h t a).toNat % 2 ^ 32)
      (isCore dest = false → exec (.cont a b) s = .next (passes ((begun s h).drop h.core) h t)) ∧
      (isCore dest = true → ∃ u, exec (.cont a b) s = .next u ∧
        u.msgs.find s.serial = some (.word w ((regOf s h t a).toNat / 2 ^ 32 % 128) (regOf s h t b) (s.ctxOf h.core) true) ∧
        coming u (s.cyc + messageTime h.core dest) (.registerWriteArrival s.serial) ∧ u.mem = s.mem)) ∧
    (∀ (s : State) (h : Hand) (t : Thread) (d a : Reg), Issues s (plainKind [d, a]) h t →
      exec (.contid d a) s = .next (retires s h t d
        (BitVec.ofNat 64 ((regOf s h t a).toNat % 128 * 2 ^ 32) ||| Tid.word (s.tidAt h.core h.slot))))) ∧
  (
    (∀ (s : State) (h : Hand) (t : Thread) (d a : Reg), Issues s (smallKind [d, a]) h t →
      ((s.core h.core).present.contains (8 * wBase t.win + rn a) = false → ∃ u v, exec (.movT d a) s = .next u ∧
        u.thread h.core h.slot = some v ∧ v.status = .parked .presence (.presence (rn d) (rn a) (stepPc t.pc h.len))) ∧
      ((s.core h.core).present.contains (8 * wBase t.win + rn a) = true → (s.core h.core).inbound = [] →
        ∃ u, exec (.movT d a) s = .next u ∧
          (u.core h.core).present = without (8 * wBase t.win + rn a) (s.core h.core).present ∧
          (∀ v, u.thread h.core h.slot = some v → v.pc = stepPc t.pc h.len ∧ (u.core h.core).regW v (rn d) = (if rn d = 0 then 0 else regOf s h t a)))) ∧
    (∀ (s : State) (h : Hand) (t : Thread) (dir : Dir) (a b : Reg) (c : Nat), Issues s (smallKind [a, b]) h t →
      (begun s h).vecMemory ((cxOf h t).tid (begun s h)) false = false → neighbour h.core dir = some c →
      s.ctxOf c = s.ctxOf h.core → ((s.core h.core).linkOf (dirNum dir)).length < 2 →
      ∃ u, exec (.nput dir a b) s = .next u ∧ coming u (s.cyc + 4) (.nputLinkArrival s.serial) ∧
        u.msgs.find s.serial = some (.nput h.core c ((regOf s h t a).toNat / 256 % 64) ((regOf s h t a).toNat % 128) (regOf s h t b)) ∧
        (u.core h.core).linkOf (dirNum dir) = (s.core h.core).linkOf (dirNum dir) ++ [s.serial] ∧
        (∃ v, u.thread h.core h.slot = some v ∧ v.pc = stepPc t.pc h.len ∧ v.status = t.status)) ∧
    (∀ (s : State) (h : Hand) (t : Thread) (a b : Reg) (p : Word), Issues s (smallKind [a, b]) h t →
      let q : Ask := { op := .block 8, use := .stage stAmsg, align := 64, bytes := 64, args := [regOf s h t a] }
      let c := (regOf s h t a).toNat % 2 ^ 18
      isCore c = true → s.ctxOf c = s.ctxOf h.core → (regOf s h t b).toNat % 64 = 0 →
      effective (regOf s h t b) 0 = .ok p → Admits s h t p q →
      exec (.amsg a b) s = .next (asks s h t p q)))

/-- R73: an arriving word writes its register and sets the presence bit where that is clear, waits in the inbound buffer
where it is set and the buffer has room, and is dropped and counted where the register is w0, lies outside the window or the
thread is gone.
R76, R55: an active message that finds a free slot and a window creates its thread at its first word, with the words from
the third in w1 to w6 and the sender's identifier in w7; that the receiving core places the windows, whatever the bases of the second
word, and that a message whose core has passed to another context since it was sent is dropped and counted, are the model's choices
(log 86, DESIGN CHOICE); R189: a WAKE ends the SLEEP of the thread it names. -/
def Obligations.WordsMessagesAndWakesArrive : Prop :=
  (
    (∀ (s : State) (n : Nat) (d : Word) (reg : Nat) (v : Word) (ctx : Nat),
      s.msgs.find n = some (.word d reg v ctx false) → s.behind (tidOf d).core d = false → isLarge (tidOf d).core = false →
      let t := tidOf d
      let c := t.core
      ((s.threadOf t = none ∨ s.mayReach ctx c = false) →
        exec (.registerWriteArrival n) s = .next ((s.dropMsg n).drop c)) ∧
      (∀ th, s.threadOf t = some th → s.mayReach ctx c = true →
        ((reg = 0 ∨ 8 * wSize th.win ≤ reg) → exec (.registerWriteArrival n) s = .next ((s.drop c).dropMsg n)) ∧
        (reg ≠ 0 → reg < 8 * wSize th.win → (s.core c).present.contains (8 * wBase th.win + reg) = false →
          ∃ u, exec (.registerWriteArrival n) s = .next u ∧ (u.core c).regs.find (8 * wBase th.win + reg) = some v ∧
            8 * wBase th.win + reg ∈ (u.core c).present ∧ u.mem = s.mem) ∧
        (reg ≠ 0 → reg < 8 * wSize th.win → (s.core c).present.contains (8 * wBase th.win + reg) = true →
          (s.core c).inbound.length < 8 →
          ∃ u, exec (.registerWriteArrival n) s = .next u ∧ (u.core c).inbound = (s.core c).inbound ++ [(t.slot, reg, v)] ∧
            (u.core c).regs = (s.core c).regs ∧ u.mem = s.mem))) ∧
    (∀ (s : State) (n frm c slot reg : Nat) (v : Word) (th : Thread),
      s.msgs.find n = some (.nput frm c slot reg v) → (s.core c).pressed = [] → isLarge c = false → s.thread c slot = some th →
      reg ≠ 0 → reg < 8 * wSize th.win → (s.core c).present.contains (8 * wBase th.win + reg) = false →
      exec (.nputLinkArrival n) s = .next ((s.putPresent c slot reg v).unlink frm n) ∧
      ((s.putPresent c slot reg v).core c).regs.find (8 * wBase th.win + reg) = some v)) ∧
  (
    (∀ (s : State) (n c : Nat) (ws : List Word) (sender : Word) (t : Thread) (ctx : Nat),
      s.msgs.find n = some (.spawn c ws sender t ctx) → (s.core c).doors = [] → s.ctxOf c ≠ ctx →
      exec (.amsgArrival n) s = .next ((s.dropMsg n).drop c)) ∧
    (∀ (s : State) (n c : Nat) (ws : List Word) (sender : Word) (t : Thread) (k : Nat) (w : Word),
      s.msgs.find n = some (.spawn c ws sender t (s.ctxOf c)) → (ws.getD 0 0).getLsbD 0 = false → winOk (ws.getD 1 0) = true →
      s.regionCancelled c t.region = false → (s.core c).doors = [] → s.placeable c t.part = true → s.fits c t.region 1 = true →
      s.freeSlot c t.part = some k →
      s.windowFor c k (wSize (ws.getD 1 0)) (vSize (ws.getD 1 0)) (aSize (ws.getD 1 0)) = some w →
      let made := ((s.dropMsg n).create c k { t with pc := ws.getD 0 0, win := w })
      exec (.amsgArrival n) s = .next ((made.setWs c k 1 ((ws.drop 2).take 6)).setW c k 7 sender) ∧
      ∃ v, made.thread c k = some v ∧ v.status = .starting ∧ v.pc = ws.getD 0 0 ∧ v.win = w) ∧
    (∀ (s : State) (n : Nat) (d : Word) (ctx : Nat) (th : Thread) (npc : Word),
      s.msgs.find n = some (.wake d false ctx) → s.behind (tidOf d).core d = false → s.evicting d = false → s.mayReach ctx (tidOf d).core = true →
      ((s.core (tidOf d).core).slot (tidOf d).slot).evicted = none → s.stalledCopies (tidOf d) = [] → s.stalledVecs (tidOf d) = [] →
      s.threadOf (tidOf d) = some th → th.status = .parked .sleep (.sleep npc) → warm s (tidOf d).core th →
      ∃ u v, exec (.wakeArrival n) s = .next u ∧ u.thread (tidOf d).core (tidOf d).slot = some v ∧ v.status = .ready ∧ v.pc = npc))

/-! ### Team barriers (R14, R69 to R72) -/

/-- R69 to R71: BAR.CFG with members and a count of its own context configures the barrier; BAR.ARR of a member with a lead
below 3 arrives and goes on; BAR.WAIT for a phase that is not complete parks, and otherwise goes on; a completed phase lowers
every lead, and 10 cyc later its waiters return. -/
def Obligations.TeamBarriersCollectTheirMembers : Prop :=
  (∀ (s : State) (h : Hand) (t : Thread) (d a b : Reg), Issues s (smallKind [d, a, b]) h t →
    let n := regOf s h t d
    let count := regOf s h t a
    let m := regOf s h t b
    let cl := clusterOf h.core
    let mask := if m = 0 then 2 ^ localIndex h.core else m.toNat
    let old := (begun s h).bar cl n.toNat
    barOperands n count m = true → (begun s h).maskIn cl mask (s.ctxOf h.core) = true →
    (begun s h).maskIn cl old.members (s.ctxOf h.core) = true →
    exec (.barCfg d a b) s = .next (passes (if old.members = mask ∧ old.count = count.toNat then begun s h
      else (begun s h).configure cl n.toNat count.toNat mask) h t)) ∧
  (∀ (s : State) (h : Hand) (t : Thread) (m : Mod) (d : Reg), Issues s (smallKind [d]) h t → m.release = false →
    let n := (regOf s h t d).toNat
    let cl := clusterOf h.core
    let bar := (begun s h).bar cl n
    n < 32 → bar.configured = true → bar.members.testBit (localIndex h.core) = true →
    (bar.leadOf (localIndex h.core) < 3 → exec (.barArr m d) s = .next (passes ((begun s h).arriveBar cl n h.core h.slot) h t)) ∧
    (¬ bar.leadOf (localIndex h.core) < 3 → ∃ u v, exec (.barArr m d) s = .next u ∧ u.thread h.core h.slot = some v ∧
      v.status = .parked .barrier (.arrive n (stepPc t.pc h.len)))) ∧
  (∀ (s : State) (h : Hand) (t : Thread) (m : Mod) (d : Reg), Issues s (smallKind [d]) h t →
    let n := (regOf s h t d).toNat
    let bar := (begun s h).bar (clusterOf h.core) n
    n < 32 → bar.configured = true →
    (∀ ph, t.lastArr = some (n, ph) → bar.phase ≤ ph → ∃ u v, exec (.barWait m d) s = .next u ∧
      u.thread h.core h.slot = some v ∧ v.status = .parked .barrier (.phase n ph (stepPc t.pc h.len))) ∧
    ((∀ ph, t.lastArr = some (n, ph) → ph < bar.phase) →
      exec (.barWait m d) s = .next (goesTo s h (stepPc t.pc h.len)))) ∧
  (∀ (s : State) (cl n : Nat) (rest : List Nat), (s.bar cl n).due = s.cyc :: rest →
    let b := s.bar cl n
    ∃ u, exec (.teamBarrierCompletion cl n) s = .next u ∧
      u = ((s.setBar cl n { b.complete with due := rest, backs := b.backs ++ [s.cyc + 10] }).after 10 20 (.barWaitReturn cl n)).arriveWaiting cl n ∧
      b.complete.phase = b.phase + 1 ∧ (∀ i l, b.lead.find i = some l → b.complete.lead.find i = some (l - 1))) ∧
  (∀ (s : State) (cl n : Nat) (rest : List Nat), (s.bar cl n).backs = s.cyc :: rest →
    let b := s.bar cl n
    exec (.barWaitReturn cl n) s =
      .next ((s.setBar cl n { b with freed := b.freed + 1, backs := rest }).returnWaiting cl n (b.freed + 1)))

/-! ### Tasks, continuations and views (R199 to R201, R272 to R287) -/

/-- R272, R200: SPAWN of a task without frames and with room in the caddy pushes a continuation that holds W[d], and its
thread goes on at the entry as the child, with its registers unchanged; with a frame of its own it first performs the merges
due in it.
R275, R200: BLEND of a child with nothing to merge ends its thread, or, where the last continuation that it pushed is
still in the caddy, resumes it with a zeroed window but for its word; R276: JOIN without children goes on. -/
def Obligations.SpawnedTasksBlendAndJoin : Prop :=
  (
    (∀ (s : State) (h : Hand) (t : Thread) (d a : Reg), Issues s (smallKind [d, a]) h t →
      let entry := regOf s h t a
      let b := begun s h
      (entry.getLsbD 0 = true → exec (.spawn d a) s = .next (b.trap h.core h.slot 0x02 entry t.pc 0 false)) ∧
      (entry.getLsbD 0 = false → b.regionCancelled h.core t.region = true →
        exec (.spawn d a) s = .next (b.cancelThread h.core h.slot)) ∧
      (entry.getLsbD 0 = false → b.regionCancelled h.core t.region = false → t.ended = false → t.frames = [] → t.strand = none →
        warm s h.core t →
        let old := (s.core h.core).caddy.filter fun e => e.written || e.pusher != (cxOf h t).tid b
        (old.filter fun e => e.inlined.isNone).length < 64 →
        ∃ u v e, exec (.spawn d a) s = .next u ∧ u.thread h.core h.slot = some v ∧ v.status = .ready ∧ v.pc = entry ∧
          v.child = true ∧ v.strand = none ∧ (u.core h.core).regs = (s.core h.core).regs ∧
          (u.core h.core).caddy = old ++ [e] ∧ e.pc = stepPc t.pc h.len ∧ e.reg = rn d ∧
          e.word = regOf s h t d ∧ e.win = t.win ∧ e.vec = t.vec ∧ e.fmt = t.fmt ∧ e.sa = t.sa ∧ e.sb = t.sb ∧ e.band = t.band ∧
          e.rcb = t.rcb ∧ e.asid = t.asid ∧ e.child = t.child ∧ u.mem = s.mem)) ∧
    (∀ (s : State) (h : Hand) (t : Thread) (d a : Reg) (f n : Nat), Issues s (smallKind [d, a]) h t →
      let b := begun s h
      (regOf s h t a).getLsbD 0 = false → b.regionCancelled h.core t.region = false → t.ended = false →
      t.own = some f → t.strand = some (f, n) →
      let b' := (b.addStrands f n).endStrand h.core h.slot
      exec (.spawn d a) s = .next (b'.merges ((cxOf h t).jobReq b' .spawn f [regOf s h t a, regOf s h t d, BitVec.ofNat 64 (rn d)])
        ((cxOf h t).tid b') f))) ∧
  (
    (∀ (s : State) (h : Hand) (t : Thread), Issues s { big := false } h t →
      let b := begun s h
      t.child = true → t.ended = false → t.frames = [] → t.strand = none → b.regionCancelled h.core t.region = false →
      b.accessesDone ((cxOf h t).tid b) t = true → warm s h.core t →
      ((s.core h.core).lastPushed ((cxOf h t).tid b) = none → t.deferred.find? (dueAt (lateKind .ends)) = none →
        ∃ u, exec .blend s = .next u ∧ ((s.core h.core).doors = [] → u.thread h.core h.slot = none) ∧
          ((u.core h.core).slot h.slot).gen = (((s.core h.core).slot h.slot).gen + 1) % 256) ∧
      (∀ e, (s.core h.core).lastPushed ((cxOf h t).tid b) = some e → e.inlined = none →
        b.regionCancelled h.core e.region = false →
        ∃ u v, exec .blend s = .next u ∧ u.thread h.core h.slot = some v ∧ v.status = .ready ∧ v.pc = e.pc ∧ v.lvl = false ∧
          v.vec = e.vec ∧ v.fmt = e.fmt ∧ v.strand = e.strand ∧ v.child = e.child ∧
          (∀ r, r < 8 * wSize t.win → (u.core h.core).regW v r = (if r ≠ 0 ∧ r = e.reg then e.word else 0)) ∧
          (u.core h.core).caddy = (s.core h.core).caddy.erase e)) ∧
    (∀ (s : State) (h : Hand) (t : Thread), Issues s { big := false } h t → (begun s h).regionCancelled h.core t.region = false →
      (t.own = none ∨ (begun s h).spawnedIn t.own = false) → exec .join s = .next (goesTo s h (stepPc t.pc h.len))))

/-- R277, R278: VDECL in a task with a frame and no children declares its slot, with base, extent, element type, operator and
the rounding mode of th.fmt; VDROP removes a declared slot.
R201, R274: a steal unit whose core sees no continuation of its context stops probing, and otherwise probes again 32 cyc
later; that it stops, and how the regions in its reach are found, is the model's choice (log 51); R195, R286: a cancel notice ends the region's threads on its core that merge nothing, wait for no matrix command that has yet to commit or trap (R245) and have no
relaxed access under way, and discards the region's continuations there. -/
def Obligations.ViewSlotsStealsAndCancelNotices : Prop :=
  (
    (∀ (s : State) (h : Hand) (t : Thread) (d a b : Reg) (f : Nat) (fr : TFrame) (p p' : Word), Issues s (smallKind [d, a, b]) h t →
      let desc := regOf s h t d
      let base := regOf s h t a
      let ext := (regOf s h t b).toNat
      let op := viewOp (desc.extractLsb' 4 3).toNat
      let elem := (desc.extractLsb' 8 2).toNat
      let slot := (desc.extractLsb' 0 3).toNat
      let q := ((s.core h.core).vector.lc.find 0).getD 0
      desc.extractLsb' 10 54 = 0 → desc.getLsbD 7 = false → desc.getLsbD 3 = false → viewOk op elem = true → ext % 8 = 0 →
      8 ≤ ext → ext ≤ 2 ^ 20 → spaceOf base < 3 → effective base 0 = .ok p → effective base (ext - 8) = .ok p' →
      base.toNat % 8 = 0 → t.own = some f → s.frames.find f = some fr → fr.spawned = false →
      fr.slots.any (fun v => v.slot == slot) = false →
      (∀ g st, t.strand = some (g, st) → ((begun s h).visible g 9).any (fun v => rangeMeets v.2.base v.2.ext (absolute h.core base) ext) = false) →
      (op = .modadd → modulusOk q = true) →
      ∃ u, exec (.vdecl d a b) s = .next u ∧
        u.frames.find f = some { fr with slots := fr.slots ++ [{ slot := slot, base := absolute h.core base, ext := ext, merge := { elem := elem, op := op, rm := fmtRm t.fmt, q := q } }] } ∧
        (∃ v, u.thread h.core h.slot = some v ∧ v.pc = stepPc t.pc h.len) ∧ u.mem = s.mem) ∧
    (∀ (s : State) (h : Hand) (t : Thread) (d : Reg), Issues s (smallKind [d]) h t →
      let n := (regOf s h t d).toNat
      (7 < n → exec (.vdrop d) s = .next ((begun s h).trap h.core h.slot 0x09 9 t.pc 0 false)) ∧
      (n ≤ 7 → t.own = none → exec (.vdrop d) s = .next (goesTo s h (stepPc t.pc h.len))) ∧
      (∀ f fr, n ≤ 7 → t.own = some f → s.frames.find f = some fr → fr.spawned = false →
        ∃ u, exec (.vdrop d) s = .next u ∧ (∃ v, u.thread h.core h.slot = some v ∧ v.pc = stepPc t.pc h.len) ∧
          (∀ fr', u.frames.find f = some fr' → fr'.slots = fr.slots.filter fun v => v.slot != n) ∧ u.mem = s.mem))) ∧
  (
    (∀ (s : State) (c : Nat),
      (s.regionsOf c = [] → ∃ u, exec (.stealProbe c) s = .next u ∧ (u.core c).probing = false ∧ u.mem = s.mem ∧ u.agenda = s.agenda) ∧
      (s.regionsOf c ≠ [] → ∃ u, exec (.stealProbe c) s = .next u ∧ coming u (s.cyc + 32) (.stealProbe c))) ∧
    (∀ (s : State) (c : Nat) (rcb : Word), ∃ u, exec (.cancelNotice c rcb) s = .next u ∧
      (∀ k t, s.thread c k = some t → (s.core c).doors = [] → t.region.chain.contains rcb = true → t.ended = false → s.inMatrix c t = false →
        s.quiet t = true → u.thread c k = none) ∧
      (∀ e ∈ (u.core c).caddy, e.region.chain.contains rcb = false)))

/-! ### Launching and cancelling (R65 to R68, R129, R265 to R271, R285) -/

/-- R66: LAUNCH answers -1 for a pointer that is not a multiple of 128, and otherwise reads its 128-byte packet first; R285:
CANCEL asks an atomic of its region block's flag word.
R67, R68, R268: the oldest packet of its queue for a core of its own context starts its team there, with slots, windows and
budgets free: it has then been dispatched on the core; a team of one starts at the packet's entry with its th.fmt, th.sa,
th.sb, th.band and region block. -/
def Obligations.PacketsAreLaunchedAndDispatched : Prop :=
  (
    (∀ (s : State) (h : Hand) (t : Thread) (d a : Reg) (p : Word), Issues s (plainKind [d, a]) h t →
      (begun s h).vecMemory ((cxOf h t).tid (begun s h)) false = false →
      let v := regOf s h t a
      let q : Ask := { op := .block 16, use := .stage stPacket, align := 128, bytes := 128, args := [BitVec.ofNat 64 (rn d)],
                       why := .launch }
      (v.toNat % 128 ≠ 0 → exec (.launch d a) s = .next (retires s h t d (-1))) ∧
      (v.toNat % 128 = 0 → effective v 0 = .ok p → Admits s h t p q →
        exec (.launch d a) s = .next (asks s h t p q))) ∧
    (∀ (s : State) (h : Hand) (t : Thread) (d a : Reg) (p : Word), Issues s (plainKind [d, a]) h t →
      let v := regOf s h t a
      let q : Ask := { op := .cancel, use := .reg (rn d), align := 8, bytes := 8, redir := .forbidden, args := [v] }
      (v.toNat % 256 ≠ 0 → exec (.cancel d a) s = .next ((begun s h).trap h.core h.slot 0x02 v t.pc 0 false)) ∧
      (v.toNat % 256 = 0 → effective v 16 = .ok p → Admits s h t p q →
        exec (.cancel d a) s = .next (asks s h t p q)))) ∧
  (
    ∀ (s s' : State) (pkt core die cls : Nat) (before : List Packet) (p : Packet) (r : Rect),
      s.findPacket pkt = some (die, cls, before, p) → p.todo.contains core = true → s.regionCancelled core p.region = false →
      before.any (fun q => q.todo.contains core) = false → s.placeable core p.part = true → s.awaits core p.waits = false →
      s.ctxOf core = p.ctx → rectOf (wordOf p.ws 2) = some r →
      let n := (wordOf p.ws 3).toNat % 64 + 1
      let slots := (s.freeSlots core p.part).take n
      slots.length = n → s.fits core p.region n = true →
      s.placeTeam core p ((r.cores.takeWhile fun c => c != core).length * n) (r.rows * r.cols * n) slots = some s' →
      exec (.dispatch pkt core) s = .next (s'.dispatched die cls pkt core) ∧
      (∀ k, slots = [k] → ∃ v, s'.thread core k = some v ∧ v.status = .starting ∧ v.pc = wordOf p.ws 1 ∧ v.fmt = wordOf p.ws 5 ∧
        v.sa = wordOf p.ws 6 ∧ v.sb = wordOf p.ws 7 ∧ v.band = wordOf p.ws 8 ∧ v.rcb = wordOf p.ws 0 ∧ v.lvl = false))

/-- R271: an evaluation of a die's launch table looks at every armed entry, and comes again 128 cyc later while one stays
armed; an entry whose time has not come is left as it is. R270, R296, R297, R353, R358: a store to a word of the tables is
taken or dropped as the word's rules say, and acknowledged; a dropped store to a descriptor is counted at its core (log 99). -/
def Obligations.TablesAreEvaluatedAndStored : Prop :=
  (∀ (s : State) (die : Nat),
    let s' := (s.die die).armedEntries.foldl (fun s n => s.evaluate die n) s
    ((s'.die die).armedEntries = [] → ∃ u, exec (.launchTableEvaluation die) s = .next u ∧ (u.die die).ticking = false) ∧
    ((s'.die die).armedEntries ≠ [] →
      exec (.launchTableEvaluation die) s = .next (s'.after 128 20 (.launchTableEvaluation die))) ∧
    (∀ n, s.ptp < ((s.die die).entry n 1).toNat → s.evaluate die n = s)) ∧
  (∀ (s : State) (n : Nat) (r : Req) (v : Word), s.reqs.find n = some r → r.op = .store v →
    let replied (u : State) : Prop := u.reqs.find n = some { r with stage := .served, ans := [] } ∧
      coming u (s.cyc + (r.lat + 1) / 2) (.memReply n) ∧ u.mem = s.mem
    (∀ d e i, tableSlot r.pa = .launch d e i → (s.die d).armed e = false → i ≠ 2 →
      ∃ u, exec (.launchTableStore n) s = .next u ∧ (u.die d).entry e i = v ∧ replied u) ∧
    (∀ asid i, tableSlot r.pa = .desc asid i → 1 ≤ i → i ≤ 3 → (s.desc asid 0).getLsbD 63 = true →
      s.asidKern asid = s.kernOf r.ctx → ∃ u, exec (.asidDescriptorStore n) s = .next u ∧ u.desc asid i = v ∧ replied u) ∧
    (∀ asid i, tableSlot r.pa = .desc asid i → (i = 0 ∨ 3 < i ∨ (s.desc asid 0).getLsbD 63 = false) →
      ∃ u, exec (.asidDescriptorStore n) s = .next u ∧ u.io.asids = s.io.asids ∧ u.io.asidDrops = s.io.asidDrops + 1 ∧
        (isSmall r.core = true → (u.core r.core).drops = Min.min (2 ^ 32 - 1) ((s.core r.core).drops + 1)) ∧ replied u) ∧
    (∀ c, tableSlot r.pa = .coreDrops c → ∃ u, exec (.controlCounterStore n) s = .next u ∧
      (u.core c).drops = (if v = 0 then 0 else (s.core c).drops) ∧ replied u) ∧
    (∀ k x, tableSlot r.pa = .kernFixed k → s.io.kernels.find k = some x → ∃ u, exec (.controlWindowWrite n) s = .next u ∧
      (∃ y, u.io.kernels.find k = some y ∧ y.errors = (if v = 0 then 0 else x.errors)) ∧ replied u) ∧
    (∀ k, tableSlot r.pa = .aperture k → ∃ u, exec (.apertureStore n) s = .next u ∧
      u.links.apertures.find k = (if v.extractLsb' 58 5 = 0 ∧ v.extractLsb' 0 21 = 0 then some v else s.links.apertures.find k) ∧ replied u) ∧
    (∀ k, tableSlot r.pa = .ring k 0 → ∃ u, exec (.ringControlStore n) s = .next u ∧
      (u.ring k).word 0 = (if (s.ring k).state = 1 then (s.ring k).word 0 else v) ∧ replied u))

/-! ### Copy engines, sequencers and transaction barriers (R155 to R174) -/

/-- R156, R158, R164: a CPY or TCPY that every check lets, with room in its engine's queue, joins the queue's end, W[d]
receives its promise, and its thread goes on; a CPY's promise is the start of its reads, both places' latencies and its
beats. Without room the thread parks until an entry is granted (R155). -/
def Obligations.CopiesJoinTheirQueue : Prop :=
  (∀ (s : State) (h : Hand) (t : Thread) (m : Mod) (d a b : Reg) (tb : Option Nat), Issues s (smallKind [d, a, b]) h t →
    t.restart = none → m.release = false →
    let e := (s.core h.core).copy
    let len := ((regOf s h t d).extractLsb' 0 20).toNat
    let dst := regOf s h t a
    let src := regOf s h t b
    let w := begun s h
    descBar (regOf s h t d) = some tb → len % 8 = 0 → 0 < len →
    sideRange src 0 ((len : Int) - 1) = none → sideRange dst 0 ((len : Int) - 1) = none → src.toNat % 8 = 0 → dst.toNat % 8 = 0 →
    w.sideSpace h.core t.part src 0 ((len : Int) - 1) = none → w.sideSpace h.core t.part dst 0 ((len : Int) - 1) = none →
    (e.queue.length < 2 → e.wants = [] → e.flight.length < 16 →
      ∃ u q v, exec (.cpy m d a b) s = .next u ∧ (u.core h.core).copy.queue = e.queue ++ [q] ∧ q.kind = .cpy ∧ q.src = src ∧
        q.dst = dst ∧ q.parts = len / 8 ∧ q.tb = tb ∧ q.tid = s.tidAt h.core h.slot ∧ q.epc = t.pc ∧ q.asid = t.asid.toNat ∧
        q.promise = Max.max (s.cyc + 1) e.readFree + w.placeLatency h.core t.asid.toNat src + (len + 63) / 64 +
          w.placeLatency h.core t.asid.toNat (dst + BitVec.ofNat 64 (len - 8)) ∧
        (rn d ≠ 0 → (u.core h.core).regs.find (8 * wBase t.win + rn d) = some (BitVec.ofNat 64 q.promise)) ∧
        (∀ n, n ≠ 8 * wBase t.win + rn d → (u.core h.core).regs.find n = (s.core h.core).regs.find n) ∧
        u.thread h.core h.slot = some v ∧ v.pc = stepPc t.pc h.len ∧ v.status = t.status ∧ u.mem = s.mem ∧
        (e.queue = [] → coming u (Max.max (s.cyc + 1) e.busy) (.copyCommandStart h.core))) ∧
    ((2 ≤ e.queue.length ∨ e.wants ≠ []) → ∃ u q v, exec (.cpy m d a b) s = .next u ∧
      (u.core h.core).copy.wants = insertWant (fun w => (w.effect, w.tid.slot)) q e.wants ∧ q.effect = s.cyc ∧
      q.tid = s.tidAt h.core h.slot ∧ q.src = src ∧ q.dst = dst ∧ q.parts = len / 8 ∧ q.tb = tb ∧ q.id = s.serial ∧ (u.core h.core).copy.queue = e.queue ∧ u.thread h.core h.slot = some v ∧
      v.status = .parked .queue (.queue s.serial) ∧ v.pc = t.pc ∧ u.mem = s.mem)) ∧
  (∀ (s : State) (h : Hand) (t : Thread) (m : Mod) (d a b : Reg) (tb : Option Nat), Issues s (smallKind [d, a, b]) h t →
    t.restart = none → m.release = false →
    let e := (s.core h.core).copy
    let dst := regOf s h t a
    let src := regOf s h t b
    let w := begun s h
    let slot := (t.fmt.extractLsb' 0 3).toNat
    let cfg := (e.cfg.find slot).getD []
    let dims := dimsOf cfg e.lc
    let es := 2 ^ fieldOf cfg 0 4 2
    let span (f : Nat × Int × Int → Int) : Int × Int := (spanFrom f dims 0).getD (0, 0)
    let lo (f : Nat × Int × Int → Int) : Int := es * (span f).1
    let hi (f : Nat × Int × Int → Int) : Int := es * (span f).2 + es - 1
    let ss : Nat × Int × Int → Int := fun x => x.2.1
    let sd : Nat × Int × Int → Int := fun x => x.2.2
    descBar (regOf s h t d) = some tb → (regOf s h t d).extractLsb' 0 20 = 0 →
    sideRange src (lo ss) (hi ss) = none → sideRange dst (lo sd) (hi sd) = none → src.toNat % es = 0 → dst.toNat % es = 0 →
    w.sideSpace h.core t.part src (lo ss) (hi ss) = none → w.sideSpace h.core t.part dst (lo sd) (hi sd) = none →
    let captured (q : CopyCmd) : Prop := q.kind = .tcpy ∧ q.src = src ∧ q.dst = dst ∧ q.dims = dims ∧ q.esize = es ∧
      q.parts = elementsOf dims ∧ q.cfg = some slot ∧ q.tb = tb ∧ q.tid = s.tidAt h.core h.slot
    (e.queue.length < 2 → e.wants = [] →
      ∃ u q v, exec (.tcpy m d a b) s = .next u ∧ (u.core h.core).copy.queue = e.queue ++ [q] ∧ captured q ∧
        (rn d ≠ 0 → (u.core h.core).regs.find (8 * wBase t.win + rn d) = some (BitVec.ofNat 64 q.promise)) ∧
        u.thread h.core h.slot = some v ∧ v.pc = stepPc t.pc h.len ∧ v.status = t.status ∧ u.mem = s.mem) ∧
    ((2 ≤ e.queue.length ∨ e.wants ≠ []) → ∃ u q v, exec (.tcpy m d a b) s = .next u ∧
      (u.core h.core).copy.wants = insertWant (fun w => (w.effect, w.tid.slot)) q e.wants ∧ q.effect = s.cyc ∧ q.id = s.serial ∧
      captured q ∧ (u.core h.core).copy.queue = e.queue ∧ u.thread h.core h.slot = some v ∧
      v.status = .parked .queue (.queue s.serial) ∧ v.pc = t.pc ∧ (u.core h.core).regs = (s.core h.core).regs ∧ u.mem = s.mem))

/-- R162, R163, R213: LCW writes and LCR reads a loop register of its engine; FMTSET answers the old th.fmt and changes the
fields that its immediate enables. R169, R170: EQRY answers the state of an engine, with bits 7 and 8 of the thread's
commands and traps (log 88), and EFENCE goes on when no command of its thread is left. -/
def Obligations.SequencersAreSetAndQueried : Prop :=
  (∀ (s : State) (h : Hand) (t : Thread) (a : Reg) (n : BitVec 3), Issues s (smallKind [a]) h t →
    let v := regOf s h t a
    let b := begun s h
    exec (.lcwC n a) s = .next (passes (b.upCore h.core fun y => { y with copy := { y.copy with lc := y.copy.lc.put n.toNat v } }) h t) ∧
    exec (.lcwV n a) s = .next (passes (b.upCore h.core fun y => { y with vector := { y.vector with lc := y.vector.lc.put n.toNat v } }) h t) ∧
    exec (.lcwM n a) s = .next (passes (b.upCore h.core fun y => { y with matrix := { y.matrix with lc := y.matrix.lc.put n.toNat v } }) h t)) ∧
  (∀ (s : State) (h : Hand) (t : Thread) (d : Reg) (n : BitVec 3), Issues s (smallKind [d]) h t →
    let x := s.core h.core
    exec (.lcrC d n) s = .next (retires s h t d ((x.copy.lc.find n.toNat).getD 0)) ∧
    exec (.lcrV d n) s = .next (retires s h t d ((x.vector.lc.find n.toNat).getD 0)) ∧
    exec (.lcrM d n) s = .next (retires s h t d ((x.matrix.lc.find n.toNat).getD 0))) ∧
  (∀ (s : State) (h : Hand) (t : Thread) (d : Reg) (imm : Imm), Issues s (smallKind [d]) h t →
    imm.toNat < 2 ^ 9 → imm.getLsbD 3 = false → (imm.getLsbD 6 = true ∨ imm.extractLsb' 0 3 = 0) →
    (imm.getLsbD 7 = true ∨ imm.extractLsb' 4 2 = 0) →
    ∃ f : Word, exec (.fmtset d imm) s =
        .next (ends ((begun s h).upThread h.core h.slot fun u => { u with fmt := f }) h t d t.fmt) ∧
      f.extractLsb' 0 3 = (if imm.getLsbD 6 then imm.extractLsb' 0 3 else t.fmt.extractLsb' 0 3) ∧
      f.extractLsb' 4 2 = (if imm.getLsbD 7 then imm.extractLsb' 4 2 else t.fmt.extractLsb' 4 2) ∧
      f.getLsbD 16 = (!imm.getLsbD 8 && t.fmt.getLsbD 16) ∧
      (∀ i, i ∉ [0, 1, 2, 4, 5, 16] → f.getLsbD i = t.fmt.getLsbD i)) ∧
  (∀ (s : State) (h : Hand) (t : Thread) (d a : Reg), Issues s (smallKind [d, a]) h t →
    let x := s.core h.core
    let n := (regOf s h t a).toNat
    let id := s.tidAt h.core h.slot
    let ends (q f : Nat) : Prop := exec (.eqry d a) s = .next (retires s h t d
      (BitVec.ofNat 64 (q + 4 * f + (if (begun s h).stalledOf id then 128 else 0) +
        if t.deferred.any (fun e => e.origin != .relaxed) then 256 else 0)))
    (n = 0 → ends x.copy.queue.length x.copy.flight.length) ∧
    (n = 1 → ends x.vector.queue.length x.vector.flight.length) ∧
    (n = 2 → ends x.matrix.queue.length x.matrix.flight.length) ∧
    (2 < n → exec (.eqry d a) s = .next (retires s h t d (-1)))) ∧
  (∀ (s : State) (h : Hand) (t : Thread), Issues s (reporting []) h t →
    ((begun s h).commandsOf (s.tidAt h.core h.slot) = false → exec .efence s = .next (goesTo s h (stepPc t.pc h.len))) ∧
    ((begun s h).commandsOf (s.tidAt h.core h.slot) = true → ∃ u v, exec .efence s = .next u ∧ u.thread h.core h.slot = some v ∧
      v.status = .parked .mem .retry ∧ v.pc = t.pc ∧ u.mem = s.mem))

/-- R172, R173: TB.INIT replaces a barrier, TB.EXP expects bytes of it, TB.ARR counts bytes against it; TB.WAIT parks while
its phase bit has the parity that it waits for, and otherwise goes on; TB.PHASE answers count, posting and phase; TB.INIT
replaces every other change of its cycle. A number above 63, and a byte count of 2^35 or more, raise PERM with reason 0x09. -/
def Obligations.TransactionBarriersCountBytes : Prop :=
  (∀ (s : State) (h : Hand) (t : Thread) (d a : Reg) (m : Mod),
    let n := (regOf s h t d).toNat
    let v := regOf s h t a
    let old := (s.core h.core).tbar n
    let changed (i : Instr) (b : TBar) : Prop := ∃ u w, exec i s = .next u ∧ (u.core h.core).tbar n = b ∧
      (∀ k, k ≠ n → (u.core h.core).tbars.find k = (s.core h.core).tbars.find k) ∧
      (h.core, n) ∈ u.touched ∧ u.thread h.core h.slot = some w ∧ w.pc = stepPc t.pc h.len ∧ w.status = t.status ∧
      (u.core h.core).regs = (s.core h.core).regs ∧ u.mem = s.mem
    n < 64 →
    (Issues s (smallKind [d]) h t → changed (.tbInit d) { init := true }) ∧
    (Issues s (smallKind [d, a]) h t → v.toNat < 2 ^ 35 → old.init = false →
      changed (.tbExp d a) { old with c := old.c + v.setWidth 36, posted := true } ∧
      (m.release = false → changed (.tbArr m d a) { old with c := old.c - v.setWidth 36 })) ∧
    (Issues s (smallKind [d, a]) h t → v.toNat < 2 ^ 35 → old.init = true →
      changed (.tbExp d a) old ∧ (m.release = false → changed (.tbArr m d a) old)) ∧
    (Issues s (smallKind [d, a]) h t → 2 ^ 35 ≤ v.toNat →
      exec (.tbExp d a) s = .next ((begun s h).trap h.core h.slot 0x09 9 t.pc 0 false) ∧
      exec (.tbArr m d a) s = .next ((begun s h).trap h.core h.slot 0x09 9 t.pc 0 false)) ∧
    (Issues s (reporting [d, a]) h t →
      (old.p = v.getLsbD 0 → ∃ u w, exec (.tbWait m d a) s = .next u ∧ u.thread h.core h.slot = some w ∧
        w.status = .parked .barrier (.tbar n (v.getLsbD 0) (stepPc t.pc h.len)) ∧ u.mem = s.mem) ∧
      (old.p ≠ v.getLsbD 0 → exec (.tbWait m d a) s = .next (goesTo s h (stepPc t.pc h.len))))) ∧
  (∀ (s : State) (h : Hand) (t : Thread) (d a : Reg), Issues s (smallKind [d, a]) h t →
    let n := (regOf s h t a).toNat
    let b := (s.core h.core).tbar n
    n < 64 → exec (.tbPhase d a) s = .next (retires s h t d
      (BitVec.ofInt 64 (4 * b.c.toInt) + BitVec.ofNat 64 ((if b.posted then 2 else 0) + if b.p then 1 else 0)))) ∧
  (∀ (s : State) (h : Hand) (t : Thread) (d : Reg), Issues s (smallKind [d]) h t → 63 < (regOf s h t d).toNat →
    exec (.tbInit d) s = .next ((begun s h).trap h.core h.slot 0x09 9 t.pc 0 false)) ∧
  (∀ (s : State) (h : Hand) (t : Thread) (d a : Reg) (m : Mod), 63 < (regOf s h t d).toNat →
    (Issues s (smallKind [d, a]) h t →
      exec (.tbExp d a) s = .next ((begun s h).trap h.core h.slot 0x09 9 t.pc 0 false) ∧
      exec (.tbArr m d a) s = .next ((begun s h).trap h.core h.slot 0x09 9 t.pc 0 false)) ∧
    (Issues s (reporting [d, a]) h t →
      exec (.tbWait m d a) s = .next ((begun s h).trap h.core h.slot 0x09 9 t.pc 0 false))) ∧
  (∀ (s : State) (h : Hand) (t : Thread) (d a : Reg), Issues s (smallKind [d, a]) h t → 63 < (regOf s h t a).toNat →
    exec (.tbPhase d a) s = .next ((begun s h).trap h.core h.slot 0x09 9 t.pc 0 false))

/-- R155, R123, R172: at its start the head of a queue is in flight; an acknowledgement counts its bytes against the
command's barrier and, with the last of them, the command completes; it then leaves the engine. R166: a kernel event at the
first part that is left stalls the command, and posts a record, whose argument is 2^62 + the restart index as R192 and R166 have
it (DEDUCED, log 89). -/
def Obligations.CopyCommandsRunToTheirEnd : Prop :=
  (∀ (s : State) (c : Nat) (q : CopyCmd), (s.core c).copy.queue = [q] → (s.core c).copy.flight = [] → (s.core c).copy.wants = [] →
    q.effect < s.cyc → (s.core c).copy.busy ≤ s.cyc →
    (q.parts ≤ q.base → ∃ u, exec (.copyCommandStart c) s = .next u ∧ (u.core c).copy.queue = [] ∧ (u.core c).copy.flight = [q] ∧
      coming u s.cyc (.engineCommandComplete c q.id) ∧ u.mem = s.mem) ∧
    (q.base < q.parts → exec (.copyCommandStart c) s = .next ((((s.upCore c fun x =>
        { x with copy := { x.copy with queue := [], flight := [q], busy := s.cyc + q.beats } }).startReads q).grantCopy c).kickCopy c))) ∧
  (∀ (s : State) (c n id bytes : Nat) (q : CopyCmd), s.copyCmd c id = some q → q.tb = some n → 0 < bytes → q.met = none →
    q.acked.length = q.parts - q.base → ((s.core c).tbar n).init = false →
    ∃ u, exec (.engineWriteAck c id bytes) s = .next u ∧
      (u.core c).tbar n = { (s.core c).tbar n with c := ((s.core c).tbar n).c - BitVec.ofNat 36 bytes } ∧
      coming u s.cyc (.engineCommandComplete c id) ∧ u.mem = s.mem) ∧
  (∀ (s : State) (c id : Nat) (q : CopyCmd), s.copyCmd c id = some q → q.acked.length = q.parts - q.base → q.stalled = false →
    s.reqs = [] → ∃ u, exec (.engineCommandComplete c id) s = .next u ∧
      (u.core c).copy.flight = (s.core c).copy.flight.filter (fun x => x.id != id) ∧ u.mem = s.mem) ∧
  (∀ (s : State) (c id n code : Nat) (info : Word) (q : CopyCmd) (r : Req), (s.core c).copy.flight = [q] → q.id = id → q.met = none →
    q.stalled = false → q.acked = [] → q.base ≤ q.sent → q.tail = [] → s.reqs = [(n, r)] → r.use = .copy id q.base false → r.stage = .stalled →
    r.event = some (code, info) → isKernelEvent code = true →
    ∃ u, exec (.engineFaultInFlight c id code info) s = .next u ∧ u.reqs = [] ∧
      u.copyCmd c id = some { q with met := some (q.base, code, info), stalled := true } ∧
      (∃ f, u.io.recs.find s.serial = some f ∧ f.source = q.source ∧ f.code = code ∧ f.info = info ∧ f.epc = q.epc ∧
        f.arg = BitVec.ofNat 64 (2 ^ 62 + q.restart q.base % 2 ^ 40)) ∧
      coming u (s.cyc + toFaultUnit c) (.faultEventArrival s.serial) ∧ u.mem = s.mem)

/-- R168: WAITP of a time that has come checks its word, and of one that has not sleeps until then; then it checks. R174: GATH
that its checks let goes to the cluster's gather engine, where it arrives 12 cyc later, and its thread parks; an engine with
a free entry accepts the oldest request that has arrived and reads its list. -/
def Obligations.PromisesAreAwaitedAndGathersAsked : Prop :=
  (∀ (s : State) (h : Hand) (t : Thread) (m : Mod) (a b : Reg), Issues s (reporting [a, b]) h t →
    let time := (regOf s h t a).toNat
    let p := regOf s h t b
    let mark : Mod := if m.acquire then { scope := m.scope, acquire := true } else {}
    let q (p' : Word) : Ask := { op := .probe, use := .stage stProbe, align := 8, mod := mark, redir := .follows, args := [p'] }
    (∀ p', time ≤ s.cyc → effective p 0 = .ok p' → Admits s h t p' (q p') →
      exec (.waitp m a b) s = .next (asks s h t p' (q p'))) ∧
    (s.cyc < time → ∃ u v, exec (.waitp m a b) s = .next u ∧ u.thread h.core h.slot = some v ∧
      v.status = .parked .sleep (.promise p (stepPc t.pc h.len) (if m.acquire then some m.scope else none)) ∧
      v.wakeAt = some time ∧ coming u time (.waitpTimeReached (s.tidAt h.core h.slot)) ∧ u.mem = s.mem)) ∧
  (∀ (s : State) (t : Tid) (th : Thread) (p p' npc : Word), s.threadOf t = some th →
    th.status = .parked .sleep (.promise p npc none) → th.wakeAt = some s.cyc →
    let x : Cx := { core := t.core, slot := t.slot, th := th, pc := th.pc, npc := npc, base := 0 }
    effective p 0 = .ok p' → x.dueOn s p' { op := .probe, use := .stage stProbe, align := 8, args := [p'] } = none → offsetOf p' % 8 = 0 →
    lastByte p' 8 = none → s.spaceEvent t.core th.part p' = none → x.roams s p' = none → s.heldBack (x.tid s) false = false →
    s.redirect t.core th.strand .follows p' 8 = (.same, s) →
    exec (.waitpTimeReached t) s = .next (((s.addReq
      { tid := some (x.tid s), core := t.core, ctx := s.ctxOf t.core, part := th.part, asid := th.asid.toNat, op := .probe,
        use := .stage stProbe, args := [p'], ptr := p', epc := th.pc, npc := npc }).2.park t.core t.slot .mem (.reply s.serial)).begin s.serial)) ∧
  (∀ (s : State) (h : Hand) (t : Thread) (m : Mod) (d a b : Reg) (tb : Option Nat), Issues s (smallKind [d, a, b]) h t →
    t.restart = none → m.release = false →
    let len := ((regOf s h t d).extractLsb' 0 20).toNat
    let dst := regOf s h t a
    descBar (regOf s h t d) = some tb → 0 < len → len ≤ 4096 → ownVault h.core dst = true →
    sideRange dst 0 (8 * len - 1 : Int) = none → dst.toNat % 8 = 0 →
    (begun s h).sideSpace h.core t.part dst 0 (8 * len - 1 : Int) = none →
    ∃ u v q, exec (.gath m d a b) s = .next u ∧
      ((u.clusters.find (clusterOf h.core)).getD {}).wants = ((s.clusters.find (clusterOf h.core)).getD {}).wants ++ [q] ∧
      q.id = s.serial ∧ q.kind = .gath ∧ q.parts = len ∧ q.dst = dst ∧ q.src = regOf s h t b ∧ q.tb = tb ∧ q.effect = s.cyc + 12 ∧
      u.thread h.core h.slot = some v ∧ v.status = .parked .queue (.queue s.serial) ∧
      coming u (s.cyc + 12) (.gatherRequestAccept (clusterOf h.core)) ∧ u.mem = s.mem) ∧
  (∀ (s : State) (cl : Nat) (q : CopyCmd) (rest : List CopyCmd), ((s.clusters.find cl).getD {}).wants = q :: rest →
    s.stillWaits q = true → ((s.clusters.find cl).getD {}).gather.length < 8 → q.effect ≤ s.cyc →
    exec (.gatherRequestAccept cl) s =
      .next ((s.upCluster cl fun c => { c with gather := c.gather ++ [q], wants := rest }).readList q q.base s.cyc (q.parts + 1)
        |>.listNext q.core q.id))

/-! ### Instructions that read a block first, and requests to units (R163, R176, R177, R190, R230, R313, R317, R321, R331,
R341, R344) -/

/-- R163, R230, R176, R341, R344, R190, R191: LCW.cfg, MCFG, COLL, PARTSET and DRAIN read their block of memory first, with
its alignment; EVICT and RESTORE translate their save block; their threads park until it has come. PARTSET, DRAIN, EVICT and
RESTORE do so in a kernel's context. -/
def Obligations.BlocksAreReadFirst : Prop :=
  (∀ (s : State) (h : Hand) (t : Thread) (n : BitVec 3) (a : Reg) (p : Word), Issues s (smallKind [a]) h t →
    let no : List Word := [BitVec.ofNat 64 n.toNat]
    let q : Ask := { op := .block 16, use := .stage stCfg, align := 128, bytes := 128, args := no }
    let q' : Ask := { op := .block 8, use := .stage stMcfg, align := 64, bytes := 64, args := no }
    effective (regOf s h t a) 0 = .ok p →
    (Admits s h t p q → exec (.lcwCfg n a) s = .next (asks s h t p q)) ∧
    (Admits s h t p q' → exec (.mcfg n a) s = .next (asks s h t p q'))) ∧
  (∀ (s : State) (h : Hand) (t : Thread) (i : Instr) (m : Mod) (d a b : Reg) (p : Word), collForm i = some (m, d, a, b) →
    Issues s (smallKind [d, a, b]) h t →
    let q : Ask := { op := .block 8, use := .stage stColl, align := 64, bytes := 64, mod := m, why := .queue, far := true,
                     args := [BitVec.ofNat 64 (rn d), regOf s h t a, t.fmt] }
    (regOf s h t a).toNat < 2 ^ 7 → (regOf s h t b).toNat % 64 = 0 → effective (regOf s h t b) 0 = .ok p →
    Admits s h t p q → exec i s = .next (asks s h t p q)) ∧
  (∀ (s : State) (h : Hand) (t : Thread) (d a b : Reg) (p : Word), Issues s (plainKind [d, a, b]) h t →
    isKernelCtx (s.ctxOf h.core) = true →
    let va := regOf s h t a
    let vb := regOf s h t b
    let part : Ask := { op := .block 2, use := .stage stPart, align := 16, bytes := 16, args := [BitVec.ofNat 64 (rn d), va, vb] }
    let drain : Ask := { op := .block 4, use := .stage stDrain, align := 32, bytes := 32,
                         args := [BitVec.ofNat 64 (rn d), va, BitVec.ofNat 64 s.cyc] }
    let evict : Ask := { op := .write [] true, use := .stage stBlock, align := 256, bytes := 7424,
                         args := [BitVec.ofNat 64 (rn d), 0, va, vb] }
    let restore : Ask := { op := .block 0, use := .stage stBlock, align := 256, bytes := 7424,
                           args := [BitVec.ofNat 64 (rn d), 1, va, vb] }
    (effective vb 0 = .ok p → Admits s h t p part →
      exec (.partset d a b) s = .next (asks s h t p part)) ∧
    (∀ i, drainForm i = some (d, a, b) → effective vb 0 = .ok p → Admits s h t p drain →
      exec i s = .next (asks s h t p drain)) ∧
    (effective vb 0 = .ok p → Admits s h t p evict →
      exec (.evict d a b) s = .next (asks s h t p evict)) ∧
    (effective va 0 = .ok p → Admits s h t p restore →
      exec (.restore d a b) s = .next (asks s h t p restore)))

/-- R313, R317, R321, R331, R177: the sequence instructions, XINV, the frame instructions, OWNSET and EMSG send their
operands to their unit, which they reach after half the instruction's time; EMSG's time, 24 cyc for a gather engine and that of a
word of the control window for the collective engine, is the model's choice (log 107, DESIGN CHOICE); their threads park until the
answer. SEQMAP,
XINV, the frame instructions and OWNSET do so in a kernel's context. -/
def Obligations.UnitsAreAsked : Prop :=
  (∀ (s : State) (h : Hand) (t : Thread) (i : Instr) (code extra : Nat) (d : Reg) (ws : List Reg),
    seqForm i = some (code, extra, d, ws) → Issues s (plainKind ([d] ++ ws)) h t →
    (code = uSeqmap → isKernelCtx (s.ctxOf h.core) = true) →
    (code = uSeqend → (begun s h).accessesDone ((cxOf h t).tid (begun s h)) t = true) →
    exec i s = .next (asksUnit s h t (.stage stUnit) ([BitVec.ofNat 64 (rn d), BitVec.ofNat 64 code] ++ ws.map (regOf s h t))
      t.asid.toNat (if isLarge h.core then 60 else 240) extra .bankRequestArrival)) ∧
  (∀ (s : State) (h : Hand) (t : Thread) (i : Instr) (d a b : Reg), Issues s (plainKind [d, a, b]) h t →
    isKernelCtx (s.ctxOf h.core) = true →
    let va := regOf s h t a
    let vb := regOf s h t b
    (xinvForm i = some (d, a, b) → exec i s = .next (asksUnit s h t (.stage stUnit) [BitVec.ofNat 64 (rn d), BitVec.ofNat 64 uXinv, va, vb]
      t.asid.toNat (if isLarge h.core then 60 else 240) 0 .bankRequestArrival)) ∧
    (ownsetForm i = some (d, a, b) → exec i s = .next (asksUnit s h t (.stage stUnit) [BitVec.ofNat 64 (rn d), BitVec.ofNat 64 uOwnset, va, vb]
      t.asid.toNat (if va.toNat % 256 = 3 then 4096 + 8 * (match rectOf vb with | some r => r.rows * r.cols | none => 0) else 2000)
      0 .bankRequestArrival))) ∧
  (∀ (s : State) (h : Hand) (t : Thread) (i : Instr) (code : Nat) (releases : Bool) (d a : Reg) (l : List Reg) (p : Word),
    frameForm i = some (code, releases, d, a, l) → Issues s (plainKind ([d, a] ++ l)) h t →
    isKernelCtx (s.ctxOf h.core) = true → effective (regOf s h t a) 0 = .ok p →
    (releases = false ∨ isLarge h.core = false ∨ ((begun s h).accessesDone ((cxOf h t).tid (begun s h)) t &&
      (begun s h).releaseDone ((cxOf h t).tid (begun s h)) .system) = true) →
    exec i s = .next (asksUnit s h t (.stage stUnit)
      ([BitVec.ofNat 64 (rn d), BitVec.ofNat 64 code, regOf s h t a] ++ l.map (regOf s h t))
      t.asid.toNat (if isLarge h.core then 120 else 300) 0 .fotPerform)) ∧
  (∀ (s : State) (h : Hand) (t : Thread) (i : Instr) (m : Mod) (d a b : Reg), emsgForm i = some (m, d, a, b) →
    Issues s (smallKind [d, a, b]) h t → m.release = false →
    let va := regOf s h t a
    let kind := (va.extractLsb' 18 2).toNat
    let c := va.toNat % 2 ^ 18
    va.toNat < 2 ^ 20 → ((kind = 0 ∧ isSmall c = true ∧ s.ctxOf c = s.ctxOf h.core) ∨ (kind = 1 ∧ c = 0)) →
    exec i s = .next (asksUnit s h t (.stage stEmsg) [BitVec.ofNat 64 (rn d), va, regOf s h t b] 0
      (if kind = 1 then latency h.core .control else 24) 0 .bankRequestArrival))

/-- R177, R360: QUERY answers how many requests the gather engine of a cluster holds and how many reads it has merged since the
last, or a ticket's state; ABORT of a pending ticket of its own context ends it. R176, R359: a COLL that finds its view
current and its package a member of a group on which its context is permitted receives the next ticket (which packages are members of a
group, and which contexts it permits, is the model's choice: log 74).
R359, R360, R363: a contribution of a rank that had still to contribute is taken (one that comes before this package's own
COLL is kept for it), a member's failure or ABORT (written as log 109 has them) ends the ticket, the last contribution commits the collective and
its result is written to the destination; a missing contribution aborts it at its limit, and a change of the view aborts every
pending one; the new view holds the members whose evidence was accepted, in the order of their ids, and its leader publishes
its signed root. -/
def Obligations.SharedEnginesAnswerAndCollectivesEnd : Prop :=
  (
    (∀ (s : State) (n : Nat) (r : Req), s.reqs.find n = some r → r.stage = .sent → r.op = .unit → r.use = .stage stEmsg →
      let va := r.args.getD 1 0
      let op := (r.args.getD 2 0).toNat % 256
      let arg := (r.args.getD 2 0).toNat / 256
      let answers (u : State) (v : Word) : Prop := u.reqs.find n = some { r with stage := .served, ans := [v] } ∧
        coming u (s.cyc + (r.lat + 1) / 2) (.memReply n) ∧ u.mem = s.mem
      (∀ c, (va.extractLsb' 18 2).toNat = 0 → op = 1 → s.clusters.find (clusterOf (va.toNat % 2 ^ 18)) = some c →
        ∃ u c', exec (.bankRequestArrival n) s = .next u ∧
          answers u (BitVec.ofNat 64 (c.gather.length +
            (c.wants.filter fun q => decide (q.effect ≤ s.cyc) && s.stillWaits q).length + 65536 * c.merged)) ∧
          u.clusters.find (clusterOf (va.toNat % 2 ^ 18)) = some c' ∧ c'.merged = 0 ∧ c'.gather = c.gather) ∧
      ((va.extractLsb' 18 2).toNat = 1 → op = 1 → ∃ u, exec (.bankRequestArrival n) s = .next u ∧
        answers u (match s.links.tickets.find arg with | some t => BitVec.ofNat 64 (t.state + 256 * t.failed) | none => 5) ∧
        u.links = s.links) ∧
      (∀ t, (va.extractLsb' 18 2).toNat = 1 → op = 2 → s.links.tickets.find arg = some t →
        (t.state = 0 → t.ctx = r.ctx → ∃ u, exec (.bankRequestArrival n) s = .next u ∧ answers u 0 ∧
          u.links.tickets.find arg = some { t with state := 4, parts := [] } ∧
          u.links.outbox = s.links.outbox ++ [.abort arg]) ∧
        ((t.state ≠ 0 ∨ t.ctx ≠ r.ctx) → ∃ u, exec (.bankRequestArrival n) s = .next u ∧ answers u (-3) ∧ u.links = s.links))) ∧
    (∀ (s : State) (n : Nat) (r : Req), s.reqs.find n = some r → r.stage = .sent → r.op = .unit → r.use = .stage stCollAck →
      s.links.tickets.length < 256 →
      let b := r.args.drop 3
      let l := s.links
      let answers (v : Int) : Prop := ∃ u, exec (.bankRequestArrival n) s = .next u ∧
        u.reqs.find n = some { r with stage := .served, ans := [BitVec.ofInt 64 v] } ∧ u.links = s.links
      ((wordOf b 5).toNat ≠ l.viewNo → answers (-2)) ∧
      let mine : Bool := l.members.contains s.sys.image.package
      ((wordOf b 5).toNat = l.viewNo → (mine = false ∨ l.permits (fieldOf b 4 0 16) r.ctx = false) → answers (-3)) ∧
      ((wordOf b 5).toNat = l.viewNo → mine = true → l.permits (fieldOf b 4 0 16) r.ctx = true →
        (∀ a, (s.wordsAs r.core r.ctx r.part r.asid (wordOf b 1) ((wordOf b 3).toNat / 8)).1 ≠ .error (some a)) →
        l.early.all (fun e => e.1 != l.nextTicket) = true →
        ∃ u x, exec (.bankRequestArrival n) s = .next u ∧
          u.reqs.find n = some { r with stage := .served, ans := [BitVec.ofNat 64 l.nextTicket] } ∧
          u.links.nextTicket = (l.nextTicket + 1) % 2 ^ 32 ∧ u.links.tickets.find l.nextTicket = some x ∧ x.ws = b ∧ x.ctx = r.ctx ∧
          x.view = l.viewNo ∧ x.rm = fmtRm (r.args.getD 2 0)))) ∧
  (
    (∀ (s : State) (k rank : Nat) (data : List Word) (t : Ticket), s.links.tickets.find k = some t → t.state = 0 →
      rank < s.links.members.length → t.parts.has rank = false → 2 ≤ data.length →
      let parts := t.parts.put rank data
      (parts.length ≠ s.links.members.length → ∃ u x, exec (.collectiveContribution k rank data) s = .next u ∧
        u.links.tickets.find k = some x ∧ x.parts = parts ∧ x.state = 0 ∧ x.started = some (t.started.getD s.cyc) ∧
        (t.started = none → coming u (s.cyc + 1600 * fieldOf t.ws 6 32 32) (.collectiveTimeout k)) ∧ u.mem = s.mem) ∧
      (parts.length = s.links.members.length →
        let w := if t.started.isSome then s else s.after (1600 * fieldOf t.ws 6 32 32) 20 (.collectiveTimeout k)
        let t' := { t with parts := parts, started := some (t.started.getD s.cyc) }
        exec (.collectiveContribution k rank data) s = .next ((w.upTicket k fun _ => { t' with state := 1, parts := [] }).writeResult k t'
          (wordOf t.ws 2) (t'.result s.links.members.length)))) ∧
    (∀ (s : State) (k rank : Nat) (t : Ticket), s.links.tickets.find k = some t → t.state = 0 → rank < s.links.members.length →
      (∃ u, exec (.collectiveContribution k rank []) s = .next u ∧
        u.links.tickets.find k = some { t with state := 2, failed := rank, parts := [] } ∧ u.mem = s.mem) ∧
      (∀ w, ∃ u, exec (.collectiveContribution k rank [w]) s = .next u ∧
        u.links.tickets.find k = some { t with state := 4, failed := 0, parts := [] } ∧ u.mem = s.mem)) ∧
    (∀ (s : State) (k rank : Nat) (data : List Word), s.links.tickets.has k = false →
      (k + 2 ^ 32 - s.links.nextTicket) % 2 ^ 32 < 2 ^ 31 →
      s.links.early.any (fun e => e.1 == k && e.2.1 == rank && e.2.2.2 == data) = false →
      exec (.collectiveContribution k rank data) s =
        .next (s.upLinks fun l => { l with early := l.early ++ [(k, rank, s.cyc, data)] })) ∧
    (∀ (s : State) (k : Nat) (t : Ticket), s.links.tickets.find k = some t → t.state = 0 →
      (∃ i < s.links.members.length, t.parts.has i = false) →
      ∃ u x, exec (.collectiveTimeout k) s = .next u ∧ u.links.tickets.find k = some x ∧ x.state = 2 ∧ x.parts = [] ∧
        x.failed < s.links.members.length ∧ t.parts.has x.failed = false ∧ (∀ j < x.failed, t.parts.has j = true) ∧
        u.links.outbox = s.links.outbox ++ [.abort k] ∧ u.mem = s.mem) ∧
    (∀ (s : State) (members : List (Nat × Option (BitVec 512))), ∃ u, exec (.membershipViewChange members) s = .next u ∧
      u.links.viewNo = (s.links.viewNo + 1) % 2 ^ 64 ∧ u.links.linkKey = some s.io.draws ∧ u.io.draws = s.io.draws + 1 ∧
      (∀ p, p ∈ u.links.members ↔ ∃ d, (p, some d) ∈ members) ∧ u.links.members.Pairwise (· < ·) ∧
      (u.links.members.head? = some s.sys.image.package →
        let root := treeRoot u.links.viewNo (acceptedMembers members)
        let view := BitVec.ofNat 64 u.links.viewNo
        u.links.outbox.getLast? = some (.root view root (Config.signature (wordBytes view ++ root)))) ∧
      (∀ k t, s.links.tickets.find k = some t → t.state = 0 → ∃ x, u.links.tickets.find k = some x ∧ (x.state = 2 ∨ x.state = 3) ∧ x.parts = []) ∧
      u.mem = s.mem))


/-! ### The vector engine (R217, R247 to R263) -/

/-- R249, R250: a vector instruction with room in its engine's queue is captured there with its scalar operands, mask and
rounding mode, and its thread goes on; without room the thread parks. R257: a modular instruction needs a modulus within its
limits. R260, R261: VLD, VST, VGTH and VSCT whose issue checks let them join the queue with their address.
R249, R253: a command at the head of an idle engine whose unit is free starts, and its result follows after the time of
its operation; R252: the result is written at once, every other register is as before, and the command leaves the engine. a command whose thread is gone writes nothing. R248,
R254, R257: integer, modular and floating-point lanes, comparisons and reductions (R217, R219, R255), butterflies and powers,
selections and moves (R258), conversions (R259) and special functions (R218) hold their operation's value, and inactive lanes
keep the old one; 1/x and 1/√x rounded toward zero are the largest values that are no larger in magnitude (R218). -/
def Obligations.VectorInstructionsJoinAndWriteTheirLanes : Prop :=
  (
    (∀ (s : State) (h : Hand) (t : Thread) (i : Instr) (v : VIssue), vectorForm i = some v → Issues s v.kind h t →
      let e := (s.core h.core).vector
      let lc := (e.lc.find 0).getD 0
      (v.modular = false ∨ modulusOk lc = true) →
      (e.queue.length < 2 → e.wants = [] → ∃ u q w, exec i s = .next u ∧ (u.core h.core).vector.queue = e.queue ++ [q] ∧
        q.op = v.op ∧ q.d = vBase t.win + rn v.d ∧ q.a = vBase t.win + rn v.a ∧ q.b = vBase t.win + rn v.b ∧
        q.writes = v.form.writes.map (fun r => vBase t.win + rn r) ∧
        q.scalar = v.form.scalar.bind (fun r => if rn r = 0 then none else some (8 * wBase t.win + rn r)) ∧
        q.args = v.args.map (regOf s h t) ∧ q.mask = v.form.mask.map (regOf s h t) ∧ q.rm = (t.fmt.extractLsb' 4 2).toNat ∧
        q.modulus = lc ∧ q.tid = s.tidAt h.core h.slot ∧ q.lanes = 0 ∧ q.started = false ∧ q.effect = s.cyc ∧
        coming u (s.cyc + 1) (.vectorCommandStart h.core) ∧
        u.thread h.core h.slot = some w ∧ w.pc = stepPc t.pc h.len ∧ w.status = t.status ∧
        (u.core h.core).regs = (s.core h.core).regs ∧ (u.core h.core).vregs = (s.core h.core).vregs ∧ u.mem = s.mem) ∧
      ((2 ≤ e.queue.length ∨ e.wants ≠ []) → ∃ u w, exec i s = .next u ∧ u.thread h.core h.slot = some w ∧
        w.status = .parked .queue (.queue s.serial) ∧ w.pc = t.pc ∧ (u.core h.core).vector.queue = e.queue)) ∧
    (∀ (s : State) (h : Hand) (t : Thread) (i : Instr) (loads : Bool) (m : Mod) (k : Option Reg) (d a : Reg) (imm : Imm),
      lineForm i = some (loads, m, k, d, a, imm) →
      Issues s { names := { w := ([a] ++ k.toList).map rn, v := [rn d] }, report := [.vector], big := false } h t →
      t.restart = none → m.release = false →
      let e := (s.core h.core).vector
      let mask := k.map (regOf s h t)
      let lanes := (List.range 16).filter (activeLane mask)
      let base := regOf s h t a
      let delta : Int := 64 * imm.toInt
      (∀ lo hi : Nat, lanes.head? = some lo → lanes.getLast? = some hi →
        sideRange base (delta + 4 * lo) (delta + 4 * hi + 3) = none ∧ ((offsetOf base : Int) + delta) % 8 = 0) →
      e.queue.length < 2 → e.wants = [] →
      ∃ u q w, exec i s = .next u ∧ (u.core h.core).vector.queue = e.queue ++ [q] ∧ q.op = (if loads then .ld else .st) ∧
        q.lanes = 16 ∧ q.args = [if lanes = [] then base else base + BitVec.ofInt 64 delta] ∧ q.mask = mask ∧ q.d = vBase t.win + rn d ∧ q.relaxed = m.relaxed ∧
        u.thread h.core h.slot = some w ∧ w.pc = stepPc t.pc h.len ∧ w.status = t.status ∧
        coming u (s.cyc + 1) (.vectorCommandStart h.core) ∧ u.mem = s.mem) ∧
    (∀ (s : State) (h : Hand) (t : Thread) (i : Instr) (loads : Bool) (m : Mod) (k : Option Reg) (d a b : Reg),
      eachForm i = some (loads, m, k, d, a, b) →
      Issues s { names := { w := ([a] ++ k.toList).map rn, v := [rn d, rn b] }, report := [.vector], big := false } h t →
      t.restart = none → m.release = false →
      let e := (s.core h.core).vector
      e.queue.length < 2 → e.wants = [] →
      ∃ u q w, exec i s = .next u ∧ (u.core h.core).vector.queue = e.queue ++ [q] ∧ q.op = (if loads then .gth else .sct) ∧
        q.lanes = 8 ∧ q.args = [regOf s h t a] ∧ q.mask = k.map (regOf s h t) ∧ q.d = vBase t.win + rn d ∧
        q.b = vBase t.win + rn b ∧ u.thread h.core h.slot = some w ∧ w.pc = stepPc t.pc h.len ∧ w.status = t.status ∧
        coming u (s.cyc + 1) (.vectorCommandStart h.core) ∧ u.mem = s.mem)) ∧
  (
    (∀ (s : State) (c : Nat) (q : VecCmd), (s.core c).vector.queue = [q] → (s.core c).vector.flight = [] →
      (s.core c).vector.wants = [] → q.effect < s.cyc → q.started = false → q.lanes = 0 →
      ((s.core c).vector.free.find q.op.timing.1).getD 0 ≤ s.cyc →
      ∃ u q', exec (.vectorCommandStart c) s = .next u ∧ (u.core c).vector.queue = [] ∧ (u.core c).vector.flight = [q'] ∧
        q'.id = q.id ∧ q'.tid = q.tid ∧ q'.home = q.home ∧ q'.scalar = q.scalar ∧ q'.started = true ∧
        coming u (s.cyc + q.op.timing.2.2) (.vectorResultWrite c q.id) ∧
        (u.core c).vregs = (s.core c).vregs ∧ u.mem = s.mem ∧
        (let old (n : Nat) : Nat := (((s.core c).vregs.find n).getD 0).toNat
         let x : VIn := { d := old q.d, a := old q.a, b := old q.b, ws := q.args, act := activeLane q.mask, all := q.mask.isNone,
                          rm := q.rm, q := q.modulus.toNat }
         q'.sresult = (x.run q.op).w ∧ q'.sat = (x.run q.op).sat ∧
         (∀ r, (x.run q.op).d = some r → ((x.run q.op).a = none ∨ q.a ≠ q.d) → q'.result.find q.d = some (BitVec.ofNat 512 r)) ∧
         (∀ r, (x.run q.op).a = some r → q'.result.find q.a = some (BitVec.ofNat 512 r)) ∧
         (∀ e ∈ q'.result, e.1 = q.d ∧ (x.run q.op).d ≠ none ∨ e.1 = q.a ∧ (x.run q.op).a ≠ none)) ∧
        (∀ o, q.op = .int o → ∃ r : VReg, q'.result = [(q.d, r)] ∧ ∀ j < 8,
          let lane (n : Nat) : Word := (((s.core c).vregs.find n).getD 0).extractLsb' (64 * j) 64
          let x := lane q.a
          let y := lane q.b
          let active : Bool := match q.mask with | some k => k.getLsbD j | none => true
          r.extractLsb' (64 * j) 64 = (if active then (match o with
            | .add => x + y | .sub => x - y | .mul => x * y | .shl => x <<< (y.toNat % 64) | .shr => x >>> (y.toNat % 64)
            | .and => x &&& y | .or => x ||| y | .xor => x ^^^ y) else lane q.d))) ∧
    (∀ (s : State) (c : Nat) (q : VecCmd) (th : Thread), (s.core c).vector.flight = [q] → s.threadOf q.home = some th → q.sat = false →
      (∀ n v, q.result = [(n, v)] → q.scalar = none → ∃ u, exec (.vectorResultWrite c q.id) s = .next u ∧
        (u.core c).vregs.find n = some v ∧ (∀ k, k ≠ n → (u.core c).vregs.find k = (s.core c).vregs.find k) ∧
        (u.core c).regs = (s.core c).regs ∧ (u.core c).vector.flight = [] ∧ u.mem = s.mem) ∧
      (∀ n, q.result = [] → q.scalar = some n → ∃ u, exec (.vectorResultWrite c q.id) s = .next u ∧
        (u.core c).regs.find n = some q.sresult ∧ (∀ k, k ≠ n → (u.core c).regs.find k = (s.core c).regs.find k) ∧
        (u.core c).vregs = (s.core c).vregs ∧ (u.core c).vector.flight = [] ∧ u.mem = s.mem) ∧
      (∀ n v n' v', q.result = [(n, v), (n', v')] → n ≠ n' → q.scalar = none → ∃ u, exec (.vectorResultWrite c q.id) s = .next u ∧
        (u.core c).vregs.find n = some v ∧ (u.core c).vregs.find n' = some v' ∧
        (∀ k, k ≠ n → k ≠ n' → (u.core c).vregs.find k = (s.core c).vregs.find k) ∧
        (u.core c).regs = (s.core c).regs ∧ (u.core c).vector.flight = [] ∧ u.mem = s.mem)) ∧
    (∀ (s : State) (c : Nat) (q : VecCmd), (s.core c).vector.flight = [q] → s.threadOf q.home = none →
      ∃ u, exec (.vectorResultWrite c q.id) s = .next u ∧ (u.core c).vregs = (s.core c).vregs ∧ (u.core c).regs = (s.core c).regs ∧
        (u.core c).vector.flight = [] ∧ u.mem = s.mem) ∧
    (∀ (x : VIn) (r : Nat), 0 < x.q → x.q < 2 ^ 64 → x.d < 2 ^ 512 → x.a < 2 ^ 512 → x.b < 2 ^ 512 →
      let el (v j : Nat) : Nat := v / 2 ^ (64 * j) % 2 ^ 64
      ((x.run .maddm).d = some r → ∀ j < 8, el r j = if x.act j then (el x.a j % x.q + el x.b j % x.q) % x.q else el x.d j) ∧
      ((x.run .msubm).d = some r → ∀ j < 8, el r j = if x.act j then (el x.a j % x.q + (x.q - el x.b j % x.q)) % x.q else el x.d j) ∧
      ((x.run .mmulm).d = some r → ∀ j < 8, el r j = if x.act j then (el x.a j % x.q) * (el x.b j % x.q) % x.q else el x.d j)) ∧
    (∀ (x : VIn) (r r' : Nat) (w0 w1 : Word) (ws : List Word), modulusOk (BitVec.ofNat 64 x.q) = true → x.q < 2 ^ 64 →
      x.d < 2 ^ 512 → x.a < 2 ^ 512 → x.b < 2 ^ 512 → x.ws = w0 :: ws → (∀ i, ws.head? = some i → i = w1) →
      let el (v j : Nat) : Nat := v / 2 ^ (64 * j) % 2 ^ 64
      let p (j : Nat) : Nat := el x.b j * el x.a j % x.q
      let z (j : Nat) : Nat := el x.d j % x.q
      ((x.run .bflyCt).d = some r → (x.run .bflyCt).a = some r' → ∀ j < 8,
        el r j = (if x.act j then (z j + p j) % x.q else el x.d j) ∧
        el r' j = (if x.act j then (z j + (x.q - p j)) % x.q else el x.a j)) ∧
      ((x.run .bflyGs).d = some r → (x.run .bflyGs).a = some r' → ∀ j < 8,
        el r j = (if x.act j then (z j + el x.a j) % x.q else el x.d j) ∧
        el r' j = (if x.act j then (z j + (x.q - el x.a j % x.q)) % x.q * el x.b j % x.q else el x.a j)) ∧
      ((x.run .twid).d = some r → ws ≠ [] → ∀ j < 8,
        el r j = if x.act j then w0.toNat * w1.toNat ^ j % x.q else el x.d j)) ∧
    (∀ (x : VIn) (half : Bool) (r : Nat), x.d < 2 ^ 512 → x.a < 2 ^ 512 → x.b < 2 ^ 512 →
      let f : Fmt := if half then bf16 else fp32
      let w := f.width
      let el (v j : Nat) : Nat := v / 2 ^ (w * j) % 2 ^ w
      let val (v j : Nat) : Fp := f.value (el v j)
      let one (y : Fp) : Nat := (f.code x.rm y).1
      let nans (j : Nat) : Bool := (val x.a j).isNan || (val x.b j).isNan
      let less (j : Nat) : Bool := (val x.a j).before (val x.b j)
      (∀ op, (x.run (.float op half)).d = some r → ∀ j < 512 / w, el r j = if x.act j then (match op with
        | .add => one ((val x.a j).add x.rm (val x.b j)) | .sub => one ((val x.a j).add x.rm (val x.b j).neg)
        | .mul => one ((val x.a j).mul (val x.b j)) | .fma => one (((val x.a j).mul (val x.b j)).add x.rm (val x.d j))
        | .min => if nans j then f.nan else if less j then el x.a j else el x.b j
        | .max => if nans j then f.nan else if less j then el x.b j else el x.a j
        | .abs => el x.a j % 2 ^ (w - 1) | .neg => (el x.a j + 2 ^ (w - 1)) % 2 ^ w) else el x.d j) ∧
      (∀ k, ∀ j < 64, (x.run (.cmp k half)).w.getLsbD j =
        if j = 63 then half else decide (j < 512 / w) && x.act j && (match k with
          | .eq => (val x.a j).eq (val x.b j) | .lt => (val x.a j).lt (val x.b j)
          | .le => (val x.a j).lt (val x.b j) || (val x.a j).eq (val x.b j))) ∧
      (∀ k, (x.run (.red k half)).d = some r →
        let op (u v : Nat) : Nat := match k with
          | .sum => (fp32.code x.rm ((fp32.value u).add x.rm (fp32.value v))).1
          | .max => if (fp32.value u).isNan || (fp32.value v).isNan then fp32.nan else if (fp32.value u).before (fp32.value v) then v else u
          | .min => if (fp32.value u).isNan || (fp32.value v).isNan then fp32.nan else if (fp32.value u).before (fp32.value v) then u else v
        let none' : Nat := match k with | .sum => 0x80000000 | .max => 0xFF800000 | .min => 0x7F800000
        let lane (j : Nat) : Nat := if x.act j then (if half then 65536 * el x.a j else el x.a j) else none'
        let up (g : Nat → Nat) (j : Nat) : Nat := op (g (2 * j)) (g (2 * j + 1))
        (half = false → r = up (up (up (up lane))) 0) ∧
        (half = true → r = (bf16.code x.rm (fp32.value (up (up (up (up (up lane)))) 0))).1)) ∧
      (∀ c, f.value c ≠ .nan → c < 2 ^ w → one (f.value c) = c)) ∧
    (∀ (x : VIn) (k : Word) (r : Nat) (ws : List Word), x.d < 2 ^ 512 → x.a < 2 ^ 512 → x.b < 2 ^ 512 → x.ws = k :: ws →
      let el (w v j : Nat) : Nat := v / 2 ^ (w * j) % 2 ^ w
      let w := if k.getLsbD 63 then 16 else 32
      ((x.run .sel).d = some r → ∀ j < 512 / w, el w r j = if k.getLsbD j then el w x.a j else el w x.d j) ∧
      ((x.run .shuf).d = some r → ∀ j < 16, el 32 r j = el 32 x.a (el 32 x.b j % 16)) ∧
      ((x.run .bcast).d = some r → ∀ j < 8, el 64 r j = if x.act j then k.toNat else el 64 x.d j) ∧
      ((x.run .movvAll).d = some r → ∀ j < 8, el 64 r j = if x.act j then k.toNat else el 64 x.d j) ∧
      (∀ i < 8, (x.run (.movv i)).d = some r → ∀ j < 8, el 64 r j = if j = i then k.toNat else el 64 x.d j)) ∧
    (∀ (x : VIn) (i : Nat), i < 8 → x.a < 2 ^ 512 → (x.run (.movx i)).w.toNat = x.a / 2 ^ (64 * i) % 2 ^ 64) ∧
    (∀ (x : VIn) (sel r : Nat), sel < 16 → x.d < 2 ^ 512 → x.a < 2 ^ 512 → (x.run (.cvt sel)).d = some r →
      let c := cvtOf x.rm sel
      let el (w v j : Nat) : Nat := v / 2 ^ (w * j) % 2 ^ w
      c.n = (if sel < 12 then 16 else 8) ∧ r < 2 ^ 512 ∧
      (∀ j < c.n, el c.dst r j = if x.act j then (c.f (el c.src x.a j)).1 % 2 ^ c.dst else el c.dst x.d j) ∧
      r / 2 ^ (c.dst * c.n) = (if x.all then 0 else x.d / 2 ^ (c.dst * c.n)) ∧
      (x.run (.cvt sel)).sat = (List.range c.n).any fun j => x.act j && (c.f (el c.src x.a j)).2) ∧
    (∀ (x : VIn) (r : Nat), x.d < 2 ^ 512 → x.a < 2 ^ 512 →
      let el (v j : Nat) : Nat := v / 2 ^ (32 * j) % 2 ^ 32
      ((x.run .exp2).d = some r → ∀ j < 16, el r j = if x.act j then fp32.exp2 x.rm (el x.a j) else el x.d j) ∧
      ((x.run .rcp).d = some r → ∀ j < 16, el r j = if x.act j then fp32.rcp x.rm (el x.a j) else el x.d j) ∧
      ((x.run .rsq).d = some r → ∀ j < 16, el r j = if x.act j then fp32.rsq x.rm (el x.a j) else el x.d j)) ∧
    (∀ rm < 4, (fp32.exp2 rm 0x7F800000 = 0x7F800000 ∧ fp32.exp2 rm 0xFF800000 = 0 ∧ fp32.exp2 rm 0 = 0x3F800000 ∧
        fp32.exp2 rm 0x80000000 = 0x3F800000) ∧
      (fp32.rcp rm 0x7F800000 = 0 ∧ fp32.rcp rm 0xFF800000 = 0x80000000 ∧ fp32.rcp rm 0 = 0x7F800000 ∧
        fp32.rcp rm 0x80000000 = 0xFF800000) ∧
      (fp32.rsq rm 0x7F800000 = 0 ∧ fp32.rsq rm 0xFF800000 = fp32.nan ∧ fp32.rsq rm 0 = 0x7F800000 ∧
        fp32.rsq rm 0x80000000 = 0xFF800000) ∧
      (∀ c < 2 ^ 32, fp32.value c = .nan → fp32.exp2 rm c = fp32.nan ∧ fp32.rcp rm c = fp32.nan ∧ fp32.rsq rm c = fp32.nan) ∧
      (∀ (c : Nat) (a : Bool) (m : Nat) (e n : Int), fp32.value c = .fin a m e → scaled a m e (-160) = n * 2 ^ 160 → -300 ≤ n → n < 200 →
        fp32.exp2 rm c = (fp32.code rm (.fin false 1 n)).1)) ∧
    (∀ (c : Nat) (a : Bool) (m : Nat) (e : Int), fp32.value c = .fin a m e → 0 < m →
      (fp32.rcp 1 c % 2 ^ 31 < 0x7F7FFFFF → ∃ (m' : Nat) (e' : Int), fp32.value (fp32.rcp 1 c) = .fin a m' e' ∧
        (m' : ℚ) * m * 2 ^ (e + e') ≤ 1 ∧ 1 < ((m' : ℚ) + 1) * m * 2 ^ (e + e')) ∧
      (a = false → ∃ (m' : Nat) (e' : Int), fp32.value (fp32.rsq 1 c) = .fin false m' e' ∧
        (m' : ℚ) * m' * m * 2 ^ (e + 2 * e') ≤ 1 ∧ 1 < ((m' : ℚ) + 1) * (m' + 1) * m * 2 ^ (e + 2 * e')) ∧
      (a = true → fp32.rsq 1 c = fp32.nan)))

/-! ### The matrix engine (R227 to R246) -/

/-- R228, R232, R246: a product that its configuration and its ranges let and that no earlier access holds back, and MZERO, join
the matrix engine's queue when it has room; the thread parks until the command completes, and the arithmetic may start 16 cyc later (4 for MZERO).
R228, R233: MZERO's arithmetic starts when its time has come, and the command completes 4 cyc later, when its tile is zero
and its thread goes on. R223, R224, R234, R236, R237, R239: a product's arithmetic starts when its operands are there (an
MMR's with an entry in the latch) and gives each element of its tile the sum, group by group, and of a tile pair the sum modulo q.
R238: an MRING that has committed forwards its entry when the next core's latch has room, and waits parked until then; an entry
that arrives takes its place in the next core's latch, unless that core has passed to another context since (log 108), and the
command's thread goes on. R235, R244: MQRY answers word 0
of a configuration, the latch state, or the count of failed checks. -/
def Obligations.MatrixCommandsJoinAndComplete : Prop :=
  (
    (∀ (s : State) (h : Hand) (t : Thread) (i : Instr) (kind : MatKind) (chk : Bool) (d a : Reg) (b : Option Reg) (k : Nat),
      matForm i = some (kind, chk, d, a, b) → Issues s (matKind s kind d a b) h t →
      let e := (s.core h.core).matrix
      let cfg := (e.cfg.find (t.fmt.extractLsb' 0 3).toNat).getD []
      let fmt := fieldOf cfg 0 0 4
      let pa := regOf s h t a
      let pb := match b with | some b => regOf s h t b | none => 0
      kOf cfg e.lc = some k → kind.takes fmt = true → kOk k = true → (kind.ring && decide (4096 < k * opWidth fmt)) = false →
      let rs := (cxOf h t).matRanges kind fmt k pa pb
      (cxOf h t).matEvent (begun s h) kind pa pb rs = none → (begun s h).heldBack ((cxOf h t).tid (begun s h)) false = false →
      (cxOf h t).matConflicts (begun s h) rs = false → e.queue.length < 2 → e.wants = [] →
      ∃ u q v, exec i s = .next u ∧ (u.core h.core).matrix.queue = e.queue ++ [q] ∧ q.id = s.serial ∧ q.kind = kind ∧ q.chk = chk ∧
        q.tile = aBase t.win + rn d ∧ q.k = k ∧ q.fmt = fmt ∧ q.offA = offsetOf pa ∧ q.offB = offsetOf pb ∧
        u.thread h.core h.slot = some v ∧ v.status = .parked .engine (.matrix s.serial) ∧ v.pc = t.pc ∧
        coming u (Max.max (s.cyc + 16) e.ePrev) (.matrixArithmeticStart h.core) ∧
        (u.core h.core).accs = (s.core h.core).accs ∧ u.mem = s.mem) ∧
    (∀ (s : State) (h : Hand) (t : Thread) (d : Reg), Issues s { names := { a := [rn d] }, big := false } h t →
      let e := (s.core h.core).matrix
      (t.band.toNat % 2 ≠ 0 → exec (.mzero d) s = .next ((begun s h).trap h.core h.slot 0x02 t.band t.pc 0 false)) ∧
      (t.band.toNat % 2 = 0 → e.queue.length < 2 → e.wants = [] →
      ∃ u q v, exec (.mzero d) s = .next u ∧ (u.core h.core).matrix.queue = e.queue ++ [q] ∧ q.id = s.serial ∧ q.kind = .mzero ∧
        q.tile = aBase t.win + rn d ∧ u.thread h.core h.slot = some v ∧ v.status = .parked .engine (.matrix s.serial) ∧
        coming u (Max.max (s.cyc + 4) e.ePrev) (.matrixArithmeticStart h.core) ∧ u.mem = s.mem))) ∧
  (
    (∀ (s : State) (c : Nat) (q : MatCmd), (s.core c).matrix.queue = [q] → (s.core c).matrix.flight = [] →
      (s.core c).matrix.wants = [] → q.kind = .mzero → q.chk = false → q.left = [] → q.result = [] → q.met = none → q.effect + 4 ≤ s.cyc → (s.core c).matrix.ePrev ≤ s.cyc →
      ∃ u q', exec (.matrixArithmeticStart c) s = .next u ∧ (u.core c).matrix.queue = [] ∧ (u.core c).matrix.flight = [q'] ∧
        q'.id = q.id ∧ q'.tile = q.tile ∧ q'.result = [0] ∧ q'.send = none ∧ q'.check = none ∧
        coming u (s.cyc + 4) (.matrixCommandComplete c q.id) ∧ (u.core c).accs = (s.core c).accs ∧ u.mem = s.mem) ∧
    (∀ (s : State) (c : Nat) (q : MatCmd) (e : Option Latched), (s.core c).matrix.queue = [q] → (s.core c).matrix.flight = [] →
      (s.core c).matrix.wants = [] → q.kind ≠ .mzero → q.chk = false → q.left = [] → q.result = [] → q.met = none →
      q.effect + 16 ≤ s.cyc → (s.core c).matrix.ePrev ≤ s.cyc → (q.kind ≠ .mmr → e = none) →
      (q.kind = .mmr → ∃ l rest, (s.core c).matrix.latch = l :: rest ∧ e = some l ∧ l.fmt = q.fmt ∧ l.k = q.k) →
      let o := q.operands e
      ∃ u q', exec (.matrixArithmeticStart c) s = .next u ∧ (u.core c).matrix.queue = [] ∧ (u.core c).matrix.flight = [q'] ∧
        q'.id = q.id ∧ q'.tile = q.tile ∧ q'.check = none ∧
        (q'.result, q'.sat) = q.compute o (fun n => ((s.core c).accs.find n).getD 0) ∧
        q'.send = (match q.kind, e with
          | .mring, _ => some { b := o.b, blocks := o.blkB, band := o.bandB, fmt := q.fmt, k := q.k, origin := localIndex c, hop := 1 }
          | .mmr, some l => if l.hop < 15 then some { l with hop := l.hop + 1 } else none
          | _, _ => none) ∧
        coming u (s.cyc + q.cycles + 4) (.matrixCommandComplete c q.id) ∧ (u.core c).accs = (s.core c).accs ∧ u.mem = s.mem) ∧
    (∀ (q : MatCmd) (o : Operands) (old : Nat → Tile), q.kind ≠ .mzero →
      let op (w v n : Nat) : Nat := v / 2 ^ (w * n) % 2 ^ w
      (∀ i < 8, ∀ c < 8, q.fmt = 4 → ∃ (r : Tile) (sat : Bool) (acc : Nat → Int), q.compute o old = ([r], sat) ∧
        acc 0 = ((old q.tile).extractLsb' (32 * (8 * i + c)) 32).toInt ∧
        (∀ g < q.k / 8, acc (g + 1) = Max.max (-2 ^ 31) (Min.min (2 ^ 31 - 1) (acc g + ((List.range 8).map fun j =>
          (BitVec.ofNat 8 (op 8 o.a (i * q.k + 8 * g + j))).toInt * (BitVec.ofNat 8 (op 8 o.b (c * q.k + 8 * g + j))).toInt).sum))) ∧
        (r.extractLsb' (32 * (8 * i + c)) 32).toInt = acc (q.k / 8)) ∧
      (∀ i < 8, ∀ c < 8, q.fmt < 4 → ∃ (r : Tile) (acc : Nat → Nat), q.compute o old = ([r], false) ∧
        acc 0 = ((old q.tile).extractLsb' (32 * (8 * i + c)) 32).toNat ∧
        (∀ g < q.k / 8,
          let v (n : Nat) : Fp := (opFmt q.fmt).value n
          let ps := (List.range 8).map fun j =>
            (v (op (opWidth q.fmt) o.a (i * q.k + 8 * g + j))).mul (v (op (opWidth q.fmt) o.b (c * q.k + 8 * g + j)))
          let blk (b n : Nat) : Fp := if q.fmt = 3 then blockScale (op 8 b (n * (q.k / 8) + g)) else .fin false 1 0
          acc (g + 1) = (fp32.code 0 ((fp32.value (acc g)).add 0 (((((exactSum ps).mul (blk o.blkA i)).mul (blk o.blkB c)).mul
            (bf16.value o.bandA)).mul (bf16.value o.bandB)))).1) ∧
        (r.extractLsb' (32 * (8 * i + c)) 32).toNat = acc (q.k / 8)) ∧
      (∀ i < 8, ∀ c < 8, q.fmt = 5 → 3 ≤ q.q → q.q < 2 ^ 62 → q.mu = 2 ^ 128 / q.q → ∃ lo hi : Tile, q.compute o old = ([lo, hi], false) ∧
        let el (a b : Tile) : Nat := if i < 4 then (a.extractLsb' (64 * (8 * i + c)) 64).toNat else (b.extractLsb' (64 * (8 * (i - 4) + c)) 64).toNat
        el lo hi = (el (old q.tile) (old (q.tile + 1)) +
          ((List.range q.k).map fun j => op 64 o.a (i * q.k + j) * op 64 o.b (c * q.k + j)).sum) % q.q)) ∧
    (∀ (s : State) (c : Nat) (q : MatCmd) (th : Thread), (s.core c).matrix.flight = [q] → s.reqs = [] → q.check = none →
      q.committed = false → q.send = none → q.tid.core = c →
      s.threadOf q.tid = some th → s.regionCancelled c th.region = false → warm s c th →
      (q.kind = .mmr → predecessor c ≠ c ∧ (s.core (predecessor c)).matrix.flight = []) →
      ∃ u w, exec (.matrixCommandComplete c q.id) s = .next u ∧
        (∀ i v, q.result[i]? = some v → (u.core c).accs.find (q.tile + i) = some v) ∧
        (∀ n, (n < q.tile ∨ q.tile + q.result.length ≤ n) → (u.core c).accs.find n = (s.core c).accs.find n) ∧
        (u.core c).matrix.flight = [] ∧
        (u.core c).matrix.latch = (if q.kind = .mmr then (s.core c).matrix.latch.eraseIdx q.place else (s.core c).matrix.latch) ∧
        u.thread c q.tid.slot = some w ∧ w.status = .ready ∧ w.pc = q.npc ∧
        (q.sat = false → w.fmt = th.fmt) ∧ (q.sat = true → w.fmt.getLsbD 16 = true) ∧
        (u.core c).regs = (s.core c).regs ∧ u.mem = s.mem) ∧
    (∀ (s : State) (c : Nat) (q : MatCmd) (l : Latched) (th : Thread), (s.core c).matrix.flight = [q] → q.check = none →
      q.committed = false → q.going = false → q.send = some l → q.kind = .mring → q.tid.core = c → successor c ≠ c →
      s.threadOf q.tid = some th → s.regionCancelled c th.region = false → s.ctxOf (successor c) = q.ctx →
      let n := (s.core (successor c)).matrix
      ∃ u w, exec (.matrixCommandComplete c q.id) s = .next u ∧
        (∀ i v, q.result[i]? = some v → (u.core c).accs.find (q.tile + i) = some v) ∧
        u.thread c q.tid.slot = some w ∧ w.status = th.status ∧ w.pc = q.npc ∧ u.mem = s.mem ∧
        (n.latch.length + n.coming < 2 → coming u (s.cyc + l.cycles) (.ringForward c q.id) ∧
          (u.core (successor c)).matrix.coming = n.coming + 1 ∧ (u.core c).matrix.flight = [{ q with committed := true, going := true }]) ∧
        (2 ≤ n.latch.length + n.coming → (u.core (successor c)).matrix = n ∧
          (u.core c).matrix.flight = [{ q with committed := true }] ∧ u.agenda = s.agenda)) ∧
    (∀ (s : State) (c : Nat) (q : MatCmd) (l : Latched), (s.core c).matrix.flight = [q] → q.send = some l → s.reqs = [] →
      successor c ≠ c →
      (s.threadOf q.tid = none ∨ q.tid.core = c ∧ ∃ th, s.threadOf q.tid = some th ∧ s.regionCancelled c th.region = false ∧ warm s c th) →
      ∃ u, exec (.ringForward c q.id) s = .next u ∧
        (u.core (successor c)).matrix.latch = (if s.ctxOf (successor c) = q.ctx then (s.core (successor c)).matrix.latch ++ [l]
          else (s.core (successor c)).matrix.latch) ∧
        (u.core (successor c)).matrix.coming = (s.core (successor c)).matrix.coming - 1 ∧ (u.core c).matrix.flight = [] ∧ u.mem = s.mem ∧
        (∀ th, s.threadOf q.tid = some th → ∃ w, u.thread c q.tid.slot = some w ∧ w.status = .ready ∧ w.pc = q.npc)) ∧
    (∀ (s : State) (h : Hand) (t : Thread) (d : Reg) (code : BitVec 4), Issues s { smallKind [d] with bad := decide (9 < code.toNat) } h t →
      let e := (s.core h.core).matrix
      let n := code.toNat
      (n < 8 → exec (.mqry d code) s = .next (retires s h t d (wordOf ((e.cfg.find n).getD []) 0))) ∧
      (n = 8 → ∀ l rest, e.latch = l :: rest → exec (.mqry d code) s = .next (retires s h t d
        (BitVec.ofNat 64 (e.latch.length + 4 * localIndex h.core + 64 * l.origin + 1024 * l.hop)))) ∧
      (n = 8 → e.latch = [] → exec (.mqry d code) s = .next (retires s h t d (BitVec.ofNat 64 (4 * localIndex h.core)))) ∧
      (n = 9 → exec (.mqry d code) s = .next (retires s h t d (BitVec.ofNat 64 e.checks)))))

/-- R242, R243: MST and MLDA whose control word is well-formed and whose rows stay inside their space park their thread and
send the words of their tile in ascending order, an MST its eight rows a stride apart, each element converted as its control
word says; an MST of which some byte may not be reached (R96, PERM 0x04 and 0x05) traps before any write; with every word answered,
an MLDA's tile is written. -/
def Obligations.TilesAreMovedWordByWord : Prop :=
  (∀ (s : State) (h : Hand) (t : Thread) (d a b : Reg) (fmt : Option Nat) (stride row : Nat),
    Issues s { names := { w := [rn a, rn b], a := [rn d] }, big := false } h t →
    let base := regOf s h t a
    let id := (cxOf h t).tid (begun s h)
    let w (m : Moving) : State :=
      (((begun s h).fresh.2.upThread h.core h.slot fun u => { u with moving := some m }).park h.core h.slot .mem .moving)
    let span := (List.range 8).findSome? fun i => (begun s h).spanEvent h.core t.part (base + BitVec.ofNat 64 (i * stride)) row
    sideRange base 0 ((7 * stride + row : Nat) - 1 : Int) = none →
    (begun s h).heldBack id false = false →
    (tileControl (regOf s h t b) true = some (fmt, stride, row) → ∃ m : Moving, m.id = s.serial ∧ m.load = true ∧ m.base = base ∧
      m.npc = stepPc t.pc h.len ∧ m.tile = aBase t.win + rn d ∧ m.todo = (rowWords base stride row).map (fun p => (p, 8, 0, 0)) ∧
      exec (.mlda d a b) s = .next ((w m).moveNext id (m.todo.length + 1))) ∧
    (tileControl (regOf s h t b) false = some (fmt, stride, row) → ∃ m : Moving, m.id = s.serial ∧ m.load = false ∧ m.base = base ∧
      m.npc = stepPc t.pc h.len ∧ (∀ e, span = some e → exec (.mst d a b) s =
        .next ((begun s h).trap h.core h.slot 0x09 (BitVec.ofNat 64 e) t.pc 0 false)) ∧
      (span = none → exec (.mst d a b) s = .next ((w m).moveNext id (m.todo.length + 1))) ∧
      (let tile : Tile := (s.core h.core).regA t (rn d)
       let el (n : Nat) : Nat := (tile.extractLsb' (32 * n) 32).toNat
       let rm := (t.fmt.extractLsb' 4 2).toNat
       let conv (x : Nat) : Nat × Bool := match fmt with
         | none => (x, false)
         | some 4 => let n := clampInt 8 (signedOf 32 x); (bitsOf 8 n.1, n.2)
         | some 7 => toIntBits rm 32 (fp32.value x)
         | some f => (opFmt f).code rm (fp32.value x)
       m.sat = ((List.range 64).any fun n => (conv (el n)).2) ∧
       m.todo = (List.range 8).flatMap fun i =>
         (splitWords (base + BitVec.ofNat 64 (i * stride)) row (packed row ((List.range 8).map fun j => (conv (el (8 * i + j))).1)) 9).map
           fun w => (w.1, w.2.1, BitVec.ofNat 64 w.2.2, i)) ∧
      (fmt = none → stride = 32 → row = 32 → base.toNat % 8 = 0 → m.sat = false ∧ m.todo = (List.range 32).map fun i =>
        (base + BitVec.ofNat 64 (8 * i), 8, ((s.core h.core).regA t (rn d)).extractLsb' (64 * i) 64, i / 4)))) ∧
  (∀ (s : State) (t : Tid) (th : Thread) (m : Moving) (fmt : Option Nat) (stride row : Nat), s.threadOf t = some th →
    th.status = .parked .mem .moving → th.moving = some m → m.load = true → m.todo = [] → m.left = [] → m.met = none →
    s.moveUnsure m.id = false → tileControl m.ctl true = some (fmt, stride, row) → warm s t.core th →
    ∃ v, (s.moveNext t 1).thread t.core t.slot = some v ∧ v.status = .ready ∧ v.pc = m.npc ∧ v.moving = none ∧
      ((s.moveNext t 1).core t.core).accs.find m.tile = some (m.tileValue stride row fmt (rowWords m.base stride row)) ∧
      (s.moveNext t 1).mem = s.mem)

/-! ### Special registers (R42, R43, R108, R212) -/

/-- R42, Table 2.16: RDS answers the special register that it names. R43, R182, R212: WRS writes a register that software may
write, raises ALIGN for an odd address in th.vec or th.epc, and PERM with reason 0x0A for a value or a register that it may not
write. R108: IFLUSH empties the buffer, and its thread returns 16 cyc later. -/
def Obligations.SpecialRegistersAreReadAndWritten : Prop :=
  (∀ (s : State) (h : Hand) (t : Thread) (d : Reg) (r : SpReg), Issues s (pageZero [d]) h t →
    exec (.rds d r) s = .next (retires s h t d (match r with
      | .vec => t.vec | .epc => t.epc | .cause => t.cause | .info => t.info | .lvl => if t.lvl then 1 else 0
      | .id => Tid.word (s.tidAt h.core h.slot) | .vx => t.vx | .fmt => t.fmt | .sa => t.sa | .sb => t.sb | .band => t.band
      | .rcb => t.rcb | .asid => t.asid.setWidth 64 | .win => t.win | .cyc => BitVec.ofNat 64 s.cyc
      | .coreId => BitVec.ofNat 64 h.core | .owner => (s.core h.core).owner | .ptp => BitVec.ofNat 64 s.ptp
      | .ready => s.sys.ready))) ∧
  (∀ (s : State) (h : Hand) (t : Thread) (a : Reg), Issues s (plainKind [a]) h t →
    let v := regOf s h t a
    let sets (r : SpReg) (f : Thread → Thread) : Prop :=
      exec (.wrs r a) s = .next (passes ((begun s h).upThread h.core h.slot f) h t)
    let bars (r : SpReg) : Prop := exec (.wrs r a) s = .next ((begun s h).trap h.core h.slot 0x09 0x0A t.pc 0 false)
    let odd (r : SpReg) : Prop := exec (.wrs r a) s = .next ((begun s h).trap h.core h.slot 0x02 v t.pc 0 false)
    (v.getLsbD 0 = false → sets .vec (fun u => { u with vec := v }) ∧ sets .epc (fun u => { u with epc := v })) ∧
    (v.getLsbD 0 = true → odd .vec ∧ odd .epc) ∧
    (v.toNat < 2 ^ 9 → sets .cause (fun u => { u with cause := v })) ∧ (2 ^ 9 ≤ v.toNat → bars .cause) ∧
    (v = 0 → sets .lvl (fun u => { u with lvl := false })) ∧ (v = 1 → sets .lvl (fun u => { u with lvl := true })) ∧
    (1 < v.toNat → bars .lvl) ∧
    (v.extractLsb' 40 22 = 0 → v.extractLsb' 62 2 ≠ 3 → sets .vx (fun u => { u with vx := v })) ∧
    ((v.extractLsb' 40 22 ≠ 0 ∨ v.extractLsb' 62 2 = 3) → bars .vx) ∧
    (fmtOk v = true → sets .fmt (fun u => { u with fmt := v })) ∧ (fmtOk v = false → bars .fmt) ∧
    sets .info (fun u => { u with info := v }) ∧ sets .sa (fun u => { u with sa := v }) ∧ sets .sb (fun u => { u with sb := v }) ∧
    sets .band (fun u => { u with band := v }) ∧
    (v.toNat < 4096 → (s.desc v.toNat 0).getLsbD 63 = true → (s.desc v.toNat 0).toNat % 65536 = s.ctxOf h.core →
      sets .asid (fun u => { u with asid := v.setWidth 12 })) ∧
    ((4096 ≤ v.toNat ∨ (s.desc v.toNat 0).getLsbD 63 = false ∨ (s.desc v.toNat 0).toNat % 65536 ≠ s.ctxOf h.core) → bars .asid) ∧
    bars .id ∧ bars .rcb ∧ bars .win ∧ bars .cyc ∧ bars .coreId ∧ bars .owner ∧ bars .ptp ∧ bars .ready) ∧
  (∀ (s : State) (h : Hand) (t : Thread), Issues s { big := false } h t → ∃ u v, exec .iflush s = .next u ∧
    (u.core h.core).ibuf = [] ∧ u.thread h.core h.slot = some v ∧ v.status = .parked .mem (.flush (stepPc t.pc h.len)) ∧
    coming u (s.cyc + 16) (.iflushExpiry (s.tidAt h.core h.slot)) ∧ u.mem = s.mem ∧ (u.core h.core).regs = (s.core h.core).regs)

/-! ### Sequences and shoot-downs (R290 to R292, R310 to R317, R338) -/

/-- R313, R315, R316: SEQNEW makes a live sequence of the issuer's context with a fresh key under the lowest free id, or answers
-2 while the generator fails; R313: SEQMAP answers an error of Table 16.2 or gives a page its frame, tagged with the sequence;
R292: SEQQ answers the state and the number of pages, as far as its field holds it (log 91); R291, R313: SEQUNMAP and SEQEND
of what is not there answer an error, and
otherwise shoot translations down. That the shoot-down arrives at every core half-way, 30 cyc on (log 13), and that an answer which
shoots nothing down comes no sooner (log 57), are the model's choices. -/
def Obligations.SequencesAreKeptAtTheIoDie : Prop :=
  ∀ (s : State) (n : Nat) (r : Req), s.reqs.find n = some r → r.stage = .sent → r.op = .unit → r.use = .stage stUnit →
    let answers (u : State) (v : Int) : Prop := u.reqs.find n = some { r with stage := .served, ans := [BitVec.ofInt 64 v] } ∧
      coming u (s.cyc + (r.lat + 1) / 2) (.memReply n) ∧ u.mem = s.mem
    let late (u : State) (v : Int) (d : Nat) : Prop :=
      u.reqs.find n = some { r with stage := .served, ans := [BitVec.ofInt 64 v], lat := r.lat + 2 * d } ∧ u.io = s.io
    let asks (code : Nat) : Prop := (r.args.getD 1 0).toNat = code
    let a := r.args.getD 2 0
    (∀ q, asks uSeqnew → s.io.rngFails = false → q < 65536 → s.io.seqs.has q = false → (∀ k < q, s.io.seqs.has k = true) →
      ∃ u, exec (.bankRequestArrival n) s = .next u ∧ answers u q ∧ u.io.draws = s.io.draws + 1 ∧
        u.io.seqs.find q = some { owner := r.ctx, live := true, key := s.io.draws, made := s.cyc, gone := 0, pages := [] } ∧
        (∀ k, k ≠ q → u.io.seqs.find k = s.io.seqs.find k)) ∧
    (asks uSeqnew → s.io.rngFails = true → ∃ u, exec (.bankRequestArrival n) s = .next u ∧ answers u (-2) ∧ u.io = s.io) ∧
    (∀ e, asks uSeqq → s.io.seqs.find a.toNat = some e → e.owner = r.ctx →
      ∃ u p, exec (.bankRequestArrival n) s = .next u ∧ p < 65536 ∧ (e.pages.length < 65536 → p = e.pages.length) ∧
        answers u (if e.live then 65536 * (p : Nat) + 5 else 2) ∧ u.io = s.io) ∧
    (asks uSeqq → s.io.seqs.find a.toNat = none → ∃ u, exec (.bankRequestArrival n) s = .next u ∧ answers u (-1) ∧ u.io = s.io) ∧
    (asks uSeqend → s.io.seqs.find a.toNat = none → ∃ u, exec (.bankRequestArrival n) s = .next u ∧ late u (-1) 60) ∧
    (asks uSequnmap → s.io.seqs.find (ptrSeq a) = none → ∃ u, exec (.bankRequestArrival n) s = .next u ∧ late u (-1) 60) ∧
    (asks uSeqmap → s.io.seqs.find (ptrSeq a) = none → ∃ u, exec (.bankRequestArrival n) s = .next u ∧ answers u (-1) ∧ u.io = s.io) ∧
    (∀ e, asks uSeqend → s.liveSeq r.ctx a.toNat = some e → ∃ u h, exec (.bankRequestArrival n) s = .next u ∧
      u.io.shoots.find s.serial = some h ∧ h.kind = .seqAll ∧ h.seq = a.toNat ∧ h.req = some n ∧ h.due = s.cyc + 60 ∧
      coming u (s.cyc + 30) (.shootDownArrival s.serial)) ∧
    (∀ e, asks uSequnmap → s.liveSeq r.ctx (ptrSeq a) = some e → isPagePtr a = true → e.pages.has (offsetOf a / 65536) = true →
      s.pageGoing (ptrSeq a) (offsetOf a / 65536) = false → ∃ u h, exec (.bankRequestArrival n) s = .next u ∧
      u.io.shoots.find s.serial = some h ∧ h.kind = .seqPage ∧ h.seq = ptrSeq a ∧ h.pages = [offsetOf a / 65536] ∧ h.req = some n ∧
      coming u (s.cyc + 30) (.shootDownArrival s.serial)) ∧
    (∀ e g, asks uSeqmap → s.liveSeq r.ctx (ptrSeq a) = some e → isPagePtr a = true → e.pages.has (offsetOf a / 65536) = false →
      let b := r.args.getD 3 0
      let f := b.toNat / 65536 * 65536
      let pa := offsetOf (BitVec.ofNat 64 f)
      let fr := s.frame (frameOf pa)
      spaceOf (BitVec.ofNat 64 f) = 4 → tierOf pa < 2 → b.extractLsb' 2 14 = 0 →
      s.frameBusy (frameOf pa) = false → fr.owner = ownerOf (s.kernOf r.ctx) → fr.state = .owned → fr.tag = none →
      total (s.io.seqs.map fun e => e.2.pages.length) < 1048576 →
      g = { pa := pa, w := b.getLsbD 0, atom := (if b.getLsbD 1 then 1 else 0), kern := s.kernOf r.ctx } →
      ∃ u e', exec (.bankRequestArrival n) s = .next u ∧ answers u 0 ∧ u.io.seqs.find (ptrSeq a) = some e' ∧
        e'.pages.find (offsetOf a / 65536) = some g ∧ (u.frame (frameOf pa)).tag = some (.seq (ptrSeq a)))

/-- R314, R317: XINV of a page, of an address space or of the range buffer of one that is valid and the issuer's kernel's shoots
translations down; otherwise it answers -1. When the shoot-down arrives every core drops what falls under it and keeps the
rest; it completes at its time, when no access translated before is left and every reservation section opened through what was
dropped has given its word back. One moment of arrival for every core, half of the wait (log 13), and the time of an answer that
shoots nothing down (log 57) are the model's choices. -/
def Obligations.ShootDownsDropTranslations : Prop :=
  (∀ (s : State) (n : Nat) (r : Req) (k : ShootKind), s.reqs.find n = some r → r.stage = .sent → r.op = .unit →
    r.use = .stage stUnit → (r.args.getD 1 0).toNat = uXinv →
    let a := r.args.getD 2 0
    let b := r.args.getD 3 0
    let asid := (a.extractLsb' 16 12).toNat
    let mine : Bool := (s.desc asid 0).getLsbD 63 && s.kernOf ((s.desc asid 0).toNat % 65536) == s.kernOf r.ctx
    let wait := 400 - (if isLarge r.core then 60 else 240)
    a.extractLsb' 2 14 = 0 → a.extractLsb' 28 36 = 0 →
    (a.toNat % 4 = 0 ∧ spaceOf b = 0 ∧ k = .xinvPage ∨ a.toNat % 4 = 1 ∧ b = 0 ∧ k = .xinvAsid ∨ a.toNat % 4 = 2 ∧ b = 0 ∧ k = .xinvRlb) →
    (mine = true → ∃ u h, exec (.bankRequestArrival n) s = .next u ∧ u.io.shoots.find s.serial = some h ∧ h.kind = k ∧
      h.asid = asid ∧ h.va = offsetOf b ∧ h.req = some n ∧ h.due = s.cyc + wait ∧
      coming u (s.cyc + wait / 2) (.shootDownArrival s.serial)) ∧
    (mine = false → ∃ u, exec (.bankRequestArrival n) s = .next u ∧
      u.reqs.find n = some { r with stage := .served, ans := [-1], lat := r.lat + 2 * wait } ∧ u.io = s.io)) ∧
  (∀ (s : State) (n : Nat) (h : Shoot), s.io.shoots.find n = some h → s.cache = [] →
    ∃ u, exec (.shootDownArrival n) s = .next u ∧ coming u (Max.max s.cyc h.due) (.shootDownComplete n) ∧
      (∀ c x, s.cores.find c = some x → ∃ y, u.cores.find c = some y ∧ y.tlb = x.tlb.filter (fun e => !s.entryFalls h e) ∧
        y.rlb = x.rlb.filter (fun e => !h.rangeFalls e) ∧ y.keys = x.keys.filter (fun k => !s.keyFalls h k) ∧
        y.regs = x.regs ∧ y.slots = x.slots) ∧ u.mem = s.mem) ∧
  (∀ (s : State) (n m : Nat) (h : Shoot) (r : Req), s.io.shoots.find n = some h → h.req = some m → s.reqs.find m = some r →
    h.kind = .xinvPage ∨ h.kind = .xinvAsid ∨ h.kind = .xinvRlb →
    (h.waits = [] → ∃ u, exec (.shootDownComplete n) s = .next u ∧
      u.reqs.find m = some { r with stage := .served, ans := [0] } ∧ coming u (s.cyc + (r.lat + 1) / 2) (.memReply m) ∧
      u.io = { s.io with shoots := s.io.shoots.drop n } ∧ u.mem = s.mem) ∧
    (∀ k q, h.waits = [k] → s.reqs.find k = some q → q.unperformed = true →
      ∃ u, exec (.shootDownComplete n) s = .next u ∧ coming u (s.cyc + 1) (.shootDownComplete n) ∧ u.reqs = s.reqs) ∧
    (∀ k, h.waits = [k] → s.banks.any (fun b => b.2.holds.any fun x => x.req == k && x.sect.isSome) = true →
      ∃ u, exec (.shootDownComplete n) s = .next u ∧ coming u (s.cyc + 1) (.shootDownComplete n) ∧ u.reqs = s.reqs ∧ u.mem = s.mem))

/-! ### Frames that change hands (R321 to R325, R336, R340) -/

/-- R321, R323, R336: what FACCEPT, FLEND, FRECALL, FOFFER of op 2 and FSTRIKE make of a frame's entry, and what they answer.
R324, R325: at the deadline of a frame that is being recalled the frame is owned again, the borrower has a strike more
(15 at most) and its revoked bit set, and translations are shot down at once, unless a FRETURN has stopped it (R339). R340: a
notice whose time has come waits for the inbox's next record. A frame that is lent, recalled or revoked keeps the tag of a sequence
and loses that of a page, as R310 and R337 are read in log 55; the writer's request takes no time of its own (log 26). -/
def Obligations.FramesChangeHandsAndAreRevoked : Prop :=
  (
    ∀ (s : State) (n : Nat) (r : Req) (mine : Nat), s.reqs.find n = some r → mine = s.kernOf r.ctx → mine = 1 ∨ mine = 2 →
      framePtrOk s.sys.image (r.args.getD 2 0) = true →
      let f := frameOf (offsetOf (r.args.getD 2 0))
      let e := s.frame f
      let v := r.args.getD 3 0
      let me : Owner := if mine = 1 then .host else .array
      let other : Owner := if mine = 1 then .array else .host
      let asks (code : Nat) : Prop := (r.args.getD 1 0).toNat = code
      let becomes (e' : Frame) (v : Int) : Prop := ∃ u r', exec (.fotPerform n) s = .next u ∧ u.frame f = e' ∧
        u.reqs.find n = some r' ∧ r'.stage = .served ∧ r'.ans = [BitVec.ofInt 64 v] ∧ u.mem = s.mem ∧
        (∀ g, g ≠ f → u.frame g = s.frame g)
      let accepted (x : Frame) : Frame := if mine = 1 then { x with rvh := false } else { x with rva := false }
      let lent (x : Frame) : Frame := if mine = 1 then { x with rva := false } else { x with rvh := false }
      let kept := match e.tag with | some (.seq q) => some (Tag.seq q) | _ => none
      let strikes := if mine = 1 then e.sarr else e.shost
      let limit := ((s.io.kernels.find mine).getD {}).limit
      s.frameBusy f = false → (s.io.fotWaits = [] ∨ s.io.fotWaits.head? = some n) →
      (asks uFaccept → e.owner = .free → ¬(e.state = .offered ∧ e.borrower = me) → becomes (accepted { e with owner := me }) 0) ∧
      (asks uFaccept → e.state = .offered → e.borrower = me →
        becomes (accepted { e with owner := me, borrower := .free, state := .owned }) 0) ∧
      (asks uFaccept → e.owner ≠ .free → ¬(e.state = .offered ∧ e.borrower = me) → becomes e (-1)) ∧
      (asks uFlend → v.extractLsb' 28 36 = 0 → v.extractLsb' 4 12 = 0 → e.owner = me → e.state = .owned → strikes < limit →
        (v.extractLsb' 16 12).toNat ≠ 0 → s.kidBound (v.extractLsb' 16 12).toNat r.ctx = true →
        becomes (lent { e with state := .lent, borrower := other, lkey := (v.extractLsb' 16 12).toNat, cls := v.toNat % 16, tag := kept }) 0) ∧
      (asks uFlend → v.extractLsb' 28 36 = 0 → v.extractLsb' 4 12 = 0 → e.owner = me → e.state = .owned → limit ≤ strikes →
        becomes e (-2)) ∧
      (asks uFrecall → e.owner = me → e.state = .lent →
        becomes { e with state := .recalling, deadline := s.cyc + 2 ^ (8 + e.cls), tag := kept } 0) ∧
      (asks uFrecall → (e.owner ≠ me ∨ e.state ≠ .lent) → becomes e (-1)) ∧
      (asks uFoffer → v = 2 → e.owner = me → e.state = .offered → becomes { e with state := .owned, borrower := .free } 0) ∧
      (asks uFstrike → v = 0 → e.owner = me →
        becomes (if mine = 1 then { e with sarr := 0 } else { e with shost := 0 }) strikes) ∧
      (asks uFstrike → v.toNat % 16 = 1 → v.toNat < 256 → 16 ≤ v.toNat → becomes e limit)) ∧
  (
    (∀ (s : State) (f : Nat) (kern : Nat), kern = 1 ∨ kern = 2 →
      let e := s.frame f
      let kept := match e.tag with | some (.seq q) => some (Tag.seq q) | _ => none
      e.state = .recalling → e.borrower = (if kern = 1 then .host else .array) → e.deadline = s.cyc → s.banks = [] →
      (e.stopped = false → ∃ u h, exec (.revocation f) s = .next u ∧
        u.frame f = (let x := { e with state := .owned, borrower := .free, lkey := 0, cls := 0, deadline := 0, tag := kept }
          if kern = 1 then { x with shost := Min.min 15 (e.shost + 1), rvh := true } else { x with sarr := Min.min 15 (e.sarr + 1), rva := true }) ∧
        u.io.shoots.find s.serial = some h ∧ h.kind = .revoke ∧ h.frame = f ∧ h.kern = kern ∧ h.req = none ∧
        coming u s.cyc (.shootDownArrival s.serial) ∧ u.mem = s.mem) ∧
      (e.stopped = true → exec (.revocation f) s = .next s)) ∧
    (∀ (s : State) (kern : Nat) (g : RingRef) (k : Kernel) (e : Nat × Word × Word × Nat) (rest : List (Nat × Word × Word × Nat)),
      s.io.kernels.find kern = some k → k.inbox = some g → k.notices = e :: rest → k.writing = false → e.2.2.2 + noticeTime ≤ s.cyc →
      ∃ u r, exec (.noticeWrite kern) s = .next u ∧ u.reqs.find s.serial = some r ∧ r.op = .waitEmpty ∧
        r.pa = g.base + 32 * (g.prod % 2 ^ g.log2) ∧ coming u s.cyc (.bankRequestArrival s.serial) ∧
        (∃ k', u.io.kernels.find kern = some k' ∧ k'.writing = true ∧ k'.notices = k.notices) ∧ u.mem = s.mem))


/-! ### Fetching, fills and refusals (R103, R107, R302, R304, R308, R343) -/

/-- R107: a filled line stands in its core's buffer with its words, and the thread that awaits it is ready at the same pc; R108: a
line that was on its way at an IFLUSH (`index` 1) is not kept; R20,
R30: an unassigned chain raises ILLEGAL with its reason and the position of the word at fault.
R308: a request whose key has been filled is sent, and its core holds the key; R302: a request whose translation stands
when its fill ends goes on with it, and a walk that meets a hold on a word of the tables waits for its turn
at that word (R133; how a unit of one step waits is the model's choice, log 115); R103: a refused request is sent to its place again and arrives after half its latency;
R343: a channel admits the waiting request of the smaller start tag (log 81), and comes again while one waits. -/
def Obligations.LinesKeysAndTranslationsAreFilled : Prop :=
  (
    (∀ (s : State) (c n : Nat) (r : Req) (t : Tid) (th : Thread), s.reqs = [(n, r)] → r.stage = .served → r.event = none →
      r.use = .fetch → r.index = 0 → r.tid = some t → t.core = c → isLarge c = false →
      s.threadOf t = some th → th.status = .parked .mem (.reply n) → warm s c th →
      ∃ u v, exec (.ibufLineFill c n) s = .next u ∧ u.thread c t.slot = some v ∧ v.status = .ready ∧ v.pc = th.pc ∧
        (u.core c).ibuf.head? = some ⟨if spaceOf r.ptr = 0 then r.asid else 0, r.ptr, r.pa, r.key, r.ans, r.route⟩ ∧
        u.reqs = [] ∧ u.mem = s.mem) ∧
    (∀ (s : State) (c n : Nat) (r : Req), s.reqs = [(n, r)] → r.stage = .served → r.event = none → r.use = .fetch →
      r.index = 0 → r.tid = none → isLarge c = false →
      ∃ u, exec (.ibufLineFill c n) s = .next u ∧ u.reqs = [] ∧ u.mem = s.mem ∧ u.agenda = s.agenda ∧
        (u.core c).ibuf.head? = some ⟨if spaceOf r.ptr = 0 then r.asid else 0, r.ptr, r.pa, r.key, r.ans, r.route⟩ ∧
        ∀ c', c' ≠ c → u.core c' = s.core c') ∧
    (∀ (s : State) (c n : Nat) (r : Req) (t : Tid) (th : Thread), s.reqs = [(n, r)] → r.stage = .served → r.event = none →
      r.use = .fetch → r.index = 1 → r.tid = some t → t.core = c →
      s.threadOf t = some th → th.status = .parked .mem (.reply n) → warm s c th →
      ∃ u v, exec (.ibufLineFill c n) s = .next u ∧ u.thread c t.slot = some v ∧ v.status = .ready ∧ v.pc = th.pc ∧
        (u.core c).ibuf = (s.core c).ibuf ∧ u.reqs = [] ∧ u.mem = s.mem) ∧
    (∀ (s : State) (h : Hand) (t : Thread) (reason pos : Nat), s.hand = some h → s.thread h.core h.slot = some t →
      exec (.unassignedEncoding reason pos) s =
        .next (({ s with hand := none }).trap h.core h.slot 0x01 (BitVec.ofNat 64 (reason + 256 * pos)) t.pc 0 false))) ∧
  (
    (∀ (s : State) (n : Nat) (q : Req) (pa atom : Nat) (key : KeyName) (route : Route) (log : Option Nat),
      s.reqs.find n = some q → q.stage = .keying → q.after = [] → q.use = .done →
      s.lookup q.core q.ctx q.asid q.want q.ptr = .now (.ok pa key atom route log) →
      (isLarge q.core = false → ∃ u, exec (.keyFill n) s = .next u ∧ u.reqs.find n = some { q with stage := .sent } ∧
        coming u (Max.max s.cyc q.since + q.lat / 2) (s.arrivalOf n q) ∧ key ∈ (u.core q.core).keys ∧
        (∀ c', c' ≠ q.core → u.core c' = s.core c') ∧ u.mem = s.mem) ∧
      (q.cacheable = true → exec (.keyFill n) s = .next ((s.useKey q.core key).depart n key))) ∧
    (∀ (s : State) (n : Nat) (q : Req), s.reqs.find n = some q → q.stage = .translating → q.use = .done → q.placing = false →
      (∀ t, s.lookup q.core q.ctx q.asid q.want q.ptr = .now t → exec (.translationFill n) s = .next (s.translated n t)) ∧
      (∀ a, n ≠ s.serial → s.heldWalk q.core q.ctx q.asid q.want q.ptr = some a →
        ∃ u k r, exec (.translationFill n) s = .next u ∧ s.heldIn a 1 = true ∧ u.reqs.find n = some q ∧ (k, r) ∈ u.reqs ∧
          r.op = .turn ∧ r.instr = some (.translationFill n) ∧ r.pa = a ∧ u.mem = s.mem) ∧
      (∀ time, s.lookup q.core q.ctx q.asid q.want q.ptr = .later time →
        s.heldWalk q.core q.ctx q.asid q.want q.ptr = none → exec (.translationFill n) s =
        .next ((s.refill q.core q.ctx q.asid q.want q.ptr).2.translated n (s.refill q.core q.ctx q.asid q.want q.ptr).1))) ∧
    (∀ (s : State) (n : Nat) (q : Req), s.reqs.find n = some q → q.stage = .refused →
      (q.orphan = false → ∃ u, exec (.refusedRequestResend n) s = .next u ∧
        u.reqs.find n = some { q with stage := .sent, portAt := none } ∧
        coming u (s.cyc + q.lat / 2) (s.arrivalOf n q) ∧ u.mem = s.mem ∧ u.cores = s.cores) ∧
      (q.orphan = true → exec (.refusedRequestResend n) s = .next (s.dropReq n))) ∧
    (∀ (s : State) (b : Nat) (w : Waiting) (r : Req), s.reqs.find w.req = some r →
      let takes (rest : List Waiting) : State := s.upBank b fun x =>
        { x with arrived := rest, vtime := Max.max x.vtime w.start, tags := x.tags.put (2 ^ 100 + flowOf w.ctx w.part) w.sub }
      ((s.bank b).arrived = [w] → exec (.channelAdmission b) s = .next ((takes []).takeUp w.req r)) ∧
      (∀ v : Waiting, (s.bank b).arrived = [w, v] → (w.ctx, w.part) ≠ (v.ctx, v.part) → w.req ≠ v.req → w.start < v.start →
        exec (.channelAdmission b) s = .next (((takes [v]).after 0 20 (.channelAdmission b)).takeUp w.req r))))

/-! ### Faults, records and wakes (R165 to R167, R186 to R189) -/

/-- R186: the fault unit forms a record when its event arrives; R188: it waits until word 0 of the ring's next record is empty, by a
request that takes no time of its own (the model's choice, log 26).
R189: WAKE is sent to the core of the thread it names, with PERM for a malformed action and for action 1 outside the
kernels. -/
def Obligations.RecordsAreFormedAndWakesSent : Prop :=
  (∀ (s : State) (n : Nat) (f : FRec) (x : Context), s.io.recs.find n = some f → (f.source < 2 ∨ 4 < f.source) →
    s.io.ctxs.find f.ctx = some x →
    ∃ u, exec (.faultEventArrival n) s = .next u ∧ u.io.recs.find n = some { f with formed := s.cyc } ∧
      u.io.ctxs.find f.ctx = some { x with records := x.records ++ [n] } ∧ coming u s.cyc (.faultRecordWrite f.ctx) ∧ u.mem = s.mem) ∧
  (∀ (s : State) (ctx : Nat) (x : Context) (g : RingRef) (n : Nat) (rest : List Nat), s.io.ctxs.find ctx = some x → x.ring = some g →
    x.records = n :: rest → x.writing = false →
    ∃ u r, exec (.faultRecordWrite ctx) s = .next u ∧ u.reqs.find s.serial = some r ∧ r.op = .waitEmpty ∧
      r.pa = g.base + 64 * (g.prod % 2 ^ g.log2) ∧ coming u s.cyc (.bankRequestArrival s.serial) ∧
      u.io.ctxs.find ctx = some { x with writing := true } ∧ u.mem = s.mem) ∧
  (∀ (s : State) (ctx : Nat) (x : Context), s.io.ctxs.find ctx = some x → (x.ring = none ∨ x.records = [] ∨ x.writing = true) →
    exec (.faultRecordWrite ctx) s = .next s) ∧
  (∀ (s : State) (h : Hand) (t : Thread) (i : Instr) (a b : Reg), i = .wakeResume a b ∨ i = .wakeTrap a b →
    Issues s (plainKind [a, b]) h t →
    let act := regOf s h t b
    let d := BitVec.ofNat 64 ((regOf s h t a).toNat % 2 ^ 32)
    let perm (r : Nat) : Out := .next ((begun s h).trap h.core h.slot 0x09 (BitVec.ofNat 64 r) t.pc 0 false)
    (1 < act.toNat → exec i s = perm 9) ∧
    (act = 1 → isKernelCtx (s.ctxOf h.core) = false → exec i s = perm 0x0B) ∧
    ((act = 0 ∨ act = 1 ∧ isKernelCtx (s.ctxOf h.core) = true) → isCore (tidOf d).core = true →
      ∃ u v, exec i s = .next u ∧ u.msgs.find s.serial = some (.wake d (act == 1) (s.ctxOf h.core)) ∧
        coming u (s.cyc + messageTime h.core (tidOf d).core) (.wakeArrival s.serial) ∧
        u.thread h.core h.slot = some v ∧ v.pc = stepPc t.pc h.len ∧ v.status = t.status ∧ u.mem = s.mem))

/-! ### Partitions, contexts and draining (R328 to R332, R341 to R345) -/

/-- R341: PARTSET judges its operands in the order -4, -1, -3 (the order is the model's choice, log 67), and otherwise sets a
partition of one of the issuer's kernel's contexts. R331: OWNSET's CREATE, BINDKEY, BINDASID, SETRING and SETINBOX make what they name,
or answer an error; a malformed operand answers -4, SETINBOX of another context than the issuer's too (the model's choice, log 66),
and a context that is not the issuer's kernel's -1; the order in which OWNSET's answers are judged is the model's (log 69). What an own
context's ASSIGN, BINDKEY, BINDASID and PARTSET answer, an error as well as a success, extends its measurement (R361; that the
failing ones do is the model's reading: log 68).
R344: a DRAIN whose set is empty ends with the number of blocks saved, and one whose limit has not come goes on waiting;
R345: with no item left to save it ends. R190: EVICT of a thread that is not parked on a fault answers -1 (one with a matrix command
that has yet to commit is waited for first, R245), of one that does not exist -2; RESTORE to a core that is not the kernel's, that
does not exist or whose operand has high bits set answers -3, before its block is judged (that, and the two latter: log 65). -/
def Obligations.PartitionsAreSetAndDrainsEnd : Prop :=
  (
    ∀ (s : State) (n : Nat) (r : Req), s.reqs.find n = some r → r.stage = .sent → r.op = .unit → r.use = .stage stUnit →
      let answers (u : State) (v : Int) : Prop := (∃ r', u.reqs.find n = some r' ∧ r'.stage = .served ∧ r'.ans = [BitVec.ofInt 64 v]) ∧
        coming u (s.cyc + (r.lat + 1) / 2) (.memReply n) ∧ u.mem = s.mem
      let code := (r.args.getD 1 0).toNat
      let a := r.args.getD 2 0
      let b := r.args.getD 3 0
      let op := a.toNat % 256
      let ctx := a.toNat / 256 % 65536
      let made (v : Int) : Prop := ∃ u, exec (.bankRequestArrival n) s = .next u ∧ answers u v ∧ u.io = s.io
      let judged (c o : Nat) (v : Int) : Prop := ∃ u, exec (.bankRequestArrival n) s = .next u ∧ answers u v ∧
        u.io = (if s.ownCtx r.ctx c && [3, 4, 6, uPartset].contains o then s.measure c a b v else s).io
      let mask := (r.args.getD 4 0).toNat
      let w := r.args.getD 5 0
      (code = uPartset → (a.extractLsb' 19 45 ≠ 0 ∨ (r.args.getD 5 0).extractLsb' 16 48 ≠ 0) → judged (a.toNat % 65536) uPartset (-4)) ∧
      (∀ x, code = uPartset → a.extractLsb' 19 45 = 0 → w.extractLsb' 16 48 = 0 → s.ownCtx r.ctx (a.toNat % 65536) = true →
        s.io.ctxs.find (a.toNat % 65536) = some x →
        ((∃ e ∈ x.parts, e.1 ≠ a.toNat / 65536 % 8 ∧ mask &&& e.2.slots ≠ 0) ∨
          w.toNat / 256 % 256 ≠ 0 ∧ (mask = 0 ∨ w.toNat % 256 = 0) ∨
          w.toNat / 256 % 256 = 0 ∧ s.partLives (a.toNat % 65536) (a.toNat / 65536 % 8) = true) →
        judged (a.toNat % 65536) uPartset (-3)) ∧
      (code = uPartset → a.extractLsb' 19 45 = 0 → (r.args.getD 5 0).extractLsb' 16 48 = 0 →
        s.ownCtx r.ctx (a.toNat % 65536) = false → made (-1)) ∧
      (∀ x, code = uPartset → a.extractLsb' 19 45 = 0 → (r.args.getD 5 0).extractLsb' 16 48 = 0 →
        s.ownCtx r.ctx (a.toNat % 65536) = true → s.io.ctxs.find (a.toNat % 65536) = some x →
        (x.parts.any fun e => e.1 != a.toNat / 65536 % 8 && ((r.args.getD 4 0).toNat &&& e.2.slots) != 0) = false →
        0 < (r.args.getD 5 0).toNat / 256 → (r.args.getD 4 0) ≠ 0 → (r.args.getD 5 0).toNat % 256 ≠ 0 → s.dies = [] → s.coresOf (a.toNat % 65536) = [] →
        ∃ u x', exec (.bankRequestArrival n) s = .next u ∧ answers u 0 ∧ u.io.ctxs.find (a.toNat % 65536) = some x' ∧
          x'.parts.find (a.toNat / 65536 % 8) = some ⟨(r.args.getD 4 0).toNat, (r.args.getD 5 0).toNat % 256,
            (r.args.getD 5 0).toNat / 256 % 256⟩ ∧ x'.key = x.key ∧ x'.kern = x.kern) ∧
      (code = uOwnset → ownsetOk a b = false → op ≠ uPartset → judged ctx op (-4)) ∧
      (code = uOwnset → ownsetOk a b = false → op = uPartset → made (-4)) ∧
      (code = uOwnset → ownsetOk a b = true → op ≠ 1 → s.ownCtx r.ctx ctx = false → made (-1)) ∧
      (∀ c k, code = uOwnset → op = 1 → ownsetOk a b = true → b.getLsbD 1 = false → s.freeCtx = some c → s.freeKid = some k → s.io.rngFails = false →
        ∃ u x, exec (.bankRequestArrival n) s = .next u ∧ answers u c ∧ u.io.ctxs.find c = some x ∧ x.kern = s.kernOf r.ctx ∧
          x.conf = b.getLsbD 0 ∧ x.key = s.io.draws ∧ u.io.draws = s.io.draws + 1 ∧ u.io.kids = s.io.kids) ∧
      (∀ k, code = uOwnset → op = 4 → ownsetOk a b = true → s.ownCtx r.ctx ctx = true → s.freeKid = some k → s.io.rngFails = false →
        ∃ u, exec (.bankRequestArrival n) s = .next u ∧ answers u k ∧ u.io.kids.find k = some (ctx, s.io.draws) ∧
          u.io.draws = s.io.draws + 1) ∧
      (code = uOwnset → op = 6 → ownsetOk a b = true → s.ownCtx r.ctx ctx = true → (s.desc b.toNat 0).getLsbD 63 = false →
        ∃ u, exec (.bankRequestArrival n) s = .next u ∧ answers u 0 ∧
          u.desc b.toNat 0 = BitVec.ofNat 64 (2 ^ 63 + (s.kernOf ctx - 1) * 65536 + ctx)) ∧
      (∀ x, code = uOwnset → op = 8 → ownsetOk a b = true → s.ownCtx r.ctx ctx = true → s.io.ctxs.find ctx = some x → s.reqs = [(n, r)] →
        ∃ u, exec (.bankRequestArrival n) s = .next u ∧ answers u 0 ∧
          u.io.ctxs.find ctx = some { x with writing := false, ring := some { base := offsetOf b / 64 * 64, log2 := b.toNat % 32, key := (s.context r.ctx).key, prod := 0 } } ∧
          coming u s.cyc (.faultRecordWrite ctx)) ∧
      (∀ k, code = uOwnset → op = 9 → ownsetOk a b = true → s.ownCtx r.ctx ctx = true → ctx = r.ctx →
        s.io.kernels.find (s.kernOf r.ctx) = some k → s.reqs = [(n, r)] →
        ∃ u, exec (.bankRequestArrival n) s = .next u ∧ answers u 0 ∧
          u.io.kernels.find (s.kernOf r.ctx) = some { k with writing := false, inbox := some { base := offsetOf b / 64 * 64, log2 := b.toNat % 32, key := (s.context r.ctx).key, prod := 0 } } ∧
          coming u s.cyc (.noticeWrite (s.kernOf r.ctx))) ∧
      (code = uOwnset → op = 9 → ownsetOk a b = true → s.ownCtx r.ctx ctx = true → ctx ≠ r.ctx → made (-4))) ∧
  (
    (∀ (s : State) (n : Nat) (d : Drain) (q : Req), s.io.drains.find n = some d → s.reqs.find n = some q →
      (s.heldIn d.dpa 1 = false → s.drained d = true → exec (.drainLimitExpiry n) s = .next (s.drainEnd n d d.saved)) ∧
      (s.heldIn d.dpa 1 = false → s.drained d = false → (d.area = 0 ∨ s.cyc < d.limit) → exec (.drainLimitExpiry n) s = .next s) ∧
      (s.heldIn d.dpa 1 = true → exec (.drainLimitExpiry n) s = .next (s.drainWaits n d d.dpa))) ∧
    (∀ (s : State) (n : Nat) (r : Req), s.reqs.find n = some r → r.stage = .sent → (r.op = .write [] true ∨ r.op = .block 0) →
      r.use = .stage stBlock → s.lostAt r.pa = false → s.admitEvent r = none → headWords r.ptr = 928 → s.heldIn r.pa 928 = false →
      let answers (v : Int) : Prop := ∃ u r', exec (.bankRequestArrival n) s = .next u ∧ u.reqs.find n = some r' ∧ r'.stage = .served ∧
        r'.ans = [BitVec.ofInt 64 v] ∧ u.mem = s.mem ∧ u.cores = s.cores
      let a := r.args.getD 2 0
      let t := tidOf (BitVec.ofNat 64 (a.toNat % 2 ^ 32))
      let core := (r.args.getD 3 0).toNat
      (r.args.getD 1 0 = 0 → s.threadOf t = none → answers (-2)) ∧
      (∀ th, r.args.getD 1 0 = 0 → s.threadOf t = some th → a.toNat < 2 ^ 32 → s.kernOf (s.ctxOf t.core) = s.kernOf r.ctx →
        (match th.status with | .parked _ (.fault _ _ _ _ _ _) => False | _ => True) → s.inMatrix t.core th = false → answers (-1)) ∧
      (r.args.getD 1 0 = 1 → s.poisoned r.pa 928 = false → s.fixedIn r.pa 928 = 0 → (2 ^ 18 ≤ core ∨ isCore core = false ∨ s.kernOf (s.ctxOf core) ≠ s.kernOf r.ctx) → answers (-3))))


/-! ### Links and rings (R118, R119, R352 to R358, R365) -/

/-- R355: an entry of a wrong tag or with nonzero zero fields is dropped and counted, one of a sequence number below the next
likewise, and one of a number above it halts the ring with the number kept; of one that is accepted the slot is emptied, the
next number raised, and it is performed (a launch that waits for room is due, log 71); R356: a hot reset clears the keys and halts
the running rings, and tells the host kernel; that it ends the sessions below 65,536, which come by the endpoint, is the model's
choice (log 73). -/
def Obligations.RingEntriesAreJudged : Prop :=
  (∀ (s : State) (n : Nat) (i : Instr), i = .ringEntryLaunch n ∨ i = .ringEntryFill n ∨ i = .ringEntryUnknownKind n →
    let g := s.ring n
    let q := wordOf g.entry 0
    g.entry ≠ [] → g.due = false →
    ((g.tagOk && g.zerosOk) = false → exec i s = .next (((s.emptySlot n).ringCount n 4 32).ringDone n)) ∧
    (g.tagOk = true → g.zerosOk = true → q.toNat < (g.word 2).toNat →
      exec i s = .next (((s.emptySlot n).ringCount n 4 0).ringDone n)) ∧
    (g.tagOk = true → g.zerosOk = true → (g.word 2).toNat < q.toNat → ∃ u, exec i s = .next u ∧ (u.ring n).state = 2 ∧
      (u.ring n).word 5 = q ∧ (u.ring n).word 2 = g.word 2 ∧ (u.ring n).entry = [] ∧ (∀ k, k ≠ n → u.ring k = s.ring k) ∧ u.mem = s.mem) ∧
    (g.tagOk = true → g.zerosOk = true → q = g.word 2 →
      let b := (s.emptySlot n).upRing n fun g => { g with ws := g.ws.put 2 (q + 1) }
      (i = .ringEntryUnknownKind n → exec i s = .next ((b.ringCount n 6 0).ringDone n)) ∧
      (i = .ringEntryFill n → exec i s = .next ((b.ringStore n (wordOf (b.ring n).entry 2) (wordOf (b.ring n).entry 3)).ringDone n)) ∧
      (i = .ringEntryLaunch n → exec i s = .next (b.ringLaunch n)))) ∧
  (∀ (s : State) (n : Nat), (s.ring n).entry ≠ [] → (s.ring n).due = true →
    exec (.ringEntryLaunch n) s = .next (s.ringLaunch n)) ∧
  (∀ s : State, s.reqs = [] → s.links.farWrites = [] → ∃ u, exec .hotReset s = .next u ∧
    (∀ n, (u.ring n).key = none) ∧ (∀ n < 64, (s.ring n).state = 1 → (u.ring n).state = 2) ∧
    (∀ e ∈ u.links.sessions, 65536 ≤ e.1) ∧ (∀ k, s.io.kernels.find 1 = some k → ∃ k', u.io.kernels.find 1 = some k' ∧
      k'.notices = k.notices ++ [(10, 0, 0, s.cyc)]) ∧ u.mem = s.mem)

/-- R118, R352, R358, R365: before bring-up has completed an inbound request is answered with Unsupported Request, one from Exrin by
the model's choice (log 112), and a configuration request with Request Retry Status; afterwards a write or a read comes to the ordering point, and an AtomicOp
is answered with Unsupported Request. An Exrin request's address is a physical one in space 4 (log 19). R358: a flit that fails authentication is asked for again, and the third failure in a row
takes its port down. R119: a store whose far end has completed is no longer outstanding. -/
def Obligations.InboundRequestsAreOrdered : Prop :=
  (∀ (s : State) (addr : Word) (data : List Byte) (n pkg : Nat) (ro : Bool),
    let out (x : Sent) : Out := .next (s.upLinks fun l => { l with outbox := l.outbox ++ [x] })
    exec (.pcieInboundAtomicop addr) s = out .unsupported ∧
    (s.sys.ready.getLsbD 0 = false → exec (.pcieInboundWrite addr data ro) s = out .unsupported ∧
      exec (.pcieInboundRead addr n) s = out .unsupported ∧ exec .pcieConfigurationRequest s = out .retry ∧
      exec (.exrinInboundRequest pkg addr data true ro) s = out .unsupported) ∧
    (s.sys.ready.getLsbD 0 = true → exec .pcieConfigurationRequest s = out (.completion []))) ∧
  (∀ (s : State) (addr : Word) (data : List Byte) (ro : Bool) (pkg : Nat), s.sys.ready.getLsbD 0 = true → addr.toNat % 8 = 0 →
    data.length = 8 →
    let one (u : State) (i : Inbound) : Prop := u.links.inbound = s.links.inbound ++ [i] ∧ i.seq = s.serial ∧
      coming u s.cyc .orderingPointSend ∧ u.mem = s.mem
    (∃ u i, exec (.pcieInboundWrite addr data ro) s = .next u ∧ one u i ∧ i.addr = addr ∧ i.data = data ∧ i.read = 0 ∧ i.ro = ro ∧ i.src = 0) ∧
    (∃ u i, exec (.pcieInboundRead addr 8) s = .next u ∧ one u i ∧ i.addr = addr ∧ i.read = 8 ∧ i.src = 0) ∧
    (∃ u i, exec (.exrinInboundRequest pkg addr data true true) s = .next u ∧ one u i ∧ i.data = data ∧ i.read = 0 ∧ i.ro = false ∧
      i.src = pkg + 1 ∧ offsetOf i.addr = addr.toNat % 2 ^ 57 ∧ spaceOf i.addr = 4)) ∧
  (∀ (s : State) (port : Nat), s.links.downPorts.contains port = false →
    let before := (s.links.failures.find port).getD 0
    (∃ u, exec (.exrinFlitReceive port true) s = .next u ∧ u.links.failures.find port = some 0 ∧ u.links.outbox = s.links.outbox) ∧
    (∃ u, exec (.exrinFlitReceive port false) s = .next u ∧ u.links.failures.find port = some (before + 1) ∧
      u.links.outbox = s.links.outbox ++ [.retry] ∧ (port ∈ u.links.downPorts ↔ 3 ≤ before + 1))) ∧
  (∀ s : State, s.links.inbound = [] → exec .orderingPointSend s = .next s) ∧
  (∀ (s : State) (i : Inbound), s.links.inbound = [i] → s.links.sending = [] → exec .orderingPointSend s = .next (s.sendIn i)) ∧
  (∀ (s : State) (n : Nat), ∃ u, exec (.farEndCompletion n) s = .next u ∧
    u.links.farWrites = s.links.farWrites.filter (fun w => !(w.2.1 == n)) ∧ u.mem = s.mem)

/-! ### The security core (R316, R357, R361, R362) -/

/-- R361, R362: the security core answers every SPDM request: the version, what it supports, the digest of its certificate chain,
the chain, a signed nonce; GET_MEASUREMENTS with the measurements of indices 1 to 4 and, in a session bound to a context, that
context's at index 5; KEY_EXCHANGE, FINISH and END_SESSION begin, complete and end a session; BIND is the first vendor-defined
request of a session that has finished, RINGKEY needs a bound session and installs a key in a ring of its context, a payload of
another length answers status 4 and an unknown opcode status 5. The request codes, the items of a response and the order of the
statuses are the model's (log 20); certificate chain, nonces and signatures are free values (log 7); the first link and the byte
order of the hash chain at index 5 are the model's (log 68). -/
def Obligations.TheSecurityCoreAnswers : Prop :=
  (∀ (s : State) (n : Nat),
    let answers (code status : Nat) (p : List SpdmItem) (u : State) : Prop :=
      u.links.outbox = s.links.outbox ++ [.spdm code n status p] ∧ u.mem = s.mem ∧ u.io = s.io
    let digest (i : Nat) : BitVec 512 := s.sys.image.digests.getD (i - 1) (Config.imageDigest i)
    let chain := Config.certificates (Config.deviceKey (digest 1))
    let stage (i : Nat) : SpdmItem := .measurement i (digest i)
    let signed (k : Nat) : SpdmItem := .signature (Config.signature (Config.transcript k))
    let tells (i : Instr) (code : Nat) (p : List SpdmItem) : Prop := ∃ u, exec i s = .next u ∧ answers code 0 p u ∧ u.links.sessions = s.links.sessions
    tells (.getVersion n) rGetVersion [.version 0x13] ∧
    tells (.getCapabilities n) rGetCapabilities ([rGetVersion, rGetCapabilities, rNegotiateAlgorithms, rGetDigests, rGetCertificate,
      rChallenge, rGetMeasurements, rKeyExchange, rFinish, rEndSession].map .request) ∧
    tells (.negotiateAlgorithms n) rNegotiateAlgorithms ([.ed448, .sha3, .secp384r1, .aes256gcm].map .algorithm) ∧
    tells (.getDigests n) rGetDigests [.digest (sha3 chain)] ∧
    tells (.getCertificate n) rGetCertificate [.certificates chain] ∧
    tells (.challenge n) rChallenge [.digest (sha3 chain), .nonce (Config.nonce s.free), signed s.free] ∧
    ((s.links.sessions.find n = none ∨ ∃ e, s.links.sessions.find n = some e ∧ e.bound = none) →
      tells (.getMeasurements n) rGetMeasurements [stage 1, stage 2, stage 3, stage 4]) ∧
    (∀ e c, s.links.sessions.find n = some e → e.bound = some c →
      tells (.getMeasurements n) rGetMeasurements [stage 1, stage 2, stage 3, stage 4,
        .measurement 5 (measurementChain (s.context c).measured)]) ∧
    (∃ u e, exec (.keyExchange n) s = .next u ∧ answers rKeyExchange 0 [.exchange (Config.exchangeKey s.free), signed s.free] u ∧
      u.free = s.free + 1 ∧ u.links.sessions.find n = some e ∧ e.stage = 1 ∧ e.bound = none ∧ e.asked = false) ∧
    (∀ e, s.links.sessions.find n = some e → e.stage = 1 → ∃ u, exec (.finish n) s = .next u ∧ answers rFinish 0 [] u ∧
      u.links.sessions.find n = some { e with stage := 2 }) ∧
    (∃ u, exec (.endSession n) s = .next u ∧ answers rEndSession 0 [] u ∧ u.links.sessions = s.links.sessions.drop n)) ∧
  (∀ (s : State) (n : Nat) (e : Session), s.links.sessions.find n = some e → e.stage = 2 →
    let answers (op status : Nat) (u : State) : Prop :=
      u.links.outbox = s.links.outbox ++
        [.spdm rVendor n status [.names Config.standardsBody Config.vendorName, .opcode op]] ∧ u.mem = s.mem
    let two (x y : Byte) : Nat := x.toNat + 256 * y.toNat
    (∀ x y, e.asked = false → s.io.ctxs.has (two x y) = true → ∃ u, exec (.bind n [x, y]) s = .next u ∧ answers 1 0 u ∧
      u.links.sessions.find n = some { e with asked := true, bound := some (two x y) }) ∧
    (∀ x y, e.asked = false → s.io.ctxs.has (two x y) = false → ∃ u, exec (.bind n [x, y]) s = .next u ∧ answers 1 1 u ∧
      u.links.sessions.find n = some { e with asked := true }) ∧
    (∀ p, p.length = 2 → e.asked = true → ∃ u, exec (.bind n p) s = .next u ∧ answers 1 2 u ∧ u.links.sessions.find n = some e) ∧
    (∀ p, p.length ≠ 2 → ∃ u, exec (.bind n p) s = .next u ∧ answers 1 4 u ∧ u.links.sessions.find n = some { e with asked := true }) ∧
    (∀ p, p.length ≠ 1 → ∃ u, exec (.ringkey n p) s = .next u ∧ answers 2 4 u ∧ u.links.rings = s.links.rings) ∧
    (∀ r, e.bound = none → ∃ u, exec (.ringkey n [r]) s = .next u ∧ answers 2 3 u ∧ u.links.rings = s.links.rings) ∧
    (∀ (r : Byte) c, e.bound = some c → 64 ≤ r.toNat → ∃ u, exec (.ringkey n [r]) s = .next u ∧ answers 2 4 u ∧ u.links.rings = s.links.rings) ∧
    (∀ (r : Byte) c, e.bound = some c → r.toNat < 64 → (s.ring r.toNat).ctx ≠ c → ∃ u, exec (.ringkey n [r]) s = .next u ∧
      answers 2 1 u ∧ u.links.rings = s.links.rings) ∧
    (∀ (r : Byte) c, e.bound = some c → r.toNat < 64 → (s.ring r.toNat).ctx = c → ∃ u, exec (.ringkey n [r]) s = .next u ∧
      answers 2 0 u ∧ (u.ring r.toNat).key = some (ringKeyOf e.secret r.toNat) ∧ (∀ k, k ≠ r.toNat → u.ring k = s.ring k) ∧
      ((s.ring r.toNat).state ≠ 1 → (u.ring r.toNat).state = (s.ring r.toNat).state) ∧
      ((s.ring r.toNat).state = 1 → (u.ring r.toNat).state = 3)) ∧
    (∀ op, ∃ u, exec (.vendorUnknownOpcode n op) s = .next u ∧ answers op 5 u ∧
      u.links.sessions.find n = some { e with asked := true })) ∧
  (∀ s : State, exec .rngHealthFailure s = .next { s with io := { s.io with rngFails := true } } ∧
    exec .startUpTestsPassed s = .next { s with io := { s.io with rngFails := false } }) ∧
  (∀ (s : State) (port : Nat), (s.bank (Home.port port).num).arrived = [] → (s.bank (Home.port port).num).queue = [] →
    (s.bank (Home.port port).num).waiters = [] → ∃ u, exec (.cxlDeviceLost port) s = .next u ∧ port ∈ u.links.lost ∧
      u.reqs = s.reqs ∧ u.mem = s.mem)

/-! ### Kernels, power and time (R347, R348, R351, R364 to R366) -/

/-- R347, R348: an uncorrectable error of a kernel's core terminates that kernel, and one of another core parks its threads; a
terminated kernel's other kernel is told (a notice of kind 8), and the kernel restarts at its entry, of which the other is told
too (kind 9); the cycle in which such a notice is written, 316 cyc later, is the model's (noticeTime: log 26, DEDUCED; R340 leaves it open).
The delay of the restart and the throttle's pace are the model's (log 75), and so are a bring-up that fails and the state without
power (log 76). R351, R366: a module whose power is removed or that shuts down for heat holds nothing. R364: a timing
message sets the time. R111: a held core issues again. -/
def Obligations.KernelsRestartAndPowerComesAndGoes : Prop :=
  (∀ (s : State) (c : Nat),
    (isLarge c = true → exec (.uncorrectableCoreStateError c) s = .next (s.after 0 20 (.kernelTermination 1))) ∧
    (isLarge c = false → isKernelCore c = true →
      exec (.uncorrectableCoreStateError c) s = .next (s.after 0 20 (.kernelTermination 2))) ∧
    (∀ k t, isLarge c = false → isKernelCore c = false → (s.core c).slots = [(k, { thread := some t })] → t.sect = none → s.reqs = [] →
      ∃ u v, exec (.uncorrectableCoreStateError c) s = .next u ∧ u.thread c k = some v ∧
        v.status = .parked .fault (.fault (match t.status with | .parked _ (.fault r _ _ _ _ _) => r | _ => t.pc) 0x12 0 t.pc 0 none))) ∧
  (∀ (s : State) (kern : Nat) (k : Kernel), kern = 1 ∨ kern = 2 → s.io.kernels.find kern = some k → k.down = true →
    let c := if kern = 1 then 0x0FF00 else 0
    ∃ u v, exec (.kernelRestart kern) s = .next u ∧ u.thread c 0 = some v ∧
      v.pc = (if kern = 1 then s.sys.image.hostEntry else s.sys.image.arrayEntry) ∧ v.lvl = false ∧
      (∃ k', u.io.kernels.find kern = some k' ∧ k'.down = false) ∧
      (∀ o, s.io.kernels.find (3 - kern) = some o → ∃ o', u.io.kernels.find (3 - kern) = some o' ∧
        o'.notices = o.notices ++ [(9, 0, 0, s.cyc)]) ∧
      coming u (s.cyc + noticeTime) (.noticeWrite (3 - kern))) ∧
  (∀ (s : State) (kern : Nat) (k : Kernel), s.io.kernels.find kern = some k → k.down = false → exec (.kernelRestart kern) s = .next s) ∧
  (∀ (s : State) (kern : Nat), (kern ≠ 1 ∧ kern ≠ 2 → exec (.kernelTermination kern) s = .next s) ∧
    (kern = 1 ∨ kern = 2 → ∃ u, exec (.kernelTermination kern) s = .next u ∧
      coming u (u.cyc + Config.freeNat (u.free - 1)) (.kernelRestart kern) ∧
      (∀ k, s.io.kernels.find kern = some k → ∃ k', u.io.kernels.find kern = some k' ∧ k'.down = true) ∧
      (∀ o, s.io.kernels.find (3 - kern) = some o → ∃ o', u.io.kernels.find (3 - kern) = some o' ∧
        o'.notices = o.notices ++ [(8, 0, 0, s.cyc)]) ∧
      coming u (s.cyc + noticeTime) (.noticeWrite (3 - kern)))) ∧
  (∀ s : State, (∃ u, exec .thermalShutdown s = .next u ∧ u.mem = {} ∧ u.cores = [] ∧ u.sys.powered = false) ∧
    (∃ u, exec .powerRemoved s = .next u ∧ u.mem = {} ∧ u.cores = [] ∧ u.reqs = [] ∧ u.agenda = [] ∧
      u.sys.powered = false ∧ u.sys.ready = 0 ∧ u.sys.image = s.sys.image) ∧
    exec .thermalShutdown s = exec .powerRemoved s ∧
    (s.sys.powered = true → exec .powerUp s = .next s) ∧
    (s.sys.powered = false → Config.failedStage s.free = none → ∃ u, exec .powerUp s = .next u ∧ u.sys.ready = (if s.sys.image.attached then 5 else 1) ∧ u.sys.powered = true ∧
      u.mem = {} ∧ u.free = s.free + 1) ∧
    (∀ k, s.sys.powered = false → Config.failedStage s.free = some k → ∃ u, exec .powerUp s = .next u ∧ u.sys.powered = true ∧
      u.sys.ready.getLsbD 0 = false ∧ u.sys.ready.toNat / 256 = k.val + 1 ∧ u.cores = s.cores)) ∧
  (∀ (s : State) (v : Word), ∃ u, exec (.ieee1588TimingMessage v) s = .next u ∧ u.ptp = v.toNat ∧ u.cyc = s.cyc ∧ u.mem = s.mem) ∧
  (∀ (s : State) (c : Nat), ∃ u, exec (.heldCoreRelease c) s = .next u ∧ (u.core c).held = false ∧
    (u.core c).regs = (s.core c).regs ∧ u.mem = s.mem) ∧
  (∀ s : State, ∃ u, exec .thermalThrottle s = .next u ∧ u.sys.throttle = true ∧ u.mem = s.mem ∧
    ∀ c, (u.core c).regs = (s.core c).regs)
end

