-- ==== Sys2Proof/Laws/Maps.lean ====
section
/-! SUPPORT. Sparse tables: what is found after a change, and the order of the numbers. -/

namespace Sys2Proof.Machine

variable {α β : Type}

@[simp] theorem Map.find_nil (n : Nat) : Map.find ([] : Map α) n = none := rfl

@[simp] theorem Map.find_put_self (m : Map α) (n : Nat) (v : α) : (m.put n v).find n = some v := by
  induction m with
  | nil => simp [Map.put, Map.find]
  | cons e rest ih =>
    obtain ⟨k, w⟩ := e
    simp only [Map.put]
    split
    · simp [Map.find]
    · split
      · simp [Map.find]
      · rename_i h; simp [Map.find, ih, Ne.symm h]

@[simp] theorem Map.find_put_other (m : Map α) {n n' : Nat} (v : α) (h : n' ≠ n) : (m.put n v).find n' = m.find n' := by
  induction m with
  | nil => simp [Map.put, Map.find, Ne.symm h]
  | cons e rest ih =>
    obtain ⟨k, w⟩ := e
    simp only [Map.put]
    split
    · simp [Map.find, Ne.symm h]
    · split
      · rename_i hk; subst hk; simp [Map.find, Ne.symm h]
      · simp [Map.find, ih]

theorem Map.find_put (m : Map α) (n n' : Nat) (v : α) : (m.put n v).find n' = if n' = n then some v else m.find n' := by
  by_cases h : n' = n
  · simp [h]
  · simp [h]

@[simp] theorem Map.find_adjust_self (m : Map α) (n : Nat) (f : α → α) : (m.adjust n f).find n = (m.find n).map f := by
  induction m with
  | nil => rfl
  | cons e rest ih =>
    obtain ⟨k, w⟩ := e
    simp only [Map.adjust, List.map_cons] at ih ⊢
    by_cases h : k = n
    · simp [h, Map.find]
    · simpa [h, Map.find] using ih

@[simp] theorem Map.find_adjust_other (m : Map α) {n n' : Nat} (f : α → α) (h : n' ≠ n) :
    (m.adjust n f).find n' = m.find n' := by
  induction m with
  | nil => rfl
  | cons e rest ih =>
    obtain ⟨k, w⟩ := e
    simp only [Map.adjust, List.map_cons] at ih ⊢
    by_cases hk : k = n
    · subst hk; simpa [Map.find, Ne.symm h] using ih
    · simp [hk, Map.find, ih]

@[simp] theorem Map.find_drop_other (m : Map α) {n n' : Nat} (h : n' ≠ n) : (m.drop n).find n' = m.find n' := by
  induction m with
  | nil => rfl
  | cons e rest ih =>
    obtain ⟨k, w⟩ := e
    simp only [Map.drop]
    split
    · rename_i hk; subst hk; simp [Map.find, Ne.symm h]
    · simp [Map.find, ih]

end Sys2Proof.Machine
end

