-- ==== Sys2Proof/Laws/State.lean ====
section
/-! SUPPORT. One lemma per field of the state and update: what an update leaves, and what it writes. -/

namespace Sys2Proof.Machine

variable (s : State)

/-! ### setCore -/

@[simp] theorem State.setCore_cyc (c : Nat) (x : Core) : (s.setCore c x).cyc = s.cyc := rfl
@[simp] theorem State.setCore_agenda (c : Nat) (x : Core) : (s.setCore c x).agenda = s.agenda := rfl
@[simp] theorem State.setCore_hand (c : Nat) (x : Core) : (s.setCore c x).hand = s.hand := rfl
@[simp] theorem State.setCore_serial (c : Nat) (x : Core) : (s.setCore c x).serial = s.serial := rfl
@[simp] theorem State.setCore_free (c : Nat) (x : Core) : (s.setCore c x).free = s.free := rfl
@[simp] theorem State.setCore_cores (c : Nat) (x : Core) : (s.setCore c x).cores = s.cores.put c x := rfl
@[simp] theorem State.setCore_mem (c : Nat) (x : Core) : (s.setCore c x).mem = s.mem := rfl
@[simp] theorem State.setCore_banks (c : Nat) (x : Core) : (s.setCore c x).banks = s.banks := rfl
@[simp] theorem State.setCore_reqs (c : Nat) (x : Core) : (s.setCore c x).reqs = s.reqs := rfl
@[simp] theorem State.setCore_msgs (c : Nat) (x : Core) : (s.setCore c x).msgs = s.msgs := rfl
@[simp] theorem State.setCore_cancels (c : Nat) (x : Core) : (s.setCore c x).cancels = s.cancels := rfl
@[simp] theorem State.setCore_clusters (c : Nat) (x : Core) : (s.setCore c x).clusters = s.clusters := rfl
@[simp] theorem State.setCore_dies (c : Nat) (x : Core) : (s.setCore c x).dies = s.dies := rfl
@[simp] theorem State.setCore_cache (c : Nat) (x : Core) : (s.setCore c x).cache = s.cache := rfl
@[simp] theorem State.setCore_cacheMax (c : Nat) (x : Core) : (s.setCore c x).cacheMax = s.cacheMax := rfl
@[simp] theorem State.setCore_frames (c : Nat) (x : Core) : (s.setCore c x).frames = s.frames := rfl
@[simp] theorem State.setCore_saved (c : Nat) (x : Core) : (s.setCore c x).saved = s.saved := rfl
@[simp] theorem State.setCore_touched (c : Nat) (x : Core) : (s.setCore c x).touched = s.touched := rfl
@[simp] theorem State.setCore_io (c : Nat) (x : Core) : (s.setCore c x).io = s.io := rfl
@[simp] theorem State.setCore_links (c : Nat) (x : Core) : (s.setCore c x).links = s.links := rfl
@[simp] theorem State.setCore_sys (c : Nat) (x : Core) : (s.setCore c x).sys = s.sys := rfl

/-! ### upCore -/

@[simp] theorem State.upCore_cyc (c : Nat) (f : Core → Core) : (s.upCore c f).cyc = s.cyc := rfl
@[simp] theorem State.upCore_agenda (c : Nat) (f : Core → Core) : (s.upCore c f).agenda = s.agenda := rfl
@[simp] theorem State.upCore_hand (c : Nat) (f : Core → Core) : (s.upCore c f).hand = s.hand := rfl
@[simp] theorem State.upCore_serial (c : Nat) (f : Core → Core) : (s.upCore c f).serial = s.serial := rfl
@[simp] theorem State.upCore_free (c : Nat) (f : Core → Core) : (s.upCore c f).free = s.free := rfl
@[simp] theorem State.upCore_cores (c : Nat) (f : Core → Core) : (s.upCore c f).cores = s.cores.put c (f (s.core c)) := rfl
@[simp] theorem State.upCore_mem (c : Nat) (f : Core → Core) : (s.upCore c f).mem = s.mem := rfl
@[simp] theorem State.upCore_banks (c : Nat) (f : Core → Core) : (s.upCore c f).banks = s.banks := rfl
@[simp] theorem State.upCore_reqs (c : Nat) (f : Core → Core) : (s.upCore c f).reqs = s.reqs := rfl
@[simp] theorem State.upCore_msgs (c : Nat) (f : Core → Core) : (s.upCore c f).msgs = s.msgs := rfl
@[simp] theorem State.upCore_cancels (c : Nat) (f : Core → Core) : (s.upCore c f).cancels = s.cancels := rfl
@[simp] theorem State.upCore_clusters (c : Nat) (f : Core → Core) : (s.upCore c f).clusters = s.clusters := rfl
@[simp] theorem State.upCore_dies (c : Nat) (f : Core → Core) : (s.upCore c f).dies = s.dies := rfl
@[simp] theorem State.upCore_cache (c : Nat) (f : Core → Core) : (s.upCore c f).cache = s.cache := rfl
@[simp] theorem State.upCore_cacheMax (c : Nat) (f : Core → Core) : (s.upCore c f).cacheMax = s.cacheMax := rfl
@[simp] theorem State.upCore_frames (c : Nat) (f : Core → Core) : (s.upCore c f).frames = s.frames := rfl
@[simp] theorem State.upCore_saved (c : Nat) (f : Core → Core) : (s.upCore c f).saved = s.saved := rfl
@[simp] theorem State.upCore_touched (c : Nat) (f : Core → Core) : (s.upCore c f).touched = s.touched := rfl
@[simp] theorem State.upCore_io (c : Nat) (f : Core → Core) : (s.upCore c f).io = s.io := rfl
@[simp] theorem State.upCore_links (c : Nat) (f : Core → Core) : (s.upCore c f).links = s.links := rfl
@[simp] theorem State.upCore_sys (c : Nat) (f : Core → Core) : (s.upCore c f).sys = s.sys := rfl

/-! ### upThread -/

@[simp] theorem State.upThread_cyc (c k : Nat) (f : Thread → Thread) : (s.upThread c k f).cyc = s.cyc := rfl
@[simp] theorem State.upThread_agenda (c k : Nat) (f : Thread → Thread) : (s.upThread c k f).agenda = s.agenda := rfl
@[simp] theorem State.upThread_hand (c k : Nat) (f : Thread → Thread) : (s.upThread c k f).hand = s.hand := rfl
@[simp] theorem State.upThread_serial (c k : Nat) (f : Thread → Thread) : (s.upThread c k f).serial = s.serial := rfl
@[simp] theorem State.upThread_free (c k : Nat) (f : Thread → Thread) : (s.upThread c k f).free = s.free := rfl
@[simp] theorem State.upThread_mem (c k : Nat) (f : Thread → Thread) : (s.upThread c k f).mem = s.mem := rfl
@[simp] theorem State.upThread_banks (c k : Nat) (f : Thread → Thread) : (s.upThread c k f).banks = s.banks := rfl
@[simp] theorem State.upThread_reqs (c k : Nat) (f : Thread → Thread) : (s.upThread c k f).reqs = s.reqs := rfl
@[simp] theorem State.upThread_msgs (c k : Nat) (f : Thread → Thread) : (s.upThread c k f).msgs = s.msgs := rfl
@[simp] theorem State.upThread_cancels (c k : Nat) (f : Thread → Thread) : (s.upThread c k f).cancels = s.cancels := rfl
@[simp] theorem State.upThread_clusters (c k : Nat) (f : Thread → Thread) : (s.upThread c k f).clusters = s.clusters := rfl
@[simp] theorem State.upThread_dies (c k : Nat) (f : Thread → Thread) : (s.upThread c k f).dies = s.dies := rfl
@[simp] theorem State.upThread_cache (c k : Nat) (f : Thread → Thread) : (s.upThread c k f).cache = s.cache := rfl
@[simp] theorem State.upThread_cacheMax (c k : Nat) (f : Thread → Thread) : (s.upThread c k f).cacheMax = s.cacheMax := rfl
@[simp] theorem State.upThread_frames (c k : Nat) (f : Thread → Thread) : (s.upThread c k f).frames = s.frames := rfl
@[simp] theorem State.upThread_saved (c k : Nat) (f : Thread → Thread) : (s.upThread c k f).saved = s.saved := rfl
@[simp] theorem State.upThread_touched (c k : Nat) (f : Thread → Thread) : (s.upThread c k f).touched = s.touched := rfl
@[simp] theorem State.upThread_io (c k : Nat) (f : Thread → Thread) : (s.upThread c k f).io = s.io := rfl
@[simp] theorem State.upThread_links (c k : Nat) (f : Thread → Thread) : (s.upThread c k f).links = s.links := rfl
@[simp] theorem State.upThread_sys (c k : Nat) (f : Thread → Thread) : (s.upThread c k f).sys = s.sys := rfl

/-! ### setMem -/

@[simp] theorem State.setMem_cyc (m : Memory) : (s.setMem m).cyc = s.cyc := rfl
@[simp] theorem State.setMem_agenda (m : Memory) : (s.setMem m).agenda = s.agenda := rfl
@[simp] theorem State.setMem_hand (m : Memory) : (s.setMem m).hand = s.hand := rfl
@[simp] theorem State.setMem_serial (m : Memory) : (s.setMem m).serial = s.serial := rfl
@[simp] theorem State.setMem_free (m : Memory) : (s.setMem m).free = s.free := rfl
@[simp] theorem State.setMem_cores (m : Memory) : (s.setMem m).cores = s.cores := rfl
@[simp] theorem State.setMem_mem (m : Memory) : (s.setMem m).mem = m := rfl
@[simp] theorem State.setMem_banks (m : Memory) : (s.setMem m).banks = s.banks := rfl
@[simp] theorem State.setMem_reqs (m : Memory) : (s.setMem m).reqs = s.reqs := rfl
@[simp] theorem State.setMem_msgs (m : Memory) : (s.setMem m).msgs = s.msgs := rfl
@[simp] theorem State.setMem_cancels (m : Memory) : (s.setMem m).cancels = s.cancels := rfl
@[simp] theorem State.setMem_clusters (m : Memory) : (s.setMem m).clusters = s.clusters := rfl
@[simp] theorem State.setMem_dies (m : Memory) : (s.setMem m).dies = s.dies := rfl
@[simp] theorem State.setMem_cache (m : Memory) : (s.setMem m).cache = s.cache := rfl
@[simp] theorem State.setMem_cacheMax (m : Memory) : (s.setMem m).cacheMax = s.cacheMax := rfl
@[simp] theorem State.setMem_frames (m : Memory) : (s.setMem m).frames = s.frames := rfl
@[simp] theorem State.setMem_saved (m : Memory) : (s.setMem m).saved = s.saved := rfl
@[simp] theorem State.setMem_touched (m : Memory) : (s.setMem m).touched = s.touched := rfl
@[simp] theorem State.setMem_io (m : Memory) : (s.setMem m).io = s.io := rfl
@[simp] theorem State.setMem_links (m : Memory) : (s.setMem m).links = s.links := rfl
@[simp] theorem State.setMem_sys (m : Memory) : (s.setMem m).sys = s.sys := rfl

/-! ### upIo -/

@[simp] theorem State.upIo_cyc (f : IoDie → IoDie) : (s.upIo f).cyc = s.cyc := rfl
@[simp] theorem State.upIo_agenda (f : IoDie → IoDie) : (s.upIo f).agenda = s.agenda := rfl
@[simp] theorem State.upIo_hand (f : IoDie → IoDie) : (s.upIo f).hand = s.hand := rfl
@[simp] theorem State.upIo_serial (f : IoDie → IoDie) : (s.upIo f).serial = s.serial := rfl
@[simp] theorem State.upIo_free (f : IoDie → IoDie) : (s.upIo f).free = s.free := rfl
@[simp] theorem State.upIo_cores (f : IoDie → IoDie) : (s.upIo f).cores = s.cores := rfl
@[simp] theorem State.upIo_mem (f : IoDie → IoDie) : (s.upIo f).mem = s.mem := rfl
@[simp] theorem State.upIo_banks (f : IoDie → IoDie) : (s.upIo f).banks = s.banks := rfl
@[simp] theorem State.upIo_reqs (f : IoDie → IoDie) : (s.upIo f).reqs = s.reqs := rfl
@[simp] theorem State.upIo_msgs (f : IoDie → IoDie) : (s.upIo f).msgs = s.msgs := rfl
@[simp] theorem State.upIo_cancels (f : IoDie → IoDie) : (s.upIo f).cancels = s.cancels := rfl
@[simp] theorem State.upIo_clusters (f : IoDie → IoDie) : (s.upIo f).clusters = s.clusters := rfl
@[simp] theorem State.upIo_dies (f : IoDie → IoDie) : (s.upIo f).dies = s.dies := rfl
@[simp] theorem State.upIo_cache (f : IoDie → IoDie) : (s.upIo f).cache = s.cache := rfl
@[simp] theorem State.upIo_cacheMax (f : IoDie → IoDie) : (s.upIo f).cacheMax = s.cacheMax := rfl
@[simp] theorem State.upIo_frames (f : IoDie → IoDie) : (s.upIo f).frames = s.frames := rfl
@[simp] theorem State.upIo_saved (f : IoDie → IoDie) : (s.upIo f).saved = s.saved := rfl
@[simp] theorem State.upIo_touched (f : IoDie → IoDie) : (s.upIo f).touched = s.touched := rfl
@[simp] theorem State.upIo_io (f : IoDie → IoDie) : (s.upIo f).io = f s.io := rfl
@[simp] theorem State.upIo_links (f : IoDie → IoDie) : (s.upIo f).links = s.links := rfl
@[simp] theorem State.upIo_sys (f : IoDie → IoDie) : (s.upIo f).sys = s.sys := rfl

/-! ### upCtx -/

@[simp] theorem State.upCtx_cyc (n : Nat) (f : Context → Context) : (s.upCtx n f).cyc = s.cyc := rfl
@[simp] theorem State.upCtx_agenda (n : Nat) (f : Context → Context) : (s.upCtx n f).agenda = s.agenda := rfl
@[simp] theorem State.upCtx_hand (n : Nat) (f : Context → Context) : (s.upCtx n f).hand = s.hand := rfl
@[simp] theorem State.upCtx_serial (n : Nat) (f : Context → Context) : (s.upCtx n f).serial = s.serial := rfl
@[simp] theorem State.upCtx_free (n : Nat) (f : Context → Context) : (s.upCtx n f).free = s.free := rfl
@[simp] theorem State.upCtx_cores (n : Nat) (f : Context → Context) : (s.upCtx n f).cores = s.cores := rfl
@[simp] theorem State.upCtx_mem (n : Nat) (f : Context → Context) : (s.upCtx n f).mem = s.mem := rfl
@[simp] theorem State.upCtx_banks (n : Nat) (f : Context → Context) : (s.upCtx n f).banks = s.banks := rfl
@[simp] theorem State.upCtx_reqs (n : Nat) (f : Context → Context) : (s.upCtx n f).reqs = s.reqs := rfl
@[simp] theorem State.upCtx_msgs (n : Nat) (f : Context → Context) : (s.upCtx n f).msgs = s.msgs := rfl
@[simp] theorem State.upCtx_cancels (n : Nat) (f : Context → Context) : (s.upCtx n f).cancels = s.cancels := rfl
@[simp] theorem State.upCtx_clusters (n : Nat) (f : Context → Context) : (s.upCtx n f).clusters = s.clusters := rfl
@[simp] theorem State.upCtx_dies (n : Nat) (f : Context → Context) : (s.upCtx n f).dies = s.dies := rfl
@[simp] theorem State.upCtx_cache (n : Nat) (f : Context → Context) : (s.upCtx n f).cache = s.cache := rfl
@[simp] theorem State.upCtx_cacheMax (n : Nat) (f : Context → Context) : (s.upCtx n f).cacheMax = s.cacheMax := rfl
@[simp] theorem State.upCtx_frames (n : Nat) (f : Context → Context) : (s.upCtx n f).frames = s.frames := rfl
@[simp] theorem State.upCtx_saved (n : Nat) (f : Context → Context) : (s.upCtx n f).saved = s.saved := rfl
@[simp] theorem State.upCtx_touched (n : Nat) (f : Context → Context) : (s.upCtx n f).touched = s.touched := rfl
@[simp] theorem State.upCtx_links (n : Nat) (f : Context → Context) : (s.upCtx n f).links = s.links := rfl
@[simp] theorem State.upCtx_sys (n : Nat) (f : Context → Context) : (s.upCtx n f).sys = s.sys := rfl

/-! ### upLinks -/

@[simp] theorem State.upLinks_cyc (f : Links → Links) : (s.upLinks f).cyc = s.cyc := rfl
@[simp] theorem State.upLinks_agenda (f : Links → Links) : (s.upLinks f).agenda = s.agenda := rfl
@[simp] theorem State.upLinks_hand (f : Links → Links) : (s.upLinks f).hand = s.hand := rfl
@[simp] theorem State.upLinks_serial (f : Links → Links) : (s.upLinks f).serial = s.serial := rfl
@[simp] theorem State.upLinks_free (f : Links → Links) : (s.upLinks f).free = s.free := rfl
@[simp] theorem State.upLinks_cores (f : Links → Links) : (s.upLinks f).cores = s.cores := rfl
@[simp] theorem State.upLinks_mem (f : Links → Links) : (s.upLinks f).mem = s.mem := rfl
@[simp] theorem State.upLinks_banks (f : Links → Links) : (s.upLinks f).banks = s.banks := rfl
@[simp] theorem State.upLinks_reqs (f : Links → Links) : (s.upLinks f).reqs = s.reqs := rfl
@[simp] theorem State.upLinks_msgs (f : Links → Links) : (s.upLinks f).msgs = s.msgs := rfl
@[simp] theorem State.upLinks_cancels (f : Links → Links) : (s.upLinks f).cancels = s.cancels := rfl
@[simp] theorem State.upLinks_clusters (f : Links → Links) : (s.upLinks f).clusters = s.clusters := rfl
@[simp] theorem State.upLinks_dies (f : Links → Links) : (s.upLinks f).dies = s.dies := rfl
@[simp] theorem State.upLinks_cache (f : Links → Links) : (s.upLinks f).cache = s.cache := rfl
@[simp] theorem State.upLinks_cacheMax (f : Links → Links) : (s.upLinks f).cacheMax = s.cacheMax := rfl
@[simp] theorem State.upLinks_frames (f : Links → Links) : (s.upLinks f).frames = s.frames := rfl
@[simp] theorem State.upLinks_saved (f : Links → Links) : (s.upLinks f).saved = s.saved := rfl
@[simp] theorem State.upLinks_touched (f : Links → Links) : (s.upLinks f).touched = s.touched := rfl
@[simp] theorem State.upLinks_io (f : Links → Links) : (s.upLinks f).io = s.io := rfl
@[simp] theorem State.upLinks_links (f : Links → Links) : (s.upLinks f).links = f s.links := rfl
@[simp] theorem State.upLinks_sys (f : Links → Links) : (s.upLinks f).sys = s.sys := rfl

/-! ### emit -/

@[simp] theorem State.emit_cyc (x : Sent) : (s.emit x).cyc = s.cyc := rfl
@[simp] theorem State.emit_agenda (x : Sent) : (s.emit x).agenda = s.agenda := rfl
@[simp] theorem State.emit_hand (x : Sent) : (s.emit x).hand = s.hand := rfl
@[simp] theorem State.emit_serial (x : Sent) : (s.emit x).serial = s.serial := rfl
@[simp] theorem State.emit_free (x : Sent) : (s.emit x).free = s.free := rfl
@[simp] theorem State.emit_cores (x : Sent) : (s.emit x).cores = s.cores := rfl
@[simp] theorem State.emit_mem (x : Sent) : (s.emit x).mem = s.mem := rfl
@[simp] theorem State.emit_banks (x : Sent) : (s.emit x).banks = s.banks := rfl
@[simp] theorem State.emit_reqs (x : Sent) : (s.emit x).reqs = s.reqs := rfl
@[simp] theorem State.emit_msgs (x : Sent) : (s.emit x).msgs = s.msgs := rfl
@[simp] theorem State.emit_cancels (x : Sent) : (s.emit x).cancels = s.cancels := rfl
@[simp] theorem State.emit_clusters (x : Sent) : (s.emit x).clusters = s.clusters := rfl
@[simp] theorem State.emit_dies (x : Sent) : (s.emit x).dies = s.dies := rfl
@[simp] theorem State.emit_cache (x : Sent) : (s.emit x).cache = s.cache := rfl
@[simp] theorem State.emit_cacheMax (x : Sent) : (s.emit x).cacheMax = s.cacheMax := rfl
@[simp] theorem State.emit_frames (x : Sent) : (s.emit x).frames = s.frames := rfl
@[simp] theorem State.emit_saved (x : Sent) : (s.emit x).saved = s.saved := rfl
@[simp] theorem State.emit_touched (x : Sent) : (s.emit x).touched = s.touched := rfl
@[simp] theorem State.emit_io (x : Sent) : (s.emit x).io = s.io := rfl
@[simp] theorem State.emit_sys (x : Sent) : (s.emit x).sys = s.sys := rfl

/-! ### post -/

@[simp] theorem State.post_cyc (n r : Nat) (i : Instr) : (s.post n r i).cyc = s.cyc := rfl
@[simp] theorem State.post_agenda (n r : Nat) (i : Instr) : (s.post n r i).agenda = insertDue s.agenda { time := n, rank := r, ev := i } := rfl
@[simp] theorem State.post_hand (n r : Nat) (i : Instr) : (s.post n r i).hand = s.hand := rfl
@[simp] theorem State.post_serial (n r : Nat) (i : Instr) : (s.post n r i).serial = s.serial := rfl
@[simp] theorem State.post_free (n r : Nat) (i : Instr) : (s.post n r i).free = s.free := rfl
@[simp] theorem State.post_cores (n r : Nat) (i : Instr) : (s.post n r i).cores = s.cores := rfl
@[simp] theorem State.post_mem (n r : Nat) (i : Instr) : (s.post n r i).mem = s.mem := rfl
@[simp] theorem State.post_banks (n r : Nat) (i : Instr) : (s.post n r i).banks = s.banks := rfl
@[simp] theorem State.post_reqs (n r : Nat) (i : Instr) : (s.post n r i).reqs = s.reqs := rfl
@[simp] theorem State.post_msgs (n r : Nat) (i : Instr) : (s.post n r i).msgs = s.msgs := rfl
@[simp] theorem State.post_cancels (n r : Nat) (i : Instr) : (s.post n r i).cancels = s.cancels := rfl
@[simp] theorem State.post_clusters (n r : Nat) (i : Instr) : (s.post n r i).clusters = s.clusters := rfl
@[simp] theorem State.post_dies (n r : Nat) (i : Instr) : (s.post n r i).dies = s.dies := rfl
@[simp] theorem State.post_cache (n r : Nat) (i : Instr) : (s.post n r i).cache = s.cache := rfl
@[simp] theorem State.post_cacheMax (n r : Nat) (i : Instr) : (s.post n r i).cacheMax = s.cacheMax := rfl
@[simp] theorem State.post_frames (n r : Nat) (i : Instr) : (s.post n r i).frames = s.frames := rfl
@[simp] theorem State.post_saved (n r : Nat) (i : Instr) : (s.post n r i).saved = s.saved := rfl
@[simp] theorem State.post_touched (n r : Nat) (i : Instr) : (s.post n r i).touched = s.touched := rfl
@[simp] theorem State.post_io (n r : Nat) (i : Instr) : (s.post n r i).io = s.io := rfl
@[simp] theorem State.post_links (n r : Nat) (i : Instr) : (s.post n r i).links = s.links := rfl
@[simp] theorem State.post_sys (n r : Nat) (i : Instr) : (s.post n r i).sys = s.sys := rfl

/-! ### after -/

@[simp] theorem State.after_cyc (n r : Nat) (i : Instr) : (s.after n r i).cyc = s.cyc := rfl
@[simp] theorem State.after_agenda (n r : Nat) (i : Instr) : (s.after n r i).agenda = insertDue s.agenda { time := s.cyc + n, rank := r, ev := i } := rfl
@[simp] theorem State.after_hand (n r : Nat) (i : Instr) : (s.after n r i).hand = s.hand := rfl
@[simp] theorem State.after_serial (n r : Nat) (i : Instr) : (s.after n r i).serial = s.serial := rfl
@[simp] theorem State.after_free (n r : Nat) (i : Instr) : (s.after n r i).free = s.free := rfl
@[simp] theorem State.after_cores (n r : Nat) (i : Instr) : (s.after n r i).cores = s.cores := rfl
@[simp] theorem State.after_mem (n r : Nat) (i : Instr) : (s.after n r i).mem = s.mem := rfl
@[simp] theorem State.after_banks (n r : Nat) (i : Instr) : (s.after n r i).banks = s.banks := rfl
@[simp] theorem State.after_reqs (n r : Nat) (i : Instr) : (s.after n r i).reqs = s.reqs := rfl
@[simp] theorem State.after_msgs (n r : Nat) (i : Instr) : (s.after n r i).msgs = s.msgs := rfl
@[simp] theorem State.after_cancels (n r : Nat) (i : Instr) : (s.after n r i).cancels = s.cancels := rfl
@[simp] theorem State.after_clusters (n r : Nat) (i : Instr) : (s.after n r i).clusters = s.clusters := rfl
@[simp] theorem State.after_dies (n r : Nat) (i : Instr) : (s.after n r i).dies = s.dies := rfl
@[simp] theorem State.after_cache (n r : Nat) (i : Instr) : (s.after n r i).cache = s.cache := rfl
@[simp] theorem State.after_cacheMax (n r : Nat) (i : Instr) : (s.after n r i).cacheMax = s.cacheMax := rfl
@[simp] theorem State.after_frames (n r : Nat) (i : Instr) : (s.after n r i).frames = s.frames := rfl
@[simp] theorem State.after_saved (n r : Nat) (i : Instr) : (s.after n r i).saved = s.saved := rfl
@[simp] theorem State.after_touched (n r : Nat) (i : Instr) : (s.after n r i).touched = s.touched := rfl
@[simp] theorem State.after_io (n r : Nat) (i : Instr) : (s.after n r i).io = s.io := rfl
@[simp] theorem State.after_links (n r : Nat) (i : Instr) : (s.after n r i).links = s.links := rfl
@[simp] theorem State.after_sys (n r : Nat) (i : Instr) : (s.after n r i).sys = s.sys := rfl

/-! ### upBank -/

@[simp] theorem State.upBank_cyc (b : Nat) (f : Bank → Bank) : (s.upBank b f).cyc = s.cyc := rfl
@[simp] theorem State.upBank_agenda (b : Nat) (f : Bank → Bank) : (s.upBank b f).agenda = s.agenda := rfl
@[simp] theorem State.upBank_hand (b : Nat) (f : Bank → Bank) : (s.upBank b f).hand = s.hand := rfl
@[simp] theorem State.upBank_serial (b : Nat) (f : Bank → Bank) : (s.upBank b f).serial = s.serial := rfl
@[simp] theorem State.upBank_free (b : Nat) (f : Bank → Bank) : (s.upBank b f).free = s.free := rfl
@[simp] theorem State.upBank_cores (b : Nat) (f : Bank → Bank) : (s.upBank b f).cores = s.cores := rfl
@[simp] theorem State.upBank_mem (b : Nat) (f : Bank → Bank) : (s.upBank b f).mem = s.mem := rfl
@[simp] theorem State.upBank_banks (b : Nat) (f : Bank → Bank) : (s.upBank b f).banks = s.banks.put b (f (s.bank b)) := rfl
@[simp] theorem State.upBank_reqs (b : Nat) (f : Bank → Bank) : (s.upBank b f).reqs = s.reqs := rfl
@[simp] theorem State.upBank_msgs (b : Nat) (f : Bank → Bank) : (s.upBank b f).msgs = s.msgs := rfl
@[simp] theorem State.upBank_cancels (b : Nat) (f : Bank → Bank) : (s.upBank b f).cancels = s.cancels := rfl
@[simp] theorem State.upBank_clusters (b : Nat) (f : Bank → Bank) : (s.upBank b f).clusters = s.clusters := rfl
@[simp] theorem State.upBank_dies (b : Nat) (f : Bank → Bank) : (s.upBank b f).dies = s.dies := rfl
@[simp] theorem State.upBank_cache (b : Nat) (f : Bank → Bank) : (s.upBank b f).cache = s.cache := rfl
@[simp] theorem State.upBank_cacheMax (b : Nat) (f : Bank → Bank) : (s.upBank b f).cacheMax = s.cacheMax := rfl
@[simp] theorem State.upBank_frames (b : Nat) (f : Bank → Bank) : (s.upBank b f).frames = s.frames := rfl
@[simp] theorem State.upBank_saved (b : Nat) (f : Bank → Bank) : (s.upBank b f).saved = s.saved := rfl
@[simp] theorem State.upBank_touched (b : Nat) (f : Bank → Bank) : (s.upBank b f).touched = s.touched := rfl
@[simp] theorem State.upBank_io (b : Nat) (f : Bank → Bank) : (s.upBank b f).io = s.io := rfl
@[simp] theorem State.upBank_links (b : Nat) (f : Bank → Bank) : (s.upBank b f).links = s.links := rfl
@[simp] theorem State.upBank_sys (b : Nat) (f : Bank → Bank) : (s.upBank b f).sys = s.sys := rfl

/-! ### upReq -/

@[simp] theorem State.upReq_cyc (n : Nat) (f : Req → Req) : (s.upReq n f).cyc = s.cyc := rfl
@[simp] theorem State.upReq_agenda (n : Nat) (f : Req → Req) : (s.upReq n f).agenda = s.agenda := rfl
@[simp] theorem State.upReq_hand (n : Nat) (f : Req → Req) : (s.upReq n f).hand = s.hand := rfl
@[simp] theorem State.upReq_serial (n : Nat) (f : Req → Req) : (s.upReq n f).serial = s.serial := rfl
@[simp] theorem State.upReq_free (n : Nat) (f : Req → Req) : (s.upReq n f).free = s.free := rfl
@[simp] theorem State.upReq_cores (n : Nat) (f : Req → Req) : (s.upReq n f).cores = s.cores := rfl
@[simp] theorem State.upReq_mem (n : Nat) (f : Req → Req) : (s.upReq n f).mem = s.mem := rfl
@[simp] theorem State.upReq_banks (n : Nat) (f : Req → Req) : (s.upReq n f).banks = s.banks := rfl
@[simp] theorem State.upReq_reqs (n : Nat) (f : Req → Req) : (s.upReq n f).reqs = s.reqs.adjust n f := rfl
@[simp] theorem State.upReq_msgs (n : Nat) (f : Req → Req) : (s.upReq n f).msgs = s.msgs := rfl
@[simp] theorem State.upReq_cancels (n : Nat) (f : Req → Req) : (s.upReq n f).cancels = s.cancels := rfl
@[simp] theorem State.upReq_clusters (n : Nat) (f : Req → Req) : (s.upReq n f).clusters = s.clusters := rfl
@[simp] theorem State.upReq_dies (n : Nat) (f : Req → Req) : (s.upReq n f).dies = s.dies := rfl
@[simp] theorem State.upReq_cache (n : Nat) (f : Req → Req) : (s.upReq n f).cache = s.cache := rfl
@[simp] theorem State.upReq_cacheMax (n : Nat) (f : Req → Req) : (s.upReq n f).cacheMax = s.cacheMax := rfl
@[simp] theorem State.upReq_frames (n : Nat) (f : Req → Req) : (s.upReq n f).frames = s.frames := rfl
@[simp] theorem State.upReq_saved (n : Nat) (f : Req → Req) : (s.upReq n f).saved = s.saved := rfl
@[simp] theorem State.upReq_touched (n : Nat) (f : Req → Req) : (s.upReq n f).touched = s.touched := rfl
@[simp] theorem State.upReq_io (n : Nat) (f : Req → Req) : (s.upReq n f).io = s.io := rfl
@[simp] theorem State.upReq_links (n : Nat) (f : Req → Req) : (s.upReq n f).links = s.links := rfl
@[simp] theorem State.upReq_sys (n : Nat) (f : Req → Req) : (s.upReq n f).sys = s.sys := rfl

/-! ### dropReq -/

@[simp] theorem State.dropReq_cyc (n : Nat) : (s.dropReq n).cyc = s.cyc := rfl
@[simp] theorem State.dropReq_agenda (n : Nat) : (s.dropReq n).agenda = s.agenda := rfl
@[simp] theorem State.dropReq_hand (n : Nat) : (s.dropReq n).hand = s.hand := rfl
@[simp] theorem State.dropReq_serial (n : Nat) : (s.dropReq n).serial = s.serial := rfl
@[simp] theorem State.dropReq_free (n : Nat) : (s.dropReq n).free = s.free := rfl
@[simp] theorem State.dropReq_cores (n : Nat) : (s.dropReq n).cores = s.cores := rfl
@[simp] theorem State.dropReq_mem (n : Nat) : (s.dropReq n).mem = s.mem := rfl
@[simp] theorem State.dropReq_banks (n : Nat) : (s.dropReq n).banks = s.banks := rfl
@[simp] theorem State.dropReq_reqs (n : Nat) : (s.dropReq n).reqs = s.reqs.drop n := rfl
@[simp] theorem State.dropReq_msgs (n : Nat) : (s.dropReq n).msgs = s.msgs := rfl
@[simp] theorem State.dropReq_cancels (n : Nat) : (s.dropReq n).cancels = s.cancels := rfl
@[simp] theorem State.dropReq_clusters (n : Nat) : (s.dropReq n).clusters = s.clusters := rfl
@[simp] theorem State.dropReq_dies (n : Nat) : (s.dropReq n).dies = s.dies := rfl
@[simp] theorem State.dropReq_cache (n : Nat) : (s.dropReq n).cache = s.cache := rfl
@[simp] theorem State.dropReq_cacheMax (n : Nat) : (s.dropReq n).cacheMax = s.cacheMax := rfl
@[simp] theorem State.dropReq_frames (n : Nat) : (s.dropReq n).frames = s.frames := rfl
@[simp] theorem State.dropReq_saved (n : Nat) : (s.dropReq n).saved = s.saved := rfl
@[simp] theorem State.dropReq_touched (n : Nat) : (s.dropReq n).touched = s.touched := rfl
@[simp] theorem State.dropReq_io (n : Nat) : (s.dropReq n).io = s.io := rfl
@[simp] theorem State.dropReq_links (n : Nat) : (s.dropReq n).links = s.links := rfl
@[simp] theorem State.dropReq_sys (n : Nat) : (s.dropReq n).sys = s.sys := rfl

/-! ### setV -/

@[simp] theorem State.setV_cyc (c n : Nat) (v : VReg) : (s.setV c n v).cyc = s.cyc := rfl
@[simp] theorem State.setV_agenda (c n : Nat) (v : VReg) : (s.setV c n v).agenda = s.agenda := rfl
@[simp] theorem State.setV_hand (c n : Nat) (v : VReg) : (s.setV c n v).hand = s.hand := rfl
@[simp] theorem State.setV_serial (c n : Nat) (v : VReg) : (s.setV c n v).serial = s.serial := rfl
@[simp] theorem State.setV_free (c n : Nat) (v : VReg) : (s.setV c n v).free = s.free := rfl
@[simp] theorem State.setV_mem (c n : Nat) (v : VReg) : (s.setV c n v).mem = s.mem := rfl
@[simp] theorem State.setV_banks (c n : Nat) (v : VReg) : (s.setV c n v).banks = s.banks := rfl
@[simp] theorem State.setV_reqs (c n : Nat) (v : VReg) : (s.setV c n v).reqs = s.reqs := rfl
@[simp] theorem State.setV_msgs (c n : Nat) (v : VReg) : (s.setV c n v).msgs = s.msgs := rfl
@[simp] theorem State.setV_cancels (c n : Nat) (v : VReg) : (s.setV c n v).cancels = s.cancels := rfl
@[simp] theorem State.setV_clusters (c n : Nat) (v : VReg) : (s.setV c n v).clusters = s.clusters := rfl
@[simp] theorem State.setV_dies (c n : Nat) (v : VReg) : (s.setV c n v).dies = s.dies := rfl
@[simp] theorem State.setV_cache (c n : Nat) (v : VReg) : (s.setV c n v).cache = s.cache := rfl
@[simp] theorem State.setV_cacheMax (c n : Nat) (v : VReg) : (s.setV c n v).cacheMax = s.cacheMax := rfl
@[simp] theorem State.setV_frames (c n : Nat) (v : VReg) : (s.setV c n v).frames = s.frames := rfl
@[simp] theorem State.setV_saved (c n : Nat) (v : VReg) : (s.setV c n v).saved = s.saved := rfl
@[simp] theorem State.setV_touched (c n : Nat) (v : VReg) : (s.setV c n v).touched = s.touched := rfl
@[simp] theorem State.setV_io (c n : Nat) (v : VReg) : (s.setV c n v).io = s.io := rfl
@[simp] theorem State.setV_links (c n : Nat) (v : VReg) : (s.setV c n v).links = s.links := rfl
@[simp] theorem State.setV_sys (c n : Nat) (v : VReg) : (s.setV c n v).sys = s.sys := rfl

/-! ### setA -/

@[simp] theorem State.setA_cyc (c n : Nat) (v : Tile) : (s.setA c n v).cyc = s.cyc := rfl
@[simp] theorem State.setA_agenda (c n : Nat) (v : Tile) : (s.setA c n v).agenda = s.agenda := rfl
@[simp] theorem State.setA_hand (c n : Nat) (v : Tile) : (s.setA c n v).hand = s.hand := rfl
@[simp] theorem State.setA_serial (c n : Nat) (v : Tile) : (s.setA c n v).serial = s.serial := rfl
@[simp] theorem State.setA_free (c n : Nat) (v : Tile) : (s.setA c n v).free = s.free := rfl
@[simp] theorem State.setA_mem (c n : Nat) (v : Tile) : (s.setA c n v).mem = s.mem := rfl
@[simp] theorem State.setA_banks (c n : Nat) (v : Tile) : (s.setA c n v).banks = s.banks := rfl
@[simp] theorem State.setA_reqs (c n : Nat) (v : Tile) : (s.setA c n v).reqs = s.reqs := rfl
@[simp] theorem State.setA_msgs (c n : Nat) (v : Tile) : (s.setA c n v).msgs = s.msgs := rfl
@[simp] theorem State.setA_cancels (c n : Nat) (v : Tile) : (s.setA c n v).cancels = s.cancels := rfl
@[simp] theorem State.setA_clusters (c n : Nat) (v : Tile) : (s.setA c n v).clusters = s.clusters := rfl
@[simp] theorem State.setA_dies (c n : Nat) (v : Tile) : (s.setA c n v).dies = s.dies := rfl
@[simp] theorem State.setA_cache (c n : Nat) (v : Tile) : (s.setA c n v).cache = s.cache := rfl
@[simp] theorem State.setA_cacheMax (c n : Nat) (v : Tile) : (s.setA c n v).cacheMax = s.cacheMax := rfl
@[simp] theorem State.setA_frames (c n : Nat) (v : Tile) : (s.setA c n v).frames = s.frames := rfl
@[simp] theorem State.setA_saved (c n : Nat) (v : Tile) : (s.setA c n v).saved = s.saved := rfl
@[simp] theorem State.setA_touched (c n : Nat) (v : Tile) : (s.setA c n v).touched = s.touched := rfl
@[simp] theorem State.setA_io (c n : Nat) (v : Tile) : (s.setA c n v).io = s.io := rfl
@[simp] theorem State.setA_links (c n : Nat) (v : Tile) : (s.setA c n v).links = s.links := rfl
@[simp] theorem State.setA_sys (c n : Nat) (v : Tile) : (s.setA c n v).sys = s.sys := rfl

/-! ### setFrame -/

@[simp] theorem State.setFrame_cyc (n : Nat) (e : Frame) : (s.setFrame n e).cyc = s.cyc := rfl
@[simp] theorem State.setFrame_agenda (n : Nat) (e : Frame) : (s.setFrame n e).agenda = s.agenda := rfl
@[simp] theorem State.setFrame_hand (n : Nat) (e : Frame) : (s.setFrame n e).hand = s.hand := rfl
@[simp] theorem State.setFrame_serial (n : Nat) (e : Frame) : (s.setFrame n e).serial = s.serial := rfl
@[simp] theorem State.setFrame_free (n : Nat) (e : Frame) : (s.setFrame n e).free = s.free := rfl
@[simp] theorem State.setFrame_cores (n : Nat) (e : Frame) : (s.setFrame n e).cores = s.cores := rfl
@[simp] theorem State.setFrame_mem (n : Nat) (e : Frame) : (s.setFrame n e).mem = s.mem := rfl
@[simp] theorem State.setFrame_banks (n : Nat) (e : Frame) : (s.setFrame n e).banks = s.banks := rfl
@[simp] theorem State.setFrame_reqs (n : Nat) (e : Frame) : (s.setFrame n e).reqs = s.reqs := rfl
@[simp] theorem State.setFrame_msgs (n : Nat) (e : Frame) : (s.setFrame n e).msgs = s.msgs := rfl
@[simp] theorem State.setFrame_cancels (n : Nat) (e : Frame) : (s.setFrame n e).cancels = s.cancels := rfl
@[simp] theorem State.setFrame_clusters (n : Nat) (e : Frame) : (s.setFrame n e).clusters = s.clusters := rfl
@[simp] theorem State.setFrame_dies (n : Nat) (e : Frame) : (s.setFrame n e).dies = s.dies := rfl
@[simp] theorem State.setFrame_cache (n : Nat) (e : Frame) : (s.setFrame n e).cache = s.cache := rfl
@[simp] theorem State.setFrame_cacheMax (n : Nat) (e : Frame) : (s.setFrame n e).cacheMax = s.cacheMax := rfl
@[simp] theorem State.setFrame_frames (n : Nat) (e : Frame) : (s.setFrame n e).frames = s.frames := rfl
@[simp] theorem State.setFrame_saved (n : Nat) (e : Frame) : (s.setFrame n e).saved = s.saved := rfl
@[simp] theorem State.setFrame_touched (n : Nat) (e : Frame) : (s.setFrame n e).touched = s.touched := rfl
@[simp] theorem State.setFrame_links (n : Nat) (e : Frame) : (s.setFrame n e).links = s.links := rfl
@[simp] theorem State.setFrame_sys (n : Nat) (e : Frame) : (s.setFrame n e).sys = s.sys := rfl

/-! ### markStale -/

@[simp] theorem State.markStale_cyc (line : Nat) : (s.markStale line).cyc = s.cyc := rfl
@[simp] theorem State.markStale_agenda (line : Nat) : (s.markStale line).agenda = s.agenda := rfl
@[simp] theorem State.markStale_hand (line : Nat) : (s.markStale line).hand = s.hand := rfl
@[simp] theorem State.markStale_serial (line : Nat) : (s.markStale line).serial = s.serial := rfl
@[simp] theorem State.markStale_free (line : Nat) : (s.markStale line).free = s.free := rfl
@[simp] theorem State.markStale_cores (line : Nat) : (s.markStale line).cores = s.cores := rfl
@[simp] theorem State.markStale_mem (line : Nat) : (s.markStale line).mem = s.mem := rfl
@[simp] theorem State.markStale_banks (line : Nat) : (s.markStale line).banks = s.banks := rfl
@[simp] theorem State.markStale_reqs (line : Nat) : (s.markStale line).reqs = s.reqs := rfl
@[simp] theorem State.markStale_msgs (line : Nat) : (s.markStale line).msgs = s.msgs := rfl
@[simp] theorem State.markStale_cancels (line : Nat) : (s.markStale line).cancels = s.cancels := rfl
@[simp] theorem State.markStale_clusters (line : Nat) : (s.markStale line).clusters = s.clusters := rfl
@[simp] theorem State.markStale_dies (line : Nat) : (s.markStale line).dies = s.dies := rfl
@[simp] theorem State.markStale_cacheMax (line : Nat) : (s.markStale line).cacheMax = s.cacheMax := rfl
@[simp] theorem State.markStale_frames (line : Nat) : (s.markStale line).frames = s.frames := rfl
@[simp] theorem State.markStale_saved (line : Nat) : (s.markStale line).saved = s.saved := rfl
@[simp] theorem State.markStale_touched (line : Nat) : (s.markStale line).touched = s.touched := rfl
@[simp] theorem State.markStale_io (line : Nat) : (s.markStale line).io = s.io := rfl
@[simp] theorem State.markStale_links (line : Nat) : (s.markStale line).links = s.links := rfl
@[simp] theorem State.markStale_sys (line : Nat) : (s.markStale line).sys = s.sys := rfl

/-! ### Serial numbers -/

@[simp] theorem State.fresh_cyc : s.fresh.2.cyc = s.cyc := rfl
@[simp] theorem State.fresh_agenda : s.fresh.2.agenda = s.agenda := rfl
@[simp] theorem State.fresh_hand : s.fresh.2.hand = s.hand := rfl
@[simp] theorem State.fresh_serial : s.fresh.2.serial = s.serial + 1 := rfl
@[simp] theorem State.fresh_free : s.fresh.2.free = s.free := rfl
@[simp] theorem State.fresh_cores : s.fresh.2.cores = s.cores := rfl
@[simp] theorem State.fresh_mem : s.fresh.2.mem = s.mem := rfl
@[simp] theorem State.fresh_banks : s.fresh.2.banks = s.banks := rfl
@[simp] theorem State.fresh_reqs : s.fresh.2.reqs = s.reqs := rfl
@[simp] theorem State.fresh_msgs : s.fresh.2.msgs = s.msgs := rfl
@[simp] theorem State.fresh_cancels : s.fresh.2.cancels = s.cancels := rfl
@[simp] theorem State.fresh_clusters : s.fresh.2.clusters = s.clusters := rfl
@[simp] theorem State.fresh_dies : s.fresh.2.dies = s.dies := rfl
@[simp] theorem State.fresh_cache : s.fresh.2.cache = s.cache := rfl
@[simp] theorem State.fresh_cacheMax : s.fresh.2.cacheMax = s.cacheMax := rfl
@[simp] theorem State.fresh_frames : s.fresh.2.frames = s.frames := rfl
@[simp] theorem State.fresh_saved : s.fresh.2.saved = s.saved := rfl
@[simp] theorem State.fresh_touched : s.fresh.2.touched = s.touched := rfl
@[simp] theorem State.fresh_io : s.fresh.2.io = s.io := rfl
@[simp] theorem State.fresh_links : s.fresh.2.links = s.links := rfl
@[simp] theorem State.fresh_sys : s.fresh.2.sys = s.sys := rfl
@[simp] theorem State.fresh_num : s.fresh.1 = s.serial := rfl
@[simp] theorem State.addReq_cyc (r : Req) : (s.addReq r).2.cyc = s.cyc := rfl
@[simp] theorem State.addReq_agenda (r : Req) : (s.addReq r).2.agenda = s.agenda := rfl
@[simp] theorem State.addReq_hand (r : Req) : (s.addReq r).2.hand = s.hand := rfl
@[simp] theorem State.addReq_serial (r : Req) : (s.addReq r).2.serial = s.serial + 1 := rfl
@[simp] theorem State.addReq_free (r : Req) : (s.addReq r).2.free = s.free := rfl
@[simp] theorem State.addReq_cores (r : Req) : (s.addReq r).2.cores = s.cores := rfl
@[simp] theorem State.addReq_mem (r : Req) : (s.addReq r).2.mem = s.mem := rfl
@[simp] theorem State.addReq_banks (r : Req) : (s.addReq r).2.banks = s.banks := rfl
@[simp] theorem State.addReq_reqs (r : Req) : (s.addReq r).2.reqs = s.reqs.put s.serial r := rfl
@[simp] theorem State.addReq_msgs (r : Req) : (s.addReq r).2.msgs = s.msgs := rfl
@[simp] theorem State.addReq_cancels (r : Req) : (s.addReq r).2.cancels = s.cancels := rfl
@[simp] theorem State.addReq_clusters (r : Req) : (s.addReq r).2.clusters = s.clusters := rfl
@[simp] theorem State.addReq_dies (r : Req) : (s.addReq r).2.dies = s.dies := rfl
@[simp] theorem State.addReq_cache (r : Req) : (s.addReq r).2.cache = s.cache := rfl
@[simp] theorem State.addReq_cacheMax (r : Req) : (s.addReq r).2.cacheMax = s.cacheMax := rfl
@[simp] theorem State.addReq_frames (r : Req) : (s.addReq r).2.frames = s.frames := rfl
@[simp] theorem State.addReq_saved (r : Req) : (s.addReq r).2.saved = s.saved := rfl
@[simp] theorem State.addReq_touched (r : Req) : (s.addReq r).2.touched = s.touched := rfl
@[simp] theorem State.addReq_io (r : Req) : (s.addReq r).2.io = s.io := rfl
@[simp] theorem State.addReq_links (r : Req) : (s.addReq r).2.links = s.links := rfl
@[simp] theorem State.addReq_sys (r : Req) : (s.addReq r).2.sys = s.sys := rfl
@[simp] theorem State.addReq_num (r : Req) : (s.addReq r).1 = s.serial := rfl

/-! ### Cores, slots and threads -/

@[simp] theorem State.upCore_core_self (c : Nat) (f : Core → Core) : (s.upCore c f).core c = f (s.core c) := by
  simp [State.core]

@[simp] theorem State.upCore_core_other {c c' : Nat} (f : Core → Core) (h : c' ≠ c) : (s.upCore c f).core c' = s.core c' := by
  simp [State.core, h]

theorem State.upCore_core (c c' : Nat) (f : Core → Core) :
    (s.upCore c f).core c' = if c' = c then f (s.core c) else s.core c' := by
  by_cases h : c' = c
  · subst h; simp
  · simp [h]

@[simp] theorem Core.upSlot_slot_self (x : Core) (k : Nat) (f : Slot → Slot) : (x.upSlot k f).slot k = f (x.slot k) := by
  simp [Core.upSlot, Core.slot]

@[simp] theorem Core.upSlot_slot_other (x : Core) {k k' : Nat} (f : Slot → Slot) (h : k' ≠ k) :
    (x.upSlot k f).slot k' = x.slot k' := by
  simp [Core.upSlot, Core.slot, h]

@[simp] theorem Core.upSlot_owner (x : Core) (k : Nat) (f : Slot → Slot) : (x.upSlot k f).owner = x.owner := rfl
@[simp] theorem Core.upSlot_regs (x : Core) (k : Nat) (f : Slot → Slot) : (x.upSlot k f).regs = x.regs := rfl
@[simp] theorem Core.upSlot_present (x : Core) (k : Nat) (f : Slot → Slot) : (x.upSlot k f).present = x.present := rfl
@[simp] theorem Core.upSlot_vregs (x : Core) (k : Nat) (f : Slot → Slot) : (x.upSlot k f).vregs = x.vregs := rfl
@[simp] theorem Core.upSlot_accs (x : Core) (k : Nat) (f : Slot → Slot) : (x.upSlot k f).accs = x.accs := rfl
@[simp] theorem Core.upSlot_last (x : Core) (k : Nat) (f : Slot → Slot) : (x.upSlot k f).last = x.last := rfl
@[simp] theorem Core.upSlot_issueAt (x : Core) (k : Nat) (f : Slot → Slot) : (x.upSlot k f).issueAt = x.issueAt := rfl
@[simp] theorem Core.upSlot_issued (x : Core) (k : Nat) (f : Slot → Slot) : (x.upSlot k f).issued = x.issued := rfl
@[simp] theorem Core.upSlot_held (x : Core) (k : Nat) (f : Slot → Slot) : (x.upSlot k f).held = x.held := rfl
@[simp] theorem Core.upSlot_claimed (x : Core) (k : Nat) (f : Slot → Slot) : (x.upSlot k f).claimed = x.claimed := rfl
@[simp] theorem Core.upSlot_ibuf (x : Core) (k : Nat) (f : Slot → Slot) : (x.upSlot k f).ibuf = x.ibuf := rfl
@[simp] theorem Core.upSlot_inbound (x : Core) (k : Nat) (f : Slot → Slot) : (x.upSlot k f).inbound = x.inbound := rfl
@[simp] theorem Core.upSlot_pressed (x : Core) (k : Nat) (f : Slot → Slot) : (x.upSlot k f).pressed = x.pressed := rfl
@[simp] theorem Core.upSlot_doors (x : Core) (k : Nat) (f : Slot → Slot) : (x.upSlot k f).doors = x.doors := rfl
@[simp] theorem Core.upSlot_links (x : Core) (k : Nat) (f : Slot → Slot) : (x.upSlot k f).links = x.links := rfl
@[simp] theorem Core.upSlot_drops (x : Core) (k : Nat) (f : Slot → Slot) : (x.upSlot k f).drops = x.drops := rfl
@[simp] theorem Core.upSlot_fixed (x : Core) (k : Nat) (f : Slot → Slot) : (x.upSlot k f).fixed = x.fixed := rfl
@[simp] theorem Core.upSlot_copy (x : Core) (k : Nat) (f : Slot → Slot) : (x.upSlot k f).copy = x.copy := rfl
@[simp] theorem Core.upSlot_vector (x : Core) (k : Nat) (f : Slot → Slot) : (x.upSlot k f).vector = x.vector := rfl
@[simp] theorem Core.upSlot_matrix (x : Core) (k : Nat) (f : Slot → Slot) : (x.upSlot k f).matrix = x.matrix := rfl
@[simp] theorem Core.upSlot_tbars (x : Core) (k : Nat) (f : Slot → Slot) : (x.upSlot k f).tbars = x.tbars := rfl
@[simp] theorem Core.upSlot_caddy (x : Core) (k : Nat) (f : Slot → Slot) : (x.upSlot k f).caddy = x.caddy := rfl
@[simp] theorem Core.upSlot_binds (x : Core) (k : Nat) (f : Slot → Slot) : (x.upSlot k f).binds = x.binds := rfl
@[simp] theorem Core.upSlot_keys (x : Core) (k : Nat) (f : Slot → Slot) : (x.upSlot k f).keys = x.keys := rfl
@[simp] theorem Core.upSlot_rlb (x : Core) (k : Nat) (f : Slot → Slot) : (x.upSlot k f).rlb = x.rlb := rfl
@[simp] theorem Core.upSlot_tlb (x : Core) (k : Nat) (f : Slot → Slot) : (x.upSlot k f).tlb = x.tlb := rfl
@[simp] theorem Core.upSlot_retain (x : Core) (k : Nat) (f : Slot → Slot) : (x.upSlot k f).retain = x.retain := rfl
@[simp] theorem Core.upSlot_probing (x : Core) (k : Nat) (f : Slot → Slot) : (x.upSlot k f).probing = x.probing := rfl
@[simp] theorem Core.upSlot_stopped (x : Core) (k : Nat) (f : Slot → Slot) : (x.upSlot k f).stopped = x.stopped := rfl

theorem State.upThread_core_self (c k : Nat) (f : Thread → Thread) :
    (s.upThread c k f).core c = (s.core c).upSlot k fun sl => { sl with thread := sl.thread.map f } := by
  simp [State.upThread]

@[simp] theorem State.upThread_core_other {c c' : Nat} (k : Nat) (f : Thread → Thread) (h : c' ≠ c) :
    (s.upThread c k f).core c' = s.core c' := by
  simp [State.upThread, h]

@[simp] theorem State.upThread_thread_self (c k : Nat) (f : Thread → Thread) :
    (s.upThread c k f).thread c k = (s.thread c k).map f := by
  simp [State.thread, State.upThread]

@[simp] theorem State.upThread_thread_slot (c : Nat) {k k' : Nat} (f : Thread → Thread) (h : k' ≠ k) :
    (s.upThread c k f).thread c k' = s.thread c k' := by
  simp [State.thread, State.upThread, h]

@[simp] theorem State.upThread_thread_core {c c' : Nat} (k k' : Nat) (f : Thread → Thread) (h : c' ≠ c) :
    (s.upThread c k f).thread c' k' = s.thread c' k' := by
  simp [State.thread, h]

end Sys2Proof.Machine
end

