-- ==== Sys2Proof/Laws/Issue.lean ====
section
/-! SUPPORT. What an issue can do: where every check lets the instruction, its own effect follows on `begun`. -/

namespace Sys2Proof.Machine

variable {s : State} {k : Kind} {h : Hand} {t : Thread}

@[simp] theorem begun_core_regs (c : Nat) : ((begun s h).core c).regs = (s.core c).regs := by
  unfold begun
  by_cases hc : c = h.core
  · subst hc; rw [State.upThread_core_self]; simp [State.core]
  · rw [State.upThread_core_other _ _ _ hc]; rfl

@[simp] theorem begun_core_vregs (c : Nat) : ((begun s h).core c).vregs = (s.core c).vregs := by
  unfold begun
  by_cases hc : c = h.core
  · subst hc; rw [State.upThread_core_self]; simp [State.core]
  · rw [State.upThread_core_other _ _ _ hc]; rfl

@[simp] theorem begun_core_owner (c : Nat) : ((begun s h).core c).owner = (s.core c).owner := by
  unfold begun
  by_cases hc : c = h.core
  · subst hc; rw [State.upThread_core_self]; simp [State.core]
  · rw [State.upThread_core_other _ _ _ hc]; rfl

@[simp] theorem begun_ctxOf (c : Nat) : (begun s h).ctxOf c = s.ctxOf c := by simp [State.ctxOf]

@[simp] theorem begun_w (n : Nat) : (cxAt s h t).w (begun s h) n = (s.core h.core).regW t n := by
  simp [Cx.w, Core.regW, cxAt, cxOf]

@[simp] theorem begun_v (n : Nat) : (cxAt s h t).v (begun s h) n = (s.core h.core).regV t n := by
  simp [Cx.v, Core.regV, cxAt, cxOf]

@[simp] theorem begun_mem : (begun s h).mem = s.mem := rfl

@[simp] theorem begun_cyc : (begun s h).cyc = s.cyc := rfl

@[simp] theorem begun_hand : (begun s h).hand = none := rfl

@[simp] theorem begun_io : (begun s h).io = s.io := rfl

@[simp] theorem begun_sys : (begun s h).sys = s.sys := rfl

/-- Where every check of the issue lets it, an instruction has its own effect. -/
theorem issue_runs (hi : Issues s k h t) (body : State → Cx → Out) : issue k s body = body (begun s h) (cxAt s h t) := by
  obtain ⟨h1, h2, h0, h3, h4, h5, h6, h7, h8, h9⟩ := hi
  have h6' : ({ core := h.core, slot := h.slot, th := t, pc := t.pc, npc := stepPc t.pc h.len, base := h.len - 1,
                res := (State.core { s with hand := none } h.core).resident } : Cx).due k = none := h6
  have h2' : State.thread { s with hand := none } h.core h.slot = some t := h2
  have h8' : k.names.w.any (State.pendingRelaxed { s with hand := none } t) = false := h8
  have h9' : State.pendingVector { s with hand := none } h.core h.slot t k.names.w k.names.v = false := h9
  have h7' : ({ core := h.core, slot := h.slot, th := t, pc := t.pc, npc := stepPc t.pc h.len, base := h.len - 1,
                res := (State.core { s with hand := none } h.core).resident } : Cx).sectTrap k.sec = none := h7
  have h5' : (!k.big && isLarge h.core) = false := by rcases h5 with h5 | h5 <;> simp [h5]
  simp only [issue, h1, h2', h0, h3, h4, h5', h6', h7', h8', h9', Bool.false_eq_true, if_false]
  rfl

/-- The instruction has no thread to issue it: the model stops. -/
theorem issue_noHand (hs : s.hand = none) (body : State → Cx → Out) : issue k s body = .fault .noIssue := by
  simp [issue, hs]

theorem done_begun : (cxAt s h t).done (begun s h) = .next (goesTo s h (stepPc t.pc h.len)) := rfl

theorem goTo_begun (p : Word) : (cxAt s h t).goTo (begun s h) p = .next (goesTo s h p) := rfl

theorem ret_begun (d : Reg) (v : Word) : (cxAt s h t).ret (begun s h) d v = .next (retires s h t d v) := rfl

theorem done_any (b : State) : (cxAt s h t).done b = .next (passes b h t) := rfl

theorem ret_any (b : State) (d : Reg) (v : Word) : (cxAt s h t).ret b d v = .next (ends b h t d v) := rfl

theorem trap_any (b : State) (code : Nat) (info : Word) :
    (cxAt s h t).trap b code info = .next (b.trap h.core h.slot code info t.pc 0 false) := rfl

/-- An issue of one register result. -/
theorem issueAlu_runs {d a b : Reg} (hi : Issues s (pageZero [d, a, b]) h t) (f : Word → Word → Word) :
    issueAlu d a b s f = .next (retires s h t d (f (regOf s h t a) (regOf s h t b))) := by
  rw [issueAlu, issue_runs hi]; simp [ret_begun, regOf]

theorem issueUnary_runs {d a : Reg} (hi : Issues s (pageZero [d, a]) h t) (f : Word → Word) :
    issueUnary d a s f = .next (retires s h t d (f (regOf s h t a))) := by
  rw [issueUnary, issue_runs hi]; simp [ret_begun, regOf]

/-- An access that every check lets has been asked. -/
theorem accessAt_runs {p : Word} {q : Ask} (ha : Admits s h t p q) :
    (cxAt s h t).accessAt (begun s h) p q = .next (asks s h t p q) := by
  obtain ⟨h0, h1, hl, h2, h3, h4, h7, h8, h9⟩ := ha
  have h0' : (cxAt s h t).dueOn (begun s h) p q = none := h0
  have h3' : (cxAt s h t).roams (begun s h) p = none := h3
  have h4' : (begun s h).heldBack ((cxAt s h t).tid (begun s h)) q.mod.relaxed = false := h4
  have h2' : (begun s h).reachEvent (cxAt s h t).core (cxAt s h t).th.part p q.bytes = none := h2
  have h9' : (begun s h).redirect (cxAt s h t).core (cxAt s h t).th.strand q.redir p q.bytes = (.same, begun s h) := h9
  have h8' : ¬ (q.mod.relaxed && decide (8 ≤ (cxAt s h t).th.relaxed.length)) = true := by
    rw [show (cxAt s h t).th = t from rfl, h8]; simp
  have hc : (cxAt s h t).ctx (begun s h) = s.ctxOf h.core := by simp [Cx.ctx, cxAt, cxOf]
  rw [Cx.accessAt, h0']
  simp only [h1, hl, h2', h3', h4', ne_eq, not_true_eq_false, Bool.false_eq_true, if_false]
  have key : ∀ b : State → Out, (cxAt s h t).releasing (begun s h) q.mod b q.far = b (begun s h) := by
    intro b
    rw [Cx.releasing]
    rcases h7 with h7 | h7
    · simp [h7]
    · split
      · rfl
      · have h7' : ((begun s h).accessesDone ((cxAt s h t).tid (begun s h)) (cxAt s h t).th &&
          (begun s h).releaseDone ((cxAt s h t).tid (begun s h)) q.mod.scope &&
          !(q.far && q.mod.scope == .system && (begun s h).farOwed ((cxAt s h t).tid (begun s h)))) = true := h7
        rw [if_pos h7']
  rw [key, if_neg h8']
  simp only [h9']
  unfold asks leaves requestOf
  simp only [hc]
  rfl

/-- An access at a displacement that the address checks accept. -/
theorem access_runs {base p : Word} {delta : Int} {q : Ask} (hp : effective base delta = .ok p) (ha : Admits s h t p q) :
    (cxAt s h t).access (begun s h) base delta q = .next (asks s h t p q) := by
  rw [Cx.access, hp]; exact accessAt_runs ha

end Sys2Proof.Machine
end

