-- ==== Sys2Proof/Laws/Memory.lean ====
section
/-! SUPPORT. Memory: every operation keeps the canonical form, a read after a write gives the value written, and a
write leaves every other byte alone. -/

namespace Sys2Proof.Machine

/-! ### Bytes -/

/-- Every address of a list of cells is greater than a bound. -/
def cellsAbove (n : Nat) (l : List Host.Cell) : Prop := ∀ e ∈ l, n < e.1

theorem cellsOk_cons {a : Nat} {b : Byte} {l : List Host.Cell} :
    cellsOk ((a, b) :: l) = true ↔ b ≠ 0 ∧ cellsAbove a l ∧ cellsOk l = true := by
  induction l generalizing a b with
  | nil => simp [cellsOk, cellsAbove]
  | cons e rest ih =>
    obtain ⟨a', b'⟩ := e
    rw [cellsOk]
    simp only [Bool.and_eq_true, bne_iff_ne, ne_eq, decide_eq_true_eq, cellsAbove, List.mem_cons, forall_eq_or_imp]
    constructor
    · rintro ⟨⟨hb, hlt⟩, hok⟩
      refine ⟨hb, ⟨hlt, fun e he => ?_⟩, hok⟩
      exact lt_trans hlt ((ih.1 hok).2.1 e he)
    · rintro ⟨hb, ⟨hlt, -⟩, hok⟩
      exact ⟨⟨hb, hlt⟩, hok⟩

theorem cellSet_above {m n : Nat} {v : Byte} {l : List Host.Cell} (h : cellsAbove m l) (hn : m < n) :
    cellsAbove m (cellSet l n v) := by
  induction l with
  | nil =>
    simp only [cellSet]
    split
    · exact h
    · intro e he; simp at he; subst he; exact hn
  | cons e rest ih =>
    obtain ⟨a, b⟩ := e
    have hr : cellsAbove m rest := fun e he => h e (List.mem_cons_of_mem _ he)
    simp only [cellSet]
    split
    · split
      · exact h
      · intro e he
        rcases List.mem_cons.1 he with rfl | he
        · exact hn
        · exact h e he
    · split
      · split
        · exact hr
        · intro e he
          rcases List.mem_cons.1 he with rfl | he
          · exact hn
          · exact hr e he
      · intro e he
        rcases List.mem_cons.1 he with rfl | he
        · exact h _ (by simp)
        · exact ih hr e he

theorem cellSet_ok {l : List Host.Cell} (n : Nat) (v : Byte) (h : cellsOk l = true) : cellsOk (cellSet l n v) = true := by
  induction l with
  | nil =>
    simp only [cellSet]
    split
    · rfl
    · rename_i hv; simpa [cellsOk] using hv
  | cons e rest ih =>
    obtain ⟨a, b⟩ := e
    obtain ⟨hb, ha, hr⟩ := cellsOk_cons.1 h
    simp only [cellSet]
    split
    · rename_i hlt
      split
      · exact h
      · rename_i hv
        refine cellsOk_cons.2 ⟨hv, ?_, h⟩
        intro e he
        rcases List.mem_cons.1 he with rfl | he
        · exact hlt
        · exact lt_trans hlt (ha e he)
    · split
      · rename_i heq
        split
        · exact hr
        · rename_i hv; subst heq; exact cellsOk_cons.2 ⟨hv, ha, hr⟩
      · exact cellsOk_cons.2 ⟨hb, cellSet_above ha (by omega), ih hr⟩

theorem cellAt_above {n : Nat} {l : List Host.Cell} (h : cellsAbove n l) : cellAt l n = 0 := by
  cases l with
  | nil => rfl
  | cons e rest =>
    obtain ⟨a, b⟩ := e
    have := h (a, b) (by simp)
    simp only [cellAt]
    simp only at this
    rw [if_neg (by omega), if_pos this]

theorem cellAt_cellSet_self {l : List Host.Cell} (n : Nat) (v : Byte) (h : cellsOk l = true) :
    cellAt (cellSet l n v) n = v := by
  induction l with
  | nil => simp only [cellSet]; split <;> simp [cellAt, *]
  | cons e rest ih =>
    obtain ⟨a, b⟩ := e
    obtain ⟨hb, ha, hr⟩ := cellsOk_cons.1 h
    simp only [cellSet]
    split
    · rename_i hlt
      split
      · rename_i hv; simp only [cellAt]; rw [if_neg (by omega), if_pos hlt, hv]
      · simp [cellAt]
    · split
      · rename_i heq
        split
        · rename_i hv; rw [heq, cellAt_above ha, hv]
        · simp [cellAt]
      · simp only [cellAt]; rw [if_neg (by omega), if_neg (by omega)]; exact ih hr

theorem cellAt_cellSet_other {l : List Host.Cell} {n n' : Nat} (v : Byte) (h : cellsOk l = true) (hn : n' ≠ n) :
    cellAt (cellSet l n v) n' = cellAt l n' := by
  induction l with
  | nil =>
    simp only [cellSet]
    split
    · rfl
    · simp only [cellAt]; rw [if_neg (Ne.symm hn)]; split <;> rfl
  | cons e rest ih =>
    obtain ⟨a, b⟩ := e
    obtain ⟨hb, ha, hr⟩ := cellsOk_cons.1 h
    simp only [cellSet]
    split
    · rename_i hlt
      split
      · rfl
      · simp only [cellAt]
        rw [if_neg (Ne.symm hn)]
        by_cases h' : n' < n
        · rw [if_pos h', if_neg (by omega), if_pos (by omega)]
        · rw [if_neg h']
    · split
      · rename_i heq
        subst heq
        split
        · simp only [cellAt]
          rw [if_neg (Ne.symm hn)]
          split
          · rename_i h'; exact cellAt_above fun e he => lt_trans h' (ha e he)
          · rfl
        · simp only [cellAt]; rw [if_neg (Ne.symm hn), if_neg (Ne.symm hn)]
      · simp only [cellAt, ih hr]

/-! ### Attributes -/

/-- Every word of a table of attributes is greater than a bound. -/
def attrsAbove (n : Nat) (l : Map WordAttr) : Prop := ∀ e ∈ l, n < e.1

theorem attrsOk_cons {a : Nat} {b : WordAttr} {l : Map WordAttr} :
    attrsOk ((a, b) :: l) = true ↔ b ≠ {} ∧ attrsAbove a l ∧ attrsOk l = true := by
  induction l generalizing a b with
  | nil => simp [attrsOk, attrsAbove]
  | cons e rest ih =>
    obtain ⟨a', b'⟩ := e
    rw [attrsOk]
    simp only [Bool.and_eq_true, bne_iff_ne, ne_eq, decide_eq_true_eq, attrsAbove, List.mem_cons, forall_eq_or_imp]
    constructor
    · rintro ⟨⟨hb, hlt⟩, hok⟩
      refine ⟨hb, ⟨hlt, fun e he => ?_⟩, hok⟩
      exact lt_trans hlt ((ih.1 hok).2.1 e he)
    · rintro ⟨hb, ⟨hlt, -⟩, hok⟩
      exact ⟨⟨hb, hlt⟩, hok⟩

theorem attrSet_above {m n : Nat} {v : WordAttr} {l : Map WordAttr} (h : attrsAbove m l) (hn : m < n) :
    attrsAbove m (attrSet l n v) := by
  induction l with
  | nil =>
    simp only [attrSet]
    split
    · exact h
    · intro e he; simp at he; subst he; exact hn
  | cons e rest ih =>
    obtain ⟨a, b⟩ := e
    have hr : attrsAbove m rest := fun e he => h e (List.mem_cons_of_mem _ he)
    simp only [attrSet]
    split
    · split
      · exact h
      · intro e he
        rcases List.mem_cons.1 he with rfl | he
        · exact hn
        · exact h e he
    · split
      · split
        · exact hr
        · intro e he
          rcases List.mem_cons.1 he with rfl | he
          · exact hn
          · exact hr e he
      · intro e he
        rcases List.mem_cons.1 he with rfl | he
        · exact h _ (by simp)
        · exact ih hr e he

theorem attrSet_ok {l : Map WordAttr} (n : Nat) (v : WordAttr) (h : attrsOk l = true) : attrsOk (attrSet l n v) = true := by
  induction l with
  | nil => simp only [attrSet]; split <;> simp [attrsOk, *]
  | cons e rest ih =>
    obtain ⟨a, b⟩ := e
    obtain ⟨hb, ha, hr⟩ := attrsOk_cons.1 h
    simp only [attrSet]
    split
    · rename_i hlt
      split
      · exact h
      · rename_i hv
        refine attrsOk_cons.2 ⟨hv, ?_, h⟩
        intro e he
        rcases List.mem_cons.1 he with rfl | he
        · exact hlt
        · exact lt_trans hlt (ha e he)
    · split
      · rename_i heq
        split
        · exact hr
        · rename_i hv; subst heq; exact attrsOk_cons.2 ⟨hv, ha, hr⟩
      · exact attrsOk_cons.2 ⟨hb, attrSet_above ha (by omega), ih hr⟩

/-! ### The operations over memory keep its form -/

theorem Memory.wf_iff {m : Memory} : m.wf = true ↔ cellsOk m.bytes = true ∧ attrsOk m.attrs = true := by
  simp [Memory.wf]

theorem Memory.putBytes_attrs (m : Memory) (a n v : Nat) : (m.putBytes a n v).attrs = m.attrs := by
  induction n generalizing m a v with
  | zero => rfl
  | succ n ih => rw [Memory.putBytes, ih]

theorem Memory.putBytes_wf {m : Memory} (a n v : Nat) (h : m.wf = true) : (m.putBytes a n v).wf = true := by
  induction n generalizing m a v with
  | zero => exact h
  | succ n ih =>
    rw [Memory.putBytes]
    refine ih _ _ ?_
    rw [Memory.wf_iff] at h ⊢
    exact ⟨cellSet_ok _ _ h.1, h.2⟩

theorem Memory.setAttr_wf {m : Memory} (a : Nat) (x : WordAttr) (h : m.wf = true) : (m.setAttr a x).wf = true := by
  rw [Memory.wf_iff] at h ⊢
  exact ⟨h.1, attrSet_ok _ _ h.2⟩

theorem Memory.write_wf {m : Memory} (k a : Nat) (v : Word) (e : Bool) (h : m.wf = true) : (m.write k a v e).wf = true := by
  unfold Memory.write
  split
  · exact Memory.setAttr_wf _ _ h
  · exact Memory.setAttr_wf _ _ (Memory.putBytes_wf _ _ _ h)

theorem Memory.setEmpty_wf {m : Memory} (a : Nat) (e : Bool) (h : m.wf = true) : (m.setEmpty a e).wf = true := by
  unfold Memory.setEmpty
  split
  · exact h
  · exact Memory.setAttr_wf _ _ h

/-- Reset leaves memory in its canonical form. -/
theorem reset_mem_wf : State.reset.mem.wf = true := rfl

/-! ### Reads after writes -/

theorem Memory.setAttr_byte (m : Memory) (a b : Nat) (x : WordAttr) : (m.setAttr a x).byte b = m.byte b := rfl

theorem Memory.setEmpty_byte (m : Memory) (a b : Nat) (e : Bool) : (m.setEmpty a e).byte b = m.byte b := by
  unfold Memory.setEmpty
  split <;> rfl

theorem Memory.putBytes_byte_other {m : Memory} (a n v : Nat) {b : Nat} (h : m.wf = true) (hb : b < a ∨ a + n ≤ b) :
    (m.putBytes a n v).byte b = m.byte b := by
  induction n generalizing m a v with
  | zero => rfl
  | succ n ih =>
    rw [Memory.putBytes, ih]
    · exact cellAt_cellSet_other _ (Memory.wf_iff.1 h).1 (by omega)
    · rw [Memory.wf_iff] at h ⊢; exact ⟨cellSet_ok _ _ h.1, h.2⟩
    · omega

theorem Memory.putBytes_byte {m : Memory} (a n v : Nat) {i : Nat} (h : m.wf = true) (hi : i < n) :
    (m.putBytes a n v).byte (a + i) = BitVec.ofNat 8 (v / 256 ^ i) := by
  induction n generalizing m a v i with
  | zero => omega
  | succ n ih =>
    have hw : Memory.wf { m with bytes := cellSet m.bytes a (BitVec.ofNat 8 v) } = true := by
      rw [Memory.wf_iff] at h ⊢; exact ⟨cellSet_ok _ _ h.1, h.2⟩
    rw [Memory.putBytes]
    cases i with
    | zero =>
      rw [Nat.add_zero, Memory.putBytes_byte_other _ _ _ hw (by omega)]
      simpa [Memory.byte] using cellAt_cellSet_self a (BitVec.ofNat 8 v) (Memory.wf_iff.1 h).1
    | succ i =>
      rw [show a + (i + 1) = a + 1 + i by omega, ih (a + 1) (v / 256) hw (by omega), Nat.div_div_eq_div_mul, pow_succ, mul_comm]

theorem Memory.bytesAt_of {m : Memory} {a n v : Nat} (h : ∀ i, i < n → m.byte (a + i) = BitVec.ofNat 8 (v / 256 ^ i)) :
    m.bytesAt a n = v % 256 ^ n := by
  induction n generalizing a v with
  | zero => simp [Memory.bytesAt, Nat.mod_one]
  | succ n ih =>
    have h0 := h 0 (by omega)
    have hr : m.bytesAt (a + 1) n = v / 256 % 256 ^ n := ih fun i hi => by
      have := h (i + 1) (by omega)
      rw [show a + 1 + i = a + (i + 1) by omega, this, Nat.div_div_eq_div_mul, pow_succ, mul_comm]
    rw [Memory.bytesAt, hr]
    simp only [Nat.add_zero, pow_zero, Nat.div_one] at h0
    rw [h0, BitVec.toNat_ofNat, show (2 : Nat) ^ 8 = 256 from rfl, pow_succ, mul_comm (256 ^ n), Nat.mod_mul]

theorem Memory.setAttr_bytesAt (m : Memory) (a b n : Nat) (x : WordAttr) : (m.setAttr a x).bytesAt b n = m.bytesAt b n := by
  induction n generalizing b with
  | zero => rfl
  | succ n ih => simp [Memory.bytesAt, ih, Memory.setAttr_byte]

theorem find_above {n : Nat} {l : Map WordAttr} (h : attrsAbove n l) : l.find n = none := by
  induction l with
  | nil => rfl
  | cons e rest ih =>
    obtain ⟨a, b⟩ := e
    have ha : n < a := h (a, b) (by simp)
    rw [Map.find, if_neg (by omega)]
    exact ih fun e he => h e (List.mem_cons_of_mem _ he)

theorem attrSet_find {l : Map WordAttr} (n : Nat) (v : WordAttr) (h : attrsOk l = true) :
    ((attrSet l n v).find n).getD {} = v := by
  induction l with
  | nil => simp only [attrSet]; split <;> simp [Map.find, *]
  | cons e rest ih =>
    obtain ⟨a, b⟩ := e
    obtain ⟨hb, ha, hr⟩ := attrsOk_cons.1 h
    simp only [attrSet]
    split
    · rename_i hlt
      split
      · rename_i hv
        rw [Map.find, if_neg (by omega), find_above fun e he => lt_trans hlt (ha e he), hv]; rfl
      · simp [Map.find]
    · split
      · rename_i heq
        split
        · rename_i hv; subst heq; rw [find_above ha, hv]; rfl
        · simp [Map.find]
      · rename_i hne
        rw [Map.find, if_neg (Ne.symm hne)]; exact ih hr

theorem Memory.setAttr_attr {m : Memory} (a : Nat) (x : WordAttr) (h : m.wf = true) : (m.setAttr a x).attr a = x :=
  attrSet_find _ _ (Memory.wf_iff.1 h).2

theorem Memory.setAttr_plain (m : Memory) (a b : Nat) (x : WordAttr) : (m.setAttr a x).plain b = m.plain b := by
  rw [Memory.plain, Memory.plain, Memory.setAttr_bytesAt]

theorem Memory.putBytes_plain {m : Memory} (a : Nat) (v : Word) (h : m.wf = true) :
    (m.putBytes (a / 8 * 8) 8 v.toNat).plain a = v := by
  have hb := Memory.bytesAt_of (m := m.putBytes (a / 8 * 8) 8 v.toNat) (a := a / 8 * 8) (n := 8) (v := v.toNat)
    fun i hi => Memory.putBytes_byte _ _ _ h hi
  rw [Memory.plain, hb]
  apply BitVec.eq_of_toNat_eq
  simp only [BitVec.toNat_ofNat]
  have := v.isLt
  omega

/-- A word reads as what was written to it, under the key it was written with. -/
theorem Memory.write_read {m : Memory} (k a : Nat) (v : Word) (e : Bool) (h : m.wf = true) :
    (m.write k a v e).read k a = v := by
  unfold Memory.write
  split
  · rename_i hs
    rw [Memory.read, Memory.setAttr_attr _ _ h, Memory.setAttr_plain]
    unfold Memory.same at hs
    split at hs
    · rename_i k' hk
      rw [Bool.and_eq_true, bne_iff_ne, beq_iff_eq, Memory.read, hk] at hs
      simpa [hk] using hs.2
    · cases hs
  · rw [Memory.read, Memory.setAttr_attr _ _ (Memory.putBytes_wf _ _ _ h), Memory.setAttr_plain]
    simp [Memory.putBytes_plain _ _ h]

/-- What a write leaves in a word's attributes: the full/empty bit given and no error. -/
theorem Memory.write_attr {m : Memory} (k a : Nat) (v : Word) (e : Bool) (h : m.wf = true) :
    ((m.write k a v e).attr a).empty = e ∧ ((m.write k a v e).attr a).error = 0 := by
  unfold Memory.write
  split
  · rw [Memory.setAttr_attr _ _ h]; exact ⟨rfl, rfl⟩
  · rw [Memory.setAttr_attr _ _ (Memory.putBytes_wf _ _ _ h)]; exact ⟨rfl, rfl⟩

/-- A write of a word leaves every byte outside the word alone. -/
theorem Memory.write_byte_other {m : Memory} (k a : Nat) (v : Word) (e : Bool) {b : Nat} (h : m.wf = true)
    (hb : b / 8 ≠ a / 8) : (m.write k a v e).byte b = m.byte b := by
  unfold Memory.write
  split
  · rw [Memory.setAttr_byte]
  · rw [Memory.setAttr_byte, Memory.putBytes_byte_other _ _ _ h (by omega)]

end Sys2Proof.Machine
end

