-- ==== Sys2Proof/Laws/Ops.lean ====
section
/-! SUPPORT. What the shared operations do: the agenda after a step is posted, a register after a write, a request after a
change, a thread after it parks, returns or takes a trap; and that none of these writes memory. -/

namespace Sys2Proof.Machine

variable {s : State} {c k : Nat}

/-! ### The agenda -/

theorem mem_insertDue {l : List Due} {d e : Due} : e ∈ insertDue l d ↔ e = d ∨ e ∈ l := by
  induction l with
  | nil => simp [insertDue]
  | cons x l ih =>
    simp only [insertDue]
    split
    · simp
    · simp only [List.mem_cons, ih]
      tauto

theorem State.mem_post (time rank : Nat) (ev : Instr) (e : Due) :
    e ∈ (s.post time rank ev).agenda ↔ e = { time := time, rank := rank, ev := ev } ∨ e ∈ s.agenda := mem_insertDue

theorem State.post_coming (time rank : Nat) (ev : Instr) : coming (s.post time rank ev) time ev :=
  ⟨rank, (State.mem_post time rank ev _).2 (.inl rfl)⟩

theorem State.post_coming_old {t : Nat} {i : Instr} (time rank : Nat) (ev : Instr) (h : coming s t i) :
    coming (s.post time rank ev) t i := h.imp fun _ hr => (State.mem_post time rank ev _).2 (.inr hr)

theorem State.after_coming (d rank : Nat) (ev : Instr) : coming (s.after d rank ev) (s.cyc + d) ev :=
  State.post_coming _ _ _

theorem State.after_coming_old {t : Nat} {i : Instr} (d rank : Nat) (ev : Instr) (h : coming s t i) :
    coming (s.after d rank ev) t i := State.post_coming_old _ _ _ h

/-! ### Scalar registers -/

@[simp] theorem State.setW_zero (v : Word) : s.setW c k 0 v = s := rfl

/-- A write of a register is read back through the thread's window. -/
theorem State.setW_regW_self {t : Thread} {n : Nat} (v : Word) (hn : n ≠ 0) (ht : s.thread c k = some t) :
    ((s.setW c k n v).core c).regW t n = v := by
  simp [State.setW, Core.regW, hn, ht]

/-- A write of a register leaves every other register of its window. -/
theorem State.setW_regW_other {t : Thread} {n m : Nat} (v : Word) (hm : m ≠ n) (ht : s.thread c k = some t) :
    ((s.setW c k n v).core c).regW t m = (s.core c).regW t m := by
  simp only [State.setW, ht]
  split
  · rfl
  · simp [Core.regW, hm]

@[simp] theorem State.setW_thread (n : Nat) (v : Word) (c' k' : Nat) : (s.setW c k n v).thread c' k' = s.thread c' k' := by
  unfold State.setW
  split
  · rfl
  · split
    · rfl
    · by_cases h : c' = c
      · subst h; simp [State.thread, Core.slot]
      · simp [State.thread, h]

@[simp] theorem State.setW_mem (n : Nat) (v : Word) : (s.setW c k n v).mem = s.mem := by
  unfold State.setW; split <;> [rfl; split <;> simp]

/-! ### Requests -/

theorem State.upReq_find_self (n : Nat) (f : Req → Req) : (s.upReq n f).reqs.find n = (s.reqs.find n).map f :=
  Map.find_adjust_self _ _ _

theorem State.upReq_find_other {n m : Nat} (f : Req → Req) (h : m ≠ n) : (s.upReq n f).reqs.find m = s.reqs.find m :=
  Map.find_adjust_other _ _ h

/-! ### Memory stays: the rotation, records, sections, notices and traps write none -/

theorem foldl_mem {α : Type} (f : State → α → State) (h : ∀ s a, (f s a).mem = s.mem) (l : List α) :
    (l.foldl f s).mem = s.mem := by
  induction l generalizing s with
  | nil => rfl
  | cons a l ih => simp only [List.foldl_cons, ih, h]

@[simp] theorem State.kick_mem : (s.kick c).mem = s.mem := by
  unfold State.kick; repeat' split
  all_goals simp

@[simp] theorem State.enter_mem : (s.enter c k).mem = s.mem := by
  unfold State.enter; split <;> simp

@[simp] theorem State.wake_mem : (s.wake c k).mem = s.mem := by
  unfold State.wake; repeat' split
  all_goals simp

@[simp] theorem State.park_mem (why : Park) (till : Wait) : (s.park c k why till).mem = s.mem := by
  unfold State.park; split <;> simp

@[simp] theorem State.poke_mem (t : Tid) : (s.poke t).mem = s.mem := by
  unfold State.poke; repeat' split
  all_goals simp

@[simp] theorem State.pokeCore_mem : (s.pokeCore c).mem = s.mem := by
  simp only [State.pokeCore]
  exact foldl_mem _ (by simp) _

@[simp] theorem State.putRecord_mem (r : FRec) : (s.putRecord r).2.mem = s.mem := rfl

@[simp] theorem State.postRecord_mem (r : FRec) : (s.postRecord c r).mem = s.mem := by
  simp [State.postRecord]

@[simp] theorem State.kernelFault_mem (src code : Nat) (info arg resume epc vx : Word) (held : Option Nat) :
    (s.kernelFault c k src code info arg resume epc vx held).mem = s.mem := by
  unfold State.kernelFault; split <;> simp

@[simp] theorem State.abandon_mem : (s.abandon c k).mem = s.mem := by
  unfold State.abandon; split <;> [rfl; split <;> simp]

@[simp] theorem State.sendNotices_mem (ctx : Nat) (rcb : Word) : (s.sendNotices c ctx rcb).mem = s.mem := by
  simp only [State.sendNotices]
  exact foldl_mem _ (by simp) _

@[simp] theorem State.cancelDomain_mem (part rec : Nat) (b : Word) (pa key : Nat) :
    (s.cancelDomain c part rec b pa key).mem = s.mem := by simp [State.cancelDomain]

@[simp] theorem State.domainCancelled_mem (r : Req) (set : Bool) : (s.domainCancelled r set).mem = s.mem := by
  unfold State.domainCancelled; split <;> simp

@[simp] theorem State.abortToKernel_mem (code : Nat) (info resume epc : Word) :
    (s.abortToKernel c k code info resume epc).mem = s.mem := by
  unfold State.abortToKernel; repeat' split
  all_goals simp

@[simp] theorem State.trap_mem (code : Nat) (info epc vx : Word) (late : Bool) :
    (s.trap c k code info epc vx late).mem = s.mem := by
  unfold State.trap
  dsimp only
  repeat' split
  all_goals simp

@[simp] theorem State.eret_mem : (s.eret c k).mem = s.mem := by simp [State.eret]

/-! ### The writers of memory keep its canonical form -/

@[simp] theorem State.fireLine_mem (b line : Nat) : (s.fireLine b line).mem = s.mem := by
  simp only [State.fireLine]
  exact foldl_mem _ (fun u w => by split <;> simp) _

@[simp] theorem State.wrote_mem (pa : Nat) : (s.wrote pa).mem = s.mem := by simp [State.wrote]

theorem State.writeFor_ok (r : Req) (a : Nat) (v : Word) (full : Bool) (h : s.MemOk) : (s.writeFor r a v full).MemOk := by
  simpa [State.MemOk, State.writeFor] using Memory.write_wf _ _ _ _ h

theorem State.writeRun_ok (r : Req) (full : Bool) (a : Nat) (vs : List Word) (h : s.MemOk) :
    (s.writeRun r full a vs).MemOk := by
  induction vs generalizing s a with
  | nil => exact h
  | cons v vs ih => exact ih _ (State.writeFor_ok r a v full h)

theorem State.writeDirty_ok (r : Req) (l : List (Nat × Word)) (h : s.MemOk) : (s.writeDirty r l).MemOk := by
  induction l generalizing s with
  | nil => exact h
  | cons e l ih =>
    apply ih
    simpa [State.MemOk] using Memory.write_wf _ _ _ _ h

theorem State.blank_ok (pa n : Nat) (h : s.MemOk) : (s.blank pa n).MemOk := by
  simp only [State.blank]
  induction wordsFrom pa (n / 8) generalizing s with
  | nil => exact h
  | cons a l ih =>
    refine ih ?_
    rw [State.MemOk, State.wrote_mem]
    exact Memory.setEmpty_wf a true h

theorem State.logAppend_ok (asid : Nat) (entry : Word) (h : s.MemOk) : (s.logAppend asid entry).2.MemOk := by
  unfold State.logAppend
  dsimp only
  repeat' split
  · exact h
  · exact h
  · exact h
  · simpa [State.MemOk] using Memory.write_wf _ _ _ _ h

/-! ### A thread that parks, returns or meets a fault -/

/-- A thread that parks waits for what it was given, with its pc as it was. -/
theorem State.park_thread {t : Thread} (why : Park) (till : Wait) (ht : s.thread c k = some t) :
    (s.park c k why till).thread c k =
      some { t with status := .parked why till, yield := none, outSince := some (t.outSince.getD s.cyc) } := by
  have h (u : State) (d r : Nat) (i : Instr) : (u.post d r i).thread c k = u.thread c k := rfl
  unfold State.park
  dsimp only
  split <;> simp [h, ht]

/-- A kernel fault parks its thread with its resume point, code and information (R186). -/
theorem State.kernelFault_thread {t : Thread} (src code : Nat) (info arg resume epc vx : Word) (held : Option Nat)
    (ht : s.thread c k = some t) :
    (s.kernelFault c k src code info arg resume epc vx held).thread c k =
      some { t with status := .parked .fault (.fault resume code info epc vx held), yield := none,
                    outSince := some (t.outSince.getD s.cyc) } := by
  have h (u : State) (r : FRec) : (u.postRecord c r).thread c k = u.thread c k := rfl
  simp only [State.kernelFault, ht, h]
  exact State.park_thread _ _ ht

/-- ERET's pc, level and th.vx (R183). -/
theorem State.eret_thread {t : Thread} (ht : s.thread c k = some t) :
    (s.eret c k).thread c k =
      some { t with vx := 0, lvl := false, pc := t.epc,
                    restart := if t.vx.extractLsb' 62 2 = 1 then some (t.vx.extractLsb' 0 40) else none } := by
  simp [State.eret, ht]

end Sys2Proof.Machine
end

