-- ==== Sys2Proof/Laws/Service.lean ====
section
/-! SUPPORT. The place that serves a request keeps memory in its canonical form: service, the scans of the waiters, the hold
queues, write-backs, and the logging of a first write; and a unit that waits for its turn writes nothing. -/

namespace Sys2Proof.Machine

variable {s : State}

/-! ### What writes no memory -/

@[simp] theorem State.upTid_mem (t : Tid) (f : Thread → Thread) : (s.upTid t f).mem = s.mem := by
  unfold State.upTid; split <;> rfl

@[simp] theorem State.notice_mem (kern kind : Nat) (w1 w2 : Word) : (s.notice kern kind w1 w2).mem = s.mem := rfl

@[simp] theorem State.tellPoison_mem (pa : Nat) : (s.tellPoison pa).mem = s.mem := by
  unfold State.tellPoison; split <;> rfl

@[simp] theorem State.countRead_mem (a n : Nat) : (s.countRead a n).mem = s.mem := by
  unfold State.countRead State.countFixed; repeat' split
  all_goals rfl

@[simp] theorem State.noteDirty_mem (core asid va : Nat) : (s.noteDirty core asid va).mem = s.mem := rfl

@[simp] theorem State.unblock_mem (n : Nat) : (s.unblock n).mem = s.mem := by
  unfold State.unblock
  exact foldl_mem _ (fun u e => by dsimp only; split <;> simp) _

@[simp] theorem State.reply_mem (n : Nat) (ans : List Word) : (s.reply n ans).mem = s.mem := by
  unfold State.reply; repeat' split
  all_goals simp

@[simp] theorem State.refuse_mem (n code : Nat) (info : Word) : (s.refuse n code info).mem = s.mem := by simp [State.refuse]

@[simp] theorem State.farStore_mem (n : Nat) (r : Req) : (s.farStore n r).mem = s.mem := by
  unfold State.farStore; split <;> rfl

@[simp] theorem State.grant_mem (n : Nat) (r : Req) : (s.grant n r).mem = s.mem := by
  unfold State.grant
  dsimp only
  cases h : r.op
  case rsv p => simp only [State.reply_mem, State.upBank_mem]
  case leaf e => dsimp only; split <;> rfl
  case turn => dsimp only; cases r.instr <;> rfl
  all_goals rfl

@[simp] theorem State.unwait_mem (r : Req) : (s.unwait r).mem = s.mem := by
  unfold State.unwait; split <;> simp

/-! ### Service (R97, R102, R103) -/

/-- Arming a monitor writes no memory (R145). -/
theorem State.perform_arm_mem (n : Nat) (r : Req) (m : Nat) (h : r.op = .arm m) : (s.perform n r).mem = s.mem := by
  unfold State.perform
  simp only [h]
  split
  · rw [State.reply_mem]
  · split
    · split <;> simp
    · simp

theorem State.perform_ok (n : Nat) (r : Req) (h : s.MemOk) : (s.perform n r).MemOk := by
  cases hop : r.op
  case arm m => rw [State.MemOk, State.perform_arm_mem n r m hop]; exact h
  all_goals
    unfold State.perform
    simp only [hop, State.MemOk, State.reply_mem, State.farStore_mem, State.wrote_mem]
    first
      | exact h
      | exact State.writeFor_ok _ _ _ _ h
      | exact Memory.setEmpty_wf _ _ h
      | exact State.writeRun_ok _ _ _ _ h
      | exact State.writeDirty_ok _ _ h

theorem State.serve_ok (n : Nat) (r : Req) (h : s.MemOk) : (s.serve n r).MemOk := by
  unfold State.serve
  dsimp only
  have h' : (if r.op.reads = true then s.countRead r.first r.words else s).MemOk := by
    split
    · rw [State.MemOk, State.countRead_mem]; exact h
    · exact h
  split
  · rw [State.MemOk, State.refuse_mem, State.tellPoison_mem]; exact h'
  · split
    · rw [State.MemOk, State.grant_mem]; exact h'
    · exact State.perform_ok n r h'

theorem State.scanPass_ok (b a : Nat) (l : List Nat) (h : s.MemOk) : (s.scanPass b a l).1.MemOk := by
  induction l generalizing s with
  | nil => exact h
  | cons n l ih =>
    rw [State.scanPass]
    split
    · exact ih h
    · split
      · refine ih (State.serve_ok _ _ ?_)
        rw [State.MemOk, State.unwait_mem]; exact h
      · exact ih h

theorem State.scan_ok (b a fuel : Nat) (h : s.MemOk) : (s.scan b a fuel).MemOk := by
  induction fuel generalizing s with
  | zero => exact h
  | succ n ih =>
    rw [State.scan]
    have h' := State.scanPass_ok b a (s.bank b).waiters h
    split <;> rename_i e <;> rw [e] at h'
    · exact ih h'
    · exact h'

theorem State.scanWord_ok (a : Nat) (h : s.MemOk) : (s.scanWord a).MemOk := State.scan_ok _ _ _ h

/-- Scans of several words, one after the other. -/
theorem scans_ok (f : State → Nat → State) (hf : ∀ s a, s.MemOk → (f s a).MemOk) (l : List Nat) (h : s.MemOk) :
    (l.foldl f s).MemOk := by
  induction l generalizing s with
  | nil => exact h
  | cons a l ih => exact ih (hf s a h)

theorem State.serveScan_ok (n : Nat) (r : Req) (h : s.MemOk) : (s.serveScan n r).MemOk := by
  unfold State.serveScan
  dsimp only
  have h' := State.serve_ok n r h
  split
  · split
    · exact h'
    · exact scans_ok _ (fun _ _ hs => State.scan_ok _ _ _ hs) _ h'
  · exact h'

/-- A request that meets its word keeps memory canonical: it is queued, it waits, it is refused, or it is served (R103, R133). -/
theorem State.meetWord_ok (n : Nat) (r : Req) (h : s.MemOk) : (s.meetWord n r).MemOk := by
  unfold State.meetWord
  dsimp only
  split
  · split <;> exact h
  · split
    · exact State.serveScan_ok n r h
    · split
      · exact h
      · split
        · split
          · rw [State.MemOk, State.upTid_mem]; exact h
          · exact h
        · exact h

theorem State.drainQueue_ok (b lo size : Nat) (l : List Nat) (h : s.MemOk) : (s.drainQueue b lo size l).MemOk := by
  induction l generalizing s with
  | nil => exact h
  | cons n l ih =>
    rw [State.drainQueue]
    split
    · exact ih h
    · split
      · exact ih (State.meetWord_ok _ _ h)
      · exact ih h

/-- The end of a hold serves what waited for it (R133). -/
theorem State.release_ok (b lo size : Nat) (h : s.MemOk) : (s.release b lo size).MemOk := State.drainQueue_ok _ _ _ _ h

/-! ### Write-backs, turns and the dirty log (R133, R304) -/

theorem State.writeBack_ok (n : Nat) (r : Req) (v0 v1 : Word) (h : s.MemOk) : (s.writeBack n r v0 v1).MemOk := by
  unfold State.writeBack
  dsimp only
  have h1 : (s.writeRun r (s.newWords r v0 v1).2 r.first (s.newWords r v0 v1).1).MemOk := State.writeRun_ok _ _ _ _ h
  generalize s.writeRun r (s.newWords r v0 v1).2 r.first (s.newWords r v0 v1).1 = u at h1
  have h2 : ∀ f : Bank → Bank, ∀ w : State, w = (if ((u.upBank (s.bankOf r) f).bank (s.bankOf r)).waiters = [] then u.upBank (s.bankOf r) f
      else (u.upBank (s.bankOf r) f).scan (s.bankOf r) r.first (((u.upBank (s.bankOf r) f).bank (s.bankOf r)).waiters.length + 1)) → w.MemOk := by
    intro f w hw
    rw [hw]
    split
    · exact h1
    · exact State.scan_ok _ _ _ h1
  split
  · exact State.release_ok _ _ _ (by split <;> first | exact h2 _ _ rfl | (rw [State.MemOk, State.farStore_mem]; exact h2 _ _ rfl))
  · rw [State.MemOk, State.reply_mem]
    exact State.release_ok _ _ _ (by split <;> first | exact h2 _ _ rfl | (rw [State.MemOk, State.farStore_mem]; exact h2 _ _ rfl))

/-- A unit whose turn has come at a word writes nothing by that (R133). -/
theorem State.turn_served_mem (n : Nat) (r : Req) (h : r.op = .turn) (hv : r.view = none) : (s.serveScan n r).mem = s.mem := by
  have hs : s.serve n r = s.grant n r := by
    unfold State.serve
    rw [h]
    rfl
  have hb : ¬ (r.op.changesBit || r.view.isSome) = true := by rw [h, hv]; decide
  unfold State.serveScan
  rw [hs]
  dsimp only
  rw [if_neg hb, State.grant_mem]

/-- A unit that waits for its turn at a word writes nothing (R133). -/
@[simp] theorem State.awaitTurn_mem (a : Nat) (ev : Instr) (rank : Nat) : (s.awaitTurn a ev rank).mem = s.mem := by
  unfold State.awaitTurn
  split
  · rfl
  · dsimp only
    generalize hr : ({ op := .turn, instr := some ev, pa := a, index := rank } : Req) = r
    have h : r.op = .turn := by rw [← hr]
    have hv : r.view = none := by rw [← hr]
    unfold State.meetWord
    dsimp only
    split
    · split <;> rfl
    · have hc : r.op.canServe ((s.addReq r).2.mem.full r.first) = true := by rw [h]; rfl
      rw [if_pos hc, State.turn_served_mem _ _ h hv]
      rfl

/-- The first write to a clean page by a unit that writes at once keeps memory canonical (R304). -/
theorem State.logNow_ok (core asid : Nat) (p : Word) (leaf : Nat) (h : s.MemOk) : (s.logNow core asid p leaf).2.MemOk := by
  have hc : (s.countRead leaf 1).MemOk := by rw [State.MemOk, State.countRead_mem]; exact h
  unfold State.logNow
  dsimp only
  split
  · exact h
  · split
    · exact h
    · split
      · exact h
      · generalize s.countRead leaf 1 = u at hc ⊢
        split
        · rw [State.MemOk, State.tellPoison_mem]; exact hc
        · split
          · exact hc
          · split
            · exact hc
            · have hl := State.logAppend_ok asid (u.logEntry core asid (offsetOf p)) hc
              split <;> rename_i e <;> rw [e] at hl
              · exact hl
              · rw [State.MemOk, State.noteDirty_mem, State.wrote_mem]
                exact Memory.write_wf _ _ _ _ (State.scanWord_ok _ hl)

end Sys2Proof.Machine
end

