-- ==== Sys2Proof/Laws/Updates.lean ====
section
/-! SUPPORT. One lemma per field of the state for the updates of frames of tasks, clusters, dies, sequences, kernels and
rings. -/

namespace Sys2Proof.Machine

variable (s : State)

/-! ### upFrame -/

@[simp] theorem State.upFrame_cyc (f : Nat) (g : TFrame → TFrame) : (s.upFrame f g).cyc = s.cyc := rfl
@[simp] theorem State.upFrame_agenda (f : Nat) (g : TFrame → TFrame) : (s.upFrame f g).agenda = s.agenda := rfl
@[simp] theorem State.upFrame_hand (f : Nat) (g : TFrame → TFrame) : (s.upFrame f g).hand = s.hand := rfl
@[simp] theorem State.upFrame_serial (f : Nat) (g : TFrame → TFrame) : (s.upFrame f g).serial = s.serial := rfl
@[simp] theorem State.upFrame_free (f : Nat) (g : TFrame → TFrame) : (s.upFrame f g).free = s.free := rfl
@[simp] theorem State.upFrame_cores (f : Nat) (g : TFrame → TFrame) : (s.upFrame f g).cores = s.cores := rfl
@[simp] theorem State.upFrame_mem (f : Nat) (g : TFrame → TFrame) : (s.upFrame f g).mem = s.mem := rfl
@[simp] theorem State.upFrame_banks (f : Nat) (g : TFrame → TFrame) : (s.upFrame f g).banks = s.banks := rfl
@[simp] theorem State.upFrame_reqs (f : Nat) (g : TFrame → TFrame) : (s.upFrame f g).reqs = s.reqs := rfl
@[simp] theorem State.upFrame_msgs (f : Nat) (g : TFrame → TFrame) : (s.upFrame f g).msgs = s.msgs := rfl
@[simp] theorem State.upFrame_cancels (f : Nat) (g : TFrame → TFrame) : (s.upFrame f g).cancels = s.cancels := rfl
@[simp] theorem State.upFrame_clusters (f : Nat) (g : TFrame → TFrame) : (s.upFrame f g).clusters = s.clusters := rfl
@[simp] theorem State.upFrame_dies (f : Nat) (g : TFrame → TFrame) : (s.upFrame f g).dies = s.dies := rfl
@[simp] theorem State.upFrame_cache (f : Nat) (g : TFrame → TFrame) : (s.upFrame f g).cache = s.cache := rfl
@[simp] theorem State.upFrame_cacheMax (f : Nat) (g : TFrame → TFrame) : (s.upFrame f g).cacheMax = s.cacheMax := rfl
@[simp] theorem State.upFrame_frames (f : Nat) (g : TFrame → TFrame) : (s.upFrame f g).frames = s.frames.adjust f g := rfl
@[simp] theorem State.upFrame_saved (f : Nat) (g : TFrame → TFrame) : (s.upFrame f g).saved = s.saved := rfl
@[simp] theorem State.upFrame_touched (f : Nat) (g : TFrame → TFrame) : (s.upFrame f g).touched = s.touched := rfl
@[simp] theorem State.upFrame_io (f : Nat) (g : TFrame → TFrame) : (s.upFrame f g).io = s.io := rfl
@[simp] theorem State.upFrame_links (f : Nat) (g : TFrame → TFrame) : (s.upFrame f g).links = s.links := rfl
@[simp] theorem State.upFrame_sys (f : Nat) (g : TFrame → TFrame) : (s.upFrame f g).sys = s.sys := rfl

/-! ### upCluster -/

@[simp] theorem State.upCluster_cyc (c : Nat) (g : Cluster → Cluster) : (s.upCluster c g).cyc = s.cyc := rfl
@[simp] theorem State.upCluster_agenda (c : Nat) (g : Cluster → Cluster) : (s.upCluster c g).agenda = s.agenda := rfl
@[simp] theorem State.upCluster_hand (c : Nat) (g : Cluster → Cluster) : (s.upCluster c g).hand = s.hand := rfl
@[simp] theorem State.upCluster_serial (c : Nat) (g : Cluster → Cluster) : (s.upCluster c g).serial = s.serial := rfl
@[simp] theorem State.upCluster_free (c : Nat) (g : Cluster → Cluster) : (s.upCluster c g).free = s.free := rfl
@[simp] theorem State.upCluster_cores (c : Nat) (g : Cluster → Cluster) : (s.upCluster c g).cores = s.cores := rfl
@[simp] theorem State.upCluster_mem (c : Nat) (g : Cluster → Cluster) : (s.upCluster c g).mem = s.mem := rfl
@[simp] theorem State.upCluster_banks (c : Nat) (g : Cluster → Cluster) : (s.upCluster c g).banks = s.banks := rfl
@[simp] theorem State.upCluster_reqs (c : Nat) (g : Cluster → Cluster) : (s.upCluster c g).reqs = s.reqs := rfl
@[simp] theorem State.upCluster_msgs (c : Nat) (g : Cluster → Cluster) : (s.upCluster c g).msgs = s.msgs := rfl
@[simp] theorem State.upCluster_cancels (c : Nat) (g : Cluster → Cluster) : (s.upCluster c g).cancels = s.cancels := rfl
@[simp] theorem State.upCluster_clusters (c : Nat) (g : Cluster → Cluster) : (s.upCluster c g).clusters = s.clusters.put c (g ((s.clusters.find c).getD {})) := rfl
@[simp] theorem State.upCluster_dies (c : Nat) (g : Cluster → Cluster) : (s.upCluster c g).dies = s.dies := rfl
@[simp] theorem State.upCluster_cache (c : Nat) (g : Cluster → Cluster) : (s.upCluster c g).cache = s.cache := rfl
@[simp] theorem State.upCluster_cacheMax (c : Nat) (g : Cluster → Cluster) : (s.upCluster c g).cacheMax = s.cacheMax := rfl
@[simp] theorem State.upCluster_frames (c : Nat) (g : Cluster → Cluster) : (s.upCluster c g).frames = s.frames := rfl
@[simp] theorem State.upCluster_saved (c : Nat) (g : Cluster → Cluster) : (s.upCluster c g).saved = s.saved := rfl
@[simp] theorem State.upCluster_touched (c : Nat) (g : Cluster → Cluster) : (s.upCluster c g).touched = s.touched := rfl
@[simp] theorem State.upCluster_io (c : Nat) (g : Cluster → Cluster) : (s.upCluster c g).io = s.io := rfl
@[simp] theorem State.upCluster_links (c : Nat) (g : Cluster → Cluster) : (s.upCluster c g).links = s.links := rfl
@[simp] theorem State.upCluster_sys (c : Nat) (g : Cluster → Cluster) : (s.upCluster c g).sys = s.sys := rfl

/-! ### upDie -/

@[simp] theorem State.upDie_cyc (d : Nat) (g : Die → Die) : (s.upDie d g).cyc = s.cyc := rfl
@[simp] theorem State.upDie_agenda (d : Nat) (g : Die → Die) : (s.upDie d g).agenda = s.agenda := rfl
@[simp] theorem State.upDie_hand (d : Nat) (g : Die → Die) : (s.upDie d g).hand = s.hand := rfl
@[simp] theorem State.upDie_serial (d : Nat) (g : Die → Die) : (s.upDie d g).serial = s.serial := rfl
@[simp] theorem State.upDie_free (d : Nat) (g : Die → Die) : (s.upDie d g).free = s.free := rfl
@[simp] theorem State.upDie_cores (d : Nat) (g : Die → Die) : (s.upDie d g).cores = s.cores := rfl
@[simp] theorem State.upDie_mem (d : Nat) (g : Die → Die) : (s.upDie d g).mem = s.mem := rfl
@[simp] theorem State.upDie_banks (d : Nat) (g : Die → Die) : (s.upDie d g).banks = s.banks := rfl
@[simp] theorem State.upDie_reqs (d : Nat) (g : Die → Die) : (s.upDie d g).reqs = s.reqs := rfl
@[simp] theorem State.upDie_msgs (d : Nat) (g : Die → Die) : (s.upDie d g).msgs = s.msgs := rfl
@[simp] theorem State.upDie_cancels (d : Nat) (g : Die → Die) : (s.upDie d g).cancels = s.cancels := rfl
@[simp] theorem State.upDie_clusters (d : Nat) (g : Die → Die) : (s.upDie d g).clusters = s.clusters := rfl
@[simp] theorem State.upDie_dies (d : Nat) (g : Die → Die) : (s.upDie d g).dies = s.dies.put d (g (s.die d)) := rfl
@[simp] theorem State.upDie_cache (d : Nat) (g : Die → Die) : (s.upDie d g).cache = s.cache := rfl
@[simp] theorem State.upDie_cacheMax (d : Nat) (g : Die → Die) : (s.upDie d g).cacheMax = s.cacheMax := rfl
@[simp] theorem State.upDie_frames (d : Nat) (g : Die → Die) : (s.upDie d g).frames = s.frames := rfl
@[simp] theorem State.upDie_saved (d : Nat) (g : Die → Die) : (s.upDie d g).saved = s.saved := rfl
@[simp] theorem State.upDie_touched (d : Nat) (g : Die → Die) : (s.upDie d g).touched = s.touched := rfl
@[simp] theorem State.upDie_io (d : Nat) (g : Die → Die) : (s.upDie d g).io = s.io := rfl
@[simp] theorem State.upDie_links (d : Nat) (g : Die → Die) : (s.upDie d g).links = s.links := rfl
@[simp] theorem State.upDie_sys (d : Nat) (g : Die → Die) : (s.upDie d g).sys = s.sys := rfl

/-! ### upSeq -/

@[simp] theorem State.upSeq_cyc (q : Nat) (g : Seq → Seq) : (s.upSeq q g).cyc = s.cyc := rfl
@[simp] theorem State.upSeq_agenda (q : Nat) (g : Seq → Seq) : (s.upSeq q g).agenda = s.agenda := rfl
@[simp] theorem State.upSeq_hand (q : Nat) (g : Seq → Seq) : (s.upSeq q g).hand = s.hand := rfl
@[simp] theorem State.upSeq_serial (q : Nat) (g : Seq → Seq) : (s.upSeq q g).serial = s.serial := rfl
@[simp] theorem State.upSeq_free (q : Nat) (g : Seq → Seq) : (s.upSeq q g).free = s.free := rfl
@[simp] theorem State.upSeq_cores (q : Nat) (g : Seq → Seq) : (s.upSeq q g).cores = s.cores := rfl
@[simp] theorem State.upSeq_mem (q : Nat) (g : Seq → Seq) : (s.upSeq q g).mem = s.mem := rfl
@[simp] theorem State.upSeq_banks (q : Nat) (g : Seq → Seq) : (s.upSeq q g).banks = s.banks := rfl
@[simp] theorem State.upSeq_reqs (q : Nat) (g : Seq → Seq) : (s.upSeq q g).reqs = s.reqs := rfl
@[simp] theorem State.upSeq_msgs (q : Nat) (g : Seq → Seq) : (s.upSeq q g).msgs = s.msgs := rfl
@[simp] theorem State.upSeq_cancels (q : Nat) (g : Seq → Seq) : (s.upSeq q g).cancels = s.cancels := rfl
@[simp] theorem State.upSeq_clusters (q : Nat) (g : Seq → Seq) : (s.upSeq q g).clusters = s.clusters := rfl
@[simp] theorem State.upSeq_dies (q : Nat) (g : Seq → Seq) : (s.upSeq q g).dies = s.dies := rfl
@[simp] theorem State.upSeq_cache (q : Nat) (g : Seq → Seq) : (s.upSeq q g).cache = s.cache := rfl
@[simp] theorem State.upSeq_cacheMax (q : Nat) (g : Seq → Seq) : (s.upSeq q g).cacheMax = s.cacheMax := rfl
@[simp] theorem State.upSeq_frames (q : Nat) (g : Seq → Seq) : (s.upSeq q g).frames = s.frames := rfl
@[simp] theorem State.upSeq_saved (q : Nat) (g : Seq → Seq) : (s.upSeq q g).saved = s.saved := rfl
@[simp] theorem State.upSeq_touched (q : Nat) (g : Seq → Seq) : (s.upSeq q g).touched = s.touched := rfl
@[simp] theorem State.upSeq_io (q : Nat) (g : Seq → Seq) : (s.upSeq q g).io = { s.io with seqs := s.io.seqs.adjust q g } := rfl
@[simp] theorem State.upSeq_links (q : Nat) (g : Seq → Seq) : (s.upSeq q g).links = s.links := rfl
@[simp] theorem State.upSeq_sys (q : Nat) (g : Seq → Seq) : (s.upSeq q g).sys = s.sys := rfl

/-! ### upKernel -/

@[simp] theorem State.upKernel_cyc (k : Nat) (g : Kernel → Kernel) : (s.upKernel k g).cyc = s.cyc := rfl
@[simp] theorem State.upKernel_agenda (k : Nat) (g : Kernel → Kernel) : (s.upKernel k g).agenda = s.agenda := rfl
@[simp] theorem State.upKernel_hand (k : Nat) (g : Kernel → Kernel) : (s.upKernel k g).hand = s.hand := rfl
@[simp] theorem State.upKernel_serial (k : Nat) (g : Kernel → Kernel) : (s.upKernel k g).serial = s.serial := rfl
@[simp] theorem State.upKernel_free (k : Nat) (g : Kernel → Kernel) : (s.upKernel k g).free = s.free := rfl
@[simp] theorem State.upKernel_cores (k : Nat) (g : Kernel → Kernel) : (s.upKernel k g).cores = s.cores := rfl
@[simp] theorem State.upKernel_mem (k : Nat) (g : Kernel → Kernel) : (s.upKernel k g).mem = s.mem := rfl
@[simp] theorem State.upKernel_banks (k : Nat) (g : Kernel → Kernel) : (s.upKernel k g).banks = s.banks := rfl
@[simp] theorem State.upKernel_reqs (k : Nat) (g : Kernel → Kernel) : (s.upKernel k g).reqs = s.reqs := rfl
@[simp] theorem State.upKernel_msgs (k : Nat) (g : Kernel → Kernel) : (s.upKernel k g).msgs = s.msgs := rfl
@[simp] theorem State.upKernel_cancels (k : Nat) (g : Kernel → Kernel) : (s.upKernel k g).cancels = s.cancels := rfl
@[simp] theorem State.upKernel_clusters (k : Nat) (g : Kernel → Kernel) : (s.upKernel k g).clusters = s.clusters := rfl
@[simp] theorem State.upKernel_dies (k : Nat) (g : Kernel → Kernel) : (s.upKernel k g).dies = s.dies := rfl
@[simp] theorem State.upKernel_cache (k : Nat) (g : Kernel → Kernel) : (s.upKernel k g).cache = s.cache := rfl
@[simp] theorem State.upKernel_cacheMax (k : Nat) (g : Kernel → Kernel) : (s.upKernel k g).cacheMax = s.cacheMax := rfl
@[simp] theorem State.upKernel_frames (k : Nat) (g : Kernel → Kernel) : (s.upKernel k g).frames = s.frames := rfl
@[simp] theorem State.upKernel_saved (k : Nat) (g : Kernel → Kernel) : (s.upKernel k g).saved = s.saved := rfl
@[simp] theorem State.upKernel_touched (k : Nat) (g : Kernel → Kernel) : (s.upKernel k g).touched = s.touched := rfl
@[simp] theorem State.upKernel_io (k : Nat) (g : Kernel → Kernel) : (s.upKernel k g).io = { s.io with kernels := s.io.kernels.adjust k g } := rfl
@[simp] theorem State.upKernel_links (k : Nat) (g : Kernel → Kernel) : (s.upKernel k g).links = s.links := rfl
@[simp] theorem State.upKernel_sys (k : Nat) (g : Kernel → Kernel) : (s.upKernel k g).sys = s.sys := rfl

/-! ### upRing -/

@[simp] theorem State.upRing_cyc (n : Nat) (g : Ring → Ring) : (s.upRing n g).cyc = s.cyc := rfl
@[simp] theorem State.upRing_agenda (n : Nat) (g : Ring → Ring) : (s.upRing n g).agenda = s.agenda := rfl
@[simp] theorem State.upRing_hand (n : Nat) (g : Ring → Ring) : (s.upRing n g).hand = s.hand := rfl
@[simp] theorem State.upRing_serial (n : Nat) (g : Ring → Ring) : (s.upRing n g).serial = s.serial := rfl
@[simp] theorem State.upRing_free (n : Nat) (g : Ring → Ring) : (s.upRing n g).free = s.free := rfl
@[simp] theorem State.upRing_cores (n : Nat) (g : Ring → Ring) : (s.upRing n g).cores = s.cores := rfl
@[simp] theorem State.upRing_mem (n : Nat) (g : Ring → Ring) : (s.upRing n g).mem = s.mem := rfl
@[simp] theorem State.upRing_banks (n : Nat) (g : Ring → Ring) : (s.upRing n g).banks = s.banks := rfl
@[simp] theorem State.upRing_reqs (n : Nat) (g : Ring → Ring) : (s.upRing n g).reqs = s.reqs := rfl
@[simp] theorem State.upRing_msgs (n : Nat) (g : Ring → Ring) : (s.upRing n g).msgs = s.msgs := rfl
@[simp] theorem State.upRing_cancels (n : Nat) (g : Ring → Ring) : (s.upRing n g).cancels = s.cancels := rfl
@[simp] theorem State.upRing_clusters (n : Nat) (g : Ring → Ring) : (s.upRing n g).clusters = s.clusters := rfl
@[simp] theorem State.upRing_dies (n : Nat) (g : Ring → Ring) : (s.upRing n g).dies = s.dies := rfl
@[simp] theorem State.upRing_cache (n : Nat) (g : Ring → Ring) : (s.upRing n g).cache = s.cache := rfl
@[simp] theorem State.upRing_cacheMax (n : Nat) (g : Ring → Ring) : (s.upRing n g).cacheMax = s.cacheMax := rfl
@[simp] theorem State.upRing_frames (n : Nat) (g : Ring → Ring) : (s.upRing n g).frames = s.frames := rfl
@[simp] theorem State.upRing_saved (n : Nat) (g : Ring → Ring) : (s.upRing n g).saved = s.saved := rfl
@[simp] theorem State.upRing_touched (n : Nat) (g : Ring → Ring) : (s.upRing n g).touched = s.touched := rfl
@[simp] theorem State.upRing_io (n : Nat) (g : Ring → Ring) : (s.upRing n g).io = s.io := rfl
@[simp] theorem State.upRing_links (n : Nat) (g : Ring → Ring) : (s.upRing n g).links = { s.links with rings := s.links.rings.put n (g ((s.links.rings.find n).getD {})) } := rfl
@[simp] theorem State.upRing_sys (n : Nat) (g : Ring → Ring) : (s.upRing n g).sys = s.sys := rfl

end Sys2Proof.Machine
end

