-- ==== Sys2Proof/Tests/Slice0.lean ====
section
/-! SUPPORT. Tests. The expected results come from the spec's tables and pseudocode and from calculation by hand; the chains of
`test_decode_…` are written from Tables 2.1 to 2.4 and 2.9 to 2.15. Each `witness_…` shows that the hypotheses of the
statement of that name are met together, clause by clause, by states and operands that stand in it. -/

set_option Elab.async false

open Sys2Proof Sys2Proof.Machine

namespace Sys2Proof.Tests

/-! ### Small states -/

/-- A thread with every register of its windows, in the L-space of its core. -/
def th : Thread := { pc := 0x0200000000001000, win := 0x0000010010001000, status := .ready, outSince := none }

/-- An ordinary small core of die 0. -/
def sc : Nat := 0x404

/-- The slot at hand: slot 0, at a chain of one word. -/
def hd : Hand := { core := sc, slot := 0, len := 1 }

/-- The core of the tests, in context 7 of the array kernel, with its thread and its scalar registers. -/
def core (regs : Map Word) (t : Thread := th) : Core :=
  { owner := ownerWord false false 2 7, slots := [(0, { thread := some t })], regs := regs, keys := [.id 0 7] }

/-- A machine of one core whose slot 0 has its turn. -/
def st (regs : Map Word) (t : Thread := th) : State :=
  { cores := [(sc, core regs t)], hand := some hd, cyc := 100,
    io := { ctxs := [(1, { kern := 1, key := 1 }), (2, { kern := 2, key := 2 }), (7, { kern := 2, key := 9 })], kernels := [(1, {}), (2, {})] } }

/-- The same for a kernel core of die 0, whose context is the array kernel's. -/
def kst (regs : Map Word) (t : Thread := th) : State :=
  { st regs t with cores := [(0, { core regs t with owner := ownerWord true false 2 2, keys := [.id 0 2] })], hand := some { hd with core := 0 } }

/-- Whether an outcome is a next state with a property. -/
def nextIs (o : Out) (f : State → Bool) : Bool := match o with | .next s => f s | _ => false

/-- The value that an outcome leaves in a scalar register of the thread at hand. -/
def regIs (o : Out) (n : Nat) (v : Word) : Bool := nextIs o fun s => decide ((s.core sc).regW th n = v)

/-- The checks of an issue, as a value. -/
def issuesB (s : State) (k : Kind) (h : Hand) (t : Thread) : Bool :=
  decide (s.hand = some h) && decide (s.thread h.core h.slot = some t) && !t.resumes && !k.bad && !outside h.core t k.names &&
  (k.big || !isLarge h.core) && ((cxOf h t).due k).isNone && ((cxOf h t).sectTrap k.sec).isNone &&
  !k.names.w.any (s.pendingRelaxed t) && !s.pendingVector h.core h.slot t k.names.w k.names.v

theorem issues_of {s : State} {k : Kind} {h : Hand} {t : Thread} (e : issuesB s k h t = true) : Issues s k h t := by
  simp only [issuesB, Bool.and_eq_true, decide_eq_true_eq, Bool.not_eq_true', Bool.or_eq_true, Option.isNone_iff_eq_none] at e
  obtain ⟨⟨⟨⟨⟨⟨⟨⟨⟨h1, h2⟩, h0⟩, h3⟩, h4⟩, h5⟩, h6⟩, h7⟩, h8⟩, h9⟩ := e
  exact ⟨h1, h2, h0, h3, h4, h5, h6, h7, h8, h9⟩

/-- The checks of an access, as a value, for a thread without a strand. -/
def admitsB (s : State) (h : Hand) (t : Thread) (p : Word) (q : Ask) : Bool :=
  let b := begun s h
  let id := (cxOf h t).tid b
  ((cxOf h t).dueOn b p q).isNone && decide (offsetOf p % q.align = 0) && (lastByte p q.bytes).isNone &&
  (b.reachEvent h.core t.part p q.bytes).isNone && ((cxOf h t).roams b p).isNone && !b.heldBack id q.mod.relaxed &&
  (!q.mod.release || (b.accessesDone id t && b.releaseDone id q.mod.scope && !(q.far && q.mod.scope == .system && b.farOwed id))) &&
  !(q.mod.relaxed && decide (8 ≤ t.relaxed.length)) && t.strand.isNone

theorem admits_of {s : State} {h : Hand} {t : Thread} {p : Word} {q : Ask} (e : admitsB s h t p q = true) : Admits s h t p q := by
  simp only [admitsB, Bool.and_eq_true, decide_eq_true_eq, Bool.not_eq_true', Bool.or_eq_true, Option.isNone_iff_eq_none] at e
  obtain ⟨⟨⟨⟨⟨⟨⟨⟨h1, h2⟩, h3⟩, h4⟩, h5⟩, h6⟩, h7⟩, h8⟩, h9⟩ := e
  refine ⟨h1, h2, h3, h4, h5, h6, by simpa only [Bool.and_eq_true, Bool.not_eq_true'] using h7, by simpa using h8, ?_⟩
  rw [h9]; unfold State.redirect State.redirected; cases q.redir <;> rfl

/-! ### Well-formed terms: each check refuses an ill-formed one (R20, R22, R45, R46, R87, R91) -/

theorem test_wf_good : [Instr.add 1 2 3, .extr 1 2 60 3, .psp 1 2 4, .brCc .always 0 5, .fmtset 1 0x47, .monClr 4, .mqry 1 9,
    .vbflyCt 1 2 3, .ld { relaxed := true } 1 2 0, .fence { scope := .package, acquire := true, release := true },
    .mma { check := true } 1 2 3, .vadd 127 127 127].all Instr.wf = true := by decide +kernel
theorem test_wf_field_beyond_word : (Instr.extr 1 2 60 4).wf = false := by decide +kernel
theorem test_wf_space : (Instr.psp 1 2 5).wf = false := by decide +kernel
theorem test_wf_always_names_register : (Instr.brCc .always 1 5).wf = false := by decide +kernel
theorem test_wf_fmtset : [Instr.fmtset 1 0x200, .fmtset 1 0x48, .fmtset 1 0x07, .fmtset 1 0x10].all (fun i => !i.wf) = true := by
  decide +kernel
theorem test_wf_monitor : (Instr.monClr 5).wf = false := by decide +kernel
theorem test_wf_query : (Instr.mqry 1 10).wf = false := by decide +kernel
theorem test_wf_butterfly : [Instr.vbflyCt 1 1 2, .vbflyGs 1 1 2, .vbflyCtM 0 1 1 2, .vbflyGsM 0 1 1 2].all (fun i => !i.wf) = true := by
  decide +kernel
theorem test_wf_mark_not_accepted : [Instr.ld { release := true, scope := .package } 1 2 0, .stf { relaxed := true } 1 2 0,
    .mma { acquire := true } 1 2 3, .cas { relaxed := true } 1 2 3].all (fun i => !i.wf) = true := by decide +kernel
theorem test_wf_relaxed_with_acquire : (Instr.ld { relaxed := true, acquire := true } 1 2 0).wf = false := by decide +kernel
theorem test_wf_scope_without_mark : (Instr.st { scope := .package } 1 2 0).wf = false := by decide +kernel
theorem test_wf_five_prefixes : (Instr.ldf { scope := .package, acquire := true } 16 2 8).wf = true ∧
    (Instr.ldf { scope := .package, acquire := true } 16 2 8192).wf = false := by decide +kernel

/-! ### Decoding (R18 to R46) -/

/-- Each chain decodes to its instruction, with all its words. -/
noncomputable def decodesAll (l : List (List Half × Instr)) : Bool := l.all fun e => decide (decode e.1 = .instr e.2 e.1.length)

theorem test_decode_page0_sub0 : decodesAll [
    ([0xF4A6, 0x0356], .add 19 37 54),
    ([0xF4A6, 0x1356], .sub 19 37 54),
    ([0xF4A6, 0x2356], .and 19 37 54),
    ([0xF4A6, 0x3356], .or 19 37 54),
    ([0xF4A6, 0x4356], .xor 19 37 54),
    ([0xF4A6, 0x5356], .shl 19 37 54),
    ([0xF4A6, 0x6356], .slt 19 37 54),
    ([0xF4A0, 0x7356], .addi 19 37 6),
    ([0xF480, 0x8306], .ldi 19 6),
    ([0xF4A0, 0x9356], .ld {} 19 37 6),
    ([0xF4A0, 0xA356], .st {} 19 37 6),
    ([0xF420, 0xB356], .brCc .gez 37 6),
    ([0xF480, 0xC306], .jal 19 6),
    ([0xF4A6, 0xD356], .shr 19 37 54),
    ([0xF4A6, 0xE356], .mul 19 37 54)] = true := by decide +kernel

theorem test_decode_page0_sub1 : decodesAll [
    ([0xF801, 0xF4A6, 0x0356], .sra 19 37 54),
    ([0xF801, 0xF4A6, 0x1356], .rot 19 37 54),
    ([0xF801, 0xF4A6, 0x2356], .andn 19 37 54),
    ([0xF801, 0xF4A6, 0x3356], .mulh 19 37 54),
    ([0xF801, 0xF4A6, 0x4356], .mulhZ 19 37 54),
    ([0xF801, 0xF4A6, 0x5356], .div 19 37 54),
    ([0xF801, 0xF4A6, 0x6356], .divZ 19 37 54),
    ([0xF801, 0xF4A6, 0x7356], .rem 19 37 54),
    ([0xF801, 0xF4A6, 0x8356], .remZ 19 37 54),
    ([0xF801, 0xF4A6, 0x9356], .sltZ 19 37 54),
    ([0xF801, 0xF4A6, 0xA356], .seq 19 37 54),
    ([0xF801, 0xF4A6, 0xB356], .min 19 37 54),
    ([0xF801, 0xF4A6, 0xC356], .max 19 37 54),
    ([0xF801, 0xF4A6, 0xD356], .minZ 19 37 54),
    ([0xF801, 0xF4A6, 0xE356], .maxZ 19 37 54)] = true := by decide +kernel

theorem test_decode_page0_sub2 : decodesAll [
    ([0xF802, 0xF4A6, 0x0356], .sel 19 37 54),
    ([0xF802, 0xF4A0, 0x1350], .clz 19 37),
    ([0xF802, 0xF4A0, 0x2350], .ctz 19 37),
    ([0xF802, 0xF4A0, 0x3350], .popc 19 37),
    ([0xF802, 0xF4A0, 0x4350], .bswap 19 37),
    ([0xF802, 0xF4A0, 0x5356], .extr 19 37 6 0),
    ([0xF802, 0xF4A0, 0x6356], .extrZ 19 37 6 0),
    ([0xF802, 0xF4A0, 0x7356], .ins 19 37 6 0),
    ([0xF802, 0xF4A0, 0x8356], .ldh 19 37 6),
    ([0xF802, 0xF4A0, 0x9354], .psp 19 37 4),
    ([0xF802, 0xF4A6, 0xA356], .padd 19 37 54),
    ([0xF802, 0xF420, 0xB050], .jr 37),
    ([0xF802, 0xF4A0, 0xC350], .jalr 19 37)] = true := by decide +kernel

theorem test_decode_page0_sub3 : decodesAll [
    ([0xF803, 0xF4A0, 0x0356], .ld8 {} 19 37 6),
    ([0xF803, 0xF4A0, 0x1356], .ld8Z {} 19 37 6),
    ([0xF803, 0xF4A0, 0x2356], .ld16 {} 19 37 6),
    ([0xF803, 0xF4A0, 0x3356], .ld16Z {} 19 37 6),
    ([0xF803, 0xF4A0, 0x4356], .ld32 {} 19 37 6),
    ([0xF803, 0xF4A0, 0x5356], .ld32Z {} 19 37 6),
    ([0xF803, 0xF4A0, 0x6356], .st8 {} 19 37 6),
    ([0xF803, 0xF4A0, 0x7356], .st16 {} 19 37 6),
    ([0xF803, 0xF4A0, 0x8356], .st32 {} 19 37 6),
    ([0xF803, 0xF4A0, 0x9356], .ldf {} 19 37 6),
    ([0xF803, 0xF4A0, 0xA356], .lde {} 19 37 6),
    ([0xF803, 0xF4A0, 0xB356], .stf {} 19 37 6),
    ([0xF803, 0xF4A0, 0xC356], .sts {} 19 37 6),
    ([0xF803, 0xF420, 0xD056], .sete {} 37 6),
    ([0xF803, 0xF4A0, 0xE356], .feq {} 19 37 6)] = true := by decide +kernel

theorem test_decode_page1_sub0 : decodesAll [
    ([0xF810, 0xF4A6, 0x0356], .tnew 19 37 54),
    ([0xF810, 0x1000], .tend),
    ([0xF810, 0xF420, 0x2056], .sleep 37 6),
    ([0xF810, 0x3000], .yield),
    ([0xF810, 0xF4A0, 0x4350], .migrate 19 37),
    ([0xF810, 0xF4A0, 0x5350], .roam 19 37),
    ([0xF810, 0xF480, 0x6300], .fmtset 19 0),
    ([0xF810, 0xF4A6, 0x7356], .barCfg 19 37 54),
    ([0xF810, 0xF480, 0x8300], .barArr {} 19),
    ([0xF810, 0xF480, 0x9300], .barWait {} 19)] = true := by decide +kernel

theorem test_decode_page1_sub1 : decodesAll [
    ([0xF811, 0xF4A0, 0x0350], .launch 19 37),
    ([0xF811, 0xF4A0, 0x1350], .cancel 19 37),
    ([0xF811, 0xF4A6, 0x2356], .send {} 19 37 54),
    ([0xF811, 0xF426, 0x3156], .nput .east 37 54),
    ([0xF811, 0xF426, 0x4056], .amsg 37 54),
    ([0xF811, 0xF426, 0x5056], .cont 37 54),
    ([0xF811, 0xF4A0, 0x6350], .contid 19 37),
    ([0xF811, 0xF4A0, 0x7350], .movT 19 37)] = true := by decide +kernel

theorem test_decode_page1_sub2 : decodesAll [
    ([0xF812, 0xF4A0, 0x0350], .spawn 19 37),
    ([0xF812, 0x1000], .blend),
    ([0xF812, 0x2000], .join),
    ([0xF812, 0xF4A6, 0x3356], .vdecl 19 37 54),
    ([0xF812, 0xF480, 0x4300], .vdrop 19)] = true := by decide +kernel

theorem test_decode_page2_sub0 : decodesAll [
    ([0xF820, 0xF4A0, 0x0350], .rsv {} 19 37),
    ([0xF820, 0xF480, 0x1300], .rel {} 19),
    ([0xF820, 0xF4A0, 0x2350], .rsvx {} 19 37),
    ([0xF820, 0xF4A6, 0x3356], .aadd {} 19 37 54),
    ([0xF820, 0xF4A6, 0x4356], .aand {} 19 37 54),
    ([0xF820, 0xF4A6, 0x5356], .aor {} 19 37 54),
    ([0xF820, 0xF4A6, 0x6356], .axor {} 19 37 54),
    ([0xF820, 0xF4A6, 0x7356], .amin {} 19 37 54),
    ([0xF820, 0xF4A6, 0x8356], .amax {} 19 37 54),
    ([0xF820, 0xF4A6, 0x9356], .aminZ {} 19 37 54),
    ([0xF820, 0xF4A6, 0xA356], .amaxZ {} 19 37 54),
    ([0xF820, 0xF4A6, 0xB356], .axchg {} 19 37 54),
    ([0xF820, 0xF4A6, 0xC356], .cas {} 19 37 54),
    ([0xF820, 0xF4A6, 0xD356], .cas2 {} 19 37 54),
    ([0xF820, 0xE000], .fence {})] = true := by decide +kernel

theorem test_decode_page2_sub1 : decodesAll [
    ([0xF821, 0xF4A0, 0x0352], .monArm 19 37 2),
    ([0xF821, 0x1004], .monClr 4),
    ([0xF821, 0xF4A0, 0x2350], .mwait {} 19 37)] = true := by decide +kernel

theorem test_decode_page3_sub0 : decodesAll [
    ([0xF830, 0xF4A6, 0x0356], .cpy {} 19 37 54),
    ([0xF830, 0xF4A6, 0x1356], .tcpy {} 19 37 54),
    ([0xF830, 0xF426, 0x2056], .waitp {} 37 54),
    ([0xF830, 0xF420, 0x3056], .lcwC 6 37),
    ([0xF830, 0xF420, 0xF000, 0x305E], .lcwV 6 37),
    ([0xF830, 0xF420, 0xF001, 0x3056], .lcwM 6 37),
    ([0xF830, 0xF420, 0xF001, 0x305E], .lcwCfg 6 37),
    ([0xF830, 0xF480, 0x4306], .lcrC 19 6),
    ([0xF830, 0xF480, 0xF000, 0x430E], .lcrV 19 6),
    ([0xF830, 0xF480, 0xF001, 0x4306], .lcrM 19 6),
    ([0xF830, 0xF4A0, 0x5350], .eqry 19 37),
    ([0xF830, 0x6000], .efence)] = true := by decide +kernel

theorem test_decode_page3_sub1 : decodesAll [
    ([0xF831, 0xF4A6, 0x0356], .emsgGatherQuery {} 19 37 54),
    ([0xF831, 0xF4A6, 0x1356], .gath {} 19 37 54),
    ([0xF831, 0xF4A6, 0x2356], .collAllreduce {} 19 37 54)] = true := by decide +kernel

theorem test_decode_page3_sub2 : decodesAll [
    ([0xF832, 0xF480, 0x0300], .tbInit 19),
    ([0xF832, 0xF4A0, 0x1350], .tbExp 19 37),
    ([0xF832, 0xF4A0, 0x2350], .tbArr {} 19 37),
    ([0xF832, 0xF4A0, 0x3350], .tbWait {} 19 37),
    ([0xF832, 0xF4A0, 0x4350], .tbPhase 19 37)] = true := by decide +kernel

theorem test_decode_page4_sub0 : decodesAll [
    ([0xF840, 0xF4A6, 0x0356], .vadd 19 37 54),
    ([0xF840, 0xF4A6, 0x1356], .vsub 19 37 54),
    ([0xF840, 0xF4A6, 0x2356], .vmul 19 37 54),
    ([0xF840, 0xF4A6, 0x3356], .vfma 19 37 54),
    ([0xF840, 0xF4A6, 0x4356], .vmin 19 37 54),
    ([0xF840, 0xF4A6, 0x5356], .vmax 19 37 54),
    ([0xF840, 0xF4A0, 0x6350], .vabs 19 37),
    ([0xF840, 0xF4A0, 0x7350], .vneg 19 37),
    ([0xF840, 0xF4A6, 0x8356], .vcmpEq 19 37 54),
    ([0xF840, 0xF4A6, 0x9356], .vcmpLt 19 37 54),
    ([0xF840, 0xF4A6, 0xA356], .vcmpLe 19 37 54),
    ([0xF840, 0xF4A0, 0xB350], .vredSum 19 37),
    ([0xF840, 0xF4A0, 0xC350], .vredMax 19 37),
    ([0xF840, 0xF4A0, 0xD350], .vredMin 19 37)] = true := by decide +kernel

theorem test_decode_page4_sub1 : decodesAll [
    ([0xF841, 0xF4A6, 0x0356], .vaddBf16 19 37 54),
    ([0xF841, 0xF4A6, 0x1356], .vsubBf16 19 37 54),
    ([0xF841, 0xF4A6, 0x2356], .vmulBf16 19 37 54),
    ([0xF841, 0xF4A6, 0x3356], .vfmaBf16 19 37 54),
    ([0xF841, 0xF4A6, 0x4356], .vminBf16 19 37 54),
    ([0xF841, 0xF4A6, 0x5356], .vmaxBf16 19 37 54),
    ([0xF841, 0xF4A0, 0x6350], .vabsBf16 19 37),
    ([0xF841, 0xF4A0, 0x7350], .vnegBf16 19 37),
    ([0xF841, 0xF4A6, 0x8356], .vcmpEqBf16 19 37 54),
    ([0xF841, 0xF4A6, 0x9356], .vcmpLtBf16 19 37 54),
    ([0xF841, 0xF4A6, 0xA356], .vcmpLeBf16 19 37 54),
    ([0xF841, 0xF4A0, 0xB350], .vredSumBf16 19 37),
    ([0xF841, 0xF4A0, 0xC350], .vredMaxBf16 19 37),
    ([0xF841, 0xF4A0, 0xD350], .vredMinBf16 19 37)] = true := by decide +kernel

theorem test_decode_page4_sub2 : decodesAll [
    ([0xF842, 0xF4A6, 0x0356], .viadd 19 37 54),
    ([0xF842, 0xF4A6, 0x1356], .visub 19 37 54),
    ([0xF842, 0xF4A6, 0x2356], .vimul 19 37 54),
    ([0xF842, 0xF4A6, 0x3356], .vshl 19 37 54),
    ([0xF842, 0xF4A6, 0x4356], .vshr 19 37 54),
    ([0xF842, 0xF4A6, 0x5356], .vand 19 37 54),
    ([0xF842, 0xF4A6, 0x6356], .vor 19 37 54),
    ([0xF842, 0xF4A6, 0x7356], .vxor 19 37 54)] = true := by decide +kernel

theorem test_decode_page4_sub3 : decodesAll [
    ([0xF843, 0xF4A6, 0x0356], .vmaddm 19 37 54),
    ([0xF843, 0xF4A6, 0x1356], .vmsubm 19 37 54),
    ([0xF843, 0xF4A6, 0x2356], .vmmulm 19 37 54),
    ([0xF843, 0xF4A6, 0x3356], .vbflyCt 19 37 54),
    ([0xF843, 0xF4A6, 0x4356], .vbflyGs 19 37 54),
    ([0xF843, 0xF4A6, 0x5356], .vtwid 19 37 54)] = true := by decide +kernel

theorem test_decode_page4_sub4 : decodesAll [
    ([0xF844, 0xF4A6, 0x0356], .vsel 19 37 54),
    ([0xF844, 0xF4A0, 0x1356], .vcvt 19 37 6),
    ([0xF844, 0xF4A0, 0x2350], .vexp2 19 37),
    ([0xF844, 0xF4A0, 0x3350], .vrcp 19 37),
    ([0xF844, 0xF4A0, 0x4350], .vrsq 19 37),
    ([0xF844, 0xF4A6, 0x5356], .vshuf 19 37 54),
    ([0xF844, 0xF4A0, 0x6350], .vbcast 19 37),
    ([0xF844, 0xF4A0, 0x7356], .vmovx 19 37 6),
    ([0xF844, 0xF4A0, 0x8356], .vmovv 19 37 6)] = true := by decide +kernel

theorem test_decode_page4_sub5 : decodesAll [
    ([0xF845, 0xF4A0, 0x0356], .vld {} 19 37 6),
    ([0xF845, 0xF4A0, 0x1356], .vst {} 19 37 6),
    ([0xF845, 0xF4A6, 0x2356], .vgth {} 19 37 54),
    ([0xF845, 0xF4A6, 0x3356], .vsct {} 19 37 54)] = true := by decide +kernel

theorem test_decode_page4_sub8 : decodesAll [
    ([0xF848, 0xF4A6, 0xF009, 0x0356], .vaddM 9 19 37 54),
    ([0xF848, 0xF4A6, 0xF009, 0x1356], .vsubM 9 19 37 54),
    ([0xF848, 0xF4A6, 0xF009, 0x2356], .vmulM 9 19 37 54),
    ([0xF848, 0xF4A6, 0xF009, 0x3356], .vfmaM 9 19 37 54),
    ([0xF848, 0xF4A6, 0xF009, 0x4356], .vminM 9 19 37 54),
    ([0xF848, 0xF4A6, 0xF009, 0x5356], .vmaxM 9 19 37 54),
    ([0xF848, 0xF4A0, 0xF009, 0x6350], .vabsM 9 19 37),
    ([0xF848, 0xF4A0, 0xF009, 0x7350], .vnegM 9 19 37),
    ([0xF848, 0xF4A6, 0xF009, 0x8356], .vcmpEqM 9 19 37 54),
    ([0xF848, 0xF4A6, 0xF009, 0x9356], .vcmpLtM 9 19 37 54),
    ([0xF848, 0xF4A6, 0xF009, 0xA356], .vcmpLeM 9 19 37 54),
    ([0xF848, 0xF4A0, 0xF009, 0xB350], .vredSumM 9 19 37),
    ([0xF848, 0xF4A0, 0xF009, 0xC350], .vredMaxM 9 19 37),
    ([0xF848, 0xF4A0, 0xF009, 0xD350], .vredMinM 9 19 37)] = true := by decide +kernel

theorem test_decode_page4_sub9 : decodesAll [
    ([0xF849, 0xF4A6, 0xF009, 0x0356], .vaddBf16M 9 19 37 54),
    ([0xF849, 0xF4A6, 0xF009, 0x1356], .vsubBf16M 9 19 37 54),
    ([0xF849, 0xF4A6, 0xF009, 0x2356], .vmulBf16M 9 19 37 54),
    ([0xF849, 0xF4A6, 0xF009, 0x3356], .vfmaBf16M 9 19 37 54),
    ([0xF849, 0xF4A6, 0xF009, 0x4356], .vminBf16M 9 19 37 54),
    ([0xF849, 0xF4A6, 0xF009, 0x5356], .vmaxBf16M 9 19 37 54),
    ([0xF849, 0xF4A0, 0xF009, 0x6350], .vabsBf16M 9 19 37),
    ([0xF849, 0xF4A0, 0xF009, 0x7350], .vnegBf16M 9 19 37),
    ([0xF849, 0xF4A6, 0xF009, 0x8356], .vcmpEqBf16M 9 19 37 54),
    ([0xF849, 0xF4A6, 0xF009, 0x9356], .vcmpLtBf16M 9 19 37 54),
    ([0xF849, 0xF4A6, 0xF009, 0xA356], .vcmpLeBf16M 9 19 37 54),
    ([0xF849, 0xF4A0, 0xF009, 0xB350], .vredSumBf16M 9 19 37),
    ([0xF849, 0xF4A0, 0xF009, 0xC350], .vredMaxBf16M 9 19 37),
    ([0xF849, 0xF4A0, 0xF009, 0xD350], .vredMinBf16M 9 19 37)] = true := by decide +kernel

theorem test_decode_page4_sub10 : decodesAll [
    ([0xF84A, 0xF4A6, 0xF009, 0x0356], .viaddM 9 19 37 54),
    ([0xF84A, 0xF4A6, 0xF009, 0x1356], .visubM 9 19 37 54),
    ([0xF84A, 0xF4A6, 0xF009, 0x2356], .vimulM 9 19 37 54),
    ([0xF84A, 0xF4A6, 0xF009, 0x3356], .vshlM 9 19 37 54),
    ([0xF84A, 0xF4A6, 0xF009, 0x4356], .vshrM 9 19 37 54),
    ([0xF84A, 0xF4A6, 0xF009, 0x5356], .vandM 9 19 37 54),
    ([0xF84A, 0xF4A6, 0xF009, 0x6356], .vorM 9 19 37 54),
    ([0xF84A, 0xF4A6, 0xF009, 0x7356], .vxorM 9 19 37 54)] = true := by decide +kernel

theorem test_decode_page4_sub11 : decodesAll [
    ([0xF84B, 0xF4A6, 0xF009, 0x0356], .vmaddmM 9 19 37 54),
    ([0xF84B, 0xF4A6, 0xF009, 0x1356], .vmsubmM 9 19 37 54),
    ([0xF84B, 0xF4A6, 0xF009, 0x2356], .vmmulmM 9 19 37 54),
    ([0xF84B, 0xF4A6, 0xF009, 0x3356], .vbflyCtM 9 19 37 54),
    ([0xF84B, 0xF4A6, 0xF009, 0x4356], .vbflyGsM 9 19 37 54),
    ([0xF84B, 0xF4A6, 0xF009, 0x5356], .vtwidM 9 19 37 54)] = true := by decide +kernel

theorem test_decode_page4_sub12 : decodesAll [
    ([0xF84C, 0xF4A0, 0xF009, 0x1356], .vcvtM 9 19 37 6),
    ([0xF84C, 0xF4A0, 0xF009, 0x2350], .vexp2M 9 19 37),
    ([0xF84C, 0xF4A0, 0xF009, 0x3350], .vrcpM 9 19 37),
    ([0xF84C, 0xF4A0, 0xF009, 0x4350], .vrsqM 9 19 37),
    ([0xF84C, 0xF4A0, 0xF009, 0x8350], .vmovvM 9 19 37)] = true := by decide +kernel

theorem test_decode_page4_sub13 : decodesAll [
    ([0xF84D, 0xF4A0, 0xF009, 0x0350], .vldM {} 9 19 37),
    ([0xF84D, 0xF4A0, 0xF009, 0x1350], .vstM {} 9 19 37),
    ([0xF84D, 0xF4A6, 0xF009, 0x2356], .vgthM {} 9 19 37 54),
    ([0xF84D, 0xF4A6, 0xF009, 0x3356], .vsctM {} 9 19 37 54)] = true := by decide +kernel

theorem test_decode_page5_sub0 : decodesAll [
    ([0xF850, 0xF420, 0x0056], .mcfg 6 37),
    ([0xF850, 0xF4A6, 0x5356], .mmod {} 19 37 54),
    ([0xF850, 0xF480, 0x1300], .mzero 19),
    ([0xF850, 0xF4A6, 0x6356], .mst 19 37 54),
    ([0xF850, 0xF4A6, 0x2356], .mma {} 19 37 54),
    ([0xF850, 0xF4A6, 0x7356], .mlda 19 37 54),
    ([0xF850, 0xF4A0, 0x3350], .mmr {} 19 37),
    ([0xF850, 0xF480, 0x8306], .mqry 19 6),
    ([0xF850, 0xF4A6, 0x4356], .mring {} 19 37 54)] = true := by decide +kernel

theorem test_decode_page6_sub0 : decodesAll [
    ([0xF860, 0xF420, 0x0056], .trap 37 6),
    ([0xF860, 0x1000], .eret),
    ([0xF860, 0xF480, 0x2306], .rds 19 .vx),
    ([0xF860, 0xF420, 0x3056], .wrs .vx 37),
    ([0xF860, 0xF4A6, 0x4356], .xinvPage 19 37 54),
    ([0xF860, 0x5000], .iflush),
    ([0xF860, 0x6006], .brk 6)] = true := by decide +kernel

theorem test_decode_page6_sub1 : decodesAll [
    ([0xF861, 0xF480, 0x0300], .seqnew 19),
    ([0xF861, 0xF4A6, 0x1356], .seqmap 19 37 54),
    ([0xF861, 0xF4A0, 0x2350], .sequnmap 19 37),
    ([0xF861, 0xF4A0, 0x3350], .seqend 19 37),
    ([0xF861, 0xF4A0, 0x4350], .seqq 19 37)] = true := by decide +kernel

theorem test_decode_page6_sub2 : decodesAll [
    ([0xF862, 0xF4A6, 0x0356], .fofferOffer 19 37 54),
    ([0xF862, 0xF4A0, 0x1350], .faccept 19 37),
    ([0xF862, 0xF4A6, 0x2356], .flend 19 37 54),
    ([0xF862, 0xF4A0, 0x3350], .frecall 19 37),
    ([0xF862, 0xF4A0, 0x4350], .freturn 19 37),
    ([0xF862, 0xF4A0, 0x5350], .fquery 19 37),
    ([0xF862, 0xF4A6, 0x6356], .fstrikeClear 19 37 54)] = true := by decide +kernel

theorem test_decode_page6_sub3 : decodesAll [
    ([0xF863, 0xF426, 0x0056], .wakeResume 37 54),
    ([0xF863, 0xF4A6, 0x1356], .evict 19 37 54),
    ([0xF863, 0xF4A6, 0x2356], .restore 19 37 54),
    ([0xF863, 0xF4A6, 0x3356], .drain 19 37 54),
    ([0xF863, 0xF4A6, 0x4356], .partset 19 37 54),
    ([0xF863, 0xF4A6, 0x5356], .ownsetCreate 19 37 54)] = true := by decide +kernel

/-- The marks of a MOD prefix (Table 2.5). -/
theorem test_decode_marks : decodesAll [([0xFE00, 0x9120], .ld { relaxed := true } 1 2 0),
    ([0xFCE0, 0x9120], .ld { scope := .package, acquire := true } 1 2 0), ([0xFC50, 0xA120], .st { scope := .cluster, release := true } 1 2 0),
    ([0xF820, 0xFD30, 0xE000], .fence { scope := .system, acquire := true, release := true }),
    ([0xF850, 0xFC08, 0x2123], .mma { check := true } 1 2 3)] = true := by decide +kernel

/-- An unassigned page and slot, reserved MOD bits, five prefixes, two PAGE prefixes, a condition of no meaning, an immediate
and a mark where the instruction takes none: each is rejected (R20, R22, R23, R44, R45). -/
theorem test_decode_rejects : [[0xF870, 0x1000], [0xF802, 0xD000], [0xFFFF, 0x0000], [0xF000, 0xF000, 0xF000, 0xF000, 0xF000],
    [0xF800, 0xF800, 0x0000], [0xB712], [0xF001, 0x0000], [0xFE00, 0x0000]].all (fun ws =>
      match decode ws with | .reject _ => true | _ => false) = true := by decide +kernel

/-- An immediate of three chunks is built most significant first and sign-extended (R23). -/
theorem test_decode_immediate : decode [0xF3FF, 0xF2AA, 0xF001, 0x7123] = .instr (.addi 1 2 (-5603309)) 4 := by decide +kernel

/-- The spec's own chains: R62, R70, R75, R87, R168, R183, R317. -/
theorem test_decode_examples : decodesAll [([0xF810, 0x1000], .tend), ([0xF810, 0x8B00], .barArr {} 11),
    ([0xF811, 0x3167], .nput .east 6 7), ([0xF802, 0xF03C, 0x6378], .extrZ 3 7 8 15),
    ([0xF830, 0xF412, 0x201C], .waitp {} 17 28), ([0xF860, 0x1000], .eret), ([0xF860, 0x4956], .xinvPage 9 5 6)] = true := by
  decide +kernel

/-- Rows of one word are told apart by a register's value at issue (log 8). -/
theorem test_select : (
    let w (v : Word) (_ : Reg) : Word := v
    [select (w 0) (.xinvPage 1 2 3) == .xinvPage 1 2 3, select (w 1) (.xinvPage 1 2 3) == .xinvAsid 1 2 3,
     select (w 2) (.xinvPage 1 2 3) == .xinvRlb 1 2 3, select (w 3) (.xinvPage 1 2 3) == .xinvFrame 1 2 3,
     select (fun r => if r = 2 then 0x40000 else 1) (.emsgGatherQuery {} 1 2 3) == .emsgCollectiveQuery {} 1 2 3,
     select (fun r => if r = 2 then 0x40000 else 2) (.emsgGatherQuery {} 1 2 3) == .emsgAbort {} 1 2 3,
     select (w 1) (.fofferOffer 1 2 3) == .fofferRelease 1 2 3, select (w 2) (.fofferOffer 1 2 3) == .fofferWithdraw 1 2 3,
     select (w 1) (.fstrikeClear 1 2 3) == .fstrikeSetLimit 1 2 3, select (w 1) (.wakeResume 1 2) == .wakeTrap 1 2,
     select (w 2) (.ownsetCreate 1 2 3) == .ownsetDestroy 1 2 3, select (w 3) (.ownsetCreate 1 2 3) == .ownsetAssign 1 2 3,
     select (w 4) (.ownsetCreate 1 2 3) == .ownsetBindkey 1 2 3, select (w 5) (.ownsetCreate 1 2 3) == .ownsetUnbindkey 1 2 3,
     select (w 6) (.ownsetCreate 1 2 3) == .ownsetBindasid 1 2 3, select (w 7) (.ownsetCreate 1 2 3) == .ownsetUnbindasid 1 2 3,
     select (w 8) (.ownsetCreate 1 2 3) == .ownsetSetring 1 2 3, select (w 9) (.ownsetCreate 1 2 3) == .ownsetSetinbox 1 2 3].all id) = true := by
  decide +kernel

/-- A word of the table, placed where the next step fetches it, is what that step runs: ADDI w5, w4, #-8, and ERET, which at
level 0 is an illegal instruction (R183). -/
theorem test_step_runs_table_word :
    (match step (State.reset.withFetchWord 16 0x7548) with
      | .next s => decide ((s.core 0).regs.find 5 = some (-8)) && decide ((s.thread 0 0).map (·.pc) = some 0x0200000000000002)
      | _ => false) = true ∧
    decodeTableWord 32 0xF8601000 = some .eret ∧ decodeTableWord 16 0x7548 = some (.addi 5 4 (-8)) := by decide +kernel

/-! ### The step and reset -/

theorem witness_AStepRunsTheDecodedInstruction : (
    let s := State.reset.withFetchWord 16 0x7548
    match s.hand, s.thread 0 0 with
    | some h, some t => h.core == 0 && h.slot == 0 && (match s.fetch 0 t with
      | .words ws => decide (decode ws = .instr (.addi 5 4 (-8)) 1) | _ => false)
    | _, _ => false) = true := by decide +kernel

/-- The same for an instruction that has waited, here a TEND: it goes on from its own words. -/
theorem witness_AStepRunsTheDecodedInstruction_resumed : (
    let t : Thread := { th with chain := [0xF810, 0x1000], status := .parked .mem .retry }
    t.resumes && decide (decode t.chain = .instr .tend 2) && decide ((st [] t).thread sc 0 = some t)) = true := by decide +kernel

theorem witness_AStepTakesTheFirstComingEvent :
    (State.reset.hand = none ∧ State.reset.agenda = { time := 0, rank := 50, ev := .issueRotation 0 } :: State.reset.agenda.tail ∧
      0 ≤ State.reset.cyc) ∧
    (let s : State := { agenda := [{ time := 5, rank := 1, ev := .bankRetention 0 }] }
     s.hand = none ∧ s.agenda = [{ time := 5, rank := 1, ev := .bankRetention 0 }] ∧ s.cyc < 5 ∧ s.touched = []) ∧
    isEvent (.issueRotation 0) = true ∧ isEvent .thermalShutdown = true := by decide +kernel

theorem witness_EveryStepKeepsMemoryCanonical :
    State.reset.MemOk ∧ (match step State.reset with | .next _ => true | _ => false) = true := by decide +kernel

theorem witness_EveryEncodedInstructionDecodesToItself :
    ((Instr.ldf { scope := .package, acquire := true } 127 2 8).encodable && (Instr.ldf { scope := .package, acquire := true } 127 2 8).wf &&
      (Instr.xinvFrame 1 2 3).encodable && (Instr.xinvFrame 1 2 3).wf) = true := by decide +kernel

theorem witness_EncodedChainsEndAtTheirBaseWord :
    (Instr.addi 127 2 (-8388609)).encodable = true ∧ (Instr.addi 127 2 (-8388609)).wf = true := by decide +kernel

/-! ### Integer instructions (Table 4.1, R83 to R92) -/

/-- W[1] = -7, W[2] = 66: a shift count of 66 shifts by 2. -/
def in2 : State := st [(1, -7), (2, 66), (3, 1)]

theorem witness_IntegerInstructionsWriteTheirResults : Issues in2 (pageZero [3, 1, 2]) hd th := issues_of (by decide +kernel)

theorem test_integer_results : (
    let l : List (Instr × Word) :=
      [(.add 3 1 2, 59), (.sub 3 1 2, -73), (.and 3 1 2, 64), (.or 3 1 2, -5), (.xor 3 1 2, -69), (.andn 3 1 2, -71),
       (.mul 3 1 2, -462), (.mulh 3 1 2, -1), (.mulhZ 3 1 2, 65), (.shl 3 1 2, -28), (.shr 3 1 2, 0x3FFFFFFFFFFFFFFE),
       (.sra 3 1 2, -2), (.rot 3 1 2, 0x7FFFFFFFFFFFFFFE), (.slt 3 1 2, 1), (.sltZ 3 1 2, 0), (.seq 3 1 2, 0), (.min 3 1 2, -7),
       (.max 3 1 2, 66), (.minZ 3 1 2, 66), (.maxZ 3 1 2, -7), (.sel 3 1 2, -7), (.sel 0 1 2, 0)]
    l.all fun e => regIs (exec e.1 in2) (if e.1 = .sel 0 1 2 then 0 else 3) e.2) = true := by decide +kernel

/-- A division's state: dividend, divisor and th.fmt. -/
def dv (u v f : Word) : State := st [(1, u), (2, v), (3, 1)] { th with fmt := f }

theorem witness_DivisionsGiveQuotientsAndRemainders :
    (Issues (dv (-7) 2 0) (pageZero [3, 1, 2]) hd th ∧ regOf (dv (-7) 2 0) hd th 2 ≠ 0) ∧
    (Issues (dv (-7) 0 0) (pageZero [3, 1, 2]) hd th ∧ regOf (dv (-7) 0 0) hd th 2 = 0 ∧ th.fmt.getLsbD 8 = false) ∧
    (Issues (dv (-7) 0 0x100) (pageZero [3, 1, 2]) hd { th with fmt := 0x100 } ∧ ({ th with fmt := 0x100 } : Thread).fmt.getLsbD 8 = true ∧
      isLarge sc = false) ∧
    (Issues (dv 0x8000000000000000 (-1) 0) (pageZero [3, 1, 2]) hd th ∧ regOf (dv 0x8000000000000000 (-1) 0) hd th 2 = -1) ∧
    (Issues (dv 0x8000000000000000 (-1) 0x200) (pageZero [3, 1, 2]) hd { th with fmt := 0x200 } ∧
      ({ th with fmt := 0x200 } : Thread).fmt.getLsbD 9 = true) :=
  ⟨⟨issues_of (by decide +kernel), by decide +kernel⟩, ⟨issues_of (by decide +kernel), by decide +kernel, by decide +kernel⟩,
   ⟨issues_of (by decide +kernel), by decide +kernel⟩, ⟨issues_of (by decide +kernel), by decide +kernel⟩,
   ⟨issues_of (by decide +kernel), by decide +kernel⟩⟩

theorem test_divisions : (
    regIs (exec (.div 3 1 2) (dv (-7) 2 0)) 3 (-3) && regIs (exec (.rem 3 1 2) (dv (-7) 2 0)) 3 (-1) &&
    regIs (exec (.divZ 3 1 2) (dv (-7) 2 0)) 3 0x7FFFFFFFFFFFFFFC && regIs (exec (.remZ 3 1 2) (dv (-7) 2 0)) 3 1 &&
    regIs (exec (.div 3 1 2) (dv 9 0 0)) 3 (-1) && regIs (exec (.remZ 3 1 2) (dv 9 0 0)) 3 9 &&
    regIs (exec (.div 3 1 2) (dv 0x8000000000000000 (-1) 0)) 3 0x8000000000000000 &&
    regIs (exec (.rem 3 1 2) (dv 0x8000000000000000 (-1) 0)) 3 0) = true := by decide +kernel

/-- The ARITH trap writes nothing, and th.info holds 1 for a zero divisor (R84). -/
theorem test_division_traps : nextIs (exec (.div 3 1 2) (st [(1, 9), (3, 5)] { th with fmt := 0x100, vec := 0x0200000000002000 })) (fun s =>
    match s.thread sc 0 with
    | some t => t.lvl && t.cause == 3 && t.info == 1 && t.epc == th.pc && t.pc == 0x0200000000002000 && (s.core sc).regW t 3 == 5
    | none => false) = true := by decide +kernel

theorem witness_SelectionsBitCountsAndBitFields :
    Issues in2 (pageZero [3, 1, 2]) hd th ∧ Issues in2 (pageZero [3, 1]) hd th ∧ (60 : BitVec 6).toNat + (3 : BitVec 6).toNat + 1 ≤ 64 :=
  ⟨issues_of (by decide +kernel), issues_of (by decide +kernel), by decide +kernel⟩

theorem test_bit_instructions : (
    let s := st [(1, 0x0000FF0012345678), (3, 0xFFFFFFFFFFFFFFFF)]
    regIs (exec (.clz 3 1) s) 3 16 && regIs (exec (.ctz 3 1) s) 3 3 && regIs (exec (.popc 3 1) s) 3 21 &&
    regIs (exec (.bswap 3 1) s) 3 0x7856341200FF0000 && regIs (exec (.clz 3 4) s) 3 64 && regIs (exec (.ctz 3 4) s) 3 64 &&
    regIs (exec (.extrZ 3 1 8 15) s) 3 0x3456 && regIs (exec (.extr 3 1 4 3) s) 3 7 && regIs (exec (.extr 3 1 40 7) s) 3 (-1) &&
    regIs (exec (.ins 3 1 60 3) s) 3 0x8FFFFFFFFFFFFFFF) = true := by decide +kernel

theorem witness_ConstantsAndPointersAreFormed : (
    let p := st [(1, 0x0200000000000010), (2, -16)]
    Issues p (pageZero [3]) hd th ∧ Issues p (pageZero [3, 1]) hd th ∧ Issues p (pageZero [3, 1, 2]) hd th ∧
    4 < spaceOf 0x0A00000000000000 ∧ (spaceOf 0x0210000000000000 ≤ 4 ∧ ptrOk 0x0210000000000000 = false) ∧
    (spaceOf 0x0400000004040010 ≤ 4 ∧ ptrOk 0x0400000004040010 = true)) :=
  ⟨issues_of (by decide +kernel), issues_of (by decide +kernel), issues_of (by decide +kernel), by decide +kernel, by decide +kernel,
   by decide +kernel⟩

theorem test_constants_and_pointers : (
    let s := st [(1, 0x0400000004330010), (2, -16), (4, -17)]
    regIs (exec (.ldi 3 (-5)) s) 3 (-5) && regIs (exec (.addi 3 2 (-1)) s) 3 (-17) && regIs (exec (.ldh 3 1 0x3FFFFFFF) s) 3 0xFFFFFFFC04330010 &&
    regIs (exec (.psp 3 1 1) s) 3 0x0200000004330010 && regIs (exec (.padd 3 1 2) s) 3 0x0400000004330000 &&
    nextIs (exec (.padd 3 1 4) s) (fun u => (u.thread sc 0).any fun t => t.status != .ready)) = true := by decide +kernel

theorem witness_RegisterInstructionsLeaveTheRest :
    registerForm (.ins 3 1 60 3) = some ([3, 1], 3) ∧ Issues in2 (pageZero [3, 1]) hd th ∧
      nextIs (exec (.ins 3 1 60 3) in2) (fun _ => true) = true :=
  ⟨by decide +kernel, issues_of (by decide +kernel), by decide +kernel⟩

/-! ### Control (R93, R94, R181 to R185) -/

theorem witness_BranchesAndJumpsGoToTheirTargets :
    Issues in2 (pageZero [1]) hd th ∧ Issues in2 (pageZero [3]) hd th ∧ Issues in2 (pageZero [3, 1]) hd th ∧
    effective th.pc (2 * (-4)) = .ok 0x0200000000000FF8 ∧ effective th.pc (2 * 0x7800) = .error 3 ∧
    (regOf in2 hd th 1).getLsbD 0 = true ∧ (regOf in2 hd th 2).getLsbD 0 = false :=
  ⟨issues_of (by decide +kernel), issues_of (by decide +kernel), issues_of (by decide +kernel), by decide +kernel, by decide +kernel,
   by decide +kernel, by decide +kernel⟩

/-- Whether an outcome leaves the thread at hand at a pc. -/
def pcIs (o : Out) (p : Word) : Bool := nextIs o fun s => (s.thread sc 0).any fun t => t.pc == p

theorem test_branches_and_jumps : (
    let s := st [(1, -7), (2, 0x0200000000003000), (5, 3)]
    pcIs (exec (.brCc .ltz 1 (-4)) s) 0x0200000000000FF8 && pcIs (exec (.brCc .gez 1 (-4)) s) 0x0200000000001002 &&
    pcIs (exec (.brCc .eqz 0 4) s) 0x0200000000001008 && pcIs (exec (.brCc .nez 0 4) s) 0x0200000000001002 &&
    pcIs (exec (.brCc .gtz 1 4) s) 0x0200000000001002 && pcIs (exec (.brCc .lez 1 4) s) 0x0200000000001008 &&
    pcIs (exec (.brCc .always 0 4) s) 0x0200000000001008 &&
    pcIs (exec (.jal 3 8) s) 0x0200000000001010 && regIs (exec (.jal 3 8) s) 3 0x0200000000001002 &&
    pcIs (exec (.jr 2) s) 0x0200000000003000 && pcIs (exec (.jalr 2 2) s) 0x0200000000003000 &&
    regIs (exec (.jalr 2 2) s) 2 0x0200000000001002 && regIs (exec (.jalr 3 5) s) 3 0) = true := by decide +kernel

/-- A thread at level 0 with a handler; and one in its handler. -/
def th0 : Thread := { th with vec := 0x0200000000002000 }
def th1 : Thread := { th0 with lvl := true, epc := 0x0200000000001100, vx := 0x4000000000000005 }

theorem witness_TakingATrapSavesAndEnters : (st [] th0).thread sc 0 = some th0 ∧ th0.lvl = false ∧ th0.vec ≠ 0 ∧ th0.sect = none ∧
    th0.status = .ready := by decide +kernel

/-- Thread 0 on a core on which exdb has claimed BREAK. -/
def claims : State := { in2 with cores := in2.cores.mapVals fun c => { c with claimed := true } }

theorem witness_TrapAndBreakRaiseTheirEvents : Issues in2 (plainKind [1]) hd th ∧
    (Issues in2 {} hd th ∧ (in2.core sc).claimed = false) ∧ (Issues claims {} hd th ∧ (claims.core sc).claimed = true) :=
  ⟨issues_of (by decide +kernel), ⟨issues_of (by decide +kernel), by decide +kernel⟩, issues_of (by decide +kernel), by decide +kernel⟩

theorem test_trap_and_break : (
    nextIs (exec (.trap 1 5) in2) (fun s => (s.thread sc 0).any (fun t => t.status == .parked .fault (.fault 0x0200000000001002 0x0C 5 th.pc 0 none)) &&
      (s.io.recs.find 1).any fun r => r.code == 0x0C && r.info == 5 && r.arg == -7 && r.resume == 0x0200000000001002) &&
    nextIs (exec (.brk 9) (st [] th0)) (fun s => (s.thread sc 0).any fun t => t.cause == 0x0B && t.info == 9 && t.pc == th0.vec) &&
    nextIs (exec (.brk 9) claims) (fun s => (s.core sc).held && (s.thread sc 0).any fun t => t.pc == th.pc && t.cause == th.cause)) = true := by
  decide +kernel

theorem witness_EretReturnsFromTheHandler : (Issues (st [] th1) {} hd th1 ∧ th1.lvl = true) ∧ (Issues (st [] th0) {} hd th0 ∧ th0.lvl = false) :=
  ⟨⟨issues_of (by decide +kernel), by decide +kernel⟩, issues_of (by decide +kernel), by decide +kernel⟩

theorem test_eret : (
    nextIs (exec .eret (st [] th1)) (fun s => (s.thread sc 0).any fun t => t.pc == 0x0200000000001100 && !t.lvl && t.vx == 0 && t.restart == some 5) &&
    nextIs (exec .eret (st [] th0)) (fun s => (s.thread sc 0).any fun t => t.cause == 1 && t.info == 0x0A && t.lvl)) = true := by decide +kernel

/-! ### Accesses (R95 to R106) -/

/-- W[1] points to offset 0x2000 of the own vault, W[2] to offset 0x2001, W[4] to its last word. -/
def ptrs : State := st [(1, 0x0200000000002000), (2, 0x0200000000002001), (3, 77), (4, 0x020000000000FFF8)]

/-- The access of LD w3, [w1+2]: offset 16 behind W[1]. -/
def ldAsk : Ask := { op := .load 8 false, use := .reg 3, align := 8, bytes := 8, redir := .follows }

theorem witness_MemoryInstructionsAskTheirAccess :
    (loadForm (.ld {} 3 1 2) = some ({}, 8, false, 3, 1, 2) ∧ Issues ptrs (accessKind [3, 1]) hd th ∧
      effective (regOf ptrs hd th 1) (8 * 2) = .ok 0x0200000000002010 ∧ (effective 0x0200000000002010 7).isOk = true ∧
      Admits ptrs hd th 0x0200000000002010 ldAsk) ∧
    (storeForm (.st8 {} 3 2 (-1)) = some ({}, 1, 3, 2, -1) ∧ Issues ptrs (accessKind [3, 2]) hd th ∧
      effective (regOf ptrs hd th 2) (1 * (-1)) = .ok 0x0200000000002000 ∧ (effective 0x0200000000002000 0).isOk = true ∧
      Admits ptrs hd th 0x0200000000002000 { op := .sub 1 77 false, use := .done, align := 1, bytes := 1, redir := .follows }) ∧
    (syncForm (.stf {} 3 4 0) = some ({}, [3, 4], 4, 0, 3, fun v => .stf v, .done) ∧ Issues ptrs (accessKind [3, 4]) hd th ∧
      effective (regOf ptrs hd th 4) (8 * 0) = .ok 0x020000000000FFF8 ∧ (effective 0x020000000000FFF8 7).isOk = true ∧
      Admits ptrs hd th 0x020000000000FFF8 { op := .stf 77, use := .done, align := 8, bytes := 8, redir := .forbidden }) :=
  ⟨⟨rfl, issues_of (by decide +kernel), by decide +kernel, by decide +kernel, admits_of (by decide +kernel)⟩,
   ⟨rfl, issues_of (by decide +kernel), by decide +kernel, by decide +kernel, admits_of (by decide +kernel)⟩,
   ⟨rfl, issues_of (by decide +kernel), by decide +kernel, by decide +kernel, admits_of (by decide +kernel)⟩⟩

/-- An access leaves its thread parked (mem) for its reply, with the request on its way (R97). -/
theorem test_accesses_park : ([Instr.ld {} 3 1 2, .ld8 {} 3 2 0, .ld8Z {} 3 2 0, .ld16 {} 3 1 1, .ld16Z {} 3 1 1, .ld32 {} 3 1 1, .ld32Z {} 3 1 1,
    .st {} 3 1 0, .st8 {} 3 2 0, .st16 {} 3 1 0, .st32 {} 3 1 0, .ldf {} 3 1 0, .lde {} 3 1 0, .stf {} 3 1 0, .sts {} 3 1 0, .sete {} 1 0,
    .feq {} 3 1 0, .aadd {} 3 1 2, .cas {} 3 1 2, .monArm 3 1 2].all fun i =>
      nextIs (exec i ptrs) fun s => (s.thread sc 0).any (fun t => t.status == .parked .mem (.reply 1)) && (s.reqs.find 1).any fun r => r.stage == .sent) = true := by
  decide +kernel

theorem witness_BadAddressesTrapBeforeTheAccess :
    loadForm (.ld32 {} 3 1 0x3800) = some ({}, 4, true, 3, 1, 0x3800) ∧ Issues ptrs (accessKind [3, 1]) hd th ∧
    nextIs (exec (.ld32 {} 3 1 0x3800) ptrs) (fun _ => true) = true ∧ effective (regOf ptrs hd th 1) (4 * 0x3800) = .error 3 ∧
    loadForm (.ld32 {} 3 2 0) = some ({}, 4, true, 3, 2, 0) ∧ Issues ptrs (accessKind [3, 2]) hd th ∧
    nextIs (exec (.ld32 {} 3 2 0) ptrs) (fun _ => true) = true ∧ effective (regOf ptrs hd th 2) (4 * 0) = .ok 0x0200000000002001 ∧
    offsetOf 0x0200000000002001 % 4 ≠ 0 ∧ (∀ q, (cxOf hd th).dueOn (begun ptrs hd) 0x0200000000002001 q = none) :=
  ⟨rfl, issues_of (by decide +kernel), by decide +kernel, by decide +kernel, rfl, issues_of (by decide +kernel), by decide +kernel,
   by decide +kernel, by decide +kernel, fun _ => rfl⟩

/-- Table 10.2: PERM with reason 3 beyond the space, ALIGN with the address. -/
theorem test_bad_addresses : (
    nextIs (exec (.ld32 {} 3 1 0x3800) (st ((ptrs.core sc).regs) th0)) (fun s => (s.thread sc 0).any fun t => t.cause == 9 && t.info == 3) &&
    nextIs (exec (.ld32 {} 3 2 0) (st ((ptrs.core sc).regs) th0)) (fun s => (s.thread sc 0).any fun t => t.cause == 2 && t.info == 0x0200000000002001)) = true := by
  decide +kernel

/-- A thread that waits for the reply of request 1; and that request, to the word at offset 0x2000 of its core's vault. -/
def wait : Thread := { th with status := .parked .mem (.reply 1), outSince := some 100 }
def rq (op : MemOp) (use : Use) (stage : Stage) : Req :=
  { tid := some { core := sc, slot := 0, gen := 0 }, core := sc, ctx := 7, op := op, use := use, ptr := 0x0200000000002000,
    pa := vaultAddr sc 0x2000, key := 9, atom := 1, lat := 25, stage := stage, epc := th.pc, npc := 0x0200000000001002 }

/-- The word at offset 0x2000: its value, and whether it is empty. -/
def word (v : Word) (empty : Bool) : Memory := ({} : Memory).write 9 (vaultAddr sc 0x2000) v empty

/-- The machine in which that request stands at its bank. -/
def bst (op : MemOp) (use : Use) (stage : Stage) (m : Memory) : State :=
  { st [] wait with hand := none, reqs := [(1, rq op use stage)], serial := 2, mem := m }

theorem witness_VaultAccessesArriveAndArePerformed :
    (let r : Req := { rq (.load 8 false) (.reg 3) .translating with pa := 0, key := 0, lat := 0 }
     let s : State := { bst (.load 8 false) (.reg 3) .translating {} with reqs := [(1, r)] }
     s.reqs.find 1 = some r ∧ r.tid = some { core := sc, slot := 0, gen := 0 } ∧ s.threadOf { core := sc, slot := 0, gen := 0 } = some wait ∧
     isLarge r.core = false ∧ r.use = .reg 3 ∧ spaceOf r.ptr = 1 ∧ isSmall r.core = true ∧ s.hasKey r.core (.id 0 (s.ctxOf r.core)) = true ∧
     wait.deferredOn { r with pa := vaultAddr sc (offsetOf r.ptr), key := s.keyOf (.id 0 (s.ctxOf r.core)), atom := 1, route := .plain, lat := latency r.core (.bank sc (offsetOf r.ptr / 8192)) } = none ∧
     s.conflicts 1 { r with pa := vaultAddr sc (offsetOf r.ptr), key := s.keyOf (.id 0 (s.ctxOf r.core)), atom := 1, route := .plain, lat := latency r.core (.bank sc (offsetOf r.ptr / 8192)) } = false) ∧
    (let s := bst (.store 5) .done .sent (word 3 false)
     let r := rq (.store 5) .done .sent
     s.MemOk ∧ s.reqs.find 1 = some r ∧ homeOf s.sys.image r.pa = .bank sc 1 ∧
     portTurn s.cyc (r.sender 1) ((s.bank (s.bankOf r)).ports.find (r.port sc)) ≤ s.cyc ∧
     (s.bank (s.bankOf r)).holds.any (fun x => x.covers r) = false ∧ (s.bank (s.bankOf r)).waiters = [] ∧
     s.admitEvent r = none ∧ s.merged 1 = [] ∧ s.errorIn r.first r.words = 0) := by decide +kernel

/-- Offset 0x2000 lies in the second bank, 8 KiB each; a reply leaves with half the latency, rounded up (R97). -/
theorem test_arrivals : (
    nextIs (exec (.bankRequestArrival 1) (bst (.load 2 true) (.reg 3) .sent (word 0x18001 false))) (fun s =>
      (s.reqs.find 1).any (fun r => r.ans == [-32767]) && s.agenda.any fun d => d.time == 113 && d.ev == .memReply 1) &&
    nextIs (exec (.bankRequestArrival 1) (bst (.store 5) .done .sent (word 3 true))) (fun s =>
      s.mem.plain (vaultAddr sc 0x2000) == 5 && !s.mem.full (vaultAddr sc 0x2000))) = true := by decide +kernel

theorem witness_FullAndEmptyWordsAreSynchronised :
    [MemOp.ldf, .lde, .stf 5, .sts 5, .sete, .feq].all (fun op => [true, false].all fun e =>
      let s := bst op (if op = .ldf ∨ op = .lde ∨ op = .feq then .reg 3 else .done) .sent (word 3 e)
      let r := rq op (if op = .ldf ∨ op = .lde ∨ op = .feq then .reg 3 else .done) .sent
      decide (s.MemOk ∧ s.reqs.find 1 = some r ∧ r.view = none ∧ r.orphan = false ∧ homeOf s.sys.image r.pa = .bank sc 1 ∧
        portTurn s.cyc (r.sender 1) ((s.bank (s.bankOf r)).ports.find (r.port sc)) ≤ s.cyc ∧ (s.bank (s.bankOf r)).holds.any (fun x => x.covers r) = false ∧ (s.bank (s.bankOf r)).waiters = [] ∧
        s.admitEvent r = none ∧ s.merged 1 = [] ∧ s.errorIn r.first r.words = 0 ∧ s.mem.full r.first = !e)) = true := by decide +kernel

/-- Table 4.5, for a full word that holds 3 and for an empty one. -/
theorem test_full_empty : (
    let a := vaultAddr sc 0x2000
    let run (op : MemOp) (use : Use) (e : Bool) (f : State → Req → Bool) : Bool :=
      nextIs (exec (.bankRequestArrival 1) (bst op use .sent (word 3 e))) fun s => (s.reqs.find 1).any (f s)
    let waits (s : State) (r : Req) : Bool := r.stage == .waiting && s.mem.plain a == 3
    run .ldf (.reg 3) false (fun s r => r.ans == [3] && s.mem.full a) && run .ldf (.reg 3) true waits &&
    run .lde (.reg 3) false (fun s r => r.ans == [3] && !s.mem.full a) && run .lde (.reg 3) true waits &&
    run (.stf 5) .done true (fun s r => r.stage == .served && s.mem.full a && s.mem.plain a == 5) && run (.stf 5) .done false waits &&
    run (.sts 5) .done true (fun s _ => s.mem.full a && s.mem.plain a == 5) && run .sete .done false (fun s _ => !s.mem.full a && s.mem.plain a == 3) &&
    run .feq (.reg 3) false (fun _ r => r.ans == [1]) && run .feq (.reg 3) true (fun _ r => r.ans == [0])) = true := by decide +kernel

theorem witness_RepliesCompleteTheirInstruction :
    [Use.reg 3, .reg 0, .done].all (fun use =>
      let r := { rq .ldf use .served with ans := [7] }
      let s : State := { bst .ldf use .served {} with reqs := [(1, r)] }
      decide (s.reqs.find 1 = some r ∧ r.stage = .served ∧ r.orphan = false ∧ r.event = none ∧ r.acq = none ∧
        s.threadOf { core := sc, slot := 0, gen := 0 } = some wait ∧ wait.status = .parked .mem (.reply 1) ∧
        (winBanks wait.win).any (fun b => (s.core sc).retain.contains b) = false)) = true := by decide +kernel

theorem test_reply : nextIs (exec (.memReply 1) { bst .ldf (.reg 3) .served {} with reqs := [(1, { rq .ldf (.reg 3) .served with ans := [7] })] })
    (fun s => (s.core sc).regW th 3 == 7 && (s.thread sc 0).any fun t => t.status == .ready && t.pc == 0x0200000000001002) = true := by
  decide +kernel

/-! ### Atomics, sections, monitors and fences (R126, R133 to R148) -/

theorem witness_AtomicsAskTheirWord :
    (atomForm (.aadd {} 3 1 2) = some (.aadd, {}, 3, 1, 2) ∧ Issues ptrs (plainKind [3, 1, 2]) hd th ∧
      effective (regOf ptrs hd th 1) 0 = .ok 0x0200000000002000 ∧ (effective 0x0200000000002000 7).isOk = true ∧
      Admits ptrs hd th 0x0200000000002000 { op := .atom .aadd 77 0x0200000000002001, use := .reg 3, align := 8, redir := .forbidden }) ∧
    (Issues ptrs { names := { w := [3, 4, 1, 5, 6] } } hd th ∧ (effective 0x0200000000002000 15).isOk = true ∧
      Admits ptrs hd th 0x0200000000002000 { op := .cas2 77 0x020000000000FFF8 0 0, use := .reg 3, align := 16, bytes := 16, redir := .forbidden }) :=
  ⟨⟨rfl, issues_of (by decide +kernel), by decide +kernel, by decide +kernel, admits_of (by decide +kernel)⟩,
   issues_of (by decide +kernel), by decide +kernel, admits_of (by decide +kernel)⟩

/-- The machine in which an atomic holds its word. -/
def hst (op : AtomOp) (e x old : Word) : State :=
  let s := bst (.atom op e x) (.reg 3) .held (word old false)
  let r := { rq (.atom op e x) (.reg 3) .held with ans := [old, 0] }
  { s with reqs := [(1, r)], banks := [(s.bankOf r, { holds := [{ pa := r.first, size := 8, req := 1 }] })] }

/-- The machine in which some other holder holds its word or pair, in a section of its thread; and its request. -/
def backReq (op : MemOp) (ans : List Word) : Req := { rq op (if op.waits then .reg 3 else .done) .held with ans := ans, args := [Tid.word { core := sc, slot := 0, gen := 0 }] }
def backSt (op : MemOp) (ans : List Word) (size : Nat) : State :=
  let r := backReq op ans
  let s := bst op .done .held (word 3 false)
  { s with reqs := [(1, r)], banks := [(s.bankOf r, { holds := [{ pa := r.first, size := size, req := 1, sect := some ({ core := sc, slot := 0, gen := 0 }, 7) }] })] }

theorem witness_AtomicsHoldAndWriteBackTheirWord :
    (let s := bst (.atom .acas 3 9) (.reg 3) .sent (word 3 false)
     let r := rq (.atom .acas 3 9) (.reg 3) .sent
     s.reqs.find 1 = some r ∧ homeOf s.sys.image r.pa = .bank sc 1 ∧ (s.bank (s.bankOf r)).holds.any (fun x => x.covers r) = false ∧
     portTurn s.cyc (r.sender 1) ((s.bank (s.bankOf r)).ports.find (r.port sc)) ≤ s.cyc ∧ s.admitEvent r = none ∧ s.merged 1 = [] ∧ s.errorIn r.first r.words = 0 ∧ (s.bank (s.bankOf r)).waiters = []) ∧
    (let s := hst .acas 3 9 3
     ∃ r, s.MemOk ∧ s.reqs.find 1 = some r ∧ r.stage = .held ∧ r.view = none ∧ r.op = .atom .acas 3 9 ∧ r.ans = [3, 0] ∧
      homeOf s.sys.image r.pa = .bank sc 1 ∧ (s.bank (s.bankOf r)).waiters = [] ∧ (s.bank (s.bankOf r)).queue = []) ∧
    [MemOp.sub 4 5 false, .cas2 3 0 9 8].all (fun op =>
      let use : Use := if op.holds && op == .sub 4 5 false then .done else .reg 3
      let s := bst op use .sent (word 3 false)
      let r := rq op use .sent
      decide (s.reqs.find 1 = some r ∧ homeOf s.sys.image r.pa = .bank sc 1 ∧ (s.bank (s.bankOf r)).holds.any (fun x => x.covers r) = false ∧
        portTurn s.cyc (r.sender 1) ((s.bank (s.bankOf r)).ports.find (r.port sc)) ≤ s.cyc ∧ s.admitEvent r = none ∧ s.merged 1 = [] ∧
        s.errorIn r.first r.words = 0 ∧ (s.bank (s.bankOf r)).waiters = [])) = true ∧
    [(MemOp.sub 4 5 false, [(3 : Word), 0], 8), (.cas2 3 0 9 8, [3, 0], 16), (.rel true 9 8, [], 16), (.rel false 9 0, [], 8)].all (fun e =>
      let s := backSt e.1 e.2.1 e.2.2
      let r := backReq e.1 e.2.1
      decide (s.MemOk ∧ s.reqs.find 1 = some r ∧ r.view = none ∧ r.stage = .held ∧ r.ans = e.2.1 ∧ homeOf s.sys.image r.pa = .bank sc 1 ∧ (s.bank (s.bankOf r)).waiters = [] ∧
        (s.bank (s.bankOf r)).queue = [] ∧ r.pa % 8 + 4 ≤ 8 ∧ s.sectHeld r = true ∧ s.admitEvent r = none)) = true :=
  ⟨by decide +kernel, ⟨{ rq (.atom .acas 3 9) (.reg 3) .held with ans := [3, 0] }, by decide +kernel⟩, by decide +kernel, by decide +kernel⟩

/-- R98: the four bytes stored stand, the others stay; R142: a pair that is not as expected stays; R136: a pair is written back. -/
theorem test_write_backs : (
    let runs (op : MemOp) (ans : List Word) (size : Nat) (w0 w1 : Word) : Bool :=
      nextIs (exec (.holdWriteBack 1) (backSt op ans size)) fun s => s.mem.plain (vaultAddr sc 0x2000) == w0 &&
        s.mem.plain (vaultAddr sc 0x2008) == w1 && (s.bank (s.bankOf (backReq op ans))).holds == []
    runs (.sub 4 0x1234567890ABCDEF false) [0x0102030405060708, 0] 8 0x0102030490ABCDEF 0 && runs (.cas2 3 0 9 8) [3, 0] 16 9 8 &&
    runs (.cas2 3 1 9 8) [3, 0] 16 3 0 && runs (.rel true 9 8) [] 16 9 8) = true := by decide +kernel

/-- Table 7.3 with old = -4 and W[b] = 5; CAS compares with W[d]. -/
theorem test_atomics : ([(AtomOp.aadd, (1 : Word)), (.aand, 4), (.aor, -3), (.axor, -7), (.amin, -4), (.amax, 5), (.aminZ, 5), (.amaxZ, -4),
    (.axchg, 5), (.acas, -4)].all fun e =>
      nextIs (exec (.holdWriteBack 1) (hst e.1 6 5 (-4))) fun s => s.mem.plain (vaultAddr sc 0x2000) == e.2 &&
        (s.reqs.find 1).any fun r => r.ans == [-4]) = true ∧
    nextIs (exec (.holdWriteBack 1) (hst .acas (-4) 5 (-4))) (fun s => s.mem.plain (vaultAddr sc 0x2000) == 5) = true := by decide +kernel

/-- An open section on the word at offset 0x2000. -/
def sect : Sect := { ptr := 0x0200000000002000, pa := vaultAddr sc 0x2000, pair := false, key := 9, v0 := 3, v1 := 0, issued := 2, pc := th.pc, lat := 25 }
def sectX : Sect := { sect with pair := true, v1 := 4 }

/-- The thread at hand in a state of its own. -/
def me : Tid := { core := sc, slot := 0, gen := 0 }

theorem witness_SectionsOpenAndClose :
    (Issues ptrs { names := { w := [3, 1] }, sec := .opens } hd th ∧ Issues ptrs { names := { w := [3, 4, 1] }, sec := .opens } hd th ∧
      Admits ptrs hd th 0x0200000000002000 { op := .rsv true, use := .stage stRsv, align := 16, bytes := 16, redir := .forbidden, args := [3] }) ∧
    (let r := { rq (.rsv false) (.stage stRsv) .served with ans := [7], args := [BitVec.ofNat 64 127] }
     let s : State := { bst .ldf .done .served {} with reqs := [(1, r)] }
     s.reqs.find 1 = some r ∧ s.threadOf { core := sc, slot := 0, gen := 0 } = some wait ∧ (127 : Nat) < 128 ∧
      (winBanks wait.win).any (fun b => (s.core sc).retain.contains b) = false) ∧
    (let r := { rq (.rsv true) (.stage stRsv) .served with ans := [7, 8], args := [BitVec.ofNat 64 126] }
     let s : State := { bst .ldf .done .served {} with reqs := [(1, r)] }
     s.reqs.find 1 = some r ∧ r.op = .rsv true ∧ s.threadOf me = some wait ∧ wait.status = .parked .mem (.reply 1) ∧ warm s sc wait) ∧
    Issues (st [(3, 8)] { th with sect := some sect }) { names := { w := [3] }, sec := .closes } hd { th with sect := some sect } ∧
    Issues (st [(3, 8), (4, 9)] { th with sect := some sectX }) { names := { w := [3, 4] }, sec := .closes } hd { th with sect := some sectX } :=
  ⟨⟨issues_of (by decide +kernel), issues_of (by decide +kernel), admits_of (by decide +kernel)⟩, by decide +kernel,
   ⟨rfl, rfl, by decide +kernel, rfl, show _ = _ by decide +kernel⟩, issues_of (by decide +kernel), issues_of (by decide +kernel)⟩

theorem test_sections : (
    nextIs (exec (.rsv {} 3 1) ptrs) (fun s => (s.thread sc 0).any fun t => t.status == .parked .mem (.reply 1)) &&
    nextIs (exec (.rsvx {} 3 1) ptrs) (fun s => (s.reqs.find 1).any fun r => r.op == .rsv true) &&
    nextIs (exec (.rel {} 3) (st [(3, 8)] { th with sect := some sect })) (fun s =>
      (s.thread sc 0).any (fun t => t.sect.isNone) && (s.reqs.find 1).any fun r => r.op == .rel false 8 0) &&
    nextIs (exec (.rel {} 3) (st [(3, 8), (4, 9)] { th with sect := some sectX })) (fun s => (s.reqs.find 1).any fun r => r.op == .rel true 8 9)) = true := by decide +kernel

theorem witness_FencesWaitAndMonitorsAreArmed :
    (Issues ptrs (lateKind .barred) hd th ∧ (begun ptrs hd).accessesDone ((cxOf hd th).tid (begun ptrs hd)) th = true ∧
      th.deferred.find? (dueAt (lateKind .barred)) = none ∧
      [Scope.cluster, .package, .system].all (fun sco => (begun ptrs hd).releaseDone ((cxOf hd th).tid (begun ptrs hd)) sco &&
        !((begun ptrs hd).acquire ((cxOf hd th).tid (begun ptrs hd)) (acqOf { scope := sco, acquire := true })).acquiring ((cxOf hd th).tid (begun ptrs hd))) = true ∧ isLarge sc = false) ∧
    (let t := { th with relaxed := [1] }
     let s : State := { st [] t with reqs := [(1, rq (.load 8 false) (.relaxed (some 3)) .sent)], serial := 2 }
     Issues s (lateKind .barred) hd t ∧ (begun s hd).quiet t = false) ∧
    (Issues ptrs (plainKind [3, 1]) hd th ∧ Admits ptrs hd th 0x0200000000002000 { op := .arm 3, use := .reg 3, align := 1, bytes := 1, redir := .forbidden }) ∧
    Issues ptrs { bad := decide (4 < (4 : BitVec 3).toNat) } hd th ∧
    (let t := { th with mons := [(2, { ptr := 0x0200000000002000, line := vaultAddr sc 0x2000, route := .plain, fired := true })] }
     Issues (st [] t) (plainKind [3, 1]) hd t ∧ t.fired ≠ 0) ∧ (isLarge sc = false ∧ th.mons = []) ∧ regOf ptrs hd th 1 ≠ 0 :=
  ⟨⟨issues_of (by decide +kernel), by decide +kernel⟩, ⟨issues_of (by decide +kernel), by decide +kernel⟩,
   ⟨issues_of (by decide +kernel), admits_of (by decide +kernel)⟩, issues_of (by decide +kernel),
   ⟨issues_of (by decide +kernel), by decide +kernel⟩, by decide +kernel, by decide +kernel⟩

/-- MWAIT answers 0x40 with nothing to wait for and fired monitors by their bits; else it parks for at least 8 cyc (R147). -/
theorem test_monitors : (
    let m : Mon := { ptr := 0x0200000000002000, line := vaultAddr sc 0x2000, route := .plain, fired := true }
    regIs (exec (.mwait {} 3 0) ptrs) 3 0x40 && regIs (exec (.mwait {} 3 0) (st [] { th with mons := [(2, m)] })) 3 4 &&
    nextIs (exec (.mwait {} 3 5) (st [(5, 3)])) (fun s => s.agenda.any fun d => d.time == 108 && d.ev == .mwaitTimeout { core := sc, slot := 0, gen := 0 }) &&
    nextIs (exec (.monClr 4) (st [] { th with mons := [(2, m)] })) (fun s => (s.thread sc 0).any fun t => t.mons == []) &&
    pcIs (exec (.fence { scope := .package, acquire := true, release := true }) ptrs) 0x0200000000001002 &&
    nextIs (exec (.cas2 {} 6 1 8) ptrs) (fun s => (s.reqs.find 1).any fun r => r.op == .cas2 0 0 0 0)) = true := by decide +kernel

/-- A thread in an MWAIT with an armed monitor. -/
def mw (fired : Bool) : Thread :=
  { th with status := .parked .mwait (.mwait 3 (some 100) 0x0200000000001002 none false), outSince := some 90,
            mons := [(2, { ptr := 0x0200000000002000, line := vaultAddr sc 0x2000, route := .plain, fired := fired })] }

theorem witness_FiredMonitorsEndWaits :
    ((st [] (mw false)).threadOf { core := sc, slot := 0, gen := 0 } = some (mw false) ∧ ((mw false).mons.find 2).isSome = true) ∧
    ((st [] (mw true)).threadOf { core := sc, slot := 0, gen := 0 } = some (mw true) ∧ (mw true).fired + 16 ≠ 0 ∧
      (winBanks th.win).any (fun b => ((st [] (mw true)).core sc).retain.contains b) = false) := by decide +kernel

/-- A monitor and a timeout in one cycle: bits 2 and 4 (R147). -/
theorem test_mwait_ends : nextIs (exec (.mwaitTimeout { core := sc, slot := 0, gen := 0 }) (st [] (mw true))) (fun s =>
    (s.core sc).regW th 3 == 20 && (s.thread sc 0).any fun t => t.status == .ready && t.pc == 0x0200000000001002) = true ∧
    nextIs (exec (.monitorFire { core := sc, slot := 0, gen := 0 } 2) (st [] (mw false))) (fun s => (s.thread sc 0).any fun t => t.fired == 4) = true := by
  decide +kernel

/-! ### Threads (R54 to R64, R78 to R80) -/

/-- A thread with a window of 16 registers, so that others find room. -/
def slimTh : Thread := { th with win := 0x200 }

/-- W[1] an entry, W[2] a window of 8 registers from 16 on, W[4] an odd entry, W[5] a window that overlaps. -/
def mk : State := st [(1, 0x0200000000003000), (2, 0x102), (3, 9), (4, 0x0200000000003001), (5, 0x101), (6, 0x0001)] slimTh

/-- The same with every slot but 0 taken away from the partition. -/
def full : State := { mk with io := { mk.io with ctxs := [(7, { kern := 2, key := 9, parts := [(0, { slots := 1, banks := 255, weight := 1 })] })] } }

theorem witness_TnewCreatesAThread :
    Issues mk (plainKind [3, 1, 2]) hd slimTh ∧ Issues full (plainKind [3, 1, 2]) hd slimTh ∧ isLarge sc = false ∧
    ((regOf mk hd slimTh 4).getLsbD 0 = true) ∧ ((regOf mk hd slimTh 1).getLsbD 0 = false ∧ winOk (regOf mk hd slimTh 6) = false) ∧
    (winOk (regOf mk hd slimTh 5) = true ∧ ((begun mk hd).core sc).winTaken (regOf mk hd slimTh 5) = true) ∧
    (winOk (regOf mk hd slimTh 2) = true ∧ ((begun mk hd).core sc).winTaken (regOf mk hd slimTh 2) = false ∧
      (begun mk hd).freeSlot sc 0 = some 1 ∧ (begun mk hd).fits sc slimTh.region 1 = true ∧ (begun full hd).freeSlot sc 0 = none) :=
  ⟨issues_of (by decide +kernel), issues_of (by decide +kernel), by decide +kernel⟩

theorem test_tnew : (
    regIs (exec (.tnew 3 4 2) mk) 3 (-4) && regIs (exec (.tnew 3 1 6) mk) 3 (-2) && regIs (exec (.tnew 3 1 5) mk) 3 (-3) &&
    regIs (exec (.tnew 3 1 2) full) 3 (-1) &&
    nextIs (exec (.tnew 3 1 2) mk) (fun s => (s.core sc).regW slimTh 3 == BitVec.ofNat 64 (sc * 16384 + 256) &&
      (s.thread sc 1).any fun t => t.pc == 0x0200000000003000 && t.win == 0x102 && t.status == .starting)) = true := by decide +kernel

theorem witness_ThreadsEndSleepAndYield :
    (Issues mk (lateKind .ends) hd slimTh ∧ slimTh.relaxed = [] ∧ slimTh.deferred.find? (dueAt (lateKind .ends)) = none ∧ (begun mk hd).endBarred slimTh = false ∧
      (mk.core sc).doors = []) ∧
    Issues mk (plainKind [3]) hd slimTh ∧ Issues mk {} hd slimTh :=
  ⟨⟨issues_of (by decide +kernel), by decide +kernel⟩, issues_of (by decide +kernel), issues_of (by decide +kernel)⟩

theorem test_end_sleep_yield : (
    nextIs (exec .tend mk) (fun s => (s.thread sc 0).isNone && ((s.core sc).slot 0).gen == 1) &&
    nextIs (exec (.sleep 3 (-4)) mk) (fun s => s.agenda.any fun d => d.time == 108 && d.ev == .sleepExpiry { core := sc, slot := 0, gen := 0 }) &&
    nextIs (exec (.sleep 3 4) mk) (fun s => (s.thread sc 0).any fun t => t.wakeAt == some 113) &&
    nextIs (exec .yield mk) (fun s => (s.thread sc 0).any fun t => t.yield == some ([], 164))) = true := by decide +kernel

/-- Two cores of one context: the thread, and an empty neighbour to the east. -/
def two (regs : Map Word) (t : Thread := slimTh) : State :=
  { st regs t with cores := [(sc, core regs t), (sc + 1, { owner := ownerWord false false 2 7 })] }

theorem witness_ThreadsRoamAndMigrate :
    (Issues mk (smallKind [3, 1]) hd slimTh ∧ (begun mk hd).slim sc slimTh = true) ∧
    (Issues (st [(1, 1)]) (smallKind [3, 1]) hd th ∧ (begun (st [(1, 1)]) hd).slim sc th = false) ∧
    (let s := two [(1, 0x405), (2, 0x3F000)]
     Issues s (plainKind [3, 1]) hd slimTh ∧ isSmall 0x3F000 = false ∧ isSmall (sc + 1) = true ∧ (0x405 : Word).getLsbD 18 = false ∧ s.ctxOf (sc + 1) = s.ctxOf sc ∧
      (begun s hd).slim sc slimTh = true ∧ (begun s hd).movable sc 0 slimTh = true ∧ ((begun s hd).berth sc (sc + 1) slimTh).isSome = true ∧
      (begun s hd).releaseDone ((cxOf hd slimTh).tid (begun s hd)) .package = true) ∧
    (let t := { slimTh with relaxed := [9] }
     let s := two [(1, 0x405)] t
     Issues s (plainKind [3, 1]) hd t ∧ (begun s hd).slim sc t = true ∧ (begun s hd).movable sc 0 t = false) ∧
    (let s := two [(1, 0x405)]
     let s := { s with io := { s.io with ctxs := [(7, { kern := 2, key := 9, parts := [(0, { slots := 0, banks := 255, weight := 1 })] })] } }
     Issues s (plainKind [3, 1]) hd slimTh ∧ (begun s hd).slim sc slimTh = true ∧ (begun s hd).movable sc 0 slimTh = true ∧
      (begun s hd).berth sc (sc + 1) slimTh = none) :=
  ⟨⟨issues_of (by decide +kernel), by decide +kernel⟩, ⟨issues_of (by decide +kernel), by decide +kernel⟩,
   ⟨issues_of (by decide +kernel), by decide +kernel⟩, ⟨issues_of (by decide +kernel), by decide +kernel⟩,
   issues_of (by decide +kernel), by decide +kernel⟩

theorem test_roam_and_migrate : (
    regIs (exec (.roam 3 1) mk) 3 0 && regIs (exec (.roam 3 1) (st [(1, 1)])) 3 (-1) && regIs (exec (.migrate 3 1) (two [(1, 0x3F000)])) 3 (-4) &&
    regIs (exec (.migrate 3 1) { two [(1, 0x405)] th with cyc := 100 }) 3 (-3) &&
    nextIs (exec (.migrate 3 1) (two [(1, 0x405)])) (fun s => (s.thread sc 0).isNone && (s.thread (sc + 1) 0).isSome)) = true := by decide +kernel

/-- The identifier of the thread at hand as a word; and that thread in a state of its own. -/
def meW : Word := BitVec.ofNat 64 (sc * 16384)
def at' (t : Thread) : State := { st [(2, 8)] t with hand := none }

theorem witness_ThreadsReturnAndQuietBanksRest :
    ((at' { th with status := .starting }).threadOf me = some { th with status := .starting } ∧
      ({ th with status := .starting } : Thread).readyAt ≤ (at' { th with status := .starting }).cyc ∧
      (at' { th with status := .starting }).regionCancelled me.core th.region = false ∧ th.wakeAt = none ∧ th.next = 0) ∧
    (let t := { th with status := .starting, wakeAt := some 200 }
     (at' t).threadOf me = some t ∧ t.readyAt ≤ (at' t).cyc ∧ (at' t).cyc < 200) ∧
    (let t := { th with status := .parked .sleep (.sleep 0x0200000000001002), wakeAt := some 100 }
     (at' t).threadOf me = some t ∧ (winBanks t.win).any (fun b => ((at' t).core sc).retain.contains b) = false ∧ t.wakeAt = some (at' t).cyc) ∧
    (let t := { th with status := .parked .mem (.flush 0x0200000000001002) }
     (at' t).threadOf me = some t) ∧
    (let t := { th with yield := some ([1], 100) }
     (at' t).threadOf me = some t ∧ t.yield = some ([1], (at' t).cyc)) ∧
    (let t := { slimTh with status := .starting }
     let s := { at' t with msgs := [(1, .move me [0, 11, 12] 107)] }
     s.msgs.find 1 = some (.move me [0, 11, 12] 107) ∧ s.threadOf me = some t ∧ isLarge me.core = false) := by decide +kernel

theorem test_returns : (
    nextIs (exec (.threadReady me) (at' { th with status := .starting })) (fun s => (s.thread sc 0).any fun t => t.status == .ready) &&
    nextIs (exec (.threadReady me) (at' { th with status := .starting, wakeAt := some 200 })) (fun s =>
      (s.thread sc 0).any (fun t => t.status == .parked .sleep (.sleep th.pc)) && s.agenda.any fun d => d.time == 200 && d.ev == .sleepExpiry me) &&
    nextIs (exec (.sleepExpiry me) (at' { th with status := .parked .sleep (.sleep 0x0200000000001002), wakeAt := some 100 }))
      (fun s => (s.thread sc 0).any fun t => t.status == .ready && t.pc == 0x0200000000001002) &&
    nextIs (exec (.iflushExpiry me) (at' { th with status := .parked .mem (.flush 0x0200000000001002) }))
      (fun s => (s.thread sc 0).any fun t => t.status == .ready && t.pc == 0x0200000000001002) &&
    nextIs (exec (.yieldExpiry me) (at' { th with yield := some ([1], 100) })) (fun s => (s.thread sc 0).any fun t => t.yield.isNone) &&
    nextIs (exec (.migrationArrival 1) { at' { slimTh with status := .starting } with msgs := [(1, .move me [0, 11, 12] 107)] })
      (fun s => (s.core sc).regW slimTh 2 == 12 && s.agenda.any fun d => d.time == 107 && d.ev == .threadReady me) &&
    nextIs (exec (.bankRetention sc) { at' { slimTh with outSince := some 0 } with cyc := 1024 }) (fun s => (s.core sc).retain.contains 0) &&
    nextIs (exec (.bankRetention sc) { at' { slimTh with outSince := some 1 } with cyc := 1024 }) (fun s => (s.core sc).retain == [])) = true := by
  decide +kernel

/-- ADDI w5, w4, #-8 stands in the buffered line at the thread's pc. -/
def rot : State :=
  { st [] with hand := none, mem := ({} : Memory).write 9 (vaultAddr sc 0x1000) 0x7548 false, cores := [(sc, { core [] with issueAt := some 100, ibuf := [{ asid := 0, ptr := th.pc, pa := vaultAddr sc 0x1000, key := 9, ws := [0x7548, 0, 0, 0, 0, 0, 0, 0] }] })] }

theorem witness_TheRotationChoosesTheNextSlot :
    rot.hand = none ∧ (rot.core sc).issueAt = some rot.cyc ∧ (rot.core sc).held = false ∧ rot.chooses sc = some 0 ∧ rot.thread sc 0 = some th ∧
    (match (rot.upCore sc fun x => { x with issueAt := none }).fetch sc th with | .words _ => true | _ => false) = true := by decide +kernel

theorem test_rotation : nextIs (exec (.issueRotation sc) rot) (fun s => s.hand == some { core := sc, slot := 0, len := 1, was := none } &&
    (s.thread sc 0).any fun t => t.next == 108) = true := by decide +kernel

/-! ### Messages (R73 to R77) -/

theorem witness_WordsAreSentAndTaken :
    (let s := two [(1, BitVec.ofNat 64 ((sc + 1) * 16384)), (2, 5), (3, 0x100)]
     Issues s (plainKind [3, 1, 2]) hd slimTh ∧ Issues s (plainKind [1, 2]) hd slimTh ∧ Issues s (plainKind [3, 1]) hd slimTh ∧
      Issues s (smallKind [3, 1]) hd slimTh ∧ Issues s (smallKind [3, 2]) hd slimTh ∧
      (begun s hd).vecMemory ((cxOf hd slimTh).tid (begun s hd)) false = false ∧ isCore (tidOf (regOf s hd slimTh 1)).core = true ∧
      isCore (tidOf 0xFFFFFFFF).core = false ∧ neighbour sc .east = some (sc + 1) ∧ s.ctxOf (sc + 1) = s.ctxOf sc ∧
      ((s.core sc).linkOf (dirNum .east)).length < 2 ∧ (s.core sc).present.contains (8 * wBase slimTh.win + 3) = false) ∧
    (let s : State := { two [(1, 4)] with cores := [(sc, { core [(1, 4)] slimTh with present := [1] })] }
     Issues s (smallKind [3, 1]) hd slimTh ∧ (s.core sc).present.contains (8 * wBase slimTh.win + 1) = true ∧ (s.core sc).inbound = []) ∧
    (let s := two [(1, BitVec.ofNat 64 (sc + 1)), (2, 0x0200000000002000)]
     Issues s (smallKind [1, 2]) hd slimTh ∧ isCore (sc + 1) = true ∧ (regOf s hd slimTh 2).toNat % 64 = 0 ∧
      effective (regOf s hd slimTh 2) 0 = .ok 0x0200000000002000 ∧ (effective 0x0200000000002000 63).isOk = true ∧
      Admits s hd slimTh 0x0200000000002000 { op := .block 8, use := .stage stAmsg, align := 64, bytes := 64, args := [BitVec.ofNat 64 (sc + 1)] }) :=
  ⟨⟨issues_of (by decide +kernel), issues_of (by decide +kernel), issues_of (by decide +kernel), issues_of (by decide +kernel),
    issues_of (by decide +kernel), by decide +kernel⟩, ⟨issues_of (by decide +kernel), by decide +kernel⟩,
   issues_of (by decide +kernel), by decide +kernel, by decide +kernel, by decide +kernel, by decide +kernel, admits_of (by decide +kernel)⟩

theorem test_messages : (
    let s := two [(1, BitVec.ofNat 64 ((sc + 1) * 16384)), (2, 5), (3, 7), (4, 0xFFFFFFFF)]
    nextIs (exec (.send {} 3 1 2) s) (fun u => u.msgs.find 1 == some (.word (BitVec.ofNat 64 ((sc + 1) * 16384)) 7 5 7 false)) &&
    nextIs (exec (.send {} 3 4 2) s) (fun u => u.msgs == [] && (u.core sc).drops == 1) &&
    nextIs (exec (.cont 1 2) s) (fun u => u.msgs.find 1 == some (.word (BitVec.ofNat 64 ((sc + 1) * 16384)) 0 5 7 true)) &&
    regIs (exec (.contid 5 3) s) 5 (BitVec.ofNat 64 (7 * 2 ^ 32 + sc * 16384)) &&
    nextIs (exec (.nput .east 3 2) s) (fun u => u.msgs.find 1 == some (.nput sc (sc + 1) 0 7 5) && u.agenda.any fun d => d.time == 104) &&
    nextIs (exec (.movT 5 1) s) (fun u => (u.thread sc 0).any fun t => match t.status with | .parked .presence _ => true | _ => false) &&
    nextIs (exec (.movT 5 1) { two [(1, 4)] with cores := [(sc, { core [(1, 4)] slimTh with present := [1] })] })
      (fun u => (u.core sc).regW slimTh 5 == 4 && (u.core sc).present == []) &&
    nextIs (exec (.amsg 1 2) (two [(1, BitVec.ofNat 64 (sc + 1)), (2, 0x0200000000002000)])) (fun u => (u.reqs.find 1).any fun r => r.op == .block 8)) = true := by
  decide +kernel

/-- A word for register 5 of the thread of core 0x404. -/
def arr (reg : Nat) (present : List Nat) (cont : Bool := false) : State :=
  { two [] with hand := none, msgs := [(1, .word meW reg 5 7 cont)], cores := [(sc, { core [] slimTh with present := present }), (sc + 1, { owner := ownerWord false false 2 7 })] }

/-- The words of an active message: entry, a window of 8 registers, and six words. -/
def spawnMsg : Msg := .spawn (sc + 1) [0x0200000000003000, 0x100, 1, 2, 3, 4, 5, 6] meW { slimTh with pc := 0 } 7
def arrM : State := { two [] with hand := none, msgs := [(1, spawnMsg)] }

/-- A sleeper, and a WAKE for it from the array kernel. -/
def sleeper : Thread := { slimTh with status := .parked .sleep (.sleep 0x0200000000001002), wakeAt := some 500, outSince := some 90 }
def arrW : State := { two [] sleeper with hand := none, msgs := [(1, .wake meW false 2)] }

theorem witness_WordsMessagesAndWakesArrive :
    ((arr 5 []).msgs.find 1 = some (.word meW 5 5 7 false) ∧ (arr 5 []).behind (tidOf meW).core meW = false ∧
      isLarge (tidOf meW).core = false ∧ tidOf meW = me ∧ (arr 5 []).threadOf me = some slimTh ∧ (arr 5 []).mayReach 7 sc = true ∧
      (arr 5 []).mayReach 8 sc = false ∧ 5 < 8 * wSize slimTh.win ∧ 8 * wSize slimTh.win ≤ 16 ∧ ((arr 5 [5]).core sc).present.contains (8 * wBase slimTh.win + 5) = true ∧
      ((arr 5 [5]).core sc).inbound.length < 8) ∧
    (let s := { two [] with hand := none, msgs := [(1, .nput (sc + 1) sc 0 5 9)] }
     s.msgs.find 1 = some (.nput (sc + 1) sc 0 5 9) ∧ (s.core sc).pressed = [] ∧ isLarge sc = false ∧ s.thread sc 0 = some slimTh ∧
      (s.core sc).present.contains (8 * wBase slimTh.win + 5) = false) ∧
    (arrM.msgs.find 1 = some spawnMsg ∧ arrM.ctxOf (sc + 1) = 7 ∧ (arr 5 []).ctxOf sc ≠ 8 ∧ winOk 0x100 = true ∧ arrM.regionCancelled (sc + 1) slimTh.region = false ∧ (arrM.core (sc + 1)).doors = [] ∧
      arrM.placeable (sc + 1) 0 = true ∧ arrM.fits (sc + 1) slimTh.region 1 = true ∧ arrM.freeSlot (sc + 1) 0 = some 0 ∧
      (arrM.windowFor (sc + 1) 0 (wSize 0x100) (vSize 0x100) (aSize 0x100)).isSome = true) ∧
    (arrW.msgs.find 1 = some (.wake meW false 2) ∧ arrW.behind sc meW = false ∧ arrW.evicting meW = false ∧ arrW.mayReach 2 sc = true ∧
      ((arrW.core sc).slot 0).evicted = none ∧ arrW.stalledCopies me = [] ∧ arrW.stalledVecs me = [] ∧ arrW.threadOf me = some sleeper ∧
      (winBanks sleeper.win).any (fun b => (arrW.core sc).retain.contains b) = false) := by decide +kernel

theorem test_message_arrivals : (
    nextIs (exec (.registerWriteArrival 1) (arr 5 [])) (fun s => (s.core sc).regW slimTh 5 == 5 && (s.core sc).present == [5]) &&
    nextIs (exec (.registerWriteArrival 1) (arr 5 [5])) (fun s => (s.core sc).inbound == [(0, 5, 5)]) &&
    nextIs (exec (.registerWriteArrival 1) (arr 16 [])) (fun s => (s.core sc).drops == 1 && s.msgs == []) &&
    nextIs (exec (.registerWriteArrival 1) (arr 0 [])) (fun s => (s.core sc).drops == 1) &&
    nextIs (exec (.nputLinkArrival 1) { two [] with hand := none, msgs := [(1, .nput (sc + 1) sc 0 5 9)] }) (fun s => (s.core sc).regW slimTh 5 == 9) &&
    nextIs (exec (.amsgArrival 1) arrM) (fun s => (s.thread (sc + 1) 0).any (fun t => t.pc == 0x0200000000003000 && t.win == 0x100) &&
      (s.core (sc + 1)).regW { slimTh with win := 0x100 } 6 == 6 && (s.core (sc + 1)).regW { slimTh with win := 0x100 } 7 == meW) &&
    nextIs (exec (.wakeArrival 1) arrW) (fun s => (s.thread sc 0).any fun t => t.status == .ready && t.pc == 0x0200000000001002)) = true := by
  decide +kernel

/-! ### Team barriers (R69 to R71) -/

/-- A barrier of core 0x404 alone, whose cluster is 41 and whose index there is 0. -/
def bar (lead ph : Nat) : TeamBar := { members := 1, count := 1, phase := ph, freed := ph, lead := [(0, lead)] }
def barSt (b : TeamBar) (t : Thread := slimTh) : State := { st [(1, 31), (2, 1), (3, 0), (4, 64)] t with clusters := [(41, { bars := [(31, b)] })] }

theorem witness_TeamBarriersCollectTheirMembers :
    clusterOf sc = 41 ∧ localIndex sc = 0 ∧
    (Issues (barSt {}) (smallKind [1, 4, 3]) hd slimTh ∧ barOperands 31 64 0 = true ∧ (begun (barSt {}) hd).maskIn 41 (2 ^ 0) 7 = true ∧
      (begun (barSt {}) hd).maskIn 41 ((begun (barSt {}) hd).bar 41 31).members 7 = true) ∧
    (Issues (barSt (bar 2 0)) (smallKind [1]) hd slimTh ∧ (31 : Nat) < 32 ∧ (bar 2 0).configured = true ∧
      (bar 2 0).members.testBit (localIndex sc) = true ∧ (bar 2 0).leadOf 0 < 3 ∧ ¬ (bar 3 0).leadOf 0 < 3) ∧
    Issues (barSt (bar 3 0)) (smallKind [1]) hd slimTh ∧
    (let t := { slimTh with lastArr := some (31, 4) }
     Issues (barSt (bar 1 4) t) (smallKind [1]) hd t ∧ (bar 1 4).phase ≤ 4 ∧ 4 < (bar 1 5).phase ∧ Issues (barSt (bar 1 5) t) (smallKind [1]) hd t) ∧
    ((barSt { bar 1 4 with due := [100] }).bar 41 31).due = [(barSt {}).cyc] ∧ ((barSt { bar 1 5 with backs := [100] }).bar 41 31).backs = [(barSt {}).cyc] :=
  ⟨by decide +kernel, by decide +kernel, ⟨issues_of (by decide +kernel), by decide +kernel⟩, ⟨issues_of (by decide +kernel), by decide +kernel⟩,
   issues_of (by decide +kernel), ⟨issues_of (by decide +kernel), by decide +kernel, by decide +kernel, issues_of (by decide +kernel)⟩, by decide +kernel⟩

theorem test_team_barriers : (
    nextIs (exec (.barCfg 1 4 3) (barSt {})) (fun s => let b := s.bar 41 31; b.members == 1 && b.count == 64 && b.phase == 0) &&
    nextIs (exec (.barArr {} 1) (barSt (bar 0 0))) (fun s => (s.bar 41 31).phase == 1 && (s.bar 41 31).leadOf 0 == 0) &&
    nextIs (exec (.barArr {} 1) (barSt (bar 3 0))) (fun s => (s.thread sc 0).any fun t => t.status != .ready) &&
    nextIs (exec (.barWait {} 1) (barSt (bar 1 4) { slimTh with lastArr := some (31, 4) })) (fun s => (s.thread sc 0).any fun t => t.status != .ready) &&
    pcIs (exec (.barWait {} 1) (barSt (bar 1 5) { slimTh with lastArr := some (31, 4) })) 0x0200000000001002 &&
    nextIs (exec (.teamBarrierCompletion 41 31) (barSt { bar 1 4 with due := [100] })) (fun s =>
      (s.bar 41 31).phase == 5 && (s.bar 41 31).leadOf 0 == 0 && s.agenda.any fun d => d.time == 110 && d.ev == .barWaitReturn 41 31) &&
    nextIs (exec (.barWaitReturn 41 31) (barSt { bar 0 5 with freed := 4, backs := [100] } { slimTh with status := .parked .barrier (.phase 31 4 0x0200000000001002) }))
      (fun s => (s.thread sc 0).any fun t => t.status == .ready && t.pc == 0x0200000000001002)) = true := by decide +kernel

/-! ### Tasks and views (R272 to R278) -/

/-- A region of core 0x404 alone, and a continuation of it, pushed by the thread at hand. -/
def reg1 : Region := { chain := [0x0200000000005000], budgets := [(0, 0, 0, 0)], places := [(vaultAddr sc 0x5000, 9)], cores := BitVec.ofNat 64 sc }
def cont1 : Cont :=
  { pc := 0x0200000000006000, reg := 3, word := 55, win := 0x200, vec := 0, fmt := 0, sa := 0, sb := 0, band := 0, rcb := 0, asid := 0, part := 0,
    region := {}, strand := none, frames := [], child := false, waits := [], pusher := me, inlined := none }
def child : Thread := { slimTh with child := true }
def caddy (l : List Cont) (t : Thread := child) : State := { st [(1, 0x0200000000003000), (2, 0x0200000000003001), (3, 77)] t with cores := [(sc, { core [(1, 0x0200000000003000), (2, 0x0200000000003001), (3, 77)] t with caddy := l })] }

/-- A task with a frame of its own. -/
def framed : Thread := { slimTh with frames := [1], strand := some (1, 0) }
def fr : TFrame := { ctx := 7, region := {}, slots := [{ slot := 5, base := 0x0400000010107000, ext := 8, merge := { elem := 3, op := .iadd, rm := 0, q := 0 } }] }
def frs (regs : Map Word) : State := { st regs framed with frames := [(1, fr)] }

theorem witness_SpawnedTasksBlendAndJoin :
    (Issues (caddy []) (smallKind [3, 1]) hd child ∧ (regOf (caddy []) hd child 2).getLsbD 0 = true ∧ (regOf (caddy []) hd child 1).getLsbD 0 = false ∧
      (begun (caddy []) hd).regionCancelled sc child.region = false ∧ child.ended = false ∧ child.frames = [] ∧ child.strand = none ∧
      (winBanks child.win).any (fun b => ((caddy []).core sc).retain.contains b) = false ∧
      ((((caddy []).core sc).caddy.filter fun e => e.written || e.pusher != (cxOf hd child).tid (begun (caddy []) hd)).filter
        fun e => e.inlined.isNone).length < 64) ∧
    (let t := { child with region := reg1 }
     let s := { caddy [] t with cancels := [(7, 0x0200000000005000, sc, 0)], mem := ({} : Memory).write 9 (vaultAddr sc 0x5010) 1 false }
     Issues s (smallKind [3, 1]) hd t ∧ (begun s hd).regionCancelled sc t.region = true) ∧
    (Issues (frs [(1, 0x0200000000003000)]) (smallKind [3, 1]) hd framed ∧ framed.own = some 1 ∧ framed.strand = some (1, 0)) ∧
    (Issues (caddy []) { big := false } hd child ∧ child.child = true ∧ (begun (caddy []) hd).accessesDone ((cxOf hd child).tid (begun (caddy []) hd)) child = true ∧
      ((caddy []).core sc).lastPushed ((cxOf hd child).tid (begun (caddy []) hd)) = none ∧ ((caddy []).core sc).doors = [] ∧
      child.deferred.find? (dueAt (lateKind .ends)) = none ∧
      ((caddy [cont1]).core sc).lastPushed ((cxOf hd child).tid (begun (caddy [cont1]) hd)) = some cont1 ∧ cont1.inlined = none ∧
      (begun (caddy [cont1]) hd).regionCancelled sc cont1.region = false) ∧ Issues (caddy [cont1]) { big := false } hd child ∧
    (child.own = none ∧ (begun (frs []) hd).spawnedIn framed.own = false) :=
  ⟨⟨issues_of (by decide +kernel), by decide +kernel⟩, ⟨issues_of (by decide +kernel), by decide +kernel⟩,
   ⟨issues_of (by decide +kernel), by decide +kernel⟩, ⟨issues_of (by decide +kernel), by decide +kernel⟩, issues_of (by decide +kernel), by decide +kernel⟩

theorem test_tasks : (
    nextIs (exec (.spawn 3 1) (caddy [])) (fun s => (s.thread sc 0).any (fun t => t.pc == 0x0200000000003000 && t.child) &&
      (s.core sc).caddy.any fun e => e.reg == 3 && e.word == 77 && e.pc == 0x0200000000001002) &&
    nextIs (exec .blend (caddy [])) (fun s => (s.thread sc 0).isNone) &&
    nextIs (exec .blend (caddy [cont1])) (fun s => (s.thread sc 0).any (fun t => t.pc == 0x0200000000006000 && !t.child) &&
      (s.core sc).regW slimTh 3 == 55 && (s.core sc).regW slimTh 1 == 0 && (s.core sc).caddy == []) &&
    pcIs (exec .join (caddy [])) 0x0200000000001002) = true := by decide +kernel

theorem witness_ViewSlotsStealsAndCancelNotices :
    (let s := frs [(1, 0x332), (2, 0x0200000000008000), (3, 1048576), (4, 8)]
     Issues s (smallKind [1, 2, 4]) hd framed ∧ viewOp ((0x332 : Word).extractLsb' 4 3).toNat = .vmin ∧ viewOk .vmin 3 = true ∧
      (0x332 : Word).extractLsb' 10 54 = 0 ∧ (0x332 : Word).getLsbD 7 = false ∧ (0x332 : Word).getLsbD 3 = false ∧ 8 ≤ (8 : Nat) ∧ (1048576 : Nat) ≤ 2 ^ 20 ∧
      spaceOf 0x0200000000008000 < 3 ∧ effective 0x0200000000008000 0 = .ok 0x0200000000008000 ∧ effective 0x0200000000008000 (8 - 8) = .ok 0x0200000000008000 ∧
      framed.own = some 1 ∧ s.frames.find 1 = some fr ∧ fr.spawned = false ∧ fr.slots.any (fun v => v.slot == 2) = false ∧
      ((begun s hd).visible 1 9).any (fun v => rangeMeets v.2.base v.2.ext (absolute sc 0x0200000000008000) 8) = false) ∧
    (let s := frs [(1, 8), (2, 7)]
     Issues s (smallKind [1]) hd framed ∧ Issues s (smallKind [2]) hd framed ∧ 7 < (regOf s hd framed 1).toNat ∧ (regOf s hd framed 2).toNat ≤ 7) ∧
    ((caddy []).regionsOf sc = [] ∧ (caddy [{ cont1 with region := reg1 }]).regionsOf sc ≠ []) ∧
    (let t := { slimTh with region := reg1 }
     (st [] t).thread sc 0 = some t ∧ t.region.chain.contains 0x0200000000005000 = true ∧ t.ended = false ∧ (st [] t).inMatrix sc t = false ∧ ((st [] t).core sc).doors = [] ∧
      (st [] t).quiet t = true) :=
  ⟨⟨issues_of (by decide +kernel), by decide +kernel⟩, ⟨issues_of (by decide +kernel), issues_of (by decide +kernel), by decide +kernel⟩,
   by decide +kernel, by decide +kernel⟩

theorem test_views : (
    nextIs (exec (.vdecl 1 2 4) (frs [(1, 0x332), (2, 0x0200000000008000), (4, 8)])) (fun s => (s.frames.find 1).any fun f =>
      f.slots.length == 2 && f.slots.any fun v => v.slot == 2 && v.ext == 8 && v.merge.op == .vmin && v.merge.elem == 3) &&
    nextIs (exec (.vdrop 1) (frs [(1, 5)])) (fun s => (s.frames.find 1).all fun f => f.slots == []) &&
    nextIs (exec (.stealProbe sc) (caddy [])) (fun s => s.agenda == []) &&
    nextIs (exec (.stealProbe sc) (caddy [{ cont1 with region := reg1 }])) (fun s => s.agenda.any fun d => d.time == 132 && d.ev == .stealProbe sc) &&
    nextIs (exec (.cancelNotice sc 0x0200000000005000) (caddy [{ cont1 with region := reg1 }] { slimTh with region := reg1 }))
      (fun s => (s.thread sc 0).isNone && (s.core sc).caddy == [])) = true := by decide +kernel

/-! ### Launching (R65 to R68, R270, R271, R285) -/

/-- A packet of one thread for core 0x404. -/
def pk : Packet :=
  { id := 1, ptr := 0x0200000000002000, ws := [0x0200000000005000, 0x0200000000003000, BitVec.ofNat 64 sc, 0, 0x200, 0, 1, 2, 3, 11, 12, 13, 14, 15, 16, 0],
    ctx := 7, part := 0, region := {}, todo := [sc] }
def pks : State := { at' th with cores := [(sc, { owner := ownerWord false false 2 7 })], dies := [(0, { queues := [(0, [pk])] })] }

theorem witness_PacketsAreLaunchedAndDispatched :
    (Issues ptrs (plainKind [3, 1]) hd th ∧ Issues ptrs (plainKind [3, 2]) hd th ∧ (begun ptrs hd).vecMemory ((cxOf hd th).tid (begun ptrs hd)) false = false ∧
      (regOf ptrs hd th 2).toNat % 128 ≠ 0 ∧ (regOf ptrs hd th 1).toNat % 128 = 0 ∧ effective 0x0200000000002000 0 = .ok 0x0200000000002000 ∧
      (effective 0x0200000000002000 127).isOk = true ∧ (regOf ptrs hd th 1).toNat % 256 = 0 ∧
      effective 0x0200000000002000 16 = .ok 0x0200000000002010) ∧
    Admits ptrs hd th 0x0200000000002000 { op := .block 16, use := .stage stPacket, align := 128, bytes := 128, args := [3], why := .launch } ∧
    Admits ptrs hd th 0x0200000000002010 { op := .cancel, use := .reg 3, align := 8, bytes := 8, redir := .forbidden, args := [0x0200000000002000] } ∧
    (pks.findPacket 1 = some (0, 0, [], pk) ∧ pk.todo.contains sc = true ∧ pks.regionCancelled sc pk.region = false ∧ pks.placeable sc 0 = true ∧
      pks.awaits sc [] = false ∧ pks.ctxOf sc = pk.ctx ∧ (rectOf (wordOf pk.ws 2)).isSome = true ∧ (pks.freeSlots sc 0).take 1 = [0] ∧
      ([] : List Packet).any (fun q => q.todo.contains sc) = false ∧ pks.fits sc pk.region 1 = true ∧ (pks.placeTeam sc pk 0 1 [0]).isSome = true) :=
  ⟨⟨issues_of (by decide +kernel), issues_of (by decide +kernel), by decide +kernel⟩, admits_of (by decide +kernel), admits_of (by decide +kernel),
   by decide +kernel⟩

/-- R68: w1 holds the thread's number, w2 the team's size, w3 to w8 the packet's words and w9 its pointer. -/
theorem test_launch : (
    regIs (exec (.launch 3 2) ptrs) 3 (-1) && nextIs (exec (.launch 3 1) ptrs) (fun s => (s.reqs.find 1).any fun r => r.op == .block 16) &&
    nextIs (exec (.cancel 3 1) ptrs) (fun s => (s.reqs.find 1).any fun r => r.op == .cancel && r.ptr == 0x0200000000002010) &&
    nextIs (exec (.dispatch 1 sc) pks) (fun s => (s.thread sc 0).any (fun t => t.pc == 0x0200000000003000 && t.rcb == 0x0200000000005000 && t.sa == 1) &&
      (s.core sc).regW { th with win := 0x200 } 2 == 1 && (s.core sc).regW { th with win := 0x200 } 3 == 11 &&
      (s.core sc).regW { th with win := 0x200 } 9 == 0x0200000000002000)) = true := by decide +kernel

/-- A store of a word to one of the I/O die's tables. -/
def store (v : Word) (pa : Nat) : Req := { core := 0, ctx := 2, op := .store v, use := .done, ptr := 0, pa := pa, lat := 200 }
def table (v : Word) (pa : Nat) : State :=
  let s := at' th
  { s with reqs := [(1, store v pa)], io := { s.io with asids := [(8 * 3, 0x8000000000010007)], asidDrops := 4 }, dies := [(0, { table := [(8 * 255 + 1, 50)] })],
           links := { s.links with rings := [(63, { ws := [(3, 0)] })] } }

theorem witness_TablesAreEvaluatedAndStored :
    (let s := table 9 0
     ((s.die 0).armedEntries.foldl (fun s n => s.evaluate 0 n) s |>.die 0).armedEntries = []) ∧
    (let s := { at' th with dies := [(0, { table := [(8 * 255 + 1, 1000000), (8 * 255 + 2, 0x800000064)] })] }
     ((s.die 0).armedEntries.foldl (fun s n => s.evaluate 0 n) s |>.die 0).armedEntries = [255] ∧ s.ptp < ((s.die 0).entry 255 1).toNat) ∧
    [0x300001103FC8, 0x3000000000C8, 0x3000000000C0, 0x300001400000, 0x300001600000, 0x3000013007F8, 0x300001200FC0].all (fun pa =>
      (table 9 pa).reqs.find 1 == some (store 9 pa)) = true ∧
    (tableSlot 0x300001103FC8 = .launch 0 255 1 ∧ ((table 9 0).die 0).armed 255 = false) ∧
    (tableSlot 0x3000000000C8 = .desc 3 1 ∧ ((table 9 0).desc 3 0).getLsbD 63 = true ∧ (table 9 0).asidKern 3 = (table 9 0).kernOf 2) ∧
    tableSlot 0x3000000000C0 = .desc 3 0 ∧ tableSlot 0x300001400000 = .coreDrops (countedCore 0) ∧
    (tableSlot 0x300001600000 = .kernFixed 1 ∧ ((table 9 0).io.kernels.find 1).isSome = true) ∧ tableSlot 0x3000013007F8 = .aperture 255 ∧
    (tableSlot 0x300001200FC0 = .ring 63 0 ∧ ((table 9 0).ring 63).state = 0) := by decide +kernel

theorem test_tables : (
    nextIs (exec (.launchTableEvaluation 0) { at' th with dies := [(0, { table := [(8 * 255 + 1, 1000000), (8 * 255 + 2, 0x800000064)] })] })
      (fun s => s.agenda.any fun d => d.time == 228) &&
    nextIs (exec (.launchTableStore 1) (table 9 0x300001103FC8)) (fun s => (s.die 0).entry 255 1 == 9) &&
    nextIs (exec (.asidDescriptorStore 1) (table 9 0x3000000000C8)) (fun s => s.desc 3 1 == 9) &&
    nextIs (exec (.asidDescriptorStore 1) (table 9 0x3000000000C0)) (fun s => s.desc 3 0 == 0x8000000000010007 && s.io.asidDrops == 5) &&
    nextIs (exec (.controlCounterStore 1) { table 0 0x300001400000 with cores := [(0, { owner := 0, drops := 6 })] }) (fun s => (s.core 0).drops == 0) &&
    nextIs (exec (.controlWindowWrite 1) (table 0 0x300001600000)) (fun s => (s.reqs.find 1).any fun r => r.stage == .served) &&
    nextIs (exec (.apertureStore 1) (table 0x8000000000200000 0x3000013007F8)) (fun s => s.links.apertures.find 255 == some 0x8000000000200000) &&
    nextIs (exec (.apertureStore 1) (table 0x8000000000000001 0x3000013007F8)) (fun s => s.links.apertures == []) &&
    nextIs (exec (.ringControlStore 1) (table 9 0x300001200FC0)) (fun s => (s.ring 63).word 0 == 9)) = true := by decide +kernel

/-! ### Copy engines (R155 to R174) -/

/-- A CPY of 16 bytes from 0x2000 to 0x3000 of the own vault, with transaction barrier 63: its operands and its command. -/
def cpSt : State := st [(1, 0x0200000000003000), (2, 0x0200000000002000), (3, 0x7F00010), (4, 0x7F00000), (5, 0x1F)]
def cq : CopyCmd :=
  { id := 1, kind := .cpy, tid := me, core := sc, ctx := 7, part := 0, asid := 0, epc := 0x0200000000000F00, npc := 0x0200000000000F02, dreg := 3, dst := 0x0200000000003000,
    src := 0x0200000000002000, parts := 2, esize := 8, tb := some 63, beats := 1, strand := none }
def eng (e : CopyEngine) (t : Thread := th) : State := { cpSt with cores := [(sc, { core ((cpSt.core sc).regs) t with copy := e })] }

theorem witness_CopiesJoinTheirQueue :
    (Issues cpSt (smallKind [3, 1, 2]) hd th ∧ th.restart = none ∧ descBar (regOf cpSt hd th 3) = some (some 63) ∧
      ((regOf cpSt hd th 3).extractLsb' 0 20).toNat = 16 ∧ sideRange 0x0200000000002000 0 15 = none ∧ sideRange 0x0200000000003000 0 15 = none ∧
      (begun cpSt hd).sideSpace sc 0 0x0200000000002000 0 15 = none ∧ (begun cpSt hd).sideSpace sc 0 0x0200000000003000 0 15 = none ∧
      (cpSt.core sc).copy.queue.length < 2 ∧ (cpSt.core sc).copy.wants = [] ∧ (cpSt.core sc).copy.flight.length < 16 ∧
      (0x0200000000003000 : Word).toNat % 8 = 0) ∧
    (Issues (eng { queue := [cq, cq] }) (smallKind [3, 1, 2]) hd th ∧ 2 ≤ ((eng { queue := [cq, cq] }).core sc).copy.queue.length) ∧
    (Issues cpSt (smallKind [4, 1, 2]) hd th ∧ descBar (regOf cpSt hd th 4) = some (some 63) ∧ (regOf cpSt hd th 4).extractLsb' 0 20 = 0 ∧
      (spanFrom (fun x : Nat × Int × Int => x.2.1) (dimsOf [] []) 0).getD (0, 0) = (0, 0) ∧ 2 ^ fieldOf [] 0 4 2 = 1 ∧ sideRange 0x0200000000002000 0 0 = none ∧
      sideRange 0x0200000000003000 0 0 = none ∧ (begun cpSt hd).sideSpace sc 0 0x0200000000002000 0 0 = none ∧
      (begun cpSt hd).sideSpace sc 0 0x0200000000003000 0 0 = none ∧ (cpSt.core sc).copy.cfg = [] ∧ (cpSt.core sc).copy.lc = []) ∧
    (let s := eng { queue := [cq, cq] }
     Issues s (smallKind [4, 1, 2]) hd th ∧ 2 ≤ (s.core sc).copy.queue.length ∧ (s.core sc).copy.cfg = [] ∧ (s.core sc).copy.lc = [] ∧
      (begun s hd).sideSpace sc 0 0x0200000000002000 0 0 = none ∧ (begun s hd).sideSpace sc 0 0x0200000000003000 0 0 = none) :=
  ⟨⟨issues_of (by decide +kernel), by decide +kernel⟩, ⟨issues_of (by decide +kernel), by decide +kernel⟩, ⟨issues_of (by decide +kernel), by decide +kernel⟩,
   issues_of (by decide +kernel), by decide +kernel⟩

/-- The promise of R158: reads from cycle 101 on, L to either bank, and one beat. -/
theorem test_copies : (
    nextIs (exec (.cpy {} 3 1 2) cpSt) (fun s => (s.core sc).copy.queue.length == 1 && (s.core sc).regW th 3 == BitVec.ofNat 64
      (101 + 2 * (begun cpSt hd).placeLatency sc 0 0x0200000000002000 + 1)) &&
    nextIs (exec (.cpy {} 3 1 2) (eng { queue := [cq, cq] })) (fun s => (s.core sc).copy.wants.length == 1) &&
    nextIs (exec (.tcpy {} 4 1 2) cpSt) (fun s => (s.core sc).copy.queue.any fun q => q.kind == .tcpy && q.parts == 1 && q.esize == 1) &&
    nextIs (exec (.tcpy {} 4 1 2) (eng { queue := [cq, cq] })) (fun s => ((s.core sc).copy.wants.any fun q => q.kind == .tcpy && q.esize == 1) &&
      (s.core sc).regW th 4 == 0x7F00000)) = true := by decide +kernel

theorem witness_SequencersAreSetAndQueried :
    Issues cpSt (smallKind [3]) hd th ∧ ((0x47 : Imm).toNat < 2 ^ 9 ∧ (0x47 : Imm).getLsbD 3 = false ∧ (0x47 : Imm).getLsbD 6 = true ∧
      ((0x47 : Imm).getLsbD 7 = true ∨ (0x47 : Imm).extractLsb' 4 2 = 0)) ∧
    Issues cpSt (smallKind [3, 6]) hd th ∧ (regOf cpSt hd th 6).toNat = 0 ∧ 2 < (regOf cpSt hd th 5).toNat ∧
    (Issues cpSt (reporting []) hd th ∧ (begun cpSt hd).commandsOf (cpSt.tidAt sc 0) = false) ∧
    (Issues (eng { flight := [cq] }) (reporting []) hd th ∧ (begun (eng { flight := [cq] }) hd).commandsOf me = true ∧ me = (eng { flight := [cq] }).tidAt sc 0) :=
  ⟨issues_of (by decide +kernel), by decide +kernel, issues_of (by decide +kernel), by decide +kernel, by decide +kernel,
   ⟨issues_of (by decide +kernel), by decide +kernel⟩, issues_of (by decide +kernel), by decide +kernel⟩

theorem test_sequencers : (
    nextIs (exec (.lcwC 7 5) cpSt) (fun s => (s.core sc).copy.lc.find 7 == some 0x1F) && nextIs (exec (.lcwV 0 5) cpSt) (fun s => (s.core sc).vector.lc.find 0 == some 0x1F) &&
    nextIs (exec (.lcwM 3 5) cpSt) (fun s => (s.core sc).matrix.lc.find 3 == some 0x1F) && regIs (exec (.lcrC 3 7) (eng { lc := [(7, 21)] })) 3 21 &&
    regIs (exec (.lcrV 3 7) cpSt) 3 0 && regIs (exec (.lcrM 3 7) cpSt) 3 0 &&
    nextIs (exec (.fmtset 3 0x1D7) (st [] { th with fmt := 0x10300 })) (fun s => (s.core sc).regW th 3 == 0x10300 && (s.thread sc 0).any fun t => t.fmt == 0x317) &&
    regIs (exec (.eqry 3 6) (eng { queue := [cq], flight := [{ cq with stalled := true }] })) 3 133 && regIs (exec (.eqry 3 5) cpSt) 3 (-1) &&
    pcIs (exec .efence cpSt) 0x0200000000001002 && pcIs (exec .efence (eng { flight := [cq] })) 0x0200000000001000) = true := by decide +kernel

/-- A transaction barrier 63 with 16 bytes expected. -/
def tbs (b : TBar) : State := { cpSt with cores := [(sc, { core [(1, 63), (2, 16), (3, 1), (4, 64), (5, 0x7FFFFFFFF), (7, 0x800000000)] with tbars := [(63, b)] })] }

theorem witness_TransactionBarriersCountBytes :
    (Issues (tbs {}) (smallKind [1]) hd th ∧ Issues (tbs {}) (smallKind [1, 5]) hd th ∧ (regOf (tbs {}) hd th 1).toNat < 64 ∧
      (regOf (tbs {}) hd th 5).toNat < 2 ^ 35 ∧ (((tbs {}).core sc).tbar 63).init = false) ∧
    (Issues (tbs { p := true }) (reporting [1, 3]) hd th ∧ (((tbs { p := true }).core sc).tbar 63).p = (regOf (tbs { p := true }) hd th 3).getLsbD 0) ∧
    (Issues (tbs {}) (reporting [1, 3]) hd th ∧ (((tbs {}).core sc).tbar 63).p ≠ (regOf (tbs {}) hd th 3).getLsbD 0) ∧
    (Issues (tbs { init := true }) (smallKind [1, 5]) hd th ∧ (((tbs { init := true }).core sc).tbar 63).init = true) ∧
    (Issues (tbs {}) (smallKind [1, 7]) hd th ∧ 2 ^ 35 ≤ (regOf (tbs {}) hd th 7).toNat) ∧
    Issues (tbs {}) (smallKind [6, 1]) hd th ∧ (Issues (tbs {}) (smallKind [4]) hd th ∧ 63 < (regOf (tbs {}) hd th 4).toNat) ∧
    Issues (tbs {}) (smallKind [4, 2]) hd th ∧ Issues (tbs {}) (reporting [4, 3]) hd th ∧ Issues (tbs {}) (smallKind [6, 4]) hd th :=
  ⟨⟨issues_of (by decide +kernel), issues_of (by decide +kernel), by decide +kernel⟩, ⟨issues_of (by decide +kernel), by decide +kernel⟩,
   ⟨issues_of (by decide +kernel), by decide +kernel⟩, ⟨issues_of (by decide +kernel), by decide +kernel⟩, ⟨issues_of (by decide +kernel), by decide +kernel⟩,
   issues_of (by decide +kernel), ⟨issues_of (by decide +kernel), by decide +kernel⟩, issues_of (by decide +kernel), issues_of (by decide +kernel), issues_of (by decide +kernel)⟩

theorem test_transaction_barriers : (
    nextIs (exec (.tbInit 1) (tbs { p := true, c := 5 })) (fun s => (s.core sc).tbar 63 == { init := true }) &&
    nextIs (exec (.tbExp 1 2) (tbs {})) (fun s => (s.core sc).tbar 63 == { c := 16, posted := true }) &&
    nextIs (exec (.tbArr {} 1 2) (tbs { c := 16, posted := true })) (fun s => (s.core sc).tbar 63 == { c := 0, posted := true }) &&
    pcIs (exec (.tbWait {} 1 3) (tbs {})) 0x0200000000001002 && nextIs (exec (.tbWait {} 1 3) (tbs { p := true })) (fun s => (s.thread sc 0).any fun t => t.status != .ready) &&
    regIs (exec (.tbPhase 6 1) (tbs { c := -2, posted := true, p := true })) 6 (-5) &&
    [Instr.tbExp 1 7, .tbArr {} 1 7, .tbInit 4, .tbExp 4 2, .tbArr {} 4 2, .tbWait {} 4 3, .tbPhase 6 4].all (fun i =>
      nextIs (exec i (tbs {})) fun s => (s.thread sc 0).any fun t => match t.status with | .parked .fault (.fault _ c i _ _ _) => c == 9 && i == 9 | _ => false)) = true := by decide +kernel

theorem witness_CopyCommandsRunToTheirEnd :
    (let s := eng { queue := [cq] }
     (s.core sc).copy.queue = [cq] ∧ (s.core sc).copy.flight = [] ∧ (s.core sc).copy.wants = [] ∧ cq.effect < s.cyc ∧ (s.core sc).copy.busy ≤ s.cyc ∧ cq.base < cq.parts) ∧
    ({ cq with base := 2 }.parts ≤ { cq with base := 2 }.base) ∧
    (let q := { cq with acked := [0, 1] }
     let s := eng { flight := [q] }
     s.copyCmd sc 1 = some q ∧ q.tb = some 63 ∧ q.met = none ∧ q.acked.length = q.parts - q.base ∧ ((s.core sc).tbar 63).init = false ∧ q.stalled = false ∧ s.reqs = []) ∧
    (let r : Req := { core := sc, ctx := 7, op := .load 8 false, use := .copy 1 0 false, ptr := 0, stage := .stalled, event := some (0x12, 5) }
     let s := { eng { flight := [cq] } with reqs := [(4, r)] }
     (s.core sc).copy.flight = [cq] ∧ cq.id = 1 ∧ cq.met = none ∧ cq.stalled = false ∧ cq.acked = [] ∧ cq.base ≤ cq.sent ∧ cq.tail = [] ∧ s.reqs = [(4, r)] ∧ r.use = .copy 1 cq.base false ∧
      r.event = some (0x12, 5) ∧ isKernelEvent 0x12 = true) := by decide +kernel

theorem test_copy_steps : (
    nextIs (exec (.copyCommandStart sc) (eng { queue := [{ cq with base := 2 }] })) (fun s => (s.core sc).copy.queue == [] && s.agenda.any fun d => d.ev == .engineCommandComplete sc 1) &&
    nextIs (exec (.engineWriteAck sc 1 16) (eng { flight := [{ cq with acked := [0, 1] }] })) (fun s => ((s.core sc).tbar 63).c == -16) &&
    nextIs (exec (.engineCommandComplete sc 1) (eng { flight := [{ cq with acked := [0, 1] }] })) (fun s => (s.core sc).copy.flight == []) &&
    nextIs (exec (.engineFaultInFlight sc 1 0x12 5) { eng { flight := [cq] } with
        reqs := [(4, { core := sc, ctx := 7, op := .load 8 false, use := .copy 1 0 false, ptr := 0, stage := .stalled, event := some (0x12, 5) })] })
      (fun s => (s.io.recs.find 1).any fun r => r.source == 2 && r.code == 0x12 && r.info == 5 && r.epc == cq.epc)) = true := by decide +kernel

/-- A thread in WAITP until cycle 100, and one that waits for its gather. -/
def waiter : Thread := { th with status := .parked .sleep (.promise 0x0200000000002000 0x0200000000001002 none), wakeAt := some 100 }
def gath : CopyCmd := { cq with kind := .gath, effect := 100 }

theorem witness_PromisesAreAwaitedAndGathersAsked :
    (Issues (st [(1, 100), (2, 0x0200000000002000)]) (reporting [1, 2]) hd th ∧ (100 : Nat) ≤ (st []).cyc ∧
      Admits (st [(1, 100), (2, 0x0200000000002000)]) hd th 0x0200000000002000 { op := .probe, use := .stage stProbe, align := 8, redir := .follows, args := [0x0200000000002000] }) ∧
    (Issues (st [(1, 101), (2, 0x0200000000002000)]) (reporting [1, 2]) hd th ∧ (st []).cyc < 101) ∧
    (let s := at' waiter
     let x : Cx := { core := sc, slot := 0, th := waiter, pc := th.pc, npc := 0x0200000000001002, base := 0 }
     s.threadOf me = some waiter ∧ waiter.wakeAt = some s.cyc ∧ effective 0x0200000000002000 0 = .ok 0x0200000000002000 ∧
      x.dueOn s 0x0200000000002000 { op := .probe, use := .stage stProbe, align := 8, args := [0x0200000000002000] } = none ∧ lastByte 0x0200000000002000 8 = none ∧
      offsetOf 0x0200000000002000 % 8 = 0 ∧ s.spaceEvent sc 0 0x0200000000002000 = none ∧ x.roams s 0x0200000000002000 = none ∧
      s.heldBack (x.tid s) false = false) ∧
    (at' waiter).redirect sc none .follows 0x0200000000002000 8 = (.same, at' waiter) ∧
    (let s := st [(1, 0x0200000000004000), (2, 0x0200000000005000), (3, 4096)]
     Issues s (smallKind [3, 1, 2]) hd th ∧ descBar (regOf s hd th 3) = some none ∧ 0 < ((regOf s hd th 3).extractLsb' 0 20).toNat ∧
      ((regOf s hd th 3).extractLsb' 0 20).toNat ≤ 4096 ∧ ownVault sc 0x0200000000004000 = true ∧ sideRange 0x0200000000004000 0 (8 * 4096 - 1) = none ∧
      (begun s hd).sideSpace sc 0 0x0200000000004000 0 (8 * 4096 - 1) = none) ∧
    (let t := { th with status := .parked .queue (.queue 1) }
     let s := { at' t with clusters := [(41, { wants := [gath] })] }
     ((s.clusters.find 41).getD {}).wants = [gath] ∧ s.stillWaits gath = true ∧ ((s.clusters.find 41).getD {}).gather.length < 8 ∧ gath.effect ≤ s.cyc) :=
  ⟨⟨issues_of (by decide +kernel), by decide +kernel, admits_of (by decide +kernel)⟩, ⟨issues_of (by decide +kernel), by decide +kernel⟩, by decide +kernel, rfl,
   ⟨issues_of (by decide +kernel), by decide +kernel⟩, by decide +kernel⟩

theorem test_promises_and_gathers : (
    nextIs (exec (.waitp {} 1 2) (st [(1, 100), (2, 0x0200000000002000)])) (fun s => (s.reqs.find 1).any fun r => r.op == .probe) &&
    nextIs (exec (.waitp {} 1 2) (st [(1, 101), (2, 0x0200000000002000)])) (fun s => s.agenda.any fun d => d.time == 101 && d.ev == .waitpTimeReached me) &&
    nextIs (exec (.waitpTimeReached me) (at' waiter)) (fun s => (s.reqs.find 1).any fun r => r.op == .probe) &&
    nextIs (exec (.gath {} 3 1 2) (st [(1, 0x0200000000004000), (2, 0x0200000000005000), (3, 4096)])) (fun s => s.agenda.any fun d => d.time == 112 && d.ev == .gatherRequestAccept 41) &&
    nextIs (exec (.gatherRequestAccept 41) { at' { th with status := .parked .queue (.queue 1) } with clusters := [(41, { wants := [gath] })] })
      (fun s => ((s.clusters.find 41).getD {}).gather.length == 1)) = true := by decide +kernel

/-! ### Blocks and units (R163, R176, R177, R190, R230, R313, R317, R321, R331, R341, R344) -/

/-- W[1] and W[2] point to 0x2000 of the own vault, on a kernel core. -/
def kp : State := kst [(1, 0x0200000000002000), (2, 0x0200000000002000), (4, 5)]

theorem witness_BlocksAreReadFirst :
    (Issues ptrs (smallKind [1]) hd th ∧ effective (regOf ptrs hd th 1) 0 = .ok 0x0200000000002000 ∧ (effective 0x0200000000002000 127).isOk = true ∧
      Admits ptrs hd th 0x0200000000002000 { op := .block 16, use := .stage stCfg, align := 128, bytes := 128, args := [7] } ∧
      Admits ptrs hd th 0x0200000000002000 { op := .block 8, use := .stage stMcfg, align := 64, bytes := 64, args := [7] }) ∧
    (let s := st [(1, 0x7F), (2, 0x0200000000002000)]
     collForm (.collAllreduce {} 3 1 2) = some ({}, 3, 1, 2) ∧ Issues s (smallKind [3, 1, 2]) hd th ∧ (regOf s hd th 1).toNat < 2 ^ 7 ∧ (regOf s hd th 2).toNat % 64 = 0 ∧
      Admits s hd th 0x0200000000002000 { op := .block 8, use := .stage stColl, align := 64, bytes := 64, mod := {}, why := .queue, far := true, args := [3, 0x7F, 0] }) ∧
    (Issues kp (plainKind [3, 1, 2]) { hd with core := 0 } th ∧ isKernelCtx (kp.ctxOf 0) = true ∧ (effective 0x0200000000002000 7423).isOk = true ∧
      drainForm (.drainResume 3 1 2) = some (3, 1, 2) ∧
      Admits kp { hd with core := 0 } th 0x0200000000002000 { op := .block 2, use := .stage stPart, align := 16, bytes := 16, args := [3, 0x0200000000002000, 0x0200000000002000] } ∧
      Admits kp { hd with core := 0 } th 0x0200000000002000 { op := .block 4, use := .stage stDrain, align := 32, bytes := 32, args := [3, 0x0200000000002000, 100] } ∧
      Admits kp { hd with core := 0 } th 0x0200000000002000 { op := .write [] true, use := .stage stBlock, align := 256, bytes := 7424, args := [3, 0, 0x0200000000002000, 0x0200000000002000] } ∧
      Admits kp { hd with core := 0 } th 0x0200000000002000 { op := .block 0, use := .stage stBlock, align := 256, bytes := 7424, args := [3, 1, 0x0200000000002000, 0x0200000000002000] }) :=
  ⟨⟨issues_of (by decide +kernel), by decide +kernel, by decide +kernel, admits_of (by decide +kernel), admits_of (by decide +kernel)⟩,
   ⟨rfl, issues_of (by decide +kernel), by decide +kernel, by decide +kernel, admits_of (by decide +kernel)⟩,
   issues_of (by decide +kernel), by decide +kernel, by decide +kernel, rfl, admits_of (by decide +kernel), admits_of (by decide +kernel),
   admits_of (by decide +kernel), admits_of (by decide +kernel)⟩

theorem test_blocks : (
    (Instr.mcfg 7 1 :: .lcwCfg 7 1 :: []).all (fun i => nextIs (exec i ptrs) fun s => (s.thread sc 0).any fun t => t.status == .parked .mem (.reply 1)) &&
    [Instr.collAllreduce {} 3 4 2, .collBroadcast {} 3 4 2, .collAllgather {} 3 4 2].all (fun i =>
      nextIs (exec i (st [(4, 0x7F), (2, 0x0200000000002000)])) fun s => (s.thread sc 0).any fun t => t.status == .parked .queue (.reply 1)) &&
    [Instr.partset 3 1 2, .drain 3 1 2, .drainResume 3 1 2, .evict 3 1 2, .restore 3 1 2].all fun i =>
      nextIs (exec i kp) fun s => (s.thread 0 0).any fun t => t.status == .parked .mem (.reply 1)) = true := by decide +kernel

theorem witness_UnitsAreAsked :
    (seqForm (.seqmap 3 1 2) = some (uSeqmap, 60, 3, [1, 2]) ∧ Issues kp (plainKind [3, 1, 2]) { hd with core := 0 } th ∧ isKernelCtx (kp.ctxOf 0) = true) ∧
    (seqForm (.seqend 3 1) = some (uSeqend, 0, 3, [1]) ∧ Issues ptrs (plainKind [3, 1]) hd th ∧
      (begun ptrs hd).accessesDone ((cxOf hd th).tid (begun ptrs hd)) th = true) ∧
    (xinvForm (.xinvFrame 3 1 2) = some (3, 1, 2) ∧ ownsetForm (.ownsetAssign 3 1 2) = some (3, 1, 2)) ∧
    (frameForm (.flend 3 1 2) = some (uFlend, true, 3, 1, [2]) ∧ effective (regOf kp { hd with core := 0 } th 1) 0 = .ok 0x0200000000002000 ∧ isLarge 0 = false) ∧
    (let s := st [(1, BitVec.ofNat 64 sc), (2, 1), (4, 0x40000)]
     emsgForm (.emsgGatherQuery {} 3 1 2) = some ({}, 3, 1, 2) ∧ Issues s (smallKind [3, 1, 2]) hd th ∧ (regOf s hd th 1).toNat < 2 ^ 20 ∧
      ((regOf s hd th 1).extractLsb' 18 2).toNat = 0 ∧ isSmall ((regOf s hd th 1).toNat % 2 ^ 18) = true ∧ s.ctxOf sc = s.ctxOf hd.core ∧
      Issues s (smallKind [3, 4, 2]) hd th ∧ ((regOf s hd th 4).extractLsb' 18 2).toNat = 1 ∧ (regOf s hd th 4).toNat % 2 ^ 18 = 0) :=
  ⟨⟨rfl, issues_of (by decide +kernel), by decide +kernel⟩, ⟨rfl, issues_of (by decide +kernel), by decide +kernel⟩, ⟨rfl, rfl⟩,
   ⟨rfl, by decide +kernel, by decide +kernel⟩, rfl, issues_of (by decide +kernel), by decide +kernel, by decide +kernel, by decide +kernel, by decide +kernel,
   issues_of (by decide +kernel), by decide +kernel, by decide +kernel⟩

theorem test_units : (
    [Instr.seqnew 3, .seqmap 3 1 2, .sequnmap 3 1, .seqend 3 1, .seqq 3 1, .xinvPage 3 1 2, .xinvAsid 3 1 2, .xinvRlb 3 1 2, .xinvFrame 3 1 2,
      .fofferOffer 3 1 2, .fofferRelease 3 1 2, .fofferWithdraw 3 1 2, .faccept 3 1, .flend 3 1 2, .frecall 3 1, .freturn 3 1, .fquery 3 1,
      .fstrikeClear 3 1 2, .fstrikeSetLimit 3 1 2, .ownsetCreate 3 1 2, .ownsetDestroy 3 1 2, .ownsetAssign 3 1 2, .ownsetBindkey 3 1 2,
      .ownsetUnbindkey 3 1 2, .ownsetBindasid 3 1 2, .ownsetUnbindasid 3 1 2, .ownsetSetring 3 1 2, .ownsetSetinbox 3 1 2].all (fun i =>
      nextIs (exec i kp) fun s => (s.thread 0 0).any (fun t => t.status == .parked .mem (.reply 1)) && (s.reqs.find 1).any fun r => r.op == .unit) &&
    [Instr.emsgGatherQuery {} 3 1 2, .emsgCollectiveQuery {} 3 4 2, .emsgAbort {} 3 4 2].all fun i =>
      nextIs (exec i (st [(1, BitVec.ofNat 64 sc), (2, 1), (4, 0x40000)])) fun s => (s.reqs.find 1).any fun r => r.op == .unit) = true := by decide +kernel

/-- A request of an EMSG at its engine, and a collective engine with one pending ticket of context 7. -/
def em (va vb : Word) : Req := { core := sc, ctx := 7, op := .unit, use := .stage stEmsg, ptr := 0, lat := 24, args := [3, va, vb] }
def ticket : Ticket := { ctx := 7, part := 0, tid := me, core := sc, ws := [0, 0, 0x0200000000004000, 8, 0, 0, 0x3200000000, 0], tb := none, rm := 0, asid := 0, view := 0 }
def coll (r : Req) (t : Ticket := ticket) : State :=
  { at' th with reqs := [(1, r)], serial := 2, clusters := [(41, { gather := [gath], merged := 6 })],
                links := { tickets := [(9, t)], nextTicket := 10, members := [0, 4], groups := [(0, [7])] } }
def collReq (view : Word) : Req := { core := sc, ctx := 7, op := .unit, use := .stage stCollAck, ptr := 0, lat := 200, args := [3, 0, 0, 0, 0, 0, 0, 0, view, 0, 0] }

theorem witness_SharedEnginesAnswerAndCollectivesEnd :
    (let s := coll (em (BitVec.ofNat 64 sc) 1)
     s.reqs.find 1 = some (em (BitVec.ofNat 64 sc) 1) ∧ ((BitVec.ofNat 64 sc : Word).extractLsb' 18 2).toNat = 0 ∧
      (s.clusters.find (clusterOf ((BitVec.ofNat 64 sc : Word).toNat % 2 ^ 18))).isSome = true) ∧
    (((0x40000 : Word).extractLsb' 18 2).toNat = 1 ∧ (0x902 : Word).toNat % 256 = 2 ∧ (0x902 : Word).toNat / 256 = 9 ∧
      (coll (em 0x40000 0x902)).links.tickets.find 9 = some ticket ∧ ticket.state = 0 ∧ ticket.ctx = (em 0x40000 0x902).ctx ∧
      { ticket with state := 1 }.state ≠ 0) ∧
    (let s := coll (collReq 0)
     s.reqs.find 1 = some (collReq 0) ∧ s.links.tickets.length < 256 ∧ (wordOf ((collReq 0).args.drop 3) 5).toNat = s.links.viewNo ∧
      (wordOf ((collReq 1).args.drop 3) 5).toNat ≠ s.links.viewNo ∧ s.links.members.contains s.sys.image.package = true ∧
      [4].contains s.sys.image.package = false ∧ s.links.permits (fieldOf ((collReq 0).args.drop 3) 4 0 16) (collReq 0).ctx = true ∧
      s.links.permits 1 (collReq 0).ctx = false ∧ s.links.early = [] ∧
      (match (s.wordsAs sc 7 0 0 (wordOf ((collReq 0).args.drop 3) 1) ((wordOf ((collReq 0).args.drop 3) 3).toNat / 8)).1 with | .ok _ => true | _ => false) = true) ∧
    (let s := coll (em 0 0)
     s.links.tickets.has 11 = false ∧ (11 + 2 ^ 32 - s.links.nextTicket) % 2 ^ 32 < 2 ^ 31 ∧ s.links.early.any (fun e => e.1 == 11 && e.2.1 == 1 && e.2.2.2 == ([0, 5] : List Word)) = false) ∧
    (let s := coll (em 0 0)
     s.links.tickets.find 9 = some ticket ∧ 1 < s.links.members.length ∧ ticket.parts.has 1 = false ∧
      (ticket.parts.put 1 [0, 5]).length ≠ s.links.members.length ∧ ticket.state = 0 ∧ 2 ≤ ([0, 5] : List Word).length ∧
      (({ ticket with parts := [(0, [0, 3])] }.parts.put 1 [0, 5]).length = s.links.members.length) ∧ (∃ i < s.links.members.length, ticket.parts.has i = false)) :=
  by refine ⟨?_, ?_, ?_, ?_, ?_, ?_, ?_, ?_, ?_, ?_, ?_, 0, ?_⟩ <;> decide +kernel

theorem test_collectives : (
    nextIs (exec (.bankRequestArrival 1) (coll (em (BitVec.ofNat 64 sc) 1))) (fun s => (s.reqs.find 1).any fun r => r.ans == [BitVec.ofNat 64 (1 + 65536 * 6)]) &&
    nextIs (exec (.bankRequestArrival 1) (coll (em 0x40000 0x902))) (fun s => (s.links.tickets.find 9).any (fun t => t.state == 4) && (s.reqs.find 1).any fun r => r.ans == [0]) &&
    nextIs (exec (.bankRequestArrival 1) (coll (em 0x40000 0x801))) (fun s => (s.reqs.find 1).any fun r => r.ans == [5]) &&
    nextIs (exec (.bankRequestArrival 1) (coll (collReq 1))) (fun s => (s.reqs.find 1).any fun r => r.ans == [-2]) &&
    nextIs (exec (.bankRequestArrival 1) (coll (collReq 0))) (fun s => (s.reqs.find 1).any (fun r => r.ans == [10]) && s.links.nextTicket == 11) &&
    nextIs (exec (.collectiveContribution 9 1 [0, 5]) (coll (em 0 0))) (fun s => s.agenda.any fun d => d.time == 100 + 1600 * 50 && d.ev == .collectiveTimeout 9) &&
    nextIs (exec (.collectiveContribution 9 1 [0, 5]) (coll (em 0 0) { ticket with parts := [(0, [0, 3])], started := some 90 })) (fun s => (s.links.tickets.find 9).any fun t => t.state == 1) &&
    nextIs (exec (.collectiveContribution 9 1 []) (coll (em 0 0))) (fun s => (s.links.tickets.find 9).any fun t => t.state == 2 && t.failed == 1) &&
    nextIs (exec (.collectiveContribution 9 1 [8]) (coll (em 0 0))) (fun s => (s.links.tickets.find 9).any fun t => t.state == 4) &&
    nextIs (exec (.collectiveContribution 11 1 [0, 5]) (coll (em 0 0))) (fun s => s.links.early == [(11, 1, 100, [0, 5])]) &&
    nextIs (exec (.collectiveTimeout 9) (coll (em 0 0) { ticket with parts := [(0, [0, 3])] })) (fun s => (s.links.tickets.find 9).any fun t => t.state == 2 && t.failed == 1) &&
    nextIs (exec (.membershipViewChange [(0, some 5), (4, none)]) (coll (em 0 0))) (fun s => s.links.viewNo == 1 && (s.links.tickets.find 9).any fun t => t.state == 2 || t.state == 3)) = true := by
  decide +kernel

/-! ### Vector engine -/

/-- Operands of vector commands: masks, a line's pointer, and the modulus 17 in vector lc0. -/
def vSt (e : VecEngine := {}) (vregs : Map VReg := []) : State :=
  { st [] with cores := [(sc, { core [(1, 0xFFFFFFFF), (2, 0x0200000000002000), (3, 5)] with vector := e, vregs := vregs })] }
def vq (op : VOp) : VecCmd :=
  { id := 1, tid := me, home := me, ctx := 7, part := 0, asid := 0, epc := th.pc, npc := 0x0200000000001002, op := op, d := 3, a := 1, b := 2, writes := [3],
    scalar := none, args := [], mask := none, rm := 0, modulus := 0, strand := none }
def vMod : VecEngine := { lc := [(0, 17)] }
/-- Registers of small values, the modulus 17, and scalar operands. -/
def vin (ws : List Word) : VIn :=
  { d := 3, ws := ws, act := fun _ => true, all := true, rm := 0, q := 17, a := 0x3F80000040000000, b := 0x4000000000000010 }
def lone : Tid := { me with slot := 9 }

theorem witness_VectorInstructionsJoinAndWriteTheirLanes :
    (∃ v, vectorForm (.vcmpEqM 1 3 1 2) = some v ∧ Issues (vSt) v.kind hd th ∧ v.modular = false) ∧
    (∃ v, vectorForm (.vbflyCt 3 1 2) = some v ∧ Issues (vSt vMod) v.kind hd th ∧ modulusOk ((((vSt vMod).core sc).vector.lc.find 0).getD 0) = true) ∧
    (∃ v, vectorForm (.vadd 6 4 5) = some v ∧ Issues (vSt { queue := [vq .sel, vq .sel] }) v.kind hd th ∧
      2 ≤ ((vSt { queue := [vq .sel, vq .sel] }).core sc).vector.queue.length) ∧
    (lineForm (.vldM {} 1 3 2) = some (true, {}, some 1, 3, 2, 0) ∧
      Issues (vSt) { names := { w := [2, 1], v := [3] }, report := [.vector], big := false } hd th ∧ th.restart = none ∧
      ((List.range 16).filter (activeLane (some (regOf vSt hd th 1)))).head? = some 0 ∧
      ((List.range 16).filter (activeLane (some (regOf vSt hd th 1)))).getLast? = some 15 ∧
      sideRange (regOf vSt hd th 2) 0 63 = none ∧ ((offsetOf (regOf vSt hd th 2) : Int) + 0) % 8 = 0) ∧
    (eachForm (.vsct { relaxed := true } 3 2 1) = some (false, { relaxed := true }, none, 3, 2, 1) ∧
      Issues (vSt) { names := { w := [2], v := [3, 1] }, report := [.vector], big := false } hd th) ∧
    (let s := vSt { queue := [vq (.int .add)] }
     (s.core sc).vector.queue = [vq (.int .add)] ∧ (s.core sc).vector.flight = [] ∧ (s.core sc).vector.wants = [] ∧ (vq (.int .add)).effect < s.cyc ∧
      (vq (.int .add)).started = false ∧ (vq (.int .add)).lanes = 0 ∧
      ((s.core sc).vector.free.find (VOp.int .add).timing.1).getD 0 ≤ s.cyc) ∧
    (let q := { vq (.int .add) with result := [(3, (7 : VReg))] }
     let p := { vq (.cmp .eq false) with scalar := some 8, sresult := 3 }
     ((vSt { flight := [q] }).core sc).vector.flight = [q] ∧ (vSt { flight := [q] }).threadOf me = some th ∧ q.sat = false ∧
      ((vSt { flight := [p] }).core sc).vector.flight = [p] ∧ p.result = [] ∧ p.scalar = some 8 ∧ q.home = me) ∧
    (let q := { vq .bflyCt with result := [(3, (7 : VReg)), (1, 9)] }
     let s := vSt { flight := [q] }
     (s.core sc).vector.flight = [q] ∧ q.result = [(3, 7), (1, 9)] ∧ (3 : Nat) ≠ 1 ∧ q.scalar = none ∧ q.sat = false ∧ s.threadOf q.home = some th) ∧
    (let q := { vq .sel with home := lone }
     ((vSt { flight := [q] }).core sc).vector.flight = [q] ∧ (vSt { flight := [q] }).threadOf q.home = none) ∧
    (let x : VIn := { d := 0, ws := [], act := fun _ => true, all := true, rm := 0, q := 17, a := 5 + 2 ^ 64 * 16, b := 16 + 2 ^ 64 * 16 }
     0 < x.q ∧ x.q < 2 ^ 64 ∧ x.d < 2 ^ 512 ∧ x.a < 2 ^ 512 ∧ x.b < 2 ^ 512 ∧ (x.run .maddm).d.isSome = true ∧ (x.run .msubm).d.isSome = true ∧ (x.run .mmulm).d.isSome = true) ∧
    (modulusOk (BitVec.ofNat 64 (vin [3, 2]).q) = true ∧ (vin [3, 2]).q < 2 ^ 64 ∧ (vin [3, 2]).d < 2 ^ 512 ∧ (vin [3, 2]).a < 2 ^ 512 ∧ (vin [3, 2]).b < 2 ^ 512 ∧
      (vin [3, 2]).ws = 3 :: [2] ∧ ((vin [3, 2]).run .bflyCt).d.isSome ∧ ((vin [3, 2]).run .bflyCt).a.isSome ∧ ((vin [3, 2]).run .bflyGs).d.isSome ∧
      ((vin [3, 2]).run .bflyGs).a.isSome ∧ ((vin [3, 2]).run .twid).d.isSome) ∧
    ([false, true].all fun half => [FOp.add, .sub, .mul, .fma, .min, .max, .abs, .neg].all (fun op => ((vin []).run (.float op half)).d.isSome) &&
      [Red.sum, .max, .min].all fun k => ((vin []).run (.red k half)).d.isSome) = true ∧ bf16.value 0x3F80 ≠ .nan ∧
    [VOp.sel, .shuf, .bcast, .movvAll, .movv 7, .exp2, .rcp, .rsq].all (fun op => ((vin [5]).run op).d.isSome) = true ∧
    (List.range 16).all (fun n => ((vin []).run (.cvt n)).d.isSome) = true ∧
    (fp32.value 0x3F000000 = .fin false 0x800000 (-24) ∧ fp32.value 0x7FC00000 = .nan ∧ fp32.rcp 1 0x3F000000 % 2 ^ 31 < 0x7F7FFFFF ∧
      fp32.value 0xBF000000 = .fin true 0x800000 (-24) ∧ fp32.value 0x40400000 = .fin false 0xC00000 (-22) ∧ scaled false 0xC00000 (-22) (-160) = 3 * 2 ^ 160) :=
  ⟨⟨_, rfl, issues_of (by decide +kernel), rfl⟩, ⟨_, rfl, issues_of (by decide +kernel), by decide +kernel⟩,
   ⟨_, rfl, issues_of (by decide +kernel), by decide +kernel⟩, ⟨rfl, issues_of (by decide +kernel), by decide +kernel⟩,
   ⟨rfl, issues_of (by decide +kernel)⟩, by decide +kernel⟩

/-- R257: 5 + 16 = 4, 5 − 16 = 6 and 5 · 16 = 12 modulo 17. -/
theorem test_vector : (
    let x : VIn := { d := 0, ws := [], act := fun _ => true, all := true, rm := 0, q := 17, a := 5, b := 16 }
    ((x.run .maddm).d.any fun r => r % 2 ^ 64 == 4) && ((x.run .msubm).d.any fun r => r % 2 ^ 64 == 6) && ((x.run .mmulm).d.any fun r => r % 2 ^ 64 == 12) &&
    (((vin [3, 2]).run .twid).d.any fun r => r / 2 ^ 448 == 3 * 2 ^ 7 % 17) && (((vin [3]).run (.movv 7)).d.any fun r => r == 3 * 2 ^ 448 + 3) &&
    (((vin []).run (.float .add false)).d.any fun r => r / 2 ^ 32 % 2 ^ 32 == 0x40400000) && fp32.exp2 0 0x40400000 == 0x41000000 && fp32.rcp 0 0x40000000 == 0x3F000000 &&
    fp32.rsq 0 0x40800000 == 0x3F000000 &&
    nextIs (exec (.vcmpEqM 1 3 1 2) vSt) (fun s => (s.core sc).vector.queue.any fun q => q.scalar == some 3 && q.mask == some 0xFFFFFFFF) &&
    nextIs (exec (.vbflyCt 3 1 2) (vSt { lc := [(0, 16)] })) (fun s => (s.core sc).vector.queue == []) &&
    nextIs (exec (.vadd 6 4 5) (vSt { queue := [vq .sel, vq .sel] })) (fun s => (s.core sc).vector.wants.length == 1) &&
    nextIs (exec (.vldM {} 1 3 2) vSt) (fun s => (s.core sc).vector.queue.any fun q => q.lanes == 16 && q.args == [0x0200000000002000]) &&
    nextIs (exec (.vsct { relaxed := true } 3 2 1) vSt) (fun s => (s.core sc).vector.queue.any fun q => q.lanes == 8 && q.relaxed) &&
    nextIs (exec (.vectorCommandStart sc) (vSt { queue := [vq (.int .sub)] } [(1, 3), (2, 5)])) (fun s =>
      (s.core sc).vector.flight.any fun q => q.result == [(3, (2 ^ 64 - 2 : VReg))]) &&
    nextIs (exec (.vectorResultWrite sc 1) (vSt { flight := [{ vq (.cmp .eq false) with scalar := some 8, sresult := 3 }] })) (fun s =>
      (s.core sc).regs.find 8 == some 3 && (s.core sc).vector.flight == [])) = true := by decide +kernel

/-! ### Matrix engine -/

/-- INT8 operands of k = 8 at 0x2000 and 0x3000 of the vault; W[4] a control word of rows of 32 bytes. -/
def mSt (e : MatEngine) : State :=
  { at' th with cores := [(sc, { core [(1, 0x0200000000002000), (2, 0x0200000000003000), (4, 0x200000)] with matrix := e }), (successor sc, { owner := ownerWord false false 2 7 })], hand := some hd, reqs := [] }
def mcfg : MatEngine := { cfg := [(0, [4, 8])] }
def mq (kind : MatKind) : MatCmd :=
  { id := 1, tid := me, ctx := 7, epc := th.pc, npc := 0x0200000000001002, kind := kind, chk := false, tile := 1, field := 1, cfg := 0, fmt := 4, k := 8, q := 0, mu := 0,
    offA := 0, offB := 0, offSa := 0, offSb := 0, offBand := 0 }
def latched : Latched := { b := 0, blocks := 0, band := 0, fmt := 4, k := 8, origin := 3, hop := 2 }
def odd : Thread := { th with band := 1 }

theorem witness_MatrixCommandsJoinAndComplete :
    (let s := mSt mcfg
     matForm (.mma {} 1 1 2) = some (.mma, false, 1, 1, some 2) ∧ Issues s (matKind s .mma 1 1 (some 2)) hd th ∧
      fieldOf ((mcfg.cfg.find (th.fmt.extractLsb' 0 3).toNat).getD []) 0 0 4 = 4 ∧ kOf [4, 8] [] = some 8 ∧ MatKind.mma.takes 4 = true ∧ kOk 8 = true ∧
      (let rs := (cxOf hd th).matRanges .mma 4 8 (regOf s hd th 1) (regOf s hd th 2)
       (cxOf hd th).matEvent (begun s hd) .mma (regOf s hd th 1) (regOf s hd th 2) rs = none ∧ (cxOf hd th).matConflicts (begun s hd) rs = false) ∧
      (begun s hd).heldBack ((cxOf hd th).tid (begun s hd)) false = false ∧ mcfg.queue.length < 2 ∧ mcfg.wants = []) ∧
    Issues (mSt {}) { names := { a := [rn 1] }, big := false } hd th ∧
    (let s := mSt { queue := [mq .mzero] }
     (s.core sc).matrix.queue = [mq .mzero] ∧ (s.core sc).matrix.flight = [] ∧ (s.core sc).matrix.wants = [] ∧ (mq .mzero).chk = false ∧
      (mq .mzero).left = [] ∧ (mq .mzero).result = [] ∧ (mq .mzero).met = none ∧ (mq .mzero).effect + 4 ≤ s.cyc ∧ (s.core sc).matrix.ePrev ≤ s.cyc) ∧
    (let q := { mq .mzero with result := [(0 : Tile)] }
     let s := mSt { flight := [q] }
     (s.core sc).matrix.flight = [q] ∧ s.reqs = [] ∧ q.check = none ∧ q.committed = false ∧ q.send = none ∧ q.sat = false ∧ q.tid.core = sc ∧
      s.threadOf q.tid = some th ∧ s.regionCancelled sc th.region = false ∧ (winBanks th.win).any (fun b => (s.core sc).retain.contains b) = false) ∧
    (let q := { mq .mring with tid := lone, send := some latched, committed := true }
     let s := mSt { flight := [q] }
     (s.core sc).matrix.flight = [q] ∧ s.threadOf q.tid = none ∧ s.reqs = [] ∧ successor sc ≠ sc) ∧
    (Issues (st [] odd) { names := { a := [rn 1] }, big := false } hd odd ∧ odd.band.toNat % 2 ≠ 0 ∧ th.band.toNat % 2 = 0) ∧
    (let s := mSt { queue := [mq .mma] }
     (s.core sc).matrix.queue = [mq .mma] ∧ (s.core sc).matrix.flight = [] ∧ (s.core sc).matrix.wants = [] ∧ (mq .mma).effect + 16 ≤ s.cyc ∧ (s.core sc).matrix.ePrev ≤ s.cyc) ∧
    (let s := mSt { queue := [mq .mmr], latch := [latched] }
     (s.core sc).matrix.queue = [mq .mmr] ∧ (s.core sc).matrix.latch = [latched] ∧ latched.fmt = (mq .mmr).fmt ∧ latched.k = (mq .mmr).k) ∧
    (let q := { mq .mmod with fmt := 5, q := 17, mu := 2 ^ 128 / 17 }
     q.kind ≠ .mzero ∧ q.fmt = 5 ∧ 3 ≤ q.q ∧ q.q < 2 ^ 62 ∧ q.mu = 2 ^ 128 / q.q ∧ (mq .mma).fmt = 4 ∧ { mq .mma with fmt := 3 }.fmt < 4) ∧
    (let q := { mq .mmr with result := [(0 : Tile)] }
     let s := mSt { flight := [q], latch := [latched] }
     (s.core sc).matrix.flight = [q] ∧ predecessor sc ≠ sc ∧ (s.core (predecessor sc)).matrix.flight = [] ∧ s.threadOf q.tid = some th) ∧
    (let q := { mq .mring with result := [(0 : Tile)], send := some latched }
     let s := mSt { flight := [q] }
     let s' := s.upCore (successor sc) fun x => { x with matrix := { latch := [latched], coming := 1 } }
     (s.core sc).matrix.flight = [q] ∧ q.going = false ∧ q.committed = false ∧ s.threadOf q.tid = some th ∧ s.regionCancelled sc th.region = false ∧
      s.ctxOf (successor sc) = q.ctx ∧ (s.core (successor sc)).matrix.latch.length + (s.core (successor sc)).matrix.coming < 2 ∧
      (s'.core sc).matrix.flight = [q] ∧ s'.threadOf q.tid = some th ∧ s'.ctxOf (successor sc) = q.ctx ∧
      2 ≤ (s'.core (successor sc)).matrix.latch.length + (s'.core (successor sc)).matrix.coming) ∧
    (let q := { mq .mring with send := some latched, committed := true, going := true }
     let s := mSt { flight := [q] }
     let s' := s.upCore (successor sc) fun x => { x with owner := ownerWord false false 2 8 }
     (s.core sc).matrix.flight = [q] ∧ s.threadOf q.tid = some th ∧ s.ctxOf (successor sc) = q.ctx ∧ s'.ctxOf (successor sc) ≠ q.ctx ∧ s'.threadOf q.tid = some th) ∧
    Issues (mSt mcfg) { smallKind [3] with bad := decide (9 < (9 : BitVec 4).toNat) } hd th :=
  ⟨⟨rfl, issues_of (by decide +kernel), by decide +kernel⟩, issues_of (by decide +kernel), by decide +kernel, by decide +kernel, by decide +kernel,
   ⟨issues_of (by decide +kernel), by decide +kernel⟩, by decide +kernel, by decide +kernel, by decide +kernel, by decide +kernel, by decide +kernel, by decide +kernel,
   issues_of (by decide +kernel)⟩

/-- An INT8 sum of products: 5 + (-1) · 3, in element 0. -/
theorem test_product : ((mq .mma).compute { a := 0xFF, b := 3, blkA := 0, blkB := 0, bandA := 0, bandB := 0 } (fun _ => 5)).1.any
    (fun r => r % 2 ^ 32 == 2) = true := by decide +kernel

/-- R228: 16 cyc from the issue to the start of the arithmetic, 4 for MZERO; R244: entries, own position, origin and hops. -/
theorem test_matrix : (
    nextIs (exec (.mma {} 1 1 2) (mSt mcfg)) (fun s => (s.agenda.any fun d => d.time == 116 && d.ev == .matrixArithmeticStart sc) &&
      (s.core sc).matrix.queue.any fun q => q.k == 8 && q.offB == 0x3000) &&
    nextIs (exec (.mzero 1) (mSt mcfg)) (fun s => s.agenda.any fun d => d.time == 104) &&
    nextIs (exec (.matrixArithmeticStart sc) (mSt { queue := [mq .mzero] })) (fun s => s.agenda.any fun d => d.time == 104 && d.ev == .matrixCommandComplete sc 1) &&
    nextIs (exec (.matrixCommandComplete sc 1) (mSt { flight := [{ mq .mzero with result := [(5 : Tile)] }] })) (fun s => (s.core sc).accs.find 1 == some 5) &&
    nextIs (exec (.ringForward sc 1) (mSt { flight := [{ mq .mring with tid := lone, send := some latched, committed := true }] })) (fun s =>
      (s.core (successor sc)).matrix.latch == [latched]) &&
    nextIs (exec (.mzero 1) (st [] { odd with vec := 0x0200000000002000 })) (fun s => (s.thread sc 0).any fun t => t.cause == 2 && t.info == 1) &&
    regIs (exec (.mqry 3 0) (mSt mcfg)) 3 4 && regIs (exec (.mqry 3 8) (mSt { latch := [latched] })) 3 (BitVec.ofNat 64 (1 + 4 * localIndex sc + 64 * 3 + 1024 * 2)) &&
    regIs (exec (.mqry 3 9) (mSt { checks := 5 })) 3 5) = true := by decide +kernel

theorem witness_TilesAreMovedWordByWord :
    (let s := mSt {}
     Issues s { names := { w := [rn 1, rn 4], a := [rn 1] }, big := false } hd th ∧ tileControl (regOf s hd th 4) true = some (none, 32, 32) ∧
      tileControl (regOf s hd th 4) false = some (none, 32, 32) ∧ sideRange (regOf s hd th 1) 0 255 = none ∧ (regOf s hd th 1).toNat % 8 = 0 ∧
      (begun s hd).heldBack ((cxOf hd th).tid (begun s hd)) false = false ∧ tileControl 0x180014 false = some (some 4, 24, 8) ∧
      ((List.range 8).findSome? fun i => (begun s hd).spanEvent sc 0 (regOf s hd th 1 + BitVec.ofNat 64 (i * 32)) 32) = none ∧
      ((List.range 8).findSome? fun i => (begun s hd).spanEvent sc 0 (0x0800000000002000 + BitVec.ofNat 64 (i * 32)) 32) = some 5) ∧
    (let m : Moving := { id := 1, npc := 0x0200000000001002, load := true, tile := 1, base := 0x0200000000002000, ctl := 0x200000, sat := false, start := 90, todo := [] }
     let t := { th with status := .parked .mem .moving, moving := some m }
     let s := at' t
     s.threadOf me = some t ∧ t.moving = some m ∧ m.todo = [] ∧ m.left = [] ∧ m.met = none ∧ s.moveUnsure m.id = false ∧
      tileControl m.ctl true = some (none, 32, 32) ∧ (winBanks t.win).any (fun b => (s.core sc).retain.contains b) = false) :=
  ⟨⟨issues_of (by decide +kernel), by decide +kernel⟩, by decide +kernel⟩

theorem test_tiles : (
    nextIs (exec (.mst 1 1 4) (mSt {})) (fun s => (s.thread sc 0).any (fun t => t.moving.any fun m => m.left.length + m.todo.length == 32 && m.sent ≤ 32) && s.reqs.length ≥ 1) &&
    nextIs (exec (.mlda 1 1 4) (mSt {})) (fun s => (s.thread sc 0).any (fun t => t.status == .parked .mem .moving))) = true := by decide +kernel

/-! ### Special registers -/

/-- W[1] even, W[2] odd, W[3] = 1, W[4] = 0, W[5] = 4096, W[6] a restart value with a set bit among bits 40 to 61. -/
def spSt : State :=
  { st [(1, 0x1234567890), (2, 0x201), (3, 1), (4, 0), (5, 4096), (6, 0x10000000000), (7, 9)] with
    io := { (st []).io with asids := [(9 * 8, 0x8000000000000007)] } }

theorem witness_SpecialRegistersAreReadAndWritten :
    Issues spSt (pageZero [8]) hd th ∧ Issues spSt (plainKind [1]) hd th ∧ Issues spSt (plainKind [2]) hd th ∧ Issues spSt (plainKind [3]) hd th ∧
    Issues spSt (plainKind [4]) hd th ∧ Issues spSt (plainKind [5]) hd th ∧ Issues spSt (plainKind [6]) hd th ∧ Issues spSt (plainKind [7]) hd th ∧
    Issues spSt { big := false } hd th ∧
    ((regOf spSt hd th 1).getLsbD 0 = false ∧ (regOf spSt hd th 2).getLsbD 0 = true ∧ (regOf spSt hd th 7).toNat < 2 ^ 9 ∧ 2 ^ 9 ≤ (regOf spSt hd th 2).toNat ∧
      regOf spSt hd th 4 = 0 ∧ regOf spSt hd th 3 = 1 ∧ 1 < (regOf spSt hd th 7).toNat ∧
      (regOf spSt hd th 1).extractLsb' 40 22 = 0 ∧ (regOf spSt hd th 1).extractLsb' 62 2 ≠ 3 ∧ (regOf spSt hd th 6).extractLsb' 40 22 ≠ 0 ∧
      fmtOk (regOf spSt hd th 2) = true ∧ fmtOk (regOf spSt hd th 7) = false ∧
      (spSt.desc (regOf spSt hd th 7).toNat 0).getLsbD 63 = true ∧ (spSt.desc (regOf spSt hd th 7).toNat 0).toNat % 65536 = spSt.ctxOf sc ∧
      4096 ≤ (regOf spSt hd th 5).toNat) :=
  ⟨issues_of (by decide +kernel), issues_of (by decide +kernel), issues_of (by decide +kernel), issues_of (by decide +kernel), issues_of (by decide +kernel),
   issues_of (by decide +kernel), issues_of (by decide +kernel), issues_of (by decide +kernel), issues_of (by decide +kernel), by decide +kernel⟩

theorem test_special_registers : (
    regIs (exec (.rds 8 .id) spSt) 8 0x1010000 && regIs (exec (.rds 8 .coreId) spSt) 8 0x404 && regIs (exec (.rds 8 .cyc) spSt) 8 100 &&
    regIs (exec (.rds 8 .win) spSt) 8 0x0000010010001000 && regIs (exec (.rds 8 .ready) spSt) 8 1 &&
    nextIs (exec (.wrs .asid 7) spSt) (fun s => (s.thread sc 0).any fun t => t.asid == 9) &&
    nextIs (exec (.wrs .asid 5) (st [(5, 4096)] th0)) (fun s => (s.thread sc 0).any fun t => t.cause == 9 && t.info == 0x0A) &&
    nextIs (exec (.wrs .vec 2) (st [(2, 0x201)] th0)) (fun s => (s.thread sc 0).any fun t => t.cause == 2 && t.info == 0x201) &&
    nextIs (exec .iflush spSt) (fun s => s.agenda.any fun d => d.time == 116)) = true := by decide +kernel

/-! ### Requests at the I/O die -/

/-- A request of the context 7 for a unit of the I/O die, and a machine that holds it and a live sequence 3 of two pages. -/
def unitReq (code : Nat) (a b : Word) (more : List Word := []) : Req :=
  { core := sc, ctx := 7, op := .unit, use := .stage stUnit, ptr := 0, lat := 240, args := [8, BitVec.ofNat 64 code, a, b] ++ more }
def seq3 : Seq := { owner := 7, live := true, key := 5, made := 10, gone := 0, pages := [(0, ⟨0, true, 0, 2⟩), (2, ⟨65536, false, 1, 2⟩)] }
def ioSt (r : Req) (fails : Bool := false) : State :=
  { at' th with reqs := [(1, r)], serial := 2,
                io := { (st []).io with seqs := [(0, seq3), (3, seq3)], rngFails := fails, draws := 10, asids := [(9 * 8, 0x8000000000000007)],
                                        frames := [(5, { owner := .array })], kids := [(4, (7, 8))] } }

/-- A page pointer of sequence 3. -/
def sp (page : Nat) : Word := BitVec.ofNat 64 (3 * 2 ^ 57 + 3 * 2 ^ 41 + page * 65536)

theorem witness_SequencesAreKeptAtTheIoDie :
    (let s := ioSt (unitReq uSeqnew 0 0)
     s.reqs.find 1 = some (unitReq uSeqnew 0 0) ∧ (unitReq uSeqnew 0 0).stage = .sent ∧ (unitReq uSeqnew 0 0).op = .unit ∧
      (unitReq uSeqnew 0 0).use = .stage stUnit ∧ s.io.seqs.has 1 = false ∧ (∀ k < 1, s.io.seqs.has k = true) ∧
      (ioSt (unitReq uSeqnew 0 0) true).io.rngFails = true) ∧
    (let s := ioSt (unitReq uSeqq 3 0)
     s.io.seqs.find 3 = some seq3 ∧ seq3.owner = (unitReq uSeqq 3 0).ctx ∧ s.io.seqs.find 4 = none ∧ s.io.seqs.find (ptrSeq 0) ≠ none ∧
      s.io.seqs.find (ptrSeq (BitVec.ofNat 64 (2 ^ 41))) = none) ∧
    (let s := ioSt (unitReq uSequnmap (sp 2) 0)
     s.liveSeq 7 3 = some seq3 ∧ ptrSeq (sp 2) = 3 ∧ isPagePtr (sp 2) = true ∧ seq3.pages.has (offsetOf (sp 2) / 65536) = true ∧
      s.pageGoing 3 (offsetOf (sp 2) / 65536) = false) ∧
    (let b : Word := 0x0800000000050003
     let s := ioSt (unitReq uSeqmap (sp 1) b)
     s.liveSeq 7 3 = some seq3 ∧ seq3.pages.has (offsetOf (sp 1) / 65536) = false ∧ spaceOf (BitVec.ofNat 64 (b.toNat / 65536 * 65536)) = 4 ∧
      tierOf (offsetOf (BitVec.ofNat 64 (b.toNat / 65536 * 65536))) < 2 ∧ b.extractLsb' 2 14 = 0 ∧ s.frameBusy 5 = false ∧ (s.frame 5).owner = ownerOf (s.kernOf 7) ∧
      frameOf (offsetOf (BitVec.ofNat 64 (b.toNat / 65536 * 65536))) = 5 ∧ (s.frame 5).state = .owned ∧ (s.frame 5).tag = none ∧
      total (s.io.seqs.map fun e => e.2.pages.length) < 1048576) := by decide +kernel

theorem test_sequences : (
    nextIs (exec (.bankRequestArrival 1) (ioSt (unitReq uSeqnew 0 0))) (fun s => (s.reqs.find 1).any (fun r => r.ans == [1]) && s.io.draws == 11) &&
    nextIs (exec (.bankRequestArrival 1) (ioSt (unitReq uSeqnew 0 0) true)) (fun s => (s.reqs.find 1).any fun r => r.ans == [-2]) &&
    nextIs (exec (.bankRequestArrival 1) (ioSt (unitReq uSeqq 3 0))) (fun s => (s.reqs.find 1).any fun r => r.ans == [131077]) &&
    nextIs (exec (.bankRequestArrival 1) (ioSt (unitReq uSeqmap (sp 1) 0x0800000000050003))) (fun s => (s.reqs.find 1).any (fun r => r.ans == [0]) &&
      (s.frame 5).tag == some (.seq 3)) &&
    nextIs (exec (.bankRequestArrival 1) (ioSt (unitReq uSeqend 3 0))) (fun s => s.agenda.any fun d => d.time == 130 && d.ev == .shootDownArrival 2)) = true := by
  decide +kernel

/-- A shoot-down of the page at 0x10000 of address space 9, and a core with two translations. -/
def shot (waits : List Nat) : Shoot := { req := some 1, kind := .xinvPage, asid := 9, va := 65536, waits := waits, due := 150 }
def tent (va : Nat) : TEntry := { route := .page 9 va, size := 65536, pa := 0, tier := 0, kid := 0, r := true, w := true, x := false, clean := false, atom := 0, leaf := 0 }
def shotSt (waits : List Nat) : State :=
  let s := ioSt { unitReq uXinv (9 * 65536) 65536 with stage := .served }
  { s with io := { s.io with shoots := [(6, shot waits)] }, cores := [(sc, { core [] with tlb := [tent 65536, tent 131072] })],
           reqs := s.reqs ++ [(4, { core := sc, ctx := 7, op := .store 0, ptr := 0 })] }

theorem witness_ShootDownsDropTranslations :
    ([(0x90000, 65536), (0x90001, 0), (0x90002, 0)].all fun (e : Word × Word) =>
      let s := ioSt (unitReq uXinv e.1 e.2)
      let asid := (e.1.extractLsb' 16 12).toNat
      decide (e.1.extractLsb' 2 14 = 0) && decide (e.1.extractLsb' 28 36 = 0) && decide (spaceOf e.2 = 0) && (s.desc asid 0).getLsbD 63 &&
      s.kernOf ((s.desc asid 0).toNat % 65536) == s.kernOf 7) = true ∧
    ((ioSt (unitReq uXinv 0x80001 0)).desc 8 0).getLsbD 63 = false ∧
    ((shotSt []).io.shoots.find 6 = some (shot []) ∧ (shotSt []).cache = [] ∧ (shot []).req = some 1 ∧ (shot []).waits = [] ∧ ((shotSt []).reqs.find 1).isSome) ∧
    ((shotSt [4]).io.shoots.find 6 = some (shot [4]) ∧ ((shotSt [4]).reqs.find 4).any (·.unperformed) = true) ∧
    (let s := { shotSt [7] with banks := [(3, { holds := [{ pa := 0, size := 8, req := 7, sect := some (me, 7) }] })] }
     s.io.shoots.find 6 = some (shot [7]) ∧ s.banks.any (fun b => b.2.holds.any fun x => x.req == 7 && x.sect.isSome) = true) := by decide +kernel

theorem test_shoot_downs : (
    nextIs (exec (.bankRequestArrival 1) (ioSt (unitReq uXinv 0x90001 0))) (fun s => s.agenda.any fun d => d.time == 180 && d.ev == .shootDownArrival 2) &&
    nextIs (exec (.shootDownArrival 6) (shotSt [])) (fun s => (s.core sc).tlb == [tent 131072] && s.agenda.any fun d => d.time == 150) &&
    nextIs (exec (.shootDownComplete 6) (shotSt [])) (fun s => (s.reqs.find 1).any fun r => r.ans == [0]) &&
    nextIs (exec (.shootDownComplete 6) (shotSt [4])) (fun s => s.agenda.any fun d => d.time == 101 && d.ev == .shootDownComplete 6)) = true := by decide +kernel

/-! ### Frames that change hands -/

/-- A frame instruction of the array kernel on frame 5, whose entry is `e`. -/
def fotSt (code : Nat) (v : Word) (e : Frame) : State :=
  let s := ioSt { unitReq code 0x0800000000050000 v with ctx := 2, core := 0 }
  { s with io := { s.io with frames := [(5, e)], kids := [(4, (2, 8))] } }
def recalled : Frame := { owner := .host, state := .recalling, borrower := .array, deadline := 100, sarr := 0, shost := 15 }

theorem witness_FramesChangeHandsAndAreRevoked :
    (let s := fotSt uFaccept 0 {}
     s.kernOf 2 = 2 ∧ framePtrOk s.sys.image 0x0800000000050000 = true ∧ frameOf (offsetOf 0x0800000000050000) = 5 ∧ s.frameBusy 5 = false ∧ (s.frame 5).owner = .free ∧
      (s.reqs.find 1).isSome = true ∧ s.io.fotWaits = []) ∧
    (let e : Frame := { owner := .host, state := .offered, borrower := .array }
     (fotSt uFaccept 0 e).frame 5 = e ∧ e.owner ≠ .free ∧ ¬(e.state = .offered ∧ e.borrower = .host)) ∧
    (let v : Word := 0x40005
     v.extractLsb' 28 36 = 0 ∧ v.extractLsb' 4 12 = 0 ∧ (v.extractLsb' 16 12).toNat ≠ 0 ∧ (fotSt uFlend v { owner := .array }).kidBound (v.extractLsb' 16 12).toNat 2 = true ∧
      ((fotSt uFlend v { owner := .array }).io.kernels.find 2).any (fun k => decide (({} : Frame).shost < k.limit ∧ k.limit ≤ 3)) = true) ∧
    ((fotSt uFrecall 0 { owner := .array, state := .lent, borrower := .host }).frame 5).state = .lent ∧
    ((fotSt uFoffer 2 { owner := .array, state := .offered, borrower := .host }).frame 5).state = .offered ∧
    ((0x31 : Word).toNat % 16 = 1 ∧ (0x31 : Word).toNat < 256 ∧ 16 ≤ (0x31 : Word).toNat) ∧
    (let s := fotSt uFquery 0 recalled
     (s.frame 5).state = .recalling ∧ (s.frame 5).borrower = .array ∧ (s.frame 5).deadline = s.cyc ∧ s.banks = [] ∧ (s.frame 5).stopped = false ∧
      ((fotSt uFquery 0 { recalled with stopped := true }).frame 5).stopped = true) ∧
    (let g : RingRef := { base := 0, log2 := 4, key := 2, prod := 17 }
     let k : Kernel := { inbox := some g, notices := [(6, 0, 0, 100)] }
     k.inbox = some g ∧ k.writing = false ∧ 100 + noticeTime ≤ 416) := by decide +kernel

theorem test_frames : (
    let gives (c : Nat) (v : Word) (e e' : Frame) (ans : Int) : Bool := nextIs (exec (.fotPerform 1) (fotSt c v e)) fun s =>
      s.frame 5 == e' && (s.reqs.find 1).any fun r => r.ans == [BitVec.ofInt 64 ans]
    gives uFaccept 0 {} { owner := .array } 0 && gives uFaccept 0 { owner := .host, state := .offered, borrower := .array } { owner := .array } 0 &&
    gives uFaccept 0 { owner := .host } { owner := .host } (-1) &&
    gives uFlend 0x40005 { owner := .array, rvh := true } { owner := .array, state := .lent, borrower := .host, lkey := 4, cls := 5 } 0 &&
    gives uFlend 0x40005 { owner := .array, shost := 3 } { owner := .array, shost := 3 } (-2) &&
    gives uFrecall 0 { owner := .array, state := .lent, borrower := .host, cls := 5 } { owner := .array, state := .recalling, borrower := .host, cls := 5, deadline := 100 + 8192 } 0 &&
    gives uFoffer 2 { owner := .array, state := .offered, borrower := .host } { owner := .array } 0 && gives uFstrike 0 { owner := .array, shost := 2 } { owner := .array } 2 &&
    gives uFstrike 0x31 { owner := .array } { owner := .array } 3 &&
    nextIs (exec (.revocation 5) (fotSt uFquery 0 recalled)) (fun s => s.frame 5 == { owner := .host, sarr := 1, shost := 15, rva := true } && s.io.shoots.length == 1)) = true := by
  decide +kernel

/-! ### Lines, keys and translations -/

/-- Two requests of different flows that wait at a channel; a request of the test core, and a machine that holds it alone. -/
def wait1 : Waiting := { req := 1, ctx := 7, part := 0, cls := 0, region := 0, start := 12, sub := 0 }
def wait2 : Waiting := { req := 2, ctx := 8, part := 0, cls := 0, region := 0, start := 13, sub := 0 }
def one (r : Req) (t : Thread := th) : State := { at' t with reqs := [(1, r)], serial := 2, banks := [(3, { arrived := [wait1] })] }
def fetchReq : Req :=
  { tid := some me, core := sc, ctx := 7, op := .block 8, use := .fetch, ptr := 0x0200000000001000, pa := vaultAddr sc 0x1000, key := 9, stage := .served }
def fetcher : Thread := { th with status := .parked .mem (.reply 1) }

theorem witness_LinesKeysAndTranslationsAreFilled :
    (let s := one fetchReq fetcher
     s.reqs = [(1, fetchReq)] ∧ fetchReq.use = .fetch ∧ fetchReq.tid = some me ∧ s.errorIn fetchReq.pa 8 = 0 ∧ s.admitEvent fetchReq = none ∧
      isFar fetchReq.pa = false ∧ (∀ a ∈ wordsFrom fetchReq.pa 8, inTables a = false) ∧ s.cache = [] ∧ s.threadOf me = some fetcher ∧
      fetcher.status = .parked .mem (.reply 1) ∧ fetchReq.stage = .served ∧ fetchReq.event = none ∧ isLarge sc = false ∧ (winBanks fetcher.win).any (fun b => (s.core sc).retain.contains b) = false) ∧
    (let r := { fetchReq with index := 1 }
     (one r fetcher).reqs = [(1, r)] ∧ fetchReq.index = 0 ∧ r.index = 1) ∧
    ({ fetchReq with tid := none }.use = .fetch ∧ (one { fetchReq with tid := none }).reqs = [(1, { fetchReq with tid := none })]) ∧
    ((st []).hand = some hd ∧ (st []).thread hd.core hd.slot = some th) ∧
    (let q : Req := { core := 0x0FF00, ctx := 1, op := .load 8 false, use := .done, ptr := 0x0800000000002000, pa := 0x2000, stage := .keying }
     let s : State := { State.reset with reqs := [(1, q)] }
     s.reqs.find 1 = some q ∧ q.cacheable = true ∧ q.after = [] ∧
      (match s.lookup q.core 1 0 q.want q.ptr with | .now (.ok _ _ _ _ _) => true | _ => false) = true) ∧
    (let q : Req := { core := sc, ctx := 7, op := .load 8 false, use := .done, ptr := 0x0200000000002000, stage := .keying }
     (one q).reqs.find 1 = some q ∧ q.stage = .keying ∧ q.after = [] ∧ isLarge q.core = false ∧ (match (one q).lookup sc 7 0 q.want q.ptr with | .now (.ok _ _ _ _ _) => true | _ => false) = true) ∧
    (let q : Req := { core := sc, ctx := 7, op := .load 8 false, use := .done, ptr := 0x0200000000002000, stage := .translating }
     (one q).reqs.find 1 = some q ∧ q.use = .done ∧ (match (one q).lookup sc 7 0 q.want q.ptr with | .now _ => true | _ => false) = true) ∧
    (let q : Req := { core := sc, ctx := 7, asid := 9, op := .load 8 false, use := .done, ptr := 0x2000, stage := .translating }
     let s := { one q with io := { (one q).io with asids := [(9 * 8, 0x8000000000010007)], frames := [(0, { owner := .array })] } }
     let later (s : State) : Bool := match s.lookup sc 7 9 q.want q.ptr with | .later _ => true | _ => false
     let held := { s with banks := [((homeOf s.sys.image 0).num, { holds := [{ pa := 0, size := 8, req := 7 }] })] }
     q.placing = false ∧ held.serial ≠ 1 ∧ later s = true ∧ (s.heldWalk sc 7 9 q.want q.ptr).isNone = true ∧ later held = true ∧ decide (held.heldWalk sc 7 9 q.want q.ptr = some 0) = true) ∧
    (let q : Req := { core := sc, ctx := 7, op := .load 8 false, ptr := 0x0200000000002000, stage := .refused }
     (one q).reqs.find 1 = some q ∧ q.stage = .refused ∧ q.orphan = false ∧ { q with orphan := true }.orphan = true) ∧
    (((one fetchReq).bank 3).arrived = [wait1] ∧ (one fetchReq).reqs.find wait1.req = some fetchReq ∧
      (let s := { one fetchReq with banks := [(3, { arrived := [wait1, wait2] })] }
       (s.bank 3).arrived = [wait1, wait2] ∧ (wait1.ctx, wait1.part) ≠ (wait2.ctx, wait2.part) ∧ wait1.req ≠ wait2.req ∧ wait1.start < wait2.start)) :=
  by refine ⟨?_, ?_, ?_, ?_, ?_, ?_, ?_, ?_, ?_, ?_⟩ <;> decide +kernel

theorem test_fills : (
    nextIs (exec (.ibufLineFill sc 1) (one fetchReq fetcher)) (fun s => (s.thread sc 0).any (fun t => t.status == .ready && t.pc == th.pc) && (s.core sc).ibuf.length == 1) &&
    nextIs (exec (.unassignedEncoding 3 1) (st [] th0)) (fun s => (s.thread sc 0).any fun t => t.cause == 1 && t.info == 259 && t.epc == th0.pc) &&
    nextIs (exec (.refusedRequestResend 1) (one { core := sc, ctx := 7, op := .load 8 false, ptr := 0x0200000000002000, lat := 24, stage := .refused }))
      (fun s => s.agenda.any fun d => d.time == 112) &&
    nextIs (exec (.channelAdmission 3) (one { fetchReq with stage := .sent })) (fun s => (s.bank 3).vtime == 12 && (s.bank 3).arrived == [])) = true := by decide +kernel

/-! ### Records and wakes -/

/-- A record of context 7 at the fault unit, and a ring for it. -/
def frec : FRec := { ctx := 7, source := 0, code := 0x10, tid := 0, resume := 0, info := 0, arg := 0, asid := 0, epc := 0, formed := 0 }
def ring7 : RingRef := { base := 0x40000, log2 := 4, key := 9, prod := 17 }
def ctx7 : Context := { kern := 2, key := 9, ring := some ring7, records := [3] }
def recSt (x : Context) : State := { at' th with serial := 5, io := { (st []).io with ctxs := [(7, x)], recs := [(3, frec)] } }

theorem witness_RecordsAreFormedAndWakesSent :
    ((recSt {ctx7 with records := []}).io.recs.find 3 = some frec ∧ frec.source < 2 ∧ (recSt { ctx7 with records := [] }).io.ctxs.find frec.ctx = some { ctx7 with records := [] }) ∧
    ((recSt ctx7).io.ctxs.find 7 = some ctx7 ∧ ctx7.ring = some ring7 ∧ ctx7.records = [3] ∧ ctx7.writing = false ∧
      { ctx7 with ring := none }.ring = none ∧ { ctx7 with records := [] }.records = [] ∧ { ctx7 with writing := true }.writing = true) ∧
    (let s := kst [(1, meW), (2, 1), (3, 0), (4, 2)]
     let h := { hd with core := 0 }
     Issues s (plainKind [1, 2]) h th ∧ Issues s (plainKind [1, 3]) h th ∧ Issues s (plainKind [1, 4]) h th ∧
      1 < (regOf s h th 4).toNat ∧ regOf s h th 2 = 1 ∧ regOf s h th 3 = 0 ∧ isKernelCtx (s.ctxOf 0) = true ∧
      isCore (tidOf (BitVec.ofNat 64 ((regOf s h th 1).toNat % 2 ^ 32))).core = true) ∧
    (Issues (st [(1, meW), (2, 1)]) (plainKind [1, 2]) hd th ∧ regOf (st [(1, meW), (2, 1)]) hd th 2 = 1 ∧ isKernelCtx ((st []).ctxOf sc) = false) :=
  ⟨by decide +kernel, by decide +kernel, ⟨issues_of (by decide +kernel), issues_of (by decide +kernel), issues_of (by decide +kernel), by decide +kernel⟩,
   issues_of (by decide +kernel), by decide +kernel⟩

/-- R188: the seventeenth record stands at the second place of a ring of 16. -/
theorem test_records_and_wakes : (
    nextIs (exec (.faultEventArrival 3) (recSt { ctx7 with records := [] })) (fun s => (s.io.recs.find 3).any (fun f => f.formed == 100) &&
      (s.io.ctxs.find 7).any fun x => x.records == [3]) &&
    nextIs (exec (.faultRecordWrite 7) (recSt ctx7)) (fun s => (s.reqs.find 5).any fun r => r.op == .waitEmpty && r.pa == 0x40040) &&
    nextIs (exec (.wakeTrap 1 2) (st [(1, meW), (2, 1)] th0)) (fun s => (s.thread sc 0).any fun t => t.cause == 9 && t.info == 0x0B) &&
    nextIs (exec (.wakeResume 1 2) (kst [(1, meW), (2, 0)])) (fun s => s.msgs.length == 1)) = true := by decide +kernel

/-! ### Partitions, contexts and draining -/

theorem witness_PartitionsAreSetAndDrainsEnd :
    (let r := unitReq uPartset 7 0 [0xFF, 0x10F]
     let r := { r with ctx := 2, args := [8, BitVec.ofNat 64 uPartset, 0x10007, 0, 0xFF, 0x10F] }
     let s := ioSt r
     s.reqs.find 1 = some r ∧ (r.args.getD 2 0).extractLsb' 19 45 = 0 ∧ (r.args.getD 5 0).extractLsb' 16 48 = 0 ∧ s.ownCtx 2 7 = true ∧
      (s.io.ctxs.find 7).any (fun x => !(x.parts.any fun e => e.1 != 1 && ((0xFF : Nat) &&& e.2.slots) != 0)) = false ∧
      (let u := { s with io := { s.io with ctxs := s.io.ctxs.put 7 { kern := 2, key := 9, parts := [(0, { slots := 2 ^ 64 - 256, banks := 0xF0, weight := 1 })] } } }
       (u.io.ctxs.find 7).any (fun x => !(x.parts.any fun e => e.1 != 1 && ((0xFF : Nat) &&& e.2.slots) != 0)) = true ∧ u.ownCtx 2 7 = true ∧
        u.dies = [] ∧ { u with cores := [] }.coresOf 7 = []) ∧
      (s.io.ctxs.find 7).any (fun x => x.parts.any fun e => e.1 != 1 && ((0xFF : Nat) &&& e.2.slots) != 0) = true ∧
      0 < (r.args.getD 5 0).toNat / 256 ∧ (r.args.getD 4 0) ≠ 0 ∧ (r.args.getD 5 0).toNat % 256 ≠ 0 ∧ s.ownCtx 2 9 = false ∧
      (0x80007 : Word).extractLsb' 19 45 ≠ 0) ∧
    (ownsetOk 9 3 = false ∧ ownsetOk 10 0 = false ∧ ownsetOk (2 ^ 24 + 7) 0 = false ∧ (2 ^ 24 + 7 : Word).toNat % 256 = uPartset) ∧
    (let s := ioSt { unitReq uOwnset 0x209 0x0800000000040004 with ctx := 2 }
     ownsetOk 0x209 0x0800000000040004 = true ∧ s.ownCtx 2 2 = true ∧ (s.io.kernels.find (s.kernOf 2)).isSome = true ∧
      s.reqs = [(1, { unitReq uOwnset 0x209 0x0800000000040004 with ctx := 2 })] ∧ ownsetOk 0x709 0x0800000000040004 = true) ∧
    (let s := ioSt { unitReq uOwnset 1 1 with ctx := 2 }
     ownsetOk 1 1 = true ∧ (1 : Word).getLsbD 1 = false ∧ s.freeCtx = some 3 ∧ s.freeKid = some 1 ∧ s.io.rngFails = false ∧
      ownsetOk 0x704 0 = true ∧ s.ownCtx 2 7 = true ∧ ownsetOk 0x706 8 = true ∧ (s.desc 8 0).getLsbD 63 = false ∧ s.ownCtx 2 1 = false ∧
      ownsetOk 0x708 0x0800000000040004 = true ∧ (s.io.ctxs.find 7).isSome = true ∧ s.reqs = [(1, { unitReq uOwnset 1 1 with ctx := 2 })]) ∧
    (let d : Drain := { ctx := 7, part := none, cores := [sc], limit := 200, area := 0, blocks := 0, dpa := 0, dkey := 0 }
     let s := ioSt (unitReq 9 0 0)
     let s := { s with io := { s.io with drains := [(1, d)] } }
     s.io.drains.find 1 = some d ∧ (s.reqs.find 1).isSome = true ∧ s.heldIn d.dpa 1 = false ∧ { s with banks := [(0, { holds := [{ pa := 0, size := 8, req := 7 }] })] }.heldIn d.dpa 1 = true ∧ s.drained d = false ∧ d.area = 0 ∧ { s with cores := [] }.drained d = true) ∧
    (let r : Req := { core := 0, ctx := 2, op := .block 0, use := .stage stBlock, ptr := 0x0200000000002000, pa := vaultAddr 0 0x2000, args := [8, 0, meW, 0] }
     let s := { ioSt r with cores := [(sc, core [])] }
     s.reqs.find 1 = some r ∧ r.stage = .sent ∧ r.op = .block 0 ∧ s.lostAt r.pa = false ∧ s.admitEvent r = none ∧ headWords r.ptr = 928 ∧ s.heldIn r.pa 928 = false ∧
      s.poisoned r.pa 928 = false ∧ s.fixedIn r.pa 928 = 0 ∧ (s.reqs.find 1).isSome = true ∧ r.args.getD 1 0 = 0 ∧
      s.threadOf (tidOf (BitVec.ofNat 64 (meW.toNat % 2 ^ 32))) = some th ∧ meW.toNat < 2 ^ 32 ∧ s.kernOf (s.ctxOf sc) = s.kernOf r.ctx ∧ th.status = .ready ∧ s.inMatrix sc th = false ∧
      wait.status = .parked .mem (.reply 1) ∧ s.inMatrix sc wait = false ∧
      s.threadOf (tidOf 0x12345678) = none ∧ isCore 0x3F000 = false) :=
  by refine ⟨?_, ?_, ?_, ?_, ?_, ?_⟩ <;> decide +kernel

theorem test_partitions : (
    let told (c : Nat) (a b : Word) (more : List Word) (v : Int) : Bool :=
      nextIs (exec (.bankRequestArrival 1) (ioSt { unitReq c a b more with ctx := 2 })) fun s => (s.reqs.find 1).any fun r => r.ans == [BitVec.ofInt 64 v]
    told uPartset 0x80007 0 [1, 0x101] (-4) && told uPartset 9 0 [1, 0x101] (-1) && told uPartset 0x10007 0 [1, 0x101] (-3) &&
    told uOwnset 10 0 [] (-4) && told uOwnset 0x902 0 [] (-1) && told uOwnset 1 1 [] 3 && told uOwnset 0x704 0 [] 1 && told uOwnset 0x706 8 [] 0 &&
    told uOwnset 0x209 0x0800000000040004 [] 0 && told uOwnset 0x709 0x0800000000040004 [] (-4) &&
    nextIs (exec (.bankRequestArrival 1) (ioSt { unitReq uOwnset 0x706 8 with ctx := 2 })) (fun s => s.desc 8 0 == BitVec.ofNat 64 (2 ^ 63 + 65536 + 7))) = true := by
  decide +kernel

/-! ### Rings and inbound requests -/

/-- An entry of ring 5 of kind 2 with a sequence number, and a tag that is right under the key 77 where `right`. -/
def entry6 (q kind : Word) : List Word := [q, kind, 0x0800000000002000, 9, 0, 0]
noncomputable def entryOf (q kind : Word) : List Word :=
  entry6 q kind ++ [(ringTag 77 (entry6 q kind)).extractLsb' 0 64, (ringTag 77 (entry6 q kind)).extractLsb' 64 64]
noncomputable def ringSt (e : List Word) (key : Option (BitVec 256) := some 77) : State :=
  { ({} : State) with links := { rings := [(5, { ws := [(2, 8), (3, 1)], key := key, entry := e })] } }

theorem halves (v : BitVec 128) : v = v.extractLsb' 64 64 ++ v.extractLsb' 0 64 := by
  apply BitVec.eq_of_getLsbD_eq
  intro i hi
  simp only [BitVec.getLsbD_append, BitVec.getLsbD_extractLsb']
  by_cases h : i < 64
  · simp [h]
  · simp [h, show i - 64 < 64 by omega, show 64 + (i - 64) = i by omega]

/-- A tag made by the ring's own key is right. -/
theorem tag_right (q kind : Word) : ((ringSt (entryOf q kind)).ring 5).tagOk = true := by
  show (ringTag 77 (entry6 q kind) == _) = true
  exact beq_iff_eq.mpr (halves _)

theorem zeros_ok (q kind : Word) (h : kind = 1 ∨ kind = 2 ∨ kind = 3) : ((ringSt (entryOf q kind)).ring 5).zerosOk = true := by
  show (kind.extractLsb' 8 56 == 0 && ((0 : Word) == 0) && ((0 : Word) == 0)) = true
  rcases h with h | h | h <;> subst h <;> decide

theorem witness_RingEntriesAreJudged :
    (((ringSt [8, 2, 0, 0, 0, 0, 0, 0] none).ring 5).tagOk = false ∧ ((ringSt [8, 2, 0, 0, 0, 0, 0, 0] none).ring 5).entry ≠ []) ∧
    (∀ q kind : Word, kind = 1 ∨ kind = 2 ∨ kind = 3 → ((ringSt (entryOf q kind)).ring 5).tagOk = true ∧ ((ringSt (entryOf q kind)).ring 5).zerosOk = true ∧
      ((ringSt (entryOf q kind)).ring 5).entry ≠ [] ∧ ((ringSt (entryOf q kind)).ring 5).due = false ∧ wordOf ((ringSt (entryOf q kind)).ring 5).entry 0 = q) ∧
    ((7 : Word).toNat < (((ringSt []).ring 5).word 2).toNat ∧ (((ringSt []).ring 5).word 2).toNat < (9 : Word).toNat ∧ ((ringSt []).ring 5).word 2 = 8) ∧
    ((ringSt []).reqs = [] ∧ (ringSt []).links.farWrites = []) ∧
    (let s : State := { ({} : State) with links := { rings := [(5, { entry := entry6 8 1, due := true })] } }
     (s.ring 5).entry ≠ [] ∧ (s.ring 5).due = true) :=
  ⟨⟨rfl, by decide +kernel⟩, fun q kind h => ⟨tag_right q kind, zeros_ok q kind h, by simp [ringSt, State.ring, entryOf, entry6, Map.find],
    rfl, rfl⟩, by decide +kernel, by decide +kernel, by decide +kernel⟩

theorem test_rings : (
    nextIs (exec (.ringEntryFill 5) (ringSt [8, 2, 0, 0, 0, 0, 0, 0] none)) (fun s => (s.ring 5).word 4 == 2 ^ 32 && (s.ring 5).i == 1) &&
    nextIs (exec .hotReset (ringSt [] (some 77))) (fun s => (s.ring 5).key.isNone && (s.ring 5).state == 2)) = true := by decide +kernel

/-- The eight bytes of a word of value 5. -/
def bytes5 : List Byte := [5, 0, 0, 0, 0, 0, 0, 0]

theorem witness_InboundRequestsAreOrdered :
    (({ ({} : State) with sys := { ready := 0 } }).sys.ready.getLsbD 0 = false ∧ ({} : State).sys.ready.getLsbD 0 = true ∧ (0x10008 : Word).toNat % 8 = 0 ∧ bytes5.length = 8) ∧
    (({} : State).links.downPorts.contains 3 = false ∧ ({} : State).links.inbound = []) ∧
    (let i : Inbound := { seq := 1, addr := 0x10008, data := bytes5, read := 0, ro := false, src := 0 }
     let s : State := { links := { inbound := [i] } }
     s.links.inbound = [i] ∧ s.links.sending = []) := by decide +kernel

theorem test_inbound : (
    nextIs (exec (.pcieInboundWrite 0x10008 bytes5 false) {}) (fun s => s.links.inbound.length == 1) &&
    nextIs (exec (.pcieInboundWrite 0x10008 bytes5 false) { sys := { ready := 0 } }) (fun s => s.links.outbox == [.unsupported]) &&
    nextIs (exec (.pcieInboundAtomicop 0x10008) {}) (fun s => s.links.outbox == [.unsupported]) &&
    nextIs (exec .pcieConfigurationRequest { sys := { ready := 0 } }) (fun s => s.links.outbox == [.retry]) &&
    nextIs (exec (.exrinFlitReceive 3 false) { links := { failures := [(3, 2)] } }) (fun s => s.links.downPorts.contains 3) &&
    nextIs (exec (.exrinFlitReceive 3 true) { links := { failures := [(3, 2)] } }) (fun s => s.links.failures.find 3 == some 0) &&
    nextIs (exec (.farEndCompletion 4) { links := { farWrites := [(me, 4, true), (me, 5, true)] } }) (fun s => s.links.farWrites == [(me, 5, true)])) = true := by decide +kernel

/-! ### The security core -/

def secSt (e : Session) : State :=
  { io := { ctxs := [(7, { kern := 2, key := 9 })] }, links := { sessions := [(4, e)], rings := [(5, { ws := [(0, 0)] })] } }

theorem witness_TheSecurityCoreAnswers :
    ((secSt {}).links.sessions.find 4 = some {} ∧ ({} : Session).bound = none ∧ (secSt { bound := some 7 }).links.sessions.find 4 = some { bound := some 7 } ∧
      (secSt { stage := 1 }).links.sessions.find 4 = some { stage := 1 }) ∧
    ((secSt { stage := 2 }).links.sessions.find 4 = some { stage := 2 } ∧ ({ stage := 2 } : Session).asked = false ∧ (secSt { stage := 2 }).io.ctxs.has 7 = true ∧
      (secSt { stage := 2, asked := true, bound := some 0 }).links.sessions.find 4 = some { stage := 2, asked := true, bound := some 0 } ∧
      ((secSt { stage := 2, asked := true, bound := some 0 }).ring 5).ctx = 0 ∧ ((secSt {}).ring 5).state ≠ 1 ∧
      (let s := secSt { stage := 2, bound := some 7 }
       (s.io.ctxs.has 8 = false ∧ ([7] : List Byte).length ≠ 2 ∧ ([] : List Byte).length ≠ 1 ∧ 64 ≤ (64 : Byte).toNat ∧ (s.ring 5).ctx ≠ 7 ∧
        s.links.sessions.find 5 = none)) ∧
      (let s := { secSt { stage := 2, bound := some 0 } with links := { (secSt { stage := 2, bound := some 0 }).links with rings := [(5, { ws := [(0, 0), (3, 1)] })] } }
       (s.ring 5).state = 1 ∧ (s.ring 5).ctx = 0)) ∧
    (((secSt {}).bank (Home.port 3).num).arrived = [] ∧ ((secSt {}).bank (Home.port 3).num).queue = [] ∧ ((secSt {}).bank (Home.port 3).num).waiters = []) := by
  decide +kernel

/-- The status of the response that an outcome sends. -/
def statusIs (o : Out) (n : Nat) : Bool := nextIs o fun s => match s.links.outbox with | [.spdm _ _ k _] => k == n | _ => false

theorem test_security_core : (
    nextIs (exec (.finish 4) (secSt { stage := 1 })) (fun s => (s.links.sessions.find 4).any fun e => e.stage == 2) &&
    nextIs (exec (.bind 4 [7, 0]) (secSt { stage := 2 })) (fun s => (s.links.sessions.find 4).any fun e => e.bound == some 7) &&
    statusIs (exec (.bind 4 [7, 0]) (secSt { stage := 2, asked := true })) 2 && statusIs (exec (.bind 4 [8, 0]) (secSt { stage := 2 })) 1 &&
    statusIs (exec (.bind 4 [7]) (secSt { stage := 2 })) 4 && statusIs (exec (.ringkey 4 [5]) (secSt { stage := 2, asked := true })) 3 &&
    statusIs (exec (.ringkey 4 [64]) (secSt { stage := 2, asked := true, bound := some 0 })) 4 &&
    statusIs (exec (.ringkey 4 [5]) (secSt { stage := 2, asked := true, bound := some 7 })) 1 &&
    nextIs (exec (.ringkey 4 [5]) (secSt { stage := 2, asked := true, bound := some 0 })) (fun s => (s.ring 5).key.isSome) &&
    statusIs (exec (.vendorUnknownOpcode 4 9) (secSt { stage := 2 })) 5) = true := by decide +kernel

/-! ### Kernels, power and time -/

def downSt : State := { io := { kernels := [(1, { down := true }), (2, {})] } }
def offSt : State := { sys := { powered := false, ready := 0 } }

/-- Bring-up fails at some stage or at none: one of the two clauses of POWER_UP is met. -/
theorem witness_PowerUpOfKernelsRestartAndPowerComesAndGoes : offSt.sys.powered = false ∧
    (Config.failedStage offSt.free = none ∨ ∃ k, Config.failedStage offSt.free = some k) := by
  refine ⟨rfl, ?_⟩
  cases Config.failedStage offSt.free with
  | none => exact .inl rfl
  | some k => exact .inr ⟨k, rfl⟩

theorem witness_KernelsRestartAndPowerComesAndGoes :
    (isLarge 0x0FF00 = true ∧ isLarge 0 = false ∧ isKernelCore 0 = true) ∧
    (isLarge sc = false ∧ isKernelCore sc = false ∧ ((at' th).core sc).slots = [(0, { thread := some th })] ∧ th.sect = none ∧ (at' th).reqs = []) ∧
    (downSt.io.kernels.find 1 = some { down := true } ∧ downSt.io.kernels.find (3 - 1) = some {} ∧ ({} : Kernel).down = false) ∧
    (State.reset.io.kernels.find 2 = some {} ∧ State.reset.sys.powered = true) := by decide +kernel

theorem test_kernels_and_power : (
    nextIs (exec (.uncorrectableCoreStateError 0) (st [])) (fun s => s.agenda.any fun d => d.ev == .kernelTermination 2) &&
    nextIs (exec (.kernelTermination 1) (st [])) (fun s => (s.io.kernels.find 2).any fun k => k.notices == [(8, 0, 0, 100)]) &&
    nextIs (exec (.kernelRestart 1) downSt) (fun s => (s.thread 0x0FF00 0).any fun t => t.pc == 0x0800000000000000 && !t.lvl) &&
    nextIs (exec .powerRemoved (st [(1, 5)])) (fun s => s.cores == [] && !s.sys.powered && s.sys.ready == 0) &&
    nextIs (exec (.ieee1588TimingMessage 500) (st [])) (fun s => s.ptp == 500) &&
    nextIs (exec (.heldCoreRelease sc) { st [] with cores := [(sc, { core [] with held := true })] }) (fun s => !(s.core sc).held) &&
    nextIs (exec .thermalThrottle (st [])) (fun s => s.sys.throttle)) = true := by decide +kernel

end Sys2Proof.Tests
end

section
/-! PROOFS. Every step keeps memory in its canonical form. Memory is written through `State.setMem` alone, and each such write
keeps the form (`Memory.write_wf`, `Memory.setEmpty_wf`). Of every operation of the machine it is said once, in the order of the model's
definitions, what it does to memory: most write none (a lemma `_mem`), and those that may write keep the form (a lemma `_ok`). -/

namespace Sys2Proof.Machine

variable {s : State}

/-! ### Outcomes, folds and pairs -/

/-- The state that an outcome leads to, if it leads to one, has a canonical memory. -/
def OutOk (o : Out) : Prop := ∀ t, o = .next t → t.MemOk

@[simp] theorem outOk_next : OutOk (.next s) ↔ s.mem.wf = true := by simp [OutOk]

@[simp] theorem outOk_fault (r : Fault) : OutOk (.fault r) := by simp [OutOk]

theorem memOk_of_next {o : Out} {t : State} (e : o = .next t) (h : OutOk o) : t.MemOk := h t e

/-- The state in which a turn runs an instruction, or which it passes on, has a canonical memory. -/
def TurnOk : Turn → Prop
  | .run _ s => s.MemOk
  | .pass s => s.MemOk

/-- A fold over the state keeps memory canonical when each of its steps does. -/
theorem foldl_ok {α : Type} (f : State → α → State) (hf : ∀ u a, u.MemOk → (f u a).MemOk) (l : List α) (h : s.MemOk) :
    (l.foldl f s).MemOk := by
  induction l generalizing s with
  | nil => exact h
  | cons a l ih => exact ih (hf s a h)

theorem snd_mem {α : Type} {p : α × State} {a : α} {t : State} (e : p = (a, t)) : t.mem = p.2.mem := by rw [e]

theorem snd_ok {α : Type} {p : α × State} {a : α} {t : State} (e : p = (a, t)) (h : p.2.MemOk) : t.MemOk := by
  rw [e] at h; exact h

theorem snd_snd_ok {α β : Type} {p : α × β × State} {a : α} {b : β} {t : State} (e : p = (a, b, t)) (h : p.2.2.MemOk) :
    t.MemOk := by
  rw [e] at h; exact h

/-! ### The machine as bring-up leaves it (R365) -/

/-- Bring-up starts from an empty memory: every word is full and zero. -/
@[simp] theorem State.boot_ok (im : Image) (k free : Nat) : (State.boot im k free).MemOk := rfl

/-! ### Free values, drops -/

@[simp] theorem State.freeWord_mem : s.freeWord.2.mem = s.mem := rfl

@[simp] theorem State.drop_mem (c : Nat) : (s.drop c).mem = s.mem := by
  unfold State.drop
  split <;> rfl

/-! ### An instruction that issues, waits, traps or goes on -/

@[simp] theorem Cx.goTo_ok (x : Cx) (pc : Word) (h : s.MemOk) : OutOk (x.goTo s pc) := by
  simp [Cx.goTo, h]

@[simp] theorem Cx.done_ok (x : Cx) (h : s.MemOk) : OutOk (x.done s) := by
  simp [Cx.done, State.MemOk, h]

@[simp] theorem Cx.ret_ok (x : Cx) (d : Reg) (v : Word) (h : s.MemOk) : OutOk (x.ret s d v) := by
  simp [Cx.ret, State.MemOk, h]

@[simp] theorem Cx.trap_ok (x : Cx) (code : Nat) (info : Word) (h : s.MemOk) : OutOk (x.trap s code info) := by
  simp [Cx.trap, h]

@[simp] theorem Cx.perm_ok (x : Cx) (reason : Nat) (h : s.MemOk) : OutOk (x.perm s reason) := by
  simp [Cx.perm, State.MemOk, h]

@[simp] theorem Cx.illegal_ok (x : Cx) (reason : Nat) (h : s.MemOk) : OutOk (x.illegal s reason) := by
  simp [Cx.illegal, State.MemOk, h]

@[simp] theorem Cx.fault_ok (x : Cx) (code : Nat) (info : Word) (h : s.MemOk) : OutOk (x.fault s code info) := by
  simp [Cx.fault, h]

@[simp] theorem Cx.again_ok (x : Cx) (why : Park) (h : s.MemOk) : OutOk (x.again s why) := by
  simp [Cx.again, h]

@[simp] theorem Cx.queued_mem (x : Cx) (n : Nat) : (x.queued s n).mem = s.mem := by
  simp [Cx.queued]

@[simp] theorem Cx.turnBack_mem (x : Cx) (was : Option Nat) : (x.turnBack s was).mem = s.mem := by
  simp only [Cx.turnBack, State.upThread_mem, State.upCore_mem]
  exact foldl_mem _ (fun _ _ => by rfl) _

@[simp] theorem Cx.pends_ok (x : Cx) (was : Option Nat) (why : Park) (w v : List Nat) (h : s.MemOk) :
    OutOk (x.pends s was why w v) := by
  simp [Cx.pends, h]

@[simp] theorem Cx.deliver_ok (x : Cx) (d : Deferred) (h : s.MemOk) : OutOk (x.deliver s d) := by
  unfold Cx.deliver
  split <;> simp [h]

@[simp] theorem State.resumed_mem (t : Tid) : (s.resumed t).mem = s.mem := by
  unfold State.resumed
  repeat' split
  all_goals simp

theorem Cx.run_ok (x : Cx) (body : State → Cx → Out) (hb : ∀ u y, u.MemOk → OutOk (body u y)) (h : s.MemOk) :
    OutOk (x.run s body) :=
  hb _ _ h

/-- An instruction that goes on has its effect as one that runs, and its thread is resumed. -/
theorem Cx.goOn_ok (x : Cx) (body : State → Cx → Out) (hb : ∀ u y, u.MemOk → OutOk (body u y)) (h : s.MemOk) :
    OutOk (x.goOn s body) := by
  unfold Cx.goOn
  split
  · rename_i e
    simpa using memOk_of_next e (hb _ _ h)
  · exact hb _ _ h

/-- An issue keeps memory canonical when the instruction's own effect does: the checks, the reports and the waits before it write none. -/
theorem issue_ok (k : Kind) (body : State → Cx → Out) (hb : ∀ u y, u.MemOk → OutOk (body u y)) (h : s.MemOk) :
    OutOk (issue k s body) := by
  unfold issue
  split
  · simp
  · dsimp only
    split
    · simp
    · split
      · split
        · exact Cx.deliver_ok _ _ h
        · exact Cx.goOn_ok _ _ hb h
      · split
        · exact Cx.deliver_ok _ _ h
        · split
          · exact Cx.illegal_ok _ _ h
          · split
            · exact Cx.illegal_ok _ _ h
            · split
              · exact Cx.illegal_ok _ _ h
              · split
                · exact Cx.trap_ok _ _ _ h
                · split
                  · exact Cx.pends_ok _ _ _ _ _ h
                  · split
                    · exact Cx.pends_ok _ _ _ _ _ h
                    · exact Cx.run_ok _ _ hb h

@[simp] theorem issueRet_ok (k : Kind) (d : Reg) (f : State → Cx → Word) (h : s.MemOk) : OutOk (issueRet k s d f) :=
  issue_ok _ _ (fun _ _ hu => Cx.ret_ok _ _ _ hu) h

/-! ### Translations, keys and counts of reads (R298 to R309) -/

@[simp] theorem State.useKey_mem (c : Nat) (n : KeyName) : (s.useKey c n).mem = s.mem := rfl

@[simp] theorem State.countFixed_mem (pa n : Nat) : (s.countFixed pa n).mem = s.mem := by
  unfold State.countFixed
  split <;> rfl

@[simp] theorem State.tagFrame_mem (n : Nat) (t : Tag) : (s.tagFrame n t).mem = s.mem := by
  unfold State.tagFrame
  dsimp only
  split <;> simp

@[simp] theorem State.addEntry_mem (c : Nat) (e : TEntry) : (s.addEntry c e).mem = s.mem := rfl

@[simp] theorem State.fill_mem (c ctx asid : Nat) (w : Walk) (l : Leaf) : (s.fill c ctx asid w l).mem = s.mem := by
  unfold State.fill
  dsimp only
  repeat' split
  all_goals simp [foldl_mem]

@[simp] theorem State.touch_mem (core asid : Nat) (p : Word) : (s.touch core asid p).mem = s.mem := by
  unfold State.touch
  split <;> rfl

@[simp] theorem State.walked_mem (w : Walk) : (s.walked w).mem = s.mem := by
  unfold State.walked
  dsimp only
  repeat' split
  all_goals simp [foldl_mem]

@[simp] theorem State.refill_mem (core ctx asid : Nat) (n : Want) (p : Word) : (s.refill core ctx asid n p).2.mem = s.mem := by
  unfold State.refill
  dsimp only
  repeat' split
  all_goals simp

/-! ### Requests at a bank, channel or port (R105, R124) -/

@[simp] theorem State.postBack_mem (n : Nat) (r : Req) (d : Nat) : (s.postBack n r d).mem = s.mem := rfl

@[simp] theorem State.sendAgain_mem (n : Nat) (r : Req) : (s.sendAgain n r).mem = s.mem := rfl

@[simp] theorem State.admitOne_ok (n : Nat) (r : Req) (h : s.MemOk) : (s.admitOne n r).MemOk := by
  unfold State.admitOne
  split
  · simp [State.MemOk, h]
  · split
    · exact h
    · exact State.meetWord_ok _ _ h

/-- An admitted request, and the reads merged with it, meet their words one after the other. -/
@[simp] theorem State.takeUp_ok (n : Nat) (r : Req) (h : s.MemOk) : (s.takeUp n r).MemOk := by
  unfold State.takeUp
  refine foldl_ok _ (fun u e hu => ?_) _ (State.admitOne_ok n r h)
  exact State.admitOne_ok _ _ hu

@[simp] theorem State.joinFlow_mem (b n : Nat) (r : Req) (cls weight region : Nat) :
    (s.joinFlow b n r cls weight region).mem = s.mem := rfl

@[simp] theorem State.arrive_ok (n : Nat) (h : s.MemOk) : (s.arrive n).MemOk := by
  unfold State.arrive
  dsimp only
  repeat' split
  all_goals simp [State.MemOk, h]

@[simp] theorem State.admitNext_ok (b : Nat) (h : s.MemOk) : (s.admitNext b).MemOk := by
  unfold State.admitNext
  dsimp only
  repeat' split
  all_goals simp [State.MemOk, h]

/-! ### Launch entries, and free words -/

@[simp] theorem State.setEntry_mem (die n i : Nat) (v : Word) : (s.setEntry die n i v).mem = s.mem := rfl

@[simp] theorem State.freeWords_mem (n : Nat) : (s.freeWords n).2.mem = s.mem := by
  induction n generalizing s with
  | zero => rfl
  | succ n ih => simp [State.freeWords, ih]

/-! ### Slots, windows and the threads that take and leave them -/

@[simp] theorem State.settle_mem (c k : Nat) (t : Thread) (ready : Nat) : (s.settle c k t ready).mem = s.mem := rfl

@[simp] theorem State.createIn_mem (c k : Nat) (t : Thread) (d : Nat) : (s.createIn c k t d).mem = s.mem := by
  unfold State.createIn
  split <;> rfl

@[simp] theorem State.create_mem (c k : Nat) (t : Thread) : (s.create c k t).mem = s.mem := by
  simp [State.create]

@[simp] theorem State.setWs_mem (c k n : Nat) (l : List Word) : (s.setWs c k n l).mem = s.mem := by
  induction l generalizing s n with
  | nil => rfl
  | cons v l ih => simp [State.setWs, ih]

@[simp] theorem State.postAll_mem (rank : Nat) (f : Nat → Instr) (l : List Nat) : (s.postAll rank f l).mem = s.mem := by
  induction l generalizing s with
  | nil => rfl
  | cons n l ih => simp [State.postAll, ih]

@[simp] theorem State.retryPressed_mem (c : Nat) : (s.retryPressed c).mem = s.mem := by
  simp [State.retryPressed]

@[simp] theorem State.drainCheck_mem (c : Nat) : (s.drainCheck c).mem = s.mem :=
  foldl_mem _ (fun u e => by split <;> rfl) _

@[simp] theorem State.retryDispatch_mem (c : Nat) : (s.retryDispatch c).mem = s.mem :=
  foldl_mem _ (fun _ _ => foldl_mem _ (fun _ _ => foldl_mem _ (fun u p => by split <;> simp) _) _) _

theorem State.seat_mem (msg : Nat) {t : State} (h : s.seat msg = some t) : t.mem = s.mem := by
  unfold State.seat at h
  dsimp only at h
  split at h
  · split at h
    · cases h; simp
    · split at h
      · cases h; rfl
      · split at h
        · cases h
        · split at h
          · cases h
          · split at h <;> cases h
            simp
  · cases h; rfl

@[simp] theorem State.seatAll_mem (c : Nat) (l : List Nat) : (s.seatAll c l).mem = s.mem := by
  induction l generalizing s with
  | nil => rfl
  | cons n l ih =>
    rw [State.seatAll]
    split
    · rename_i e; rw [ih, State.seat_mem _ e]
    · rfl

@[simp] theorem State.seatElsewhere_mem (c : Nat) : (s.seatElsewhere c).mem = s.mem := by
  simp [State.seatElsewhere]

@[simp] theorem State.vacated_mem (c : Nat) : (s.vacated c).mem = s.mem := by
  simp [State.vacated]

@[simp] theorem State.disarm_mem (c k m : Nat) : (s.disarm c k m).mem = s.mem := by
  unfold State.disarm
  split <;> rfl

@[simp] theorem State.disarmAll_mem (c k : Nat) : (s.disarmAll c k).mem = s.mem := by
  simp [State.disarmAll]

@[simp] theorem State.dropN_mem (c n : Nat) : (s.dropN c n).mem = s.mem := by
  induction n generalizing s with
  | zero => rfl
  | succ n ih => simp [State.dropN, ih]

@[simp] theorem State.sweep_mem : s.sweep.mem = s.mem := by
  unfold State.sweep
  split <;> rfl

@[simp] theorem State.leave_mem (c k : Nat) : (s.leave c k).mem = s.mem := by
  unfold State.leave
  repeat' split
  all_goals simp

@[simp] theorem State.withdraw_mem (n : Nat) : (s.withdraw n).mem = s.mem := by
  unfold State.withdraw
  repeat' split
  all_goals simp

@[simp] theorem State.dropGather_mem (t : Tid) : (s.dropGather t).mem = s.mem := by
  unfold State.dropGather
  dsimp only
  split
  · rfl
  · rw [foldl_mem _ fun u e => by split <;> rfl]
    refine foldl_mem _ (fun u e => ?_) _
    repeat' split
    all_goals simp

@[simp] theorem State.withdrawAll_mem (t : Tid) : (s.withdrawAll t).mem = s.mem := by
  unfold State.withdrawAll
  dsimp only
  simp [apply_ite State.mem, foldl_mem]

@[simp] theorem State.withdrawRest_mem (t : Tid) : (s.withdrawRest t).mem = s.mem := by
  unfold State.withdrawRest
  dsimp only
  simp [apply_ite State.mem, foldl_mem]

@[simp] theorem State.dropViews_mem (f st : Nat) : (s.dropViews f st).mem = s.mem := rfl

@[simp] theorem State.dropRecords_mem (t : Tid) : (s.dropRecords t).mem = s.mem := rfl

@[simp] theorem State.endCancelled_mem (c k : Nat) : (s.endCancelled c k).mem = s.mem := by
  unfold State.endCancelled
  repeat' split
  all_goals simp

@[simp] theorem State.cancelThread_mem (c k : Nat) : (s.cancelThread c k).mem = s.mem := by
  unfold State.cancelThread
  repeat' split
  all_goals simp

@[simp] theorem State.rename_mem (old new : Tid) : (s.rename old new).mem = s.mem := rfl

@[simp] theorem State.move_mem (c k dest k' : Nat) (w pc : Word) : (s.move c k dest k' w pc).mem = s.mem := by
  unfold State.move
  split <;> simp

/-! ### Accesses from issue to departure, views and their allocation (R96 to R99, R280, R281) -/

@[simp] theorem State.defer_mem (t : Tid) (d : Deferred) : (s.defer t d).mem = s.mem := by
  unfold State.defer
  split <;> simp

@[simp] theorem State.moveStops_mem (t : Tid) : (s.moveStops t).mem = s.mem := by
  unfold State.moveStops
  repeat' split
  all_goals simp

@[simp] theorem State.moveMet_mem (t : Tid) (id i code : Nat) (info : Word) : (s.moveMet t id i code info).mem = s.mem := by
  simp [State.moveMet]

@[simp] theorem State.mergeStops_mem (t : Tid) (f : Nat) (epc : Word) : (s.mergeStops t f epc).mem = s.mem := by
  unfold State.mergeStops
  dsimp only
  repeat' split
  all_goals simp

@[simp] theorem State.mergeMet_mem (t : Tid) (f num i turn index : Nat) (epc : Word) (code : Nat) (info : Word) :
    (s.mergeMet t f num i turn index epc code info).mem = s.mem := by
  simp [State.mergeMet]

@[simp] theorem State.mergeHalts_mem (t : Tid) : (s.mergeHalts t).mem = s.mem := by
  unfold State.mergeHalts
  repeat' split
  all_goals simp

@[simp] theorem State.resumeHeld_mem (t : Tid) (n : Nat) : (s.resumeHeld t n).mem = s.mem := by
  unfold State.resumeHeld
  repeat' split
  all_goals simp

@[simp] theorem State.meetEvent_mem (n code : Nat) (info : Word) : (s.meetEvent n code info).mem = s.mem := by
  unfold State.meetEvent
  repeat' split
  all_goals simp

@[simp] theorem State.sendDirty_mem (core : Nat) (l : CLine) (ws : List Nat) (acq : Option Tid) :
    (s.sendDirty core l ws acq).mem = s.mem := by
  unfold State.sendDirty
  split <;> rfl

@[simp] theorem State.flushLine_mem (core line : Nat) : (s.flushLine core line).mem = s.mem := by
  simp [State.flushLine, foldl_mem]

@[simp] theorem State.writeBackOf_mem (core : Nat) : (s.writeBackOf core).mem = s.mem := by
  simp [State.writeBackOf, foldl_mem]

@[simp] theorem State.dropStale_mem (t : Tid) : (s.dropStale t).mem = s.mem := by
  unfold State.dropStale
  dsimp only
  simp [apply_ite State.mem, foldl_mem]

@[simp] theorem State.acquire_mem (t : Tid) (a : Option Scope) : (s.acquire t a).mem = s.mem := by
  unfold State.acquire
  repeat' split
  all_goals simp

@[simp] theorem State.cacheLine_mem (core : Nat) (l : CLine) : (s.cacheLine core l).mem = s.mem := by
  simp [State.cacheLine, foldl_mem]

@[simp] theorem State.combine_mem (n : Nat) (r : Req) (m : Nat) : (s.combine n r m).mem = s.mem := rfl

@[simp] theorem State.noteLine_mem (n : Nat) (r : Req) : (s.noteLine n r).mem = s.mem := by
  unfold State.noteLine
  split <;> rfl

@[simp] theorem State.go_mem (n : Nat) : (s.go n).mem = s.mem := by
  unfold State.go
  dsimp only
  repeat' split
  all_goals simp [foldl_mem]

@[simp] theorem State.send_mem (n : Nat) (key : KeyName) : (s.send n key).mem = s.mem := by
  unfold State.send
  repeat' split
  all_goals simp

@[simp] theorem State.dueHeld_mem (t : Tid) (r : Req) : (s.dueHeld t r).mem = s.mem := by
  simp [State.dueHeld, apply_ite State.mem]

@[simp] theorem State.upCopy_mem (core id : Nat) (f : CopyCmd → CopyCmd) : (s.upCopy core id f).mem = s.mem := rfl

@[simp] theorem State.holdLast_mem (n : Nat) (r : Req) : (s.holdLast n r).mem = s.mem := by
  unfold State.holdLast
  split <;> rfl

@[simp] theorem State.partPlaced_mem (n : Nat) (r : Req) (id part : Nat) (write : Bool) :
    (s.partPlaced n r id part write).mem = s.mem := by
  unfold State.partPlaced
  dsimp only
  split <;> simp [apply_ite State.mem]

@[simp] theorem State.laneWord_mem (n : Nat) (r : Req) : (s.laneWord n r).mem = s.mem := by
  unfold State.laneWord
  split <;> simp

@[simp] theorem State.retryReq_mem (n : Nat) (t : Tid) : (s.retryReq n t).mem = s.mem := by
  simp [State.retryReq]

@[simp] theorem State.relax_mem (n : Nat) (t : Tid) (r : Req) : (s.relax n t r).mem = s.mem := by
  unfold State.relax
  dsimp only
  repeat' split
  all_goals simp

@[simp] theorem State.hit_mem (n : Nat) (t : Tid) (r : Req) (l : CLine) : (s.hit n t r l).mem = s.mem := by
  unfold State.hit
  dsimp only
  repeat' split
  all_goals simp

@[simp] theorem State.miss_mem (n : Nat) (r : Req) (key : KeyName) : (s.miss n r key).mem = s.mem := by
  unfold State.miss
  split <;> simp

@[simp] theorem State.depart_mem (n : Nat) (key : KeyName) : (s.depart n key).mem = s.mem := by
  unfold State.depart
  repeat' split
  all_goals simp

@[simp] theorem State.reportDeferred_mem (t : Tid) (d : Deferred) : (s.reportDeferred t d).mem = s.mem := by
  unfold State.reportDeferred
  repeat' split
  all_goals simp

@[simp] theorem State.holdLeaf_mem (n : Nat) (r : Req) (leaf : Nat) : (s.holdLeaf n r leaf).mem = s.mem := rfl

@[simp] theorem State.startLog_mem (n : Nat) (r : Req) (key : KeyName) (leaf : Nat) : (s.startLog n r key leaf).mem = s.mem := by
  simp [State.startLog, apply_ite State.mem]

@[simp] theorem State.translated_mem (n : Nat) (t : Trans) : (s.translated n t).mem = s.mem := by
  unfold State.translated
  dsimp only
  repeat' split
  all_goals simp

@[simp] theorem State.begin_mem (n : Nat) : (s.begin n).mem = s.mem := by
  unfold State.begin
  repeat' split
  all_goals simp

@[simp] theorem State.upStrand_mem (f st : Nat) (g : Strand → Strand) : (s.upStrand f st g).mem = s.mem := rfl

@[simp] theorem State.setView_mem (core f st num : Nat) (p : Word) (ext : Nat) :
    (s.setView core f st num p ext).mem = s.mem := rfl

@[simp] theorem State.locate_mem (core ctx asid : Nat) (n : Want) (p : Word) : (s.locate core ctx asid n p).2.mem = s.mem := by
  unfold State.locate
  split <;> simp

/-- The runs of a block: the procedure of a first write to a clean page is all that is written on the way (R304). -/
@[simp] theorem State.runsOf_ok (core ctx asid : Nat) (p : Word) (n fuel : Nat) (h : s.MemOk) :
    (s.runsOf core ctx asid p n fuel).2.MemOk := by
  induction fuel generalizing s p n with
  | zero => exact h
  | succ fuel ih =>
    rw [State.runsOf]
    split
    · exact h
    · dsimp only
      split
      · exact h
      · have hl : (s.locate core ctx asid { r := true, w := true } p).2.MemOk := by simpa [State.MemOk] using h
        split <;> rename_i e
        · exact snd_ok e hl
        · have hu := snd_ok e hl
          split <;> rename_i e' <;> have hg := snd_ok e' (by split <;> [exact State.logNow_ok _ _ _ _ hu; exact hu])
          · exact hg
          · split
            · exact hg
            · split
              · exact hg
              · split <;> rename_i e'' <;> exact snd_ok e'' (ih _ _ hg)

/-- A view's allocation empties the words of its block (R199, R280). -/
@[simp] theorem State.viewOf_ok (core f st num : Nat) (v : VSlot) (h : s.MemOk) : (s.viewOf core f st num v).2.MemOk := by
  unfold State.viewOf
  split
  · exact h
  · dsimp only
    split
    · exact h
    · split
      · exact h
      · split
        · exact h
        · split
          · exact h
          · split <;> rename_i e
            · exact snd_ok e (State.runsOf_ok _ _ _ _ _ _ h)
            · simpa [State.MemOk] using
                foldl_ok _ (fun _ _ hu => State.blank_ok _ _ hu) _ (snd_ok e (State.runsOf_ok _ _ _ _ _ _ h))

@[simp] theorem State.redirect_ok (core : Nat) (strand : Option (Nat × Nat)) (how : Redir) (p : Word) (n : Nat) (h : s.MemOk) :
    (s.redirect core strand how p n).2.MemOk := by
  unfold State.redirect
  split
  · exact h
  · exact h
  · exact h
  · dsimp only
    split <;> rename_i e <;> have hv := snd_ok e (State.viewOf_ok _ _ _ _ _ h)
    · exact hv
    · exact hv
    · exact hv
    · split <;> exact hv

@[simp] theorem State.route_ok (n : Nat) (h : s.MemOk) : (s.route n).MemOk := by
  unfold State.route
  split
  · exact h
  · split <;> rename_i e <;> simpa [State.MemOk] using snd_ok e (State.redirect_ok _ _ _ _ _ h)

@[simp] theorem State.ask_ok (r : Req) (h : s.MemOk) : (s.ask r).MemOk := by
  simp [State.ask, State.MemOk, h]

@[simp] theorem State.releaseStart_mem (t : Tid) (sc : Scope) : (s.releaseStart t sc).mem = s.mem := by
  unfold State.releaseStart
  split <;> simp

/-- A release waits, or its body has its effect. -/
theorem Cx.releasing_ok (x : Cx) (m : Mod) (body : State → Out) (far : Bool) (hb : ∀ u, u.MemOk → OutOk (body u)) (h : s.MemOk) :
    OutOk (x.releasing s m body far) := by
  unfold Cx.releasing
  split
  · exact hb _ h
  · dsimp only
    split
    · exact hb _ h
    · refine Cx.again_ok _ _ ?_
      split
      · simpa [State.MemOk] using h
      · exact h

@[simp] theorem Cx.meets_ok (x : Cx) (code : Nat) (info : Word) (h : s.MemOk) : OutOk (x.meets s code info) := by
  unfold Cx.meets
  split <;> simp [State.MemOk, h]

@[simp] theorem Cx.againAt_ok (x : Cx) (a : Nat) (h : s.MemOk) : OutOk (x.againAt s a) := by
  simp [Cx.againAt, h]

/-- An access at its issue writes memory only where its redirection allocates a view. -/
@[simp] theorem Cx.accessAt_ok (x : Cx) (p : Word) (q : Ask) (h : s.MemOk) : OutOk (x.accessAt s p q) := by
  unfold Cx.accessAt
  split
  · exact Cx.deliver_ok _ _ h
  · split
    · exact Cx.trap_ok _ _ _ h
    · split
      · exact Cx.perm_ok _ _ h
      · split
        · exact Cx.perm_ok _ _ h
        · extract_lets t go
          split
          · simp [h]
          · split
            · exact Cx.again_ok _ _ h
            · refine Cx.releasing_ok _ _ _ _ (fun u hu => ?_) h
              split
              · exact Cx.again_ok _ _ hu
              · have hgo (v : State) (p' : Word) (a : Nat) (m : Option Merge) (hv : v.MemOk) : OutOk (go v p' a m) := by
                  simp only [go]
                  simpa [apply_ite State.mem] using hv
                split <;> rename_i e <;> have hv := snd_ok e (State.redirect_ok _ _ _ _ _ hu)
                · exact hgo _ _ _ _ hv
                · exact hgo _ _ _ _ hv
                · exact Cx.perm_ok _ _ hv
                · exact Cx.perm_ok _ _ hv
                · exact Cx.meets_ok _ _ _ hv
                · exact Cx.againAt_ok _ _ hv

@[simp] theorem Cx.access_ok (x : Cx) (base : Word) (delta : Int) (q : Ask) (h : s.MemOk) : OutOk (x.access s base delta q) := by
  unfold Cx.access
  split
  · exact Cx.perm_ok _ _ h
  · exact Cx.accessAt_ok _ _ _ h

@[simp] theorem Cx.readBlock_ok (x : Cx) (p : Word) (words align stage : Nat) (m : Mod) (why : Park) (i : Option Instr) (args : List Word)
    (far : Bool) (h : s.MemOk) : OutOk (x.readBlock s p words align stage m why i args far) :=
  Cx.access_ok _ _ _ _ h

/-! ### Fetching and the rotation (R11, R107) -/

@[simp] theorem State.takeTurn_mem (c k : Nat) : (s.takeTurn c k).mem = s.mem := by
  simp [State.takeTurn]

@[simp] theorem State.goOn_mem (c k : Nat) : (s.goOn c k).mem = s.mem := rfl

@[simp] theorem State.lineWords_mem (pa key : Nat) : (s.lineWords pa key).2.mem = s.mem := by
  unfold State.lineWords
  split <;> rfl

@[simp] theorem State.spend_mem (c : Nat) (t : Thread) : (s.spend c t).mem = s.mem := by
  unfold State.spend
  split <;> rfl

@[simp] theorem State.startFill_mem (c k : Nat) (p : Word) : (s.startFill c k p).mem = s.mem := by
  unfold State.startFill
  split <;> simp

@[simp] theorem State.prefetch_mem (c : Nat) (t : Thread) (pc : Word) : (s.prefetch c t pc).mem = s.mem := by
  unfold State.prefetch
  dsimp only
  split <;> simp [apply_ite State.mem]

@[simp] theorem State.lineWake_mem (n : Nat) (r : Req) : (s.lineWake n r).mem = s.mem := by
  unfold State.lineWake
  repeat' split
  all_goals simp

@[simp] theorem State.lineFails_mem (r : Req) (e : Nat) (info : Word) : (s.lineFails r e info).mem = s.mem := by
  unfold State.lineFails
  repeat' split
  all_goals simp

@[simp] theorem State.lineFilled_mem (c n : Nat) : (s.lineFilled c n).mem = s.mem := by
  unfold State.lineFilled
  dsimp only
  repeat' split
  all_goals simp [foldl_mem]

@[simp] theorem State.firstLine_mem (c : Nat) (t : Thread) : (s.firstLine c t).mem = s.mem := by
  unfold State.firstLine
  split
  · rfl
  · split
    · rfl
    · split
      · rename_i e
        dsimp only
        split
        · rfl
        · simp [snd_mem e]
      · rfl

@[simp] theorem State.fetchEvent_mem (h : Hand) (code : Nat) (info : Word) : (s.fetchEvent h code info).mem = s.mem := by
  unfold State.fetchEvent
  split <;> simp

@[simp] theorem State.rotate_mem (c n : Nat) : (s.rotate c n).mem = s.mem := by
  induction n generalizing s with
  | zero => rfl
  | succ n ih =>
    rw [State.rotate]
    split
    · simp
    · split
      · rfl
      · split <;> simp [ih]

theorem execIssueRotation_ok (core : Nat) (h : s.MemOk) : OutOk (execIssueRotation core s) := by
  unfold execIssueRotation
  dsimp only
  repeat' split
  all_goals simp [h]

theorem execIbufLineFill_ok (core line : Nat) (h : s.MemOk) : OutOk (execIbufLineFill core line s) := by
  simp [execIbufLineFill, h]

theorem execUnassignedEncoding_ok (reason pos : Nat) (h : s.MemOk) : OutOk (execUnassignedEncoding reason pos s) := by
  unfold execUnassignedEncoding
  repeat' split
  all_goals simp [h]

/-! ### Threads (R54 to R64, R78 to R80) -/

@[simp] theorem State.resumeAt_mem (c k : Nat) (pc : Word) : (s.resumeAt c k pc).mem = s.mem := by
  simp [State.resumeAt]

@[simp] theorem State.resumeIn_mem (c k : Nat) (pc : Word) (d : Nat) : (s.resumeIn c k pc d).mem = s.mem := rfl

@[simp] theorem State.granted_mem (c k : Nat) (npc : Word) : (s.granted c k npc).mem = s.mem := by
  simp [State.granted]

theorem execTnew_ok (d a b : Reg) (h : s.MemOk) : OutOk (execTnew d a b s) := by
  unfold execTnew
  refine issue_ok _ _ (fun u x hu => ?_) h
  dsimp only
  repeat' split
  all_goals simp [State.MemOk, hu]

@[simp] theorem State.dropFrames_mem (fs : List Nat) : (s.dropFrames fs).mem = s.mem := rfl

@[simp] theorem State.endThread_mem (c k : Nat) : (s.endThread c k).mem = s.mem := by
  unfold State.endThread
  split <;> simp

theorem Cx.deliverDue_ok (x : Cx) (k : Kind) (body : State → Out) (hb : ∀ u, u.MemOk → OutOk (body u)) (h : s.MemOk) :
    OutOk (x.deliverDue s k body) := by
  unfold Cx.deliverDue
  split
  · exact Cx.deliver_ok _ _ h
  · exact hb _ h

theorem execTend_ok (h : s.MemOk) : OutOk (execTend s) := by
  refine issue_ok _ _ (fun u x hu => ?_) h
  split
  · exact Cx.again_ok _ _ hu
  · refine Cx.deliverDue_ok _ _ _ (fun v hv => ?_) hu
    split
    · exact Cx.perm_ok _ _ hv
    · simpa using hv

theorem execSleep_ok (a : Reg) (imm : Imm) (h : s.MemOk) : OutOk (execSleep a imm s) := by
  unfold execSleep
  refine issue_ok _ _ (fun u x hu => ?_) h
  dsimp only
  repeat' split
  all_goals simp [hu]

@[simp] theorem State.endSleep_mem (t : Tid) : (s.endSleep t).mem = s.mem := by
  unfold State.endSleep
  repeat' split
  all_goals simp

theorem execSleepExpiry_ok (t : Tid) (h : s.MemOk) : OutOk (execSleepExpiry t s) := by
  unfold execSleepExpiry
  repeat' split
  all_goals simp [h]

theorem execYield_ok (h : s.MemOk) : OutOk (execYield s) := by
  unfold execYield
  refine issue_ok _ _ (fun u x hu => ?_) h
  simp [State.MemOk, hu]

theorem execYieldExpiry_ok (t : Tid) (h : s.MemOk) : OutOk (execYieldExpiry t s) := by
  unfold execYieldExpiry
  repeat' split
  all_goals simp [h]

@[simp] theorem State.take_mem (c k d a : Nat) : (s.take c k d a).mem = s.mem := by
  unfold State.take
  dsimp only
  repeat' split
  all_goals simp

@[simp] theorem State.sleepOn_mem (t : Tid) (pc : Word) (wake : Nat) : (s.sleepOn t pc wake).mem = s.mem := by
  unfold State.sleepOn
  split <;> simp

@[simp] theorem State.getsReady_mem (t : Tid) (th : Thread) : (s.getsReady t th).mem = s.mem := by
  unfold State.getsReady
  dsimp only
  split <;> simp [apply_ite State.mem]

theorem execThreadReady_ok (t : Tid) (h : s.MemOk) : OutOk (execThreadReady t s) := by
  unfold execThreadReady
  repeat' split
  all_goals simp [h]

theorem execBankRetention_ok (core : Nat) (h : s.MemOk) : OutOk (execBankRetention core s) := by
  simp [execBankRetention, h]

theorem execRoam_ok (d a : Reg) (h : s.MemOk) : OutOk (execRoam d a s) := by
  unfold execRoam
  refine issue_ok _ _ (fun u x hu => ?_) h
  split <;> simp [State.MemOk, hu]

theorem execMigrate_ok (d a : Reg) (h : s.MemOk) : OutOk (execMigrate d a s) := by
  unfold execMigrate
  refine issue_ok _ _ (fun u x hu => ?_) h
  dsimp only
  repeat' split
  all_goals simp [State.MemOk, hu]

theorem execMigrationArrival_ok (msg : Nat) (h : s.MemOk) : OutOk (execMigrationArrival msg s) := by
  unfold execMigrationArrival
  dsimp only
  repeat' split
  all_goals simp [h]

theorem execFmtset_ok (d : Reg) (imm : Imm) (h : s.MemOk) : OutOk (execFmtset d imm s) :=
  issue_ok _ _ (fun _ x hu => Cx.ret_ok x _ _ hu) h

/-! ### Team barriers (R69 to R72) -/

@[simp] theorem State.setBar_mem (cl n : Nat) (b : TeamBar) : (s.setBar cl n b).mem = s.mem := rfl

@[simp] theorem State.arriveBar_mem (cl n c k : Nat) : (s.arriveBar cl n c k).mem = s.mem := by
  simp [State.arriveBar, apply_ite State.mem]

@[simp] theorem State.arriveWaiting_mem (cl n : Nat) : (s.arriveWaiting cl n).mem = s.mem := by
  refine foldl_mem _ (fun u e => ?_) _
  repeat' split
  all_goals simp

@[simp] theorem State.returnWaiting_mem (cl n below : Nat) : (s.returnWaiting cl n below).mem = s.mem := by
  refine foldl_mem _ (fun u e => ?_) _
  repeat' split
  all_goals simp

@[simp] theorem State.configure_mem (cl n count mask : Nat) : (s.configure cl n count mask).mem = s.mem := by
  unfold State.configure
  dsimp only
  refine (foldl_mem _ (fun u e => ?_) _).trans (by simp)
  repeat' split
  all_goals simp

theorem execBarCfg_ok (d a b : Reg) (h : s.MemOk) : OutOk (execBarCfg d a b s) := by
  unfold execBarCfg
  refine issue_ok _ _ (fun u x hu => ?_) h
  dsimp only
  repeat' split
  all_goals simp [State.MemOk, hu]

theorem execBarArr_ok (m : Mod) (d : Reg) (h : s.MemOk) : OutOk (execBarArr m d s) := by
  refine issue_ok _ _ (fun u x hu => ?_) h
  dsimp only
  split
  · exact Cx.perm_ok _ _ hu
  · refine Cx.releasing_ok _ _ _ _ (fun v hv => ?_) hu
    split
    · exact Cx.done_ok _ (by simpa [State.MemOk] using hv)
    · simpa using hv

theorem execBarWait_ok (z : Mod) (d : Reg) (h : s.MemOk) : OutOk (execBarWait z d s) := by
  unfold execBarWait
  refine issue_ok _ _ (fun u x hu => ?_) h
  dsimp only
  repeat' split
  all_goals simp [State.MemOk, hu]

theorem execTeamBarrierCompletion_ok (cl bar : Nat) (h : s.MemOk) : OutOk (execTeamBarrierCompletion cl bar s) := by
  unfold execTeamBarrierCompletion
  dsimp only
  repeat' split
  all_goals simp [h]

theorem execBarWaitReturn_ok (cl bar : Nat) (h : s.MemOk) : OutOk (execBarWaitReturn cl bar s) := by
  unfold execBarWaitReturn
  dsimp only
  repeat' split
  all_goals simp [h]

@[simp] theorem State.unconfigure_mem (cl n : Nat) : (s.unconfigure cl n).mem = s.mem := by
  unfold State.unconfigure
  refine foldl_mem _ (fun u e => ?_) _
  repeat' split
  all_goals simp

/-! ### Messages (R50, R73 to R77) -/

@[simp] theorem State.stirMwait_mem (t : Tid) : (s.stirMwait t).mem = s.mem := by
  unfold State.stirMwait
  repeat' split
  all_goals simp

@[simp] theorem State.rouse_mem (t : Tid) : (s.rouse t).mem = s.mem := by
  unfold State.rouse
  repeat' split
  all_goals simp

@[simp] theorem State.putPresent_mem (c k reg : Nat) (v : Word) : (s.putPresent c k reg v).mem = s.mem := by
  unfold State.putPresent
  repeat' split
  all_goals simp

theorem State.deliver_mem (c k reg : Nat) (v : Word) {t : State} (h : s.deliver c k reg v = some t) : t.mem = s.mem := by
  unfold State.deliver at h
  split at h
  · cases h; simp
  · split at h
    · cases h; simp
    · split at h
      · cases h; simp
      · split at h
        · cases h; simp
        · split at h <;> cases h
          simp

@[simp] theorem State.sendMsg_mem (frm dest : Nat) (m : Msg) (ev : Nat → Instr) : (s.sendMsg frm dest m ev).mem = s.mem := rfl

@[simp] theorem State.dropMsg_mem (n : Nat) : (s.dropMsg n).mem = s.mem := rfl

@[simp] theorem State.press_mem (c n : Nat) : (s.press c n).mem = s.mem := rfl

theorem execRegisterWriteArrival_ok (msg : Nat) (h : s.MemOk) : OutOk (execRegisterWriteArrival msg s) := by
  unfold execRegisterWriteArrival
  split
  · dsimp only
    split
    · simpa using h
    · split
      · simpa using h
      · split
        · simpa using h
        · rename_i e
          split <;> simpa [State.deliver_mem _ _ _ _ e] using h
  · simpa using h

@[simp] theorem State.sendWord_mem (frm : Nat) (d : Word) (reg : Nat) (v : Word) (cont : Bool) :
    (s.sendWord frm d reg v cont).mem = s.mem := by
  simp [State.sendWord, apply_ite State.mem]

theorem Cx.afterVectors_ok (x : Cx) (body : State → Out) (hb : ∀ u, u.MemOk → OutOk (body u)) (h : s.MemOk) :
    OutOk (x.afterVectors s body) := by
  unfold Cx.afterVectors
  split
  · exact Cx.again_ok _ _ h
  · exact hb _ h

theorem execSend_ok (m : Mod) (d a b : Reg) (h : s.MemOk) : OutOk (execSend m d a b s) :=
  issue_ok _ _ (fun _ _ hu => Cx.releasing_ok _ _ _ _ (fun _ hv => Cx.afterVectors_ok _ _
    (fun _ hw => Cx.done_ok _ (by simpa [State.MemOk] using hw)) hv) hu) h

theorem execCont_ok (a b : Reg) (h : s.MemOk) : OutOk (execCont a b s) :=
  issue_ok _ _ (fun _ _ hu => Cx.afterVectors_ok _ _ (fun _ hv => Cx.done_ok _ (by simpa [State.MemOk] using hv)) hu) h

theorem execContid_ok (d a : Reg) (h : s.MemOk) : OutOk (execContid d a s) :=
  issue_ok _ _ (fun _ x hu => Cx.ret_ok x _ _ hu) h

theorem execNput_ok (dir : Dir) (a b : Reg) (h : s.MemOk) : OutOk (execNput dir a b s) := by
  refine issue_ok _ _ (fun u x hu => Cx.afterVectors_ok _ _ (fun v hv => ?_) hu) h
  split
  · exact Cx.perm_ok _ _ hv
  · split
    · exact Cx.perm_ok _ _ hv
    · dsimp only
      split
      · exact Cx.done_ok _ hv
      · simpa using hv

@[simp] theorem State.unlink_mem (frm n : Nat) : (s.unlink frm n).mem = s.mem := by
  unfold State.unlink
  dsimp only
  repeat' split
  all_goals simp

theorem execNputLinkArrival_ok (msg : Nat) (h : s.MemOk) : OutOk (execNputLinkArrival msg s) := by
  unfold execNputLinkArrival
  split
  · dsimp only
    split
    · simpa using h
    · split
      · simpa using h
      · rename_i e
        simpa [State.deliver_mem _ _ _ _ e] using h
  · simpa using h

theorem execMovT_ok (d a : Reg) (h : s.MemOk) : OutOk (execMovT d a s) := by
  unfold execMovT
  refine issue_ok _ _ (fun u x hu => ?_) h
  split <;> simp [State.MemOk, hu]

theorem execAmsg_ok (a b : Reg) (h : s.MemOk) : OutOk (execAmsg a b s) := by
  refine issue_ok _ _ (fun u x hu => Cx.afterVectors_ok _ _ (fun v hv => ?_) hu) h
  dsimp only
  split
  · exact Cx.perm_ok _ _ hv
  · exact Cx.readBlock_ok _ _ _ _ _ _ _ _ _ _ hv

@[simp] theorem State.amsgRead_mem (r : Req) : (s.amsgRead r).mem = s.mem := by
  unfold State.amsgRead
  split <;> simp

theorem execAmsgArrival_ok (msg : Nat) (h : s.MemOk) : OutOk (execAmsgArrival msg s) := by
  unfold execAmsgArrival
  split
  · dsimp only
    split
    · simpa using h
    · split
      · simpa using h
      · split
        · rename_i e
          simpa [State.seat_mem _ e] using h
        · simpa using h
  · simpa using h

/-! ### Launching and dispatch (R65 to R68, R265 to R271) -/

@[simp] theorem State.enqueue_mem (p : Packet) (r : Rect) : (s.enqueue p r).mem = s.mem := by
  simp [State.enqueue]

theorem execLaunch_ok (d a : Reg) (h : s.MemOk) : OutOk (execLaunch d a s) := by
  refine issue_ok _ _ (fun u x hu => Cx.afterVectors_ok _ _ (fun v hv => ?_) hu) h
  dsimp only
  split
  · exact Cx.ret_ok _ _ _ hv
  · exact Cx.readBlock_ok _ _ _ _ _ _ _ _ _ _ hv

@[simp] theorem State.answer_mem (r : Req) (d : Nat) (v : Word) : (s.answer r d v).mem = s.mem := by
  unfold State.answer
  repeat' split
  all_goals simp

@[simp] theorem State.answerErr_mem (r : Req) (d : Nat) (e : Int) : (s.answerErr r d e).mem = s.mem := by
  simp [State.answerErr]

@[simp] theorem State.follow_mem (r : Req) (p : Word) (words align stage : Nat) (args : List Word) :
    (s.follow r p words align stage args).mem = s.mem := by
  unfold State.follow
  repeat' split
  all_goals simp

@[simp] theorem State.launchPacket_mem (r : Req) : (s.launchPacket r).mem = s.mem := by
  unfold State.launchPacket
  dsimp only
  split <;> simp [apply_ite State.mem]

@[simp] theorem State.submit_mem (r : Req) (d : Nat) (ptr : Word) (ws : List Word) (rect : Rect) (g : Region) :
    (s.submit r d ptr ws rect g).mem = s.mem := by
  unfold State.submit
  dsimp only
  repeat' split
  all_goals simp

@[simp] theorem State.launchRegion_mem (r : Req) : (s.launchRegion r).mem = s.mem := by
  unfold State.launchRegion
  dsimp only
  repeat' split
  all_goals simp

@[simp] theorem State.launchAgain_mem (n : Nat) : (s.launchAgain n).mem = s.mem := by
  unfold State.launchAgain
  split <;> simp

@[simp] theorem State.retryLaunches_mem (die : Nat) : (s.retryLaunches die).mem = s.mem := by
  simp [State.retryLaunches, foldl_mem]

@[simp] theorem State.startTeam_mem (c : Nat) (p : Packet) (base size delay n : Nat) (l : List (Nat × Word)) :
    (s.startTeam c p base size delay n l).mem = s.mem := by
  induction l generalizing s n with
  | nil => rfl
  | cons e l ih => simp [State.startTeam, ih]

theorem State.placeTeam_mem (c : Nat) (p : Packet) (base size : Nat) (slots : List Nat) {t : State}
    (h : s.placeTeam c p base size slots = some t) :
    t.mem = s.mem := by
  obtain ⟨l, -, rfl⟩ := Option.map_eq_some_iff.1 h
  simp

@[simp] theorem State.dispatched_mem (die cls n c : Nat) : (s.dispatched die cls n c).mem = s.mem := by
  simp [State.dispatched, apply_ite State.mem]

theorem execDispatch_ok (pkt core : Nat) (h : s.MemOk) : OutOk (execDispatch pkt core s) := by
  unfold execDispatch
  split
  · simpa using h
  · split
    · simpa using h
    · split
      · simpa using h
      · split
        · simpa using h
        · split
          · simpa using h
          · split
            · simpa using h
            · dsimp only
              split
              · simpa using h
              · split
                · simpa using h
                · rename_i e
                  simpa [State.placeTeam_mem _ _ _ _ _ e] using h

@[simp] theorem State.storeEntry_mem (die n i : Nat) (v : Word) : (s.storeEntry die n i v).mem = s.mem := by
  simp [State.storeEntry, apply_ite State.mem]

@[simp] theorem State.readRun_mem (a n : Nat) : (s.readRun a n).mem = s.mem := by
  unfold State.readRun
  split <;> simp

@[simp] theorem State.setTaken_mem (die n : Nat) (e : Bool) : (s.setTaken die n e).mem = s.mem := rfl

@[simp] theorem State.serveStatus_mem (m : Nat) (r : Req) (die n : Nat) : (s.serveStatus m r die n).mem = s.mem := by
  unfold State.serveStatus
  split <;> simp

@[simp] theorem State.wakeReaders_mem (die n fuel : Nat) : (s.wakeReaders die n fuel).mem = s.mem := by
  induction fuel generalizing s with
  | zero => rfl
  | succ fuel ih =>
    rw [State.wakeReaders]
    split
    · rfl
    · split
      · rw [ih]; simp
      · rfl

@[simp] theorem State.outcome_mem (die n missed : Nat) (code : Int) (out : Nat) :
    (s.outcome die n missed code out).mem = s.mem := by
  simp [State.outcome]

@[simp] theorem State.disarmEntry_mem (die n : Nat) : (s.disarmEntry die n).mem = s.mem := rfl

@[simp] theorem State.noteMiss_mem (die n : Nat) : (s.noteMiss die n).mem = s.mem := by
  unfold State.noteMiss
  split <;> rfl

@[simp] theorem State.nextOccurrence_mem (die n : Nat) : (s.nextOccurrence die n).mem = s.mem := by
  simp [State.nextOccurrence, apply_ite State.mem]

@[simp] theorem State.submitEntry_mem (die n missed out : Nat) : (s.submitEntry die n missed out).2.mem = s.mem := by
  unfold State.submitEntry
  dsimp only
  repeat' split
  all_goals simp [foldl_mem]

@[simp] theorem State.evaluate_mem (die n : Nat) : (s.evaluate die n).mem = s.mem := by
  unfold State.evaluate
  dsimp only
  repeat' split
  all_goals simp

theorem execLaunchTableEvaluation_ok (die : Nat) (h : s.MemOk) : OutOk (execLaunchTableEvaluation die s) := by
  unfold execLaunchTableEvaluation
  dsimp only
  repeat' split
  all_goals simp [foldl_mem, h]

theorem execCancel_ok (d a : Reg) (h : s.MemOk) : OutOk (execCancel d a s) := by
  unfold execCancel
  refine issue_ok _ _ (fun u x hu => ?_) h
  dsimp only
  repeat' split
  all_goals simp [State.MemOk, hu]

@[simp] theorem State.mergeCut_mem (f : Nat) (fr : TFrame) (m : Merging) : (s.mergeCut f fr m).mem = s.mem := rfl

@[simp] theorem State.freeHeld_mem (core f : Nat) (fr : TFrame) : (s.freeHeld core f fr).mem = s.mem := by
  unfold State.freeHeld
  repeat' split
  all_goals simp

theorem execCancelNotice_ok (core : Nat) (rcb : Word) (h : s.MemOk) : OutOk (execCancelNotice core rcb s) := by
  unfold execCancelNotice
  dsimp only
  simp [apply_ite State.mem, foldl_mem, h]

/-! ### Tasks, continuations and merges (R199 to R201, R272 to R287) -/

theorem State.openFrame_mem (c k : Nat) {t : State} (h : s.openFrame c k = some t) : t.mem = s.mem := by
  unfold State.openFrame at h
  split at h
  · cases h
  · extract_lets depth at h
    split at h
    · cases h
    · obtain rfl := Option.some.inj h
      rfl

@[simp] theorem State.closeFrame_mem (c k : Nat) : (s.closeFrame c k).mem = s.mem := by
  unfold State.closeFrame
  split <;> rfl

theorem execVdecl_ok (d a b : Reg) (h : s.MemOk) : OutOk (execVdecl d a b s) := by
  refine issue_ok _ _ (fun u x hu => ?_) h
  extract_lets desc base ext elem op slot own declared abs seen q v
  clear_value own
  split
  · exact Cx.perm_ok _ _ hu
  · split
    · exact Cx.perm_ok _ _ hu
    · exact Cx.perm_ok _ _ hu
    · split
      · exact Cx.trap_ok _ _ _ hu
      · split
        · exact Cx.perm_ok _ _ hu
        · split
          · exact Cx.perm_ok _ _ hu
          · split
            · exact Cx.perm_ok _ _ hu
            · split <;> rename_i e
              · exact Cx.perm_ok _ _ hu
              · rename_i w
                have hw : w.MemOk := by
                  split at e
                  · exact Option.some.inj e ▸ hu
                  · simpa [State.MemOk, State.openFrame_mem _ _ e] using hu
                split
                · exact Cx.done_ok _ hw
                · exact Cx.done_ok _ hw

theorem execVdrop_ok (d : Reg) (h : s.MemOk) : OutOk (execVdrop d s) := by
  unfold execVdrop
  refine issue_ok _ _ (fun u x hu => ?_) h
  dsimp only
  repeat' split
  all_goals simp [State.MemOk, hu]

@[simp] theorem State.targetOf_ok (t : Tid) (f num : Nat) (v : VSlot) (h : s.MemOk) : (s.targetOf t f num v).2.2.MemOk := by
  unfold State.targetOf
  dsimp only
  repeat' split
  all_goals simp [State.MemOk, h]

@[simp] theorem State.jobAsk_mem (r : Req) (t : Tid) (p : Word) (op : MemOp) (stage : Nat) :
    (s.jobAsk r t p op stage).mem = s.mem := by
  unfold State.jobAsk
  split <;> simp

@[simp] theorem State.mergeAsk_mem (r : Req) (t : Tid) (f num i turn index : Nat) (hold : Bool) (p : Word) (op : MemOp)
    (since : Nat) :
    (s.mergeAsk r t f num i turn index hold p op since).mem = s.mem := by
  unfold State.mergeAsk
  split <;> simp

@[simp] theorem State.freeView_mem (f st num : Nat) : (s.freeView f st num).mem = s.mem := rfl

@[simp] theorem State.markMerged_mem (f st : Nat) : (s.markMerged f st).mem = s.mem := rfl

@[simp] theorem State.joined_mem (f c k : Nat) (npc : Word) : (s.joined f c k npc).mem = s.mem := rfl

@[simp] theorem State.checkJoin_mem (f : Nat) : (s.checkJoin f).mem = s.mem := by
  unfold State.checkJoin
  repeat' split
  all_goals simp

@[simp] theorem State.resumeCont_mem (c k : Nat) (e : Cont) : (s.resumeCont c k e).mem = s.mem := by
  unfold State.resumeCont
  repeat' split
  all_goals simp

@[simp] theorem State.dropCont_mem (c : Nat) (e : Cont) : (s.dropCont c e).mem = s.mem := rfl

@[simp] theorem State.blendRest_mem (r : Req) (t : Tid) : (s.blendRest r t).mem = s.mem := by
  unfold State.blendRest
  repeat' split
  all_goals simp

@[simp] theorem State.inlineRead_mem (t : Tid) : (s.inlineRead t).mem = s.mem := by
  unfold State.inlineRead
  split <;> simp

@[simp] theorem State.startProbes_mem (g : Region) (ctx : Nat) : (s.startProbes g ctx).mem = s.mem :=
  foldl_mem _ (fun u e => by split <;> rfl) _

@[simp] theorem State.beginChild_mem (t : Tid) (f : Nat) (entry : Word) : (s.beginChild t f entry).mem = s.mem := by
  simp [State.beginChild]

@[simp] theorem State.recordWritten_mem (t : Tid) (f : Nat) (entry : Word) : (s.recordWritten t f entry).mem = s.mem := by
  simp [State.recordWritten]

@[simp] theorem State.spawnRest_mem (r : Req) (t : Tid) : (s.spawnRest r t).mem = s.mem := by
  unfold State.spawnRest
  dsimp only
  repeat' split
  all_goals simp

@[simp] theorem State.joinRest_mem (r : Req) (t : Tid) : (s.joinRest r t).mem = s.mem := by
  simp [State.joinRest, apply_ite State.mem]

@[simp] theorem State.jobRest_mem (r : Req) (t : Tid) : (s.jobRest r t).mem = s.mem := by
  unfold State.jobRest
  split <;> simp

@[simp] theorem State.mergeSend_mem (r : Req) (t : Tid) (f fuel : Nat) : (s.mergeSend r t f fuel).mem = s.mem := by
  induction fuel generalizing s r with
  | zero => rfl
  | succ fuel ih =>
    rw [State.mergeSend]
    split
    · rfl
    · split
      · rfl
      · split
        · rfl
        · dsimp only
          split <;> simp [ih]

@[simp] theorem State.mergeStart_mem (r : Req) (t : Tid) (f st : Nat) (sd : Strand) : (s.mergeStart r t f st sd).mem = s.mem := by
  simp [State.mergeStart]

@[simp] theorem State.runMerges_mem (r : Req) (t : Tid) (f fuel : Nat) : (s.runMerges r t f fuel).mem = s.mem := by
  induction fuel generalizing s with
  | zero => rfl
  | succ fuel ih =>
    rw [State.runMerges]
    repeat' split
    all_goals simp [ih]

@[simp] theorem State.pokeMergers_mem : s.pokeMergers.mem = s.mem := by
  refine foldl_mem _ (fun u e => ?_) _
  repeat' split
  all_goals simp

@[simp] theorem State.accessDone_mem (n : Nat) : (s.accessDone n).mem = s.mem := by
  unfold State.accessDone
  rw [State.pokeMergers_mem]
  exact foldl_mem _ (fun _ _ => foldl_mem _ (fun _ _ => foldl_mem _ (fun u p => by split <;> simp) _) _) _

@[simp] theorem State.merges_mem (r : Req) (t : Tid) (f : Nat) : (s.merges r t f).mem = s.mem := by
  simp [State.merges]

@[simp] theorem State.mergeEnd_mem (r : Req) (t : Tid) (f : Nat) (m : Merging) : (s.mergeEnd r t f m).mem = s.mem := by
  unfold State.mergeEnd
  extract_lets nums u v
  have hv : v.mem = s.mem := by
    simp only [v, State.upStrand_mem, State.upFrame_mem]
    exact foldl_mem _ (fun _ _ => by simp) _
  split
  · exact hv
  · split <;> simp [hv]

@[simp] theorem State.mergeCheck_mem (r : Req) (t : Tid) (f : Nat) : (s.mergeCheck r t f).mem = s.mem := by
  unfold State.mergeCheck
  repeat' split
  all_goals simp

@[simp] theorem State.mergeAcked_mem (r : Req) (t : Tid) : (s.mergeAcked r t).mem = s.mem := by
  simp [State.mergeAcked]

@[simp] theorem State.mergeGot_ok (r : Req) (t : Tid) (num i turn : Nat) (h : s.MemOk) : (s.mergeGot r t num i turn).MemOk := by
  unfold State.mergeGot
  dsimp only
  split
  · simpa [State.MemOk] using h
  · split
    · simpa [State.MemOk] using h
    · split <;> rename_i e
      all_goals
        have ht := snd_snd_ok e (State.targetOf_ok _ _ _ _ h)
        simpa [State.MemOk] using ht

@[simp] theorem State.endStrand_mem (c k : Nat) : (s.endStrand c k).mem = s.mem := by
  unfold State.endStrand
  repeat' split
  all_goals simp

@[simp] theorem State.addStrands_mem (f n : Nat) : (s.addStrands f n).mem = s.mem := rfl

theorem execSpawn_ok (d a : Reg) (h : s.MemOk) : OutOk (execSpawn d a s) := by
  refine issue_ok _ _ (fun u x hu => ?_) h
  extract_lets entry rest go
  have hgo (v : State) (f : Option Nat) (hv : v.MemOk) : OutOk (go v f) := by
    simp only [go]
    split <;> simpa using hv
  clear_value go
  split
  · exact Cx.trap_ok _ _ _ hu
  · split
    · simpa using hu
    · split
      · exact hgo _ _ hu
      · split <;> rename_i e
        · exact Cx.perm_ok _ _ hu
        · rename_i w
          have hw : w.MemOk := by
            split at e
            · simpa [State.MemOk, State.openFrame_mem _ _ e] using hu
            · exact Option.some.inj e ▸ hu
          split
          · simpa using hw
          · split
            · exact hgo _ _ (by simpa [State.MemOk] using hw)
            · exact hgo _ _ hw

theorem execBlend_ok (h : s.MemOk) : OutOk (execBlend s) := by
  unfold execBlend
  refine issue_ok _ _ (fun u x hu => ?_) h
  dsimp only
  repeat' split
  all_goals simp [State.MemOk, hu]

theorem execJoin_ok (h : s.MemOk) : OutOk (execJoin s) := by
  unfold execJoin
  refine issue_ok _ _ (fun u x hu => ?_) h
  repeat' split
  all_goals simp [State.MemOk, hu]

theorem State.startCont_mem (c : Nat) (e : Cont) (probe : Nat) {t : State} (h : s.startCont c e probe = some t) :
    t.mem = s.mem := by
  unfold State.startCont at h
  split at h
  · cases h
  · split at h <;> cases h
    simp

@[simp] theorem State.takeConts_mem (thief victim probe : Nat) (l : List Cont) :
    (s.takeConts thief victim probe l).mem = s.mem := by
  induction l generalizing s with
  | nil => rfl
  | cons e l ih =>
    rw [State.takeConts]
    split
    · rfl
    · rename_i ht; rw [ih]; simp [State.startCont_mem _ _ _ ht]

@[simp] theorem State.probe_mem (thief victim : Nat) (g : Region) : (s.probe thief victim g).mem = s.mem := by
  simp [State.probe]

@[simp] theorem State.probeFor_mem (core : Nat) (g : Region) : (s.probeFor core g).mem = s.mem := by
  unfold State.probeFor
  dsimp only
  repeat' split
  all_goals simp

theorem execStealProbe_ok (core : Nat) (h : s.MemOk) : OutOk (execStealProbe core s) := by
  unfold execStealProbe
  split
  · simpa using h
  · rw [outOk_next, State.after_mem, foldl_mem _ fun _ _ => by simp]
    exact h

/-! ### Atomics, sections, fences and monitors (R126, R133 to R150) -/

@[simp] theorem issueRsv_ok (pair : Bool) (m : Mod) (d a : Reg) (h : s.MemOk) : OutOk (issueRsv pair m d a s) :=
  issue_ok _ _ (fun _ _ hu => Cx.access_ok _ _ _ _ hu) h

@[simp] theorem State.rsvBack_mem (r : Req) (pair : Bool) : (s.rsvBack r pair).mem = s.mem := rfl

@[simp] theorem State.rsvGot_mem (r : Req) (pair : Bool) : (s.rsvGot r pair).mem = s.mem := by
  unfold State.rsvGot
  repeat' split
  all_goals simp

theorem execRel_ok (m : Mod) (d : Reg) (h : s.MemOk) : OutOk (execRel m d s) := by
  refine issue_ok _ _ (fun u x hu => Cx.releasing_ok _ _ _ _ (fun v hv => ?_) hu) h
  split
  · exact Cx.trap_ok _ _ _ hv
  · simpa using hv

@[simp] theorem issueAtomic_ok (op : AtomOp) (m : Mod) (d a b : Reg) (h : s.MemOk) : OutOk (issueAtomic op m d a b s) :=
  issue_ok _ _ (fun _ _ hu => Cx.access_ok _ _ _ _ hu) h

theorem execCas2_ok (m : Mod) (d a b : Reg) (h : s.MemOk) : OutOk (execCas2 m d a b s) :=
  issue_ok _ _ (fun _ _ hu => Cx.access_ok _ _ _ _ hu) h

theorem execFence_ok (m : Mod) (h : s.MemOk) : OutOk (execFence m s) := by
  refine issue_ok _ _ (fun u x hu => ?_) h
  dsimp only
  split
  · exact Cx.again_ok _ _ hu
  · refine Cx.deliverDue_ok _ _ _ (fun v hv => Cx.releasing_ok _ _ _ _ (fun w hw => ?_) hv) hu
    have ha : (w.acquire (x.tid u) (acqOf m)).MemOk := by simpa [State.MemOk] using hw
    split
    · exact Cx.again_ok _ _ ha
    · exact Cx.done_ok _ ha

theorem execMonArm_ok (d a : Reg) (mon : BitVec 2) (h : s.MemOk) : OutOk (execMonArm d a mon s) :=
  issue_ok _ _ (fun _ _ hu => Cx.access_ok _ _ _ _ hu) h

theorem execMonClr_ok (mon : BitVec 3) (h : s.MemOk) : OutOk (execMonClr mon s) := by
  unfold execMonClr
  refine issue_ok _ _ (fun u x hu => ?_) h
  split <;> simp [State.MemOk, hu]

theorem execMonitorFire_ok (t : Tid) (mon : Nat) (h : s.MemOk) : OutOk (execMonitorFire t mon s) := by
  simp [execMonitorFire, h]

theorem execMwait_ok (m : Mod) (d a : Reg) (h : s.MemOk) : OutOk (execMwait m d a s) := by
  unfold execMwait
  refine issue_ok _ _ (fun u x hu => ?_) h
  dsimp only
  repeat' split
  all_goals simp [State.MemOk, hu]

theorem execMwaitTimeout_ok (t : Tid) (h : s.MemOk) : OutOk (execMwaitTimeout t s) := by
  unfold execMwaitTimeout
  dsimp only
  repeat' split
  all_goals simp [h]

/-! ### Special registers (R42, R43) -/

theorem execWrs_ok (r : SpReg) (a : Reg) (h : s.MemOk) : OutOk (execWrs r a s) := by
  unfold execWrs
  refine issue_ok _ _ (fun u x hu => ?_) h
  dsimp only
  repeat' split
  all_goals simp [State.MemOk, hu]

@[simp] theorem State.staleFills_mem (c : Nat) : (s.staleFills c).mem = s.mem := rfl

theorem execIflush_ok (h : s.MemOk) : OutOk (execIflush s) := by
  unfold execIflush
  refine issue_ok _ _ (fun u x hu => ?_) h
  simp [hu]

theorem execIflushExpiry_ok (t : Tid) (h : s.MemOk) : OutOk (execIflushExpiry t s) := by
  unfold execIflushExpiry
  repeat' split
  all_goals simp [h]

/-! ### Stores to tables and far accesses (R119, R296, R353, R358) -/

@[simp] theorem State.ringSend_mem (n : Nat) (op : MemOp) (use : Use) (p : Word) : (s.ringSend n op use p).mem = s.mem := by
  simp [State.ringSend]

@[simp] theorem State.ringStart_mem (n : Nat) : (s.ringStart n).mem = s.mem := by
  simp [State.ringStart, apply_ite State.mem]

@[simp] theorem State.ringStop_mem (n : Nat) : (s.ringStop n).mem = s.mem := by
  unfold State.ringStop
  dsimp only
  simp [apply_ite State.mem, foldl_mem]

@[simp] theorem State.storeRing_mem (n i : Nat) (v : Word) : (s.storeRing n i v).mem = s.mem := by
  unfold State.storeRing
  dsimp only
  repeat' split
  all_goals simp

@[simp] theorem State.storeDesc_mem (core ctx asid i : Nat) (v : Word) : (s.storeDesc core ctx asid i v).mem = s.mem := by
  simp [State.storeDesc, apply_ite State.mem]

@[simp] theorem State.tableWrite_mem (core ctx : Nat) (w : TableWord) (v : Word) : (s.tableWrite core ctx w v).mem = s.mem := by
  unfold State.tableWrite
  repeat' split
  all_goals simp

@[simp] theorem State.tableMark_mem (w : TableWord) (full : Bool) : (s.tableMark w full).mem = s.mem := by
  unfold State.tableMark
  split <;> simp

@[simp] theorem State.tableFires_mem (pa : Nat) : (s.tableFires pa).mem = s.mem := by
  simp [State.tableFires]

@[simp] theorem State.tableWait_mem (n : Nat) (w : TableWord) : (s.tableWait n w).mem = s.mem := by
  unfold State.tableWait
  split <;> rfl

@[simp] theorem State.tableStore_mem (n : Nat) : (s.tableStore n).mem = s.mem := by
  unfold State.tableStore
  split
  · rfl
  · dsimp only
    cases ‹Req›.op <;> dsimp only
    case stf => split <;> simp
    all_goals simp

@[simp] theorem State.tableRun_mem (core ctx : Nat) (full : Bool) (n : Nat) (l : List Word) :
    (s.tableRun core ctx full n l).mem = s.mem := by
  induction l generalizing s n with
  | nil => rfl
  | cons v l ih =>
    rw [State.tableRun, ih]
    split <;> simp

@[simp] theorem State.tableArrives_ok (n : Nat) (r : Req) (h : s.MemOk) : (s.tableArrives n r).MemOk := by
  unfold State.tableArrives
  dsimp only
  cases r.op <;> dsimp only
  case ldf => split <;> simp [State.MemOk, h]
  case lde => split <;> simp [State.MemOk, h]
  all_goals simp [State.MemOk, State.perform_ok, h]

theorem execLaunchTableStore_ok (r : Nat) (h : s.MemOk) : OutOk (execLaunchTableStore r s) := by
  simp [execLaunchTableStore, h]

theorem execControlCounterStore_ok (r : Nat) (h : s.MemOk) : OutOk (execControlCounterStore r s) := by
  simp [execControlCounterStore, h]

theorem execAsidDescriptorStore_ok (r : Nat) (h : s.MemOk) : OutOk (execAsidDescriptorStore r s) := by
  simp [execAsidDescriptorStore, h]

theorem execControlWindowWrite_ok (r : Nat) (h : s.MemOk) : OutOk (execControlWindowWrite r s) := by
  simp [execControlWindowWrite, h]

theorem execRingControlStore_ok (r : Nat) (h : s.MemOk) : OutOk (execRingControlStore r s) := by
  simp [execRingControlStore, h]

theorem execApertureStore_ok (r : Nat) (h : s.MemOk) : OutOk (execApertureStore r s) := by
  simp [execApertureStore, h]

@[simp] theorem State.farWrite_mem (n : Nat) (r : Req) (ws : List Word) : (s.farWrite n r ws).mem = s.mem := by
  unfold State.farWrite
  dsimp only
  split <;> simp

@[simp] theorem State.farRead_mem (n k : Nat) (r : Req) (f : List Word → List Word) : (s.farRead n k r f).mem = s.mem := by
  simp [State.farRead]

@[simp] theorem State.farArrives_mem (n : Nat) (r : Req) : (s.farArrives n r).mem = s.mem := by
  unfold State.farArrives
  split <;> simp

theorem execFarEndCompletion_ok (r : Nat) (h : s.MemOk) : OutOk (execFarEndCompletion r s) := by
  simp [execFarEndCompletion, foldl_mem, h]

/-! ### Shoot-downs and sequences (R290 to R292, R310 to R317) -/

@[simp] theorem Cx.askUnit_ok (x : Cx) (d : Reg) (code : Nat) (ws : List Word) (lat extra : Nat) (ev : Nat → Instr)
    (h : s.MemOk) : OutOk (x.askUnit s d code ws lat extra ev) := by
  simp [Cx.askUnit, h]

@[simp] theorem State.unitSays_mem (n : Nat) (v : Int) : (s.unitSays n v).mem = s.mem := by
  simp [State.unitSays]

@[simp] theorem State.unitLate_mem (n : Nat) (v : Int) (d : Nat) : (s.unitLate n v d).mem = s.mem := by
  simp [State.unitLate]

@[simp] theorem State.shootLines_mem (h : Shoot) : (s.shootLines h).mem = s.mem := by
  unfold State.shootLines
  dsimp only
  repeat' split
  all_goals simp [foldl_mem]

@[simp] theorem State.fireMon_mem (t : Tid) (m : Nat) : (s.fireMon t m).mem = s.mem := rfl

@[simp] theorem State.shootMons_mem (h : Shoot) : (s.shootMons h).mem = s.mem :=
  foldl_mem _ (fun _ _ => foldl_mem _ (fun _ _ => foldl_mem _ (fun u m => by split <;> simp) _) _) _

@[simp] theorem State.shootDown_mem (h : Shoot) (reach done : Nat) : (s.shootDown h reach done).mem = s.mem := rfl

theorem execShootDownArrival_ok (k : Nat) (h : s.MemOk) : OutOk (execShootDownArrival k s) := by
  unfold execShootDownArrival
  split
  · simpa using h
  · simpa using h

@[simp] theorem State.draw_mem : s.draw.2.mem = s.mem := rfl

@[simp] theorem State.untagSeq_mem (q pa : Nat) : (s.untagSeq q pa).mem = s.mem := by
  simp [State.untagSeq, apply_ite State.mem]

@[simp] theorem State.endSeq_mem (q : Nat) : (s.endSeq q).mem = s.mem := by
  unfold State.endSeq
  dsimp only
  repeat' split
  all_goals simp [foldl_mem]

@[simp] theorem State.dropPage_mem (q p : Nat) : (s.dropPage q p).mem = s.mem := by
  unfold State.dropPage
  split <;> simp

@[simp] theorem State.seqnew_mem (n : Nat) (r : Req) : (s.seqnew n r).mem = s.mem := by
  unfold State.seqnew
  dsimp only
  repeat' split
  all_goals simp

@[simp] theorem State.seqmap_mem (n : Nat) (r : Req) : (s.seqmap n r).mem = s.mem := by
  unfold State.seqmap
  dsimp only
  split <;> simp [apply_ite State.mem]

@[simp] theorem State.sequnmap_mem (n : Nat) (r : Req) : (s.sequnmap n r).mem = s.mem := by
  unfold State.sequnmap
  dsimp only
  split <;> simp [apply_ite State.mem]

@[simp] theorem State.seqend_mem (n : Nat) (r : Req) : (s.seqend n r).mem = s.mem := by
  unfold State.seqend
  dsimp only
  split <;> simp

@[simp] theorem State.seqq_mem (n : Nat) (r : Req) : (s.seqq n r).mem = s.mem := by
  unfold State.seqq
  dsimp only
  split <;> simp [apply_ite State.mem]

@[simp] theorem issueSeq_ok (code extra : Nat) (d : Reg) (ws : List Reg) (check : State → Cx → Option Nat) (h : s.MemOk) :
    OutOk (issueSeq code extra d ws s check) := by
  unfold issueSeq
  refine issue_ok _ _ (fun u x hu => ?_) h
  repeat' split
  all_goals simp [State.MemOk, hu]

@[simp] theorem State.xinv_mem (n : Nat) (r : Req) : (s.xinv n r).mem = s.mem := by
  unfold State.xinv
  dsimp only
  split <;> simp [apply_ite State.mem]

@[simp] theorem issueXinv_ok (d a b : Reg) (h : s.MemOk) : OutOk (issueXinv d a b s) := by
  unfold issueXinv
  refine issue_ok _ _ (fun u x hu => ?_) h
  split <;> simp [State.MemOk, hu]

@[simp] theorem State.clearTag_mem (f : Nat) : (s.clearTag f).mem = s.mem := by
  unfold State.clearTag
  dsimp only
  split <;> simp

@[simp] theorem State.unbindKid_mem (kid : Nat) : (s.unbindKid kid).mem = s.mem := rfl

@[simp] theorem State.destroyed_mem (ctx : Nat) : (s.destroyed ctx).mem = s.mem := by
  simp only [State.destroyed, State.upIo_mem]
  rw [foldl_mem _ (fun _ _ => by simp), foldl_mem _ (fun _ _ => by simp), foldl_mem _ (fun _ _ => by simp)]

@[simp] theorem State.frameDone_mem (h : Shoot) : (s.frameDone h).mem = s.mem := by
  unfold State.frameDone
  split <;> rfl

theorem execShootDownComplete_ok (k : Nat) (h : s.MemOk) : OutOk (execShootDownComplete k s) := by
  unfold execShootDownComplete
  split
  · simpa using h
  · rename_i x _
    extract_lets left u v w y
    split
    · simpa using h
    · have hu : u.mem = s.mem := by
        simp only [u]
        split <;> simp
      have hw : w.mem = v.mem := by
        simp only [w]
        split
        case h_2 => exact foldl_mem _ (fun _ _ => by simp) _
        all_goals simp
      have hy : y.MemOk := by
        have e : y.mem = w.mem := by
          simp only [y]
          split <;> simp
        rw [State.MemOk, e, hw, State.upIo_mem, hu]
        exact h
      split <;> simpa using hy

/-! ### Frames that change hands (R321 to R325, R333 to R340) -/

@[simp] theorem State.foffer_mem (n : Nat) (r : Req) (f mine : Nat) : (s.foffer n r f mine).mem = s.mem := by
  unfold State.foffer
  dsimp only
  repeat' split
  all_goals simp

@[simp] theorem State.faccept_mem (n f mine : Nat) : (s.faccept n f mine).mem = s.mem := by
  simp [State.faccept, apply_ite State.mem]

@[simp] theorem State.flend_mem (n : Nat) (r : Req) (f mine : Nat) : (s.flend n r f mine).mem = s.mem := by
  simp [State.flend, apply_ite State.mem]

@[simp] theorem State.frecall_mem (n f mine : Nat) : (s.frecall n f mine).mem = s.mem := by
  simp [State.frecall, apply_ite State.mem]

@[simp] theorem State.freturn_mem (n f mine : Nat) : (s.freturn n f mine).mem = s.mem := by
  simp [State.freturn, apply_ite State.mem]

@[simp] theorem State.fstrike_mem (n : Nat) (r : Req) (f mine : Nat) : (s.fstrike n r f mine).mem = s.mem := by
  simp [State.fstrike, apply_ite State.mem]

@[simp] theorem State.fotDo_mem (n : Nat) (q : Req) : (s.fotDo n q).mem = s.mem := by
  simp [State.fotDo, apply_ite State.mem]

@[simp] theorem State.fotNext_mem (n : Nat) : (s.fotNext n).mem = s.mem := by
  unfold State.fotNext
  dsimp only
  split <;> simp

theorem execFotPerform_ok (r : Nat) (h : s.MemOk) : OutOk (execFotPerform r s) := by
  unfold execFotPerform
  dsimp only
  repeat' split
  all_goals simp [h]

@[simp] theorem issueFrame_ok (code : Nat) (releases : Bool) (d a : Reg) (b : Option Reg) (h : s.MemOk) :
    OutOk (issueFrame code releases d a b s) := by
  refine issue_ok _ _ (fun u x hu => ?_) h
  split
  · exact Cx.perm_ok _ _ hu
  · split
    · exact Cx.perm_ok _ _ hu
    · exact Cx.releasing_ok _ _ _ _ (fun _ hv => Cx.askUnit_ok _ _ _ _ _ _ _ hv) hu

@[simp] theorem State.endSections_ok (f kern : Nat) (h : s.MemOk) : (s.endSections f kern).MemOk :=
  foldl_ok _ (fun _ _ hu => State.release_ok _ _ _ hu) _ h

theorem execRevocation_ok (frame : Nat) (h : s.MemOk) : OutOk (execRevocation frame s) := by
  unfold execRevocation
  dsimp only
  split <;> simp [State.MemOk, h]

@[simp] theorem State.ringAsk_mem (kern key pa : Nat) (op : MemOp) (use : Use) (args : List Word) :
    (s.ringAsk kern key pa op use args).mem = s.mem := rfl

@[simp] theorem State.ringPut_mem (kern : Nat) (g : RingRef) (pa : Nat) (ws : List Word) (use : Use) :
    (s.ringPut kern g pa ws use).mem = s.mem := rfl

@[simp] theorem State.ringEnds_mem (r : Req) : (s.ringEnds r).mem = s.mem := by
  unfold State.ringEnds
  split <;> rfl

theorem execNoticeWrite_ok (kern : Nat) (h : s.MemOk) : OutOk (execNoticeWrite kern s) := by
  unfold execNoticeWrite
  dsimp only
  repeat' split
  all_goals simp [h]

@[simp] theorem State.noticePut_mem (kern : Nat) : (s.noticePut kern).mem = s.mem := by
  unfold State.noticePut
  dsimp only
  split <;> simp

@[simp] theorem State.noticeEnds_mem (kern : Nat) (r : Req) : (s.noticeEnds kern r).mem = s.mem := by
  simp [State.noticeEnds]

/-! ### Copy engines, sequencers and transaction barriers (R155 to R174) -/

@[simp] theorem State.touchBar_mem (c n : Nat) (f : TBar → TBar) : (s.touchBar c n f).mem = s.mem := by
  simp [State.touchBar, apply_ite State.mem]

@[simp] theorem State.countBytes_mem (c n bytes : Nat) : (s.countBytes c n bytes).mem = s.mem := by
  simp [State.countBytes]

@[simp] theorem State.uncount_mem (c n bytes : Nat) : (s.uncount c n bytes).mem = s.mem := by
  simp [State.uncount]

@[simp] theorem State.releaseTb_mem (c n : Nat) : (s.releaseTb c n).mem = s.mem := by
  refine foldl_mem _ (fun u e => ?_) _
  repeat' split
  all_goals simp

@[simp] theorem State.settleBar_mem (c n : Nat) : (s.settleBar c n).mem = s.mem := by
  simp [State.settleBar]

@[simp] theorem State.settle2_mem : s.settle2.mem = s.mem := by
  simp [State.settle2, foldl_mem]

theorem Cx.tb_ok (x : Cx) (n bytes : Word) (body : Out) (hb : OutOk body) (h : s.MemOk) : OutOk (x.tb s n bytes body) := by
  unfold Cx.tb
  split
  · exact Cx.perm_ok _ _ h
  · exact hb

theorem execTbInit_ok (d : Reg) (h : s.MemOk) : OutOk (execTbInit d s) :=
  issue_ok _ _ (fun _ _ hu => Cx.tb_ok _ _ _ _ (Cx.done_ok _ (by simpa [State.MemOk] using hu)) hu) h

theorem execTbExp_ok (d a : Reg) (h : s.MemOk) : OutOk (execTbExp d a s) :=
  issue_ok _ _ (fun _ _ hu => Cx.tb_ok _ _ _ _ (Cx.done_ok _ (by simpa [State.MemOk] using hu)) hu) h

theorem execTbArr_ok (m : Mod) (d a : Reg) (h : s.MemOk) : OutOk (execTbArr m d a s) :=
  issue_ok _ _ (fun _ _ hu => Cx.tb_ok _ _ _ _
    (Cx.releasing_ok _ _ _ _ (fun _ hv => Cx.done_ok _ (by simpa [State.MemOk] using hv)) hu) hu) h

theorem execTbWait_ok (m : Mod) (d a : Reg) (h : s.MemOk) : OutOk (execTbWait m d a s) := by
  refine issue_ok _ _ (fun u x hu => Cx.tb_ok _ _ _ _ ?_ hu) h
  split
  · simpa using hu
  · exact Cx.done_ok _ hu

theorem execTbPhase_ok (d a : Reg) (h : s.MemOk) : OutOk (execTbPhase d a s) :=
  issue_ok _ _ (fun _ _ hu => Cx.tb_ok _ _ _ _ (Cx.ret_ok _ _ _ hu) hu) h

@[simp] theorem State.kickCopy_mem (c : Nat) : (s.kickCopy c).mem = s.mem := by
  unfold State.kickCopy
  dsimp only
  split <;> simp [apply_ite State.mem]

@[simp] theorem State.enterCopy_mem (q : CopyCmd) : (s.enterCopy q).mem = s.mem := by
  simp [State.enterCopy]

@[simp] theorem State.grantCopy_mem (c : Nat) : (s.grantCopy c).mem = s.mem := by
  unfold State.grantCopy
  dsimp only
  split <;> simp [apply_ite State.mem]

@[simp] theorem Cx.submitCopy_ok (x : Cx) (q : CopyCmd) (h : s.MemOk) : OutOk (x.submitCopy s q) := by
  unfold Cx.submitCopy
  dsimp only
  split <;> simp [State.MemOk, h]

@[simp] theorem Cx.checkTrap_ok (x : Cx) (code : Nat) (info : Word) (h : s.MemOk) : OutOk (x.checkTrap s code info) := by
  unfold Cx.checkTrap
  split <;> simp [State.MemOk, h]

@[simp] theorem Cx.checkPerm_ok (x : Cx) (reason : Nat) (h : s.MemOk) : OutOk (x.checkPerm s reason) := by
  simp [Cx.checkPerm, State.MemOk, h]

theorem Cx.copyChecks_ok (x : Cx) (q : CopyCmd) (slo shi dlo dhi : Int) (align : Nat) (body : Out) (hb : OutOk body) (h : s.MemOk) :
    OutOk (x.copyChecks s q slo shi dlo dhi align body) := by
  unfold Cx.copyChecks
  split
  · exact Cx.checkPerm_ok _ _ h
  · exact Cx.checkPerm_ok _ _ h
  · split
    · exact Cx.checkTrap_ok _ _ _ h
    · split
      · exact Cx.checkTrap_ok _ _ _ h
      · split
        · exact Cx.checkPerm_ok _ _ h
        · exact Cx.checkPerm_ok _ _ h
        · exact hb

theorem execCpy_ok (m : Mod) (d a b : Reg) (h : s.MemOk) : OutOk (execCpy m d a b s) := by
  refine issue_ok _ _ (fun u x hu => ?_) h
  extract_lets desc len
  split
  · exact Cx.checkPerm_ok _ _ hu
  · split
    · exact Cx.checkPerm_ok _ _ hu
    · exact Cx.copyChecks_ok _ _ _ _ _ _ _ _ (Cx.releasing_ok _ _ _ _ (fun _ hv => Cx.submitCopy_ok _ _ hv) hu) hu

theorem execTcpy_ok (m : Mod) (d a b : Reg) (h : s.MemOk) : OutOk (execTcpy m d a b s) := by
  refine issue_ok _ _ (fun u x hu => ?_) h
  extract_lets desc
  split
  · exact Cx.checkPerm_ok _ _ hu
  · split
    · exact Cx.checkPerm_ok _ _ hu
    · exact Cx.copyChecks_ok _ _ _ _ _ _ _ _ (Cx.releasing_ok _ _ _ _ (fun _ hv => Cx.submitCopy_ok _ _ hv) hu) hu

@[simp] theorem State.partFails_mem (q : CopyCmd) (r : Req) (code : Nat) (info : Word) :
    (s.partFails q r code info).mem = s.mem := rfl

@[simp] theorem State.sendPart_ok (q : CopyCmd) (i k : Nat) (write : Bool) (op : MemOp) (p : Word) (since : Nat) (h : s.MemOk) :
    (s.sendPart q i k write op p since).MemOk := by
  simp [State.sendPart, State.MemOk, h]

@[simp] theorem State.readPart_ok (q : CopyCmd) (i since : Nat) (h : s.MemOk) : (s.readPart q i since).MemOk := by
  unfold State.readPart
  dsimp only
  split <;> simp [State.MemOk, h]

@[simp] theorem State.readParts_ok (core id fuel : Nat) (h : s.MemOk) : (s.readParts core id fuel).MemOk := by
  induction fuel generalizing s with
  | zero => exact h
  | succ fuel ih =>
    rw [State.readParts]
    split
    · exact h
    · split
      · exact h
      · exact ih (State.readPart_ok _ _ _ (by simpa [State.MemOk] using h))

@[simp] theorem State.writeParts_ok (q : CopyCmd) (first n : Nat) (h : s.MemOk) : (s.writeParts q first n).MemOk := by
  simp [State.writeParts, State.MemOk, h]

@[simp] theorem State.sendLast_mem (q : CopyCmd) (first : Nat) (rest : List (Nat × Nat)) :
    (s.sendLast q first rest).mem = s.mem := by
  unfold State.sendLast
  dsimp only
  split <;> simp

@[simp] theorem State.pushWrites_ok (core id fuel : Nat) (h : s.MemOk) : (s.pushWrites core id fuel).MemOk := by
  induction fuel generalizing s with
  | zero => exact h
  | succ fuel ih =>
    rw [State.pushWrites]
    split
    · exact h
    · extract_lets lim g n first q'
      split
      · exact h
      · split
        · split
          · exact h
          · exact ih (State.writeParts_ok _ _ _ (by simpa [State.MemOk] using h))
        · split
          · exact h
          · split
            · exact h
            · exact ih (by simpa [State.MemOk] using h)

@[simp] theorem State.pushAll_ok (core id : Nat) (h : s.MemOk) : (s.pushAll core id).MemOk := by
  simp [State.pushAll, State.MemOk, h]

@[simp] theorem State.copyGot_ok (core id i : Nat) (v : Word) (h : s.MemOk) : (s.copyGot core id i v).MemOk := by
  simp [State.copyGot, State.MemOk, h]

@[simp] theorem State.copyAcked_mem (core id i k : Nat) : (s.copyAcked core id i k).mem = s.mem := by
  unfold State.copyAcked
  split <;> rfl

@[simp] theorem State.deferTrap_mem (t : Tid) (d : Deferred) : (s.deferTrap t d).mem = s.mem := by
  unfold State.deferTrap
  dsimp only
  repeat' split
  all_goals simp

@[simp] theorem State.loadCfg_mem (r : Req) : (s.loadCfg r).mem = s.mem := by
  unfold State.loadCfg
  dsimp only
  split <;> simp [apply_ite State.mem]

@[simp] theorem State.retryCfg_mem (c : Nat) : (s.retryCfg c).mem = s.mem :=
  foldl_mem _ (fun u e => by split <;> simp) _

@[simp] theorem State.dropCopy_mem (core id : Nat) : (s.dropCopy core id).mem = s.mem := by
  unfold State.dropCopy
  dsimp only
  split <;> simp [apply_ite State.mem]

@[simp] theorem State.copyStops_mem (core id : Nat) : (s.copyStops core id).mem = s.mem := by
  unfold State.copyStops
  repeat' split
  all_goals simp

@[simp] theorem State.copyMet_ok (core id part code : Nat) (info : Word) (h : s.MemOk) :
    (s.copyMet core id part code info).MemOk := by
  unfold State.copyMet
  dsimp only
  repeat' split
  all_goals simp [State.MemOk, h]

@[simp] theorem State.startReads_ok (q : CopyCmd) (h : s.MemOk) : (s.startReads q).MemOk := by
  simp [State.startReads, State.MemOk, h]

theorem execCopyCommandStart_ok (core : Nat) (h : s.MemOk) : OutOk (execCopyCommandStart core s) := by
  unfold execCopyCommandStart
  dsimp only
  repeat' split
  all_goals simp [State.MemOk, h]

theorem execEngineWriteAck_ok (core cmd bytes : Nat) (h : s.MemOk) : OutOk (execEngineWriteAck core cmd bytes s) := by
  unfold execEngineWriteAck
  repeat' split
  all_goals simp [State.MemOk, h]

theorem execEngineCommandComplete_ok (core cmd : Nat) (h : s.MemOk) : OutOk (execEngineCommandComplete core cmd s) := by
  unfold execEngineCommandComplete
  repeat' split
  all_goals simp [h]

theorem execLcwC_ok (n : BitVec 3) (a : Reg) (h : s.MemOk) : OutOk (execLcwC n a s) := by
  unfold execLcwC
  refine issue_ok _ _ (fun u x hu => ?_) h
  simp [State.MemOk, hu]

theorem execLcwV_ok (n : BitVec 3) (a : Reg) (h : s.MemOk) : OutOk (execLcwV n a s) := by
  unfold execLcwV
  refine issue_ok _ _ (fun u x hu => ?_) h
  simp [State.MemOk, hu]

theorem execLcwM_ok (n : BitVec 3) (a : Reg) (h : s.MemOk) : OutOk (execLcwM n a s) := by
  unfold execLcwM
  refine issue_ok _ _ (fun u x hu => ?_) h
  simp [State.MemOk, hu]

theorem execLcwCfg_ok (n : BitVec 3) (a : Reg) (h : s.MemOk) : OutOk (execLcwCfg n a s) :=
  issue_ok _ _ (fun _ _ hu => Cx.access_ok _ _ _ _ hu) h

theorem execEfence_ok (h : s.MemOk) : OutOk (execEfence s) := by
  refine issue_ok _ _ (fun u x hu => ?_) h
  split
  · exact Cx.again_ok _ _ hu
  · exact Cx.deliverDue_ok _ _ _ (fun _ hv => Cx.done_ok _ hv) hu

@[simp] theorem Cx.probeWord_ok (x : Cx) (p : Word) (acq : Option Scope) (h : s.MemOk) : OutOk (x.probeWord s p acq) := by
  simp [Cx.probeWord, State.MemOk, h]

theorem execWaitp_ok (m : Mod) (a b : Reg) (h : s.MemOk) : OutOk (execWaitp m a b s) := by
  unfold execWaitp
  refine issue_ok _ _ (fun u x hu => ?_) h
  dsimp only
  repeat' split
  all_goals simp [State.MemOk, hu]

theorem execWaitpTimeReached_ok (t : Tid) (h : s.MemOk) : OutOk (execWaitpTimeReached t s) := by
  unfold execWaitpTimeReached
  repeat' split
  all_goals simp [State.MemOk, h]

@[simp] theorem State.probed_mem (r : Req) : (s.probed r).mem = s.mem := by
  unfold State.probed
  repeat' split
  all_goals simp

theorem execGath_ok (m : Mod) (d a b : Reg) (h : s.MemOk) : OutOk (execGath m d a b s) := by
  refine issue_ok _ _ (fun u x hu => ?_) h
  extract_lets desc len dst own
  split
  · exact Cx.checkPerm_ok _ _ hu
  · split
    · exact Cx.checkPerm_ok _ _ hu
    · extract_lets q q1 base q2 lo q3 go
      split
      · exact Cx.checkPerm_ok _ _ hu
      · split
        · exact Cx.checkTrap_ok _ _ _ hu
        · split
          · exact Cx.checkPerm_ok _ _ hu
          · exact Cx.releasing_ok _ _ _ _ (fun v hv => by simpa [go] using hv) hu

@[simp] theorem State.readLine_ok (q : CopyCmd) (i k since : Nat) (h : s.MemOk) : (s.readLine q i k since).MemOk := by
  unfold State.readLine
  dsimp only
  split <;> simp [State.MemOk, h]

@[simp] theorem State.readList_ok (q : CopyCmd) (i since fuel : Nat) (h : s.MemOk) : (s.readList q i since fuel).MemOk := by
  induction fuel generalizing s i since with
  | zero => exact h
  | succ fuel ih =>
    rw [State.readList]
    split
    · exact h
    · exact ih _ _ (State.readLine_ok _ _ _ _ h)

@[simp] theorem State.listDone_ok (q : CopyCmd) (h : s.MemOk) : (s.listDone q).MemOk := by
  unfold State.listDone
  repeat' split
  all_goals simp [State.MemOk, h]

@[simp] theorem State.listNext_ok (core id : Nat) (h : s.MemOk) : (s.listNext core id).MemOk := by
  unfold State.listNext
  repeat' split
  all_goals simp [State.MemOk, h]

@[simp] theorem State.listGot_ok (core id i : Nat) (ws : List Word) (h : s.MemOk) : (s.listGot core id i ws).MemOk := by
  simp [State.listGot, State.MemOk, h]

@[simp] theorem State.listMet_ok (core id i : Nat) (p : Word) (code : Nat) (info : Word) (h : s.MemOk) :
    (s.listMet core id i p code info).MemOk := by
  unfold State.listMet
  dsimp only
  repeat' split
  all_goals simp [State.MemOk, h]

theorem execGatherRequestAccept_ok (cl : Nat) (h : s.MemOk) : OutOk (execGatherRequestAccept cl s) := by
  unfold execGatherRequestAccept
  dsimp only
  repeat' split
  all_goals simp [State.MemOk, h]

@[simp] theorem issueEmsg_ok (m : Mod) (d a b : Reg) (h : s.MemOk) : OutOk (issueEmsg m d a b s) := by
  refine issue_ok _ _ (fun u x hu => ?_) h
  dsimp only
  split
  · exact Cx.ret_ok _ _ _ hu
  · split
    · exact Cx.ret_ok _ _ _ hu
    · exact Cx.releasing_ok _ _ _ _ (fun v hv => by simpa using hv) hu

@[simp] theorem State.emsgArrives_mem (n : Nat) (r : Req) : (s.emsgArrives n r).mem = s.mem := by
  unfold State.emsgArrives
  dsimp only
  repeat' split
  all_goals simp

/-! ### The vector engine (R247 to R263) -/

@[simp] theorem State.upVec_mem (core id : Nat) (f : VecCmd → VecCmd) : (s.upVec core id f).mem = s.mem := rfl

@[simp] theorem State.kickVec_mem (core : Nat) : (s.kickVec core).mem = s.mem := rfl

@[simp] theorem State.dropVec_mem (core id : Nat) : (s.dropVec core id).mem = s.mem := by
  unfold State.dropVec
  dsimp only
  split <;> simp [apply_ite State.mem]

@[simp] theorem State.writeLanes_mem (core : Nat) (q : VecCmd) (limit : Nat) : (s.writeLanes core q limit).mem = s.mem := by
  unfold State.writeLanes
  split <;> rfl

@[simp] theorem State.laneEvent_mem (core : Nat) (q : VecCmd) (j code : Nat) (info : Word) :
    (s.laneEvent core q j code info).mem = s.mem := rfl

@[simp] theorem State.sendLane_ok (core : Nat) (q : VecCmd) (j since : Nat) (h : s.MemOk) :
    (s.sendLane core q j since).MemOk := by
  unfold State.sendLane
  split <;> simp [State.MemOk, h]

@[simp] theorem State.sendLanes_ok (core id fuel : Nat) (h : s.MemOk) : (s.sendLanes core id fuel).MemOk := by
  induction fuel generalizing s with
  | zero => exact h
  | succ fuel ih =>
    rw [State.sendLanes]
    split
    · exact h
    · split
      · simpa [State.MemOk] using h
      · split
        · exact h
        · exact ih (State.sendLane_ok _ _ _ _ (by simpa [State.MemOk] using h))

@[simp] theorem State.vecStops_mem (core id : Nat) : (s.vecStops core id).mem = s.mem := by
  unfold State.vecStops
  repeat' split
  all_goals simp

@[simp] theorem State.vecGot_mem (core id j : Nat) (v : Word) : (s.vecGot core id j v).mem = s.mem := by
  simp [State.vecGot]

@[simp] theorem State.vecMet_mem (core id j code : Nat) (info : Word) : (s.vecMet core id j code info).mem = s.mem := by
  simp [State.vecMet]

@[simp] theorem State.enterVec_mem (core : Nat) (q : VecCmd) : (s.enterVec core q).mem = s.mem := rfl

@[simp] theorem State.grantVec_mem (core fuel : Nat) : (s.grantVec core fuel).mem = s.mem := by
  induction fuel generalizing s with
  | zero => rfl
  | succ fuel ih =>
    rw [State.grantVec]
    dsimp only
    repeat' split
    all_goals simp [ih]

@[simp] theorem State.acceptVec_mem (core fuel : Nat) : (s.acceptVec core fuel).mem = s.mem := by
  induction fuel generalizing s with
  | zero => rfl
  | succ fuel ih =>
    rw [State.acceptVec]
    dsimp only
    repeat' split
    all_goals simp [ih]

@[simp] theorem State.startVec_ok (core : Nat) (q : VecCmd) (h : s.MemOk) : (s.startVec core q).MemOk := by
  unfold State.startVec
  repeat' split
  all_goals simp [State.MemOk, h]

@[simp] theorem State.startAll_ok (core fuel : Nat) (h : s.MemOk) : (s.startAll core fuel).MemOk := by
  induction fuel generalizing s with
  | zero => exact h
  | succ fuel ih =>
    rw [State.startAll]
    split
    · exact h
    · exact ih (State.startVec_ok _ _ h)

theorem execVectorCommandStart_ok (core : Nat) (h : s.MemOk) : OutOk (execVectorCommandStart core s) := by
  simp [execVectorCommandStart, State.MemOk, h]

@[simp] theorem State.setSat_mem (t : Tid) (sat : Bool) : (s.setSat t sat).mem = s.mem := by
  unfold State.setSat
  split <;> simp

theorem execVectorResultWrite_ok (core cmd : Nat) (h : s.MemOk) : OutOk (execVectorResultWrite core cmd s) := by
  unfold execVectorResultWrite
  split
  · simpa using h
  · rw [outOk_next, State.dropVec_mem]
    split
    · rw [State.setSat_mem]
      split
      · rw [State.upCore_mem, foldl_mem _ fun _ _ => by rfl]
        exact h
      · rw [foldl_mem _ fun _ _ => by rfl]
        exact h
    · exact h

@[simp] theorem Cx.submitVec_ok (x : Cx) (q : VecCmd) (h : s.MemOk) : OutOk (x.submitVec s q) := by
  unfold Cx.submitVec
  dsimp only
  split <;> simp [State.MemOk, h]

@[simp] theorem issueVec_ok (f : VForm) (op : VOp) (d a b : Reg) (args : List Reg) (h : s.MemOk) :
    OutOk (issueVec f op d a b args s) := by
  unfold issueVec
  refine issue_ok _ _ (fun u x hu => ?_) h
  simp [State.MemOk, hu]

@[simp] theorem issueMod_ok (f : VForm) (op : VOp) (d a b : Reg) (args : List Reg) (h : s.MemOk) :
    OutOk (issueMod f op d a b args s) := by
  unfold issueMod
  refine issue_ok _ _ (fun u x hu => ?_) h
  dsimp only
  repeat' split
  all_goals simp [State.MemOk, hu]

@[simp] theorem issueBfly_ok (f : VForm) (op : VOp) (d a b : Reg) (h : s.MemOk) : OutOk (issueBfly f op d a b s) := by
  unfold issueBfly
  refine issue_ok _ _ (fun u x hu => ?_) h
  dsimp only
  repeat' split
  all_goals simp [State.MemOk, hu]

theorem Cx.laneChecks_ok (x : Cx) (base : Word) (delta : Int) (lanes : List Nat) (body : Word → Out) (hb : ∀ p, OutOk (body p))
    (h : s.MemOk) : OutOk (x.laneChecks s base delta lanes body) := by
  unfold Cx.laneChecks
  split
  · split
    · exact Cx.checkPerm_ok _ _ h
    · dsimp only
      split
      · exact Cx.checkTrap_ok _ _ _ h
      · exact hb _
  · exact hb _

@[simp] theorem issueLine_ok (f : VForm) (op : VOp) (m : Mod) (d a : Reg) (imm : Int) (h : s.MemOk) :
    OutOk (issueLine f op m d a imm s) :=
  issue_ok _ _ (fun _ _ hu => Cx.laneChecks_ok _ _ _ _ _
    (fun _ => Cx.releasing_ok _ _ _ _ (fun _ hv => Cx.submitVec_ok _ _ hv) hu) hu) h

@[simp] theorem issueEach_ok (f : VForm) (op : VOp) (m : Mod) (d a b : Reg) (h : s.MemOk) : OutOk (issueEach f op m d a b s) :=
  issue_ok _ _ (fun _ _ hu => Cx.releasing_ok _ _ _ _ (fun _ hv => Cx.submitVec_ok _ _ hv) hu) h

/-! ### The matrix engine (R227 to R246) -/

@[simp] theorem State.fetchMat_mem (core : Nat) (q : MatCmd) : (s.fetchMat core q).mem = s.mem := by
  simp [State.fetchMat, foldl_mem]

@[simp] theorem State.enterMat_mem (core : Nat) (q : MatCmd) : (s.enterMat core q).mem = s.mem := by
  simp [State.enterMat]

@[simp] theorem Cx.submitMat_ok (x : Cx) (q : MatCmd) (h : s.MemOk) : OutOk (x.submitMat s q) := by
  unfold Cx.submitMat
  dsimp only
  split <;> simp [h]

@[simp] theorem issueMat_ok (kind : MatKind) (m : Mod) (d a : Reg) (b : Option Reg) (h : s.MemOk) :
    OutOk (issueMat kind m d a b s) := by
  refine issue_ok _ _ (fun u x hu => ?_) h
  extract_lets cfg fmt pa pb
  split
  · exact Cx.perm_ok _ _ hu
  · split
    · exact Cx.perm_ok _ _ hu
    · extract_lets rs
      split
      · exact Cx.trap_ok _ _ _ hu
      · split
        · exact Cx.again_ok _ _ hu
        · exact Cx.submitMat_ok _ _ hu

theorem execMzero_ok (d : Reg) (h : s.MemOk) : OutOk (execMzero d s) := by
  unfold execMzero
  refine issue_ok _ _ (fun u x hu => ?_) h
  split <;> simp [State.MemOk, hu]

@[simp] theorem State.upMat_mem (core : Nat) (f : MatEngine → MatEngine) : (s.upMat core f).mem = s.mem := rfl

@[simp] theorem State.kickMat_mem (core : Nat) : (s.kickMat core).mem = s.mem := by
  unfold State.kickMat
  dsimp only
  split <;> simp

@[simp] theorem State.grantMat_mem (core fuel : Nat) : (s.grantMat core fuel).mem = s.mem := by
  induction fuel generalizing s with
  | zero => rfl
  | succ fuel ih =>
    rw [State.grantMat]
    repeat' split
    all_goals simp [ih]

@[simp] theorem State.loadMatCfg_mem (r : Req) : (s.loadMatCfg r).mem = s.mem := by
  unfold State.loadMatCfg
  dsimp only
  split <;> simp [apply_ite State.mem]

@[simp] theorem State.retryMatCfg_mem (c : Nat) : (s.retryMatCfg c).mem = s.mem :=
  foldl_mem _ (fun u e => by split <;> simp) _

@[simp] theorem State.dropMat_mem (core id : Nat) : (s.dropMat core id).mem = s.mem := by
  simp [State.dropMat]

/-- A matrix command's return writes no memory where its body writes none. -/
@[simp] theorem State.matReturn_mem (q : MatCmd) (body : State → State) (hb : (body s).mem = s.mem) :
    (s.matReturn q body).mem = s.mem := by
  unfold State.matReturn
  repeat' split
  all_goals simp [hb]

@[simp] theorem State.matEnds_mem (core : Nat) (q : MatCmd) (code : Nat) (info : Word) :
    (s.matEnds core q code info).mem = s.mem := by
  unfold State.matEnds
  rw [State.matReturn_mem, State.dropMat_mem]
  split <;> simp

@[simp] theorem State.upMatCmd_mem (core id : Nat) (f : MatCmd → MatCmd) : (s.upMatCmd core id f).mem = s.mem := rfl

@[simp] theorem State.matReady_mem (core id : Nat) : (s.matReady core id).mem = s.mem := by
  unfold State.matReady
  repeat' split
  all_goals simp

@[simp] theorem State.matGot_mem (core id i : Nat) (ws : List Word) : (s.matGot core id i ws).mem = s.mem := by
  simp [State.matGot]

@[simp] theorem State.matMet_mem (core id i : Nat) (p : Word) : (s.matMet core id i p).mem = s.mem := by
  simp [State.matMet]

@[simp] theorem State.startMat_mem (core : Nat) (q : MatCmd) (rest : List MatCmd) (l : Option (Latched × Nat)) :
    (s.startMat core q rest l).mem = s.mem := by
  simp [State.startMat, apply_ite State.mem]

theorem execMatrixArithmeticStart_ok (core : Nat) (h : s.MemOk) : OutOk (execMatrixArithmeticStart core s) := by
  unfold execMatrixArithmeticStart
  dsimp only
  repeat' split
  all_goals simp [h]

@[simp] theorem State.matDone_mem (core : Nat) (q : MatCmd) : (s.matDone core q).mem = s.mem := by
  simp [State.matDone]

@[simp] theorem State.tryForwards_mem (core fuel : Nat) : (s.tryForwards core fuel).mem = s.mem := by
  induction fuel generalizing s with
  | zero => rfl
  | succ fuel ih =>
    rw [State.tryForwards]
    split
    · rfl
    · dsimp only
      repeat' split
      all_goals simp [ih]

@[simp] theorem State.tryForward_mem (core : Nat) : (s.tryForward core).mem = s.mem := by
  simp [State.tryForward]

@[simp] theorem State.commitMat_mem (core : Nat) (q : MatCmd) : (s.commitMat core q).mem = s.mem := by
  have hf : (q.result.zipIdx.foldl (fun s e => s.setA core (q.tile + e.2) e.1) s).mem = s.mem := foldl_mem _ (fun _ _ => by rfl) _
  unfold State.commitMat
  dsimp only
  split <;> simp [hf]

theorem execMatrixCommandComplete_ok (core cmd : Nat) (h : s.MemOk) : OutOk (execMatrixCommandComplete core cmd s) := by
  unfold execMatrixCommandComplete
  repeat' split
  all_goals simp [h]

theorem execRingForward_ok (core cmd : Nat) (h : s.MemOk) : OutOk (execRingForward core cmd s) := by
  unfold execRingForward
  repeat' split
  all_goals simp [h]

theorem execMcfg_ok (n : BitVec 3) (a : Reg) (h : s.MemOk) : OutOk (execMcfg n a s) :=
  issue_ok _ _ (fun _ _ hu => Cx.access_ok _ _ _ _ hu) h

@[simp] theorem State.tileReq_ok (t : Tid) (th : Thread) (m : Moving) (i : Nat) (p : Word) (op : MemOp) (row : Nat)
    (h : s.MemOk) : (s.tileReq t th m i p op row).MemOk := by
  unfold State.tileReq
  split <;> simp [State.MemOk, h]

@[simp] theorem State.moveDone_mem (t : Tid) (m : Moving) : (s.moveDone t m).mem = s.mem := by
  unfold State.moveDone
  repeat' split
  all_goals simp

@[simp] theorem State.moveNext_ok (t : Tid) (fuel : Nat) (h : s.MemOk) : (s.moveNext t fuel).MemOk := by
  induction fuel generalizing s with
  | zero => exact h
  | succ fuel ih =>
    rw [State.moveNext]
    split
    · exact h
    · split
      · exact h
      · split
        · exact h
        · split
          · split <;> simpa [State.MemOk] using h
          · exact ih (State.tileReq_ok _ _ _ _ _ _ _ (by simpa [State.MemOk] using h))

@[simp] theorem State.moveGot_ok (t : Tid) (id i : Nat) (v : Word) (h : s.MemOk) : (s.moveGot t id i v).MemOk := by
  simp [State.moveGot, State.MemOk, h]

@[simp] theorem Cx.move_ok (x : Cx) (m : Moving) (h : s.MemOk) : OutOk (x.move s m) := by
  simp [Cx.move, State.MemOk, h]

theorem execMst_ok (d a b : Reg) (h : s.MemOk) : OutOk (execMst d a b s) := by
  unfold execMst
  refine issue_ok _ _ (fun u x hu => ?_) h
  dsimp only
  repeat' split
  all_goals simp [State.MemOk, hu]

theorem execMlda_ok (d a b : Reg) (h : s.MemOk) : OutOk (execMlda d a b s) := by
  unfold execMlda
  refine issue_ok _ _ (fun u x hu => ?_) h
  dsimp only
  repeat' split
  all_goals simp [State.MemOk, hu]

/-! ### Records, engine faults and WAKE (R165 to R167, R186 to R189) -/

theorem execFaultEventArrival_ok (r : Nat) (h : s.MemOk) : OutOk (execFaultEventArrival r s) := by
  unfold execFaultEventArrival
  split <;> simp [h]

theorem execFaultRecordWrite_ok (ctx : Nat) (h : s.MemOk) : OutOk (execFaultRecordWrite ctx s) := by
  unfold execFaultRecordWrite
  dsimp only
  repeat' split
  all_goals simp [h]

@[simp] theorem State.recordPut_mem (ctx : Nat) : (s.recordPut ctx).mem = s.mem := by
  unfold State.recordPut
  dsimp only
  split <;> simp

@[simp] theorem State.recordEnds_mem (ctx : Nat) (r : Req) : (s.recordEnds ctx r).mem = s.mem := by
  simp [State.recordEnds]

theorem execEngineFaultInFlight_ok (core cmd code : Nat) (info : Word) (h : s.MemOk) :
    OutOk (execEngineFaultInFlight core cmd code info s) := by
  unfold execEngineFaultInFlight
  repeat' split
  all_goals simp [State.MemOk, h]

@[simp] theorem State.disown_mem (id : Nat) : (s.disown id).mem = s.mem := by
  unfold State.disown
  exact foldl_mem _ (fun u e => by split <;> simp) _

@[simp] theorem State.restartCopy_ok (q : CopyCmd) (h : s.MemOk) : (s.restartCopy q).MemOk := by
  unfold State.restartCopy
  dsimp only
  repeat' split
  all_goals simp [State.MemOk, h]

@[simp] theorem State.restartVec_ok (core : Nat) (q : VecCmd) (h : s.MemOk) : (s.restartVec core q).MemOk := by
  unfold State.restartVec
  split <;> simp [State.MemOk, h]

@[simp] theorem State.endCopy_mem (q : CopyCmd) : (s.endCopy q).mem = s.mem := by
  unfold State.endCopy
  split <;> simp

@[simp] theorem State.endVec_mem (core : Nat) (q : VecCmd) : (s.endVec core q).mem = s.mem := by
  unfold State.endVec
  split <;> simp

@[simp] theorem issueWake_ok (a b : Reg) (h : s.MemOk) : OutOk (issueWake a b s) := by
  unfold issueWake
  refine issue_ok _ _ (fun u x hu => ?_) h
  dsimp only
  repeat' split
  all_goals simp [State.MemOk, hu]

@[simp] theorem State.wakeCommands_ok (t : Tid) (trap : Bool) (h : s.MemOk) : (s.wakeCommands t trap).MemOk := by
  unfold State.wakeCommands
  refine foldl_ok _ (fun u e hu => ?_) _ (foldl_ok _ (fun u q hu => ?_) _ h)
  · split
    · simpa [State.MemOk] using hu
    · exact State.restartVec_ok _ _ hu
  · split
    · simpa [State.MemOk] using hu
    · exact State.restartCopy_ok _ hu

@[simp] theorem State.sendHeld_mem (t : Tid) (held : Option Nat) : (s.sendHeld t held).mem = s.mem := by
  unfold State.sendHeld
  split <;> simp

@[simp] theorem State.dropHeld_mem (t : Tid) (held : Option Nat) : (s.dropHeld t held).mem = s.mem := by
  unfold State.dropHeld
  split <;> simp

@[simp] theorem State.resumeFault_mem (t : Tid) (resume : Word) : (s.resumeFault t resume).mem = s.mem := by
  unfold State.resumeFault
  split <;> simp

@[simp] theorem State.wakeFault_mem (t : Tid) (trap : Bool) (resume : Word) (code : Nat) (info epc vx : Word)
    (held : Option Nat) : (s.wakeFault t trap resume code info epc vx held).mem = s.mem := by
  unfold State.wakeFault
  repeat' split
  all_goals simp

@[simp] theorem State.wakeEvicted_mem (t : Tid) : (s.wakeEvicted t).mem = s.mem := rfl

theorem execWakeArrival_ok (msg : Nat) (h : s.MemOk) : OutOk (execWakeArrival msg s) := by
  unfold execWakeArrival
  dsimp only
  repeat' split
  all_goals simp [State.MemOk, h]

/-! ### Save blocks (R190, R191) -/

@[simp] theorem State.wordAs_mem (core ctx part asid : Nat) (p : Word) : (s.wordAs core ctx part asid p).2.mem = s.mem := by
  unfold State.wordAs
  split
  · rfl
  · split
    · rfl
    · split
      · rfl
      · split <;> rename_i e
        · dsimp only
          repeat' split
          all_goals simp [snd_mem e]
        · simp [snd_mem e]

@[simp] theorem State.wordsAs_mem (core ctx part asid : Nat) (p : Word) (n : Nat) :
    (s.wordsAs core ctx part asid p n).2.mem = s.mem := by
  induction n generalizing s p with
  | zero => rfl
  | succ n ih =>
    rw [State.wordsAs]
    split <;> rename_i e
    · rfl
    · simp [snd_mem e]
    · split <;> rename_i e'
      · rfl
      · simp [snd_mem e', ih, snd_mem e]
      · simp [snd_mem e', ih, snd_mem e]

@[simp] theorem State.chainAs_mem (core ctx part asid : Nat) (rect : Rect) (p : Word)
    (got : List (Word × List (Word × Nat × Nat))) (fuel : Nat) :
    (s.chainAs core ctx part asid rect p got fuel).2.mem = s.mem := by
  induction fuel generalizing s p got with
  | zero => rfl
  | succ fuel ih =>
    rw [State.chainAs]
    split
    · rfl
    · split <;> rename_i e
      · simp [snd_mem e]
      · dsimp only
        split
        · simp [snd_mem e]
        · simp [snd_mem e]
        · split
          · rfl
          · simp [ih, snd_mem e]

/-- A run of words goes to memory, to a table, or onto a link, word by word. -/
@[simp] theorem State.putWords_ok (core ctx key n : Nat) (l : List Word) (h : s.MemOk) : (s.putWords core ctx key n l).MemOk := by
  induction l generalizing s n with
  | nil => exact h
  | cons v l ih =>
    rw [State.putWords]
    refine ih _ ?_
    split
    · exact h
    · split
      · simpa [State.MemOk] using h
      · simpa [State.MemOk] using Memory.write_wf _ _ _ _ h

@[simp] theorem State.putSplit_ok (core ctx key pa pb head : Nat) (ws : List Word) (h : s.MemOk) :
    (s.putSplit core ctx key pa pb head ws).MemOk := by
  simp [State.putSplit, State.MemOk, h]

@[simp] theorem State.getWords_mem (key a n : Nat) : (s.getWords key a n).2.mem = s.mem := by
  unfold State.getWords
  split <;> simp

@[simp] theorem State.getSplit_mem (key pa pb head n : Nat) : (s.getSplit key pa pb head n).2.mem = s.mem := by
  simp [State.getSplit]

@[simp] theorem State.unbind_mem (c : Nat) (v : Saved) : (s.unbind c v).mem = s.mem := rfl

@[simp] theorem State.withdrawSaved_mem (t : Tid) : (s.withdrawSaved t).mem = s.mem := by
  unfold State.withdrawSaved
  dsimp only
  simp [apply_ite State.mem, foldl_mem]

@[simp] theorem State.saveThread_ok (c k pa pb head : Nat) (mark : Bool) (h : s.MemOk) :
    (s.saveThread c k pa pb head mark).MemOk := by
  unfold State.saveThread
  repeat' split
  all_goals simp [State.MemOk, h]

@[simp] theorem issueBlock_ok (op : Nat) (d a b : Reg) (h : s.MemOk) : OutOk (issueBlock op d a b s) := by
  unfold issueBlock
  refine issue_ok _ _ (fun u x hu => ?_) h
  split <;> simp [State.MemOk, hu]

@[simp] theorem State.evictStands_mem (n : Nat) : (s.evictStands n).mem = s.mem := rfl

@[simp] theorem State.evictWaits_mem (n : Nat) : (s.evictWaits n).mem = s.mem := rfl

@[simp] theorem State.evict_ok (n : Nat) (r : Req) (pa pb head : Nat) (h : s.MemOk) : (s.evict n r pa pb head).MemOk := by
  unfold State.evict
  dsimp only
  repeat' split
  all_goals simp [State.MemOk, h]

@[simp] theorem State.rearm_mem (t : Tid) (ctx asid m : Nat) (p : Word) : (s.rearm t ctx asid m p).mem = s.mem := by
  unfold State.rearm
  dsimp only
  split <;> simp [apply_ite State.mem]

@[simp] theorem State.regionOfBlock_mem (core part : Nat) (b : List Word) (keep : Option Saved) :
    (s.regionOfBlock core part b keep).2.mem = s.mem := by
  unfold State.regionOfBlock
  dsimp only
  repeat' split
  all_goals simp

@[simp] theorem State.bring_mem (core k : Nat) (win : Word) (b : List Word) (g : Region) (keep : Option Saved) :
    (s.bring core k win b g keep).mem = s.mem := by
  unfold State.bring
  dsimp only
  repeat' split
  all_goals simp [foldl_mem]

@[simp] theorem State.clearEvicted_mem (id : Word) : (s.clearEvicted id).mem = s.mem := by
  unfold State.clearEvicted
  dsimp only
  split <;> simp [apply_ite State.mem]

@[simp] theorem State.restore_mem (n : Nat) (r : Req) (pa pb head : Nat) : (s.restore n r pa pb head).mem = s.mem := by
  unfold State.restore
  dsimp only
  split
  · simp
  · split
    · simp
    · split <;> rename_i e <;> have hm := snd_mem e
      · simp [hm]
      · simp [hm]
      · split
        · simp
        · split
          · simp [hm]
          · split
            · simp [hm]
            · split <;> simp [hm]

@[simp] theorem State.blockKnown_ok (n : Nat) (r : Req) (pa pb head : Nat) (h : s.MemOk) :
    (s.blockKnown n r pa pb head).MemOk := by
  unfold State.blockKnown
  dsimp only
  repeat' split
  all_goals simp [State.MemOk, h]

@[simp] theorem State.blockReached_ok (n : Nat) (r : Req) (h : s.MemOk) : (s.blockReached n r).MemOk := by
  unfold State.blockReached
  dsimp only
  repeat' split
  all_goals simp [State.MemOk, h]

@[simp] theorem State.blockReached2_ok (n : Nat) (r : Req) (h : s.MemOk) : (s.blockReached2 n r).MemOk := by
  simp [State.blockReached2, State.MemOk, h]

/-! ### Partitions, contexts and draining (R328 to R345) -/

@[simp] theorem State.askOn_mem (r : Req) (args : List Word) (lat : Nat) : (s.askOn r args lat).mem = s.mem := by
  unfold State.askOn
  split <;> simp

@[simp] theorem State.measure_mem (ctx : Nat) (a b : Word) (v : Int) : (s.measure ctx a b v).mem = s.mem := rfl

@[simp] theorem State.judged_mem (n : Nat) (r : Req) (ctx op : Nat) (v : Int) : (s.judged n r ctx op v).mem = s.mem := by
  unfold State.judged
  split <;> simp

@[simp] theorem State.retryCtx_mem (ctx : Nat) : (s.retryCtx ctx).mem = s.mem := by
  unfold State.retryCtx
  dsimp only
  rw [foldl_mem _ fun u c => by simp]
  exact foldl_mem _ (fun _ _ => foldl_mem _ (fun _ _ => foldl_mem _ (fun u p => by split <;> simp) _) _) _

theorem execPartset_ok (d a b : Reg) (h : s.MemOk) : OutOk (execPartset d a b s) := by
  unfold execPartset
  refine issue_ok _ _ (fun u x hu => ?_) h
  split <;> simp [State.MemOk, hu]

@[simp] theorem State.partRead_mem (r : Req) : (s.partRead r).mem = s.mem := by
  simp [State.partRead]

@[simp] theorem State.partset_mem (n : Nat) (r : Req) : (s.partset n r).mem = s.mem := by
  simp [State.partset, apply_ite State.mem]

@[simp] theorem issueOwnset_ok (d a b : Reg) (h : s.MemOk) : OutOk (issueOwnset d a b s) := by
  unfold issueOwnset
  refine issue_ok _ _ (fun u x hu => ?_) h
  split <;> simp [State.MemOk, hu]

@[simp] theorem State.createWith_mem (n : Nat) (r : Req) (c : Nat) (kid : Option Nat) : (s.createWith n r c kid).mem = s.mem := by
  unfold State.createWith
  split <;> simp

@[simp] theorem State.createCtx_mem (n : Nat) (r : Req) : (s.createCtx n r).mem = s.mem := by
  unfold State.createCtx
  dsimp only
  repeat' split
  all_goals simp

@[simp] theorem State.destroyCtx_mem (n ctx : Nat) : (s.destroyCtx n ctx).mem = s.mem := by
  unfold State.destroyCtx
  split <;> simp

@[simp] theorem State.unbar_mem (c : Nat) : (s.unbar c).mem = s.mem := by
  unfold State.unbar
  dsimp only
  simp [apply_ite State.mem, foldl_mem]

@[simp] theorem State.clearCore_mem (c ctx : Nat) : (s.clearCore c ctx).mem = s.mem := by
  simp [State.clearCore, apply_ite State.mem]

@[simp] theorem State.assign_mem (n : Nat) (r : Req) (ctx : Nat) : (s.assign n r ctx).mem = s.mem := by
  unfold State.assign
  dsimp only
  repeat' split
  all_goals simp [foldl_mem]

@[simp] theorem State.bindKey_mem (n : Nat) (r : Req) (ctx : Nat) : (s.bindKey n r ctx).mem = s.mem := by
  unfold State.bindKey
  dsimp only
  split <;> simp [apply_ite State.mem]

@[simp] theorem State.unbindKey_mem (n : Nat) (r : Req) (ctx : Nat) : (s.unbindKey n r ctx).mem = s.mem := by
  simp [State.unbindKey, apply_ite State.mem]

@[simp] theorem State.bindAsid_mem (n : Nat) (r : Req) (ctx : Nat) : (s.bindAsid n r ctx).mem = s.mem := by
  simp [State.bindAsid, apply_ite State.mem]

@[simp] theorem State.unbindAsid_mem (n : Nat) (r : Req) (ctx : Nat) : (s.unbindAsid n r ctx).mem = s.mem := by
  simp [State.unbindAsid, apply_ite State.mem]

@[simp] theorem State.stopWriter_mem (u : Use) : (s.stopWriter u).mem = s.mem :=
  foldl_mem _ (fun u e => by split <;> simp) _

@[simp] theorem State.setRing_mem (n : Nat) (r : Req) (ctx : Nat) : (s.setRing n r ctx).mem = s.mem := by
  unfold State.setRing
  split <;> simp

@[simp] theorem State.setInbox_mem (n : Nat) (r : Req) (ctx : Nat) : (s.setInbox n r ctx).mem = s.mem := by
  unfold State.setInbox
  repeat' split
  all_goals simp

@[simp] theorem State.ownset_mem (n : Nat) (r : Req) : (s.ownset n r).mem = s.mem := by
  unfold State.ownset
  dsimp only
  repeat' split
  all_goals simp

@[simp] theorem issueDrain_ok (d a b : Reg) (h : s.MemOk) : OutOk (issueDrain d a b s) := by
  unfold issueDrain
  refine issue_ok _ _ (fun u x hu => ?_) h
  split <;> simp [State.MemOk, hu]

@[simp] theorem State.stopPlace_mem (ps : List Nat) (stop : Bool) (c : Nat) : (s.stopPlace ps stop c).mem = s.mem := by
  unfold State.stopPlace
  split <;> simp

@[simp] theorem State.drainRead_mem (r : Req) : (s.drainRead r).mem = s.mem := by
  unfold State.drainRead
  dsimp only
  repeat' split
  all_goals simp [foldl_mem]

@[simp] theorem State.saveCont_ok (c : Nat) (e : Cont) (pa : Nat) (h : s.MemOk) : (s.saveCont c e pa).MemOk := by
  unfold State.saveCont
  simp [State.MemOk, h]

/-- A DRAIN's count is a store of its thread: a first write to a clean page is logged before it (R304). -/
@[simp] theorem State.drainCount_ok (q : Req) (d : Drain) (h : s.MemOk) : (s.drainCount q d).2.MemOk := by
  unfold State.drainCount
  dsimp only
  split
  · exact State.putWords_ok _ _ _ _ _ h
  · split
    · exact h
    · have hl : (s.locate q.core q.ctx q.asid { w := true } (q.ptr + 24)).2.MemOk := by simpa [State.MemOk] using h
      split <;> rename_i e
      · exact snd_ok e hl
      · have hu := snd_ok e hl
        split
        · exact hu
        · split
          · exact hu
          · exact hu
          · split
            · exact hu
            · split <;> rename_i e' <;> have hg := snd_ok e' (by split <;> [exact State.logNow_ok _ _ _ _ hu; exact hu])
              · exact hg
              · exact State.putWords_ok _ _ _ _ _ hg

@[simp] theorem State.drainWaits_mem (r : Nat) (d : Drain) (a : Nat) : (s.drainWaits r d a).mem = s.mem := by
  simp [State.drainWaits]

@[simp] theorem State.drainEnd_ok (r : Nat) (d : Drain) (v : Int) (h : s.MemOk) : (s.drainEnd r d v).MemOk := by
  unfold State.drainEnd
  extract_lets u clear
  have hu : u.MemOk := by simpa [State.MemOk, u] using h
  split
  rename_i e
  have hp := snd_ok e (by
    split
    · exact hu
    · split <;> rename_i e' <;> exact snd_ok e' (State.drainCount_ok _ _ hu))
  extract_lets v
  have hv : v.MemOk := by
    unfold v
    split
    · exact hp
    · exact foldl_ok _ (fun _ _ hv => by split <;> exact hv) _ hp
  split <;> simpa [State.MemOk] using hv

@[simp] theorem State.drainSave_ok (r : Nat) (q : Req) (d : Drain) (fuel : Nat) (h : s.MemOk) : (s.drainSave r q d fuel).MemOk := by
  induction fuel generalizing s d with
  | zero => exact h
  | succ fuel ih =>
    rw [State.drainSave]
    split
    · exact State.drainEnd_ok _ _ _ h
    · dsimp only
      split
      · exact State.drainEnd_ok _ _ _ h
      · split
        · simpa [State.MemOk] using h
        · split
          · simpa [State.MemOk] using h
          · split
            · split
              · exact h
              · split
                · exact ih _ (State.saveThread_ok _ _ _ _ _ _ h)
                · simpa [State.MemOk] using h
            · split
              · simpa [State.MemOk] using h
              · exact ih _ (State.saveCont_ok _ _ _ h)

theorem execDrainLimitExpiry_ok (r : Nat) (h : s.MemOk) : OutOk (execDrainLimitExpiry r s) := by
  unfold execDrainLimitExpiry
  repeat' split
  all_goals simp [State.MemOk, h]

/-! ### Command rings (R353 to R356) -/

@[simp] theorem State.ringCount_mem (n i lo : Nat) : (s.ringCount n i lo).mem = s.mem := rfl

@[simp] theorem State.emptySlot_mem (n : Nat) : (s.emptySlot n).mem = s.mem := by
  simp [State.emptySlot]

@[simp] theorem State.ringDone_mem (n : Nat) : (s.ringDone n).mem = s.mem := by
  simp [State.ringDone]

@[simp] theorem State.ringStore_mem (n : Nat) (p v : Word) : (s.ringStore n p v).mem = s.mem := by
  unfold State.ringStore
  dsimp only
  split <;> simp [apply_ite State.mem]

/-- An entry that is dropped or halts its ring writes no memory; one that is performed keeps the form as its performing does. -/
@[simp] theorem State.ringJudge_ok (n : Nat) (perform : State → State) (hp : ∀ u, u.MemOk → (perform u).MemOk) (h : s.MemOk) :
    (s.ringJudge n perform).MemOk := by
  unfold State.ringJudge
  dsimp only
  split
  · exact h
  · split
    · exact hp _ h
    · split
      · simpa [State.MemOk] using h
      · split
        · simpa [State.MemOk] using h
        · split
          · exact h
          · exact hp _ (by simpa [State.MemOk] using h)

@[simp] theorem State.ringPacket_mem (n : Nat) (p : Word) : (s.ringPacket n p).2.mem = s.mem := by
  unfold State.ringPacket
  dsimp only
  split
  · simp
  · split <;> rename_i e
    · simp [snd_mem e]
    · simp [snd_mem e]
    · split
      · simp [snd_mem e]
      · split <;> rename_i e'
        · rfl
        · simp [snd_mem e', snd_mem e]
        · simp [snd_mem e', snd_mem e]

@[simp] theorem State.ringLaunch_mem (n : Nat) : (s.ringLaunch n).mem = s.mem := by
  unfold State.ringLaunch
  dsimp only
  split <;> rename_i e <;> have hm := snd_mem e
  · simp [hm]
  · simp [hm]
  · split <;> simp [hm]

theorem execRingEntryLaunch_ok (ring : Nat) (h : s.MemOk) : OutOk (execRingEntryLaunch ring s) := by
  simp [execRingEntryLaunch, State.MemOk, h]

theorem execRingEntryFill_ok (ring : Nat) (h : s.MemOk) : OutOk (execRingEntryFill ring s) := by
  simp [execRingEntryFill, State.MemOk, h]

theorem execRingEntryUnknownKind_ok (ring : Nat) (h : s.MemOk) : OutOk (execRingEntryUnknownKind ring s) := by
  simp [execRingEntryUnknownKind, State.MemOk, h]

@[simp] theorem State.ringLooked_mem (n : Nat) : (s.ringLooked n).mem = s.mem := by
  simp [State.ringLooked]

@[simp] theorem State.ringGot_mem (n : Nat) (ws : List Word) : (s.ringGot n ws).mem = s.mem := by
  unfold State.ringGot
  split <;> rfl

@[simp] theorem State.failFar_mem (n : Nat) (r : Req) : (s.failFar n r).mem = s.mem := by
  simp [State.failFar, apply_ite State.mem]

theorem execHotReset_ok (h : s.MemOk) : OutOk (execHotReset s) := by
  unfold execHotReset
  extract_lets rs s1 going s2 s3 far s4 s5
  have h1 : s1.mem = s.mem := foldl_mem _ (fun _ _ => by simp) _
  have h2 : s2.mem = s1.mem := foldl_mem _ (fun _ _ => by split <;> simp) _
  have h4 : s4.mem = s3.mem := foldl_mem _ (fun _ _ => by simp) _
  have h5 : s5.mem = s4.mem := foldl_mem _ (fun _ _ => by simp) _
  rw [outOk_next, State.notice_mem, h5, h4, State.upLinks_mem, h2, h1]
  exact h

/-! ### Inbound requests (R118, R352) -/

@[simp] theorem State.comeIn_mem (src : Nat) (p : Word) (data : List Byte) (read : Nat) (ro : Bool) :
    (s.comeIn src p data read ro).mem = s.mem := by
  unfold State.comeIn
  dsimp only
  rw [State.after_mem]
  exact foldl_mem _ (fun _ _ => by rfl) _

@[simp] theorem State.upIn_mem (q : Nat) (f : Inbound → Inbound) : (s.upIn q f).mem = s.mem := rfl

@[simp] theorem State.takeIn_mem (i : Inbound) : (s.takeIn i).mem = s.mem := rfl

@[simp] theorem State.letIn_mem (i : Inbound) (n b : Nat) : (s.letIn i n b).mem = s.mem := by
  unfold State.letIn
  split <;> simp

@[simp] theorem State.sendIn_mem (i : Inbound) : (s.sendIn i).mem = s.mem := by
  unfold State.sendIn
  extract_lets waits
  split
  · rfl
  · dsimp only
    split
    · simp
    · split
      · simp
      · split <;> rename_i e <;> have hm := snd_mem e
        · simp [hm]
        · split
          · simp [hm]
          · split
            · simp [hm]
            · split
              · simp [hm]
              · split <;> simp [hm]

@[simp] theorem State.inLogged_mem (n : Nat) (r : Req) (ok : Bool) : (s.inLogged n r ok).mem = s.mem := by
  unfold State.inLogged
  repeat' split
  all_goals simp

@[simp] theorem State.sendAllIn_mem (held : List Nat) (l : List Inbound) : (s.sendAllIn held l).mem = s.mem := by
  induction l generalizing s held with
  | nil => rfl
  | cons i l ih =>
    rw [State.sendAllIn, ih]
    repeat' split
    all_goals simp

theorem execOrderingPointSend_ok (h : s.MemOk) : OutOk (execOrderingPointSend s) := by
  simp [execOrderingPointSend, h]

theorem execPcieInboundWrite_ok (addr : Word) (data : List Byte) (ro : Bool) (h : s.MemOk) :
    OutOk (execPcieInboundWrite addr data ro s) := by
  unfold execPcieInboundWrite
  split <;> simp [h]

theorem execPcieInboundRead_ok (addr : Word) (n : Nat) (h : s.MemOk) : OutOk (execPcieInboundRead addr n s) := by
  unfold execPcieInboundRead
  split <;> simp [h]

theorem execPcieInboundAtomicop_ok (z : Word) (h : s.MemOk) : OutOk (execPcieInboundAtomicop z s) := by
  simp [execPcieInboundAtomicop, h]

theorem execPcieConfigurationRequest_ok (h : s.MemOk) : OutOk (execPcieConfigurationRequest s) := by
  simp [execPcieConfigurationRequest, h]

@[simp] theorem State.inDone_mem (n : Nat) (r : Req) : (s.inDone n r).mem = s.mem := by
  unfold State.inDone
  repeat' split
  all_goals simp

theorem execExrinFlitReceive_ok (port : Nat) (authentic : Bool) (h : s.MemOk) :
    OutOk (execExrinFlitReceive port authentic s) := by
  unfold execExrinFlitReceive
  dsimp only
  repeat' split
  all_goals simp [h]

theorem execExrinInboundRequest_ok (pkg : Nat) (addr : Word) (data : List Byte) (write ordered : Bool) (h : s.MemOk) :
    OutOk (execExrinInboundRequest pkg addr data write ordered s) := by
  unfold execExrinInboundRequest
  repeat' split
  all_goals simp [h]

/-! ### Collectives and membership (R176, R177, R359 to R363) -/

@[simp] theorem issueColl_ok (m : Mod) (d a b : Reg) (h : s.MemOk) : OutOk (issueColl m d a b s) := by
  unfold issueColl
  refine issue_ok _ _ (fun u x hu => ?_) h
  dsimp only
  repeat' split
  all_goals simp [State.MemOk, hu]

@[simp] theorem State.collRead_mem (r : Req) : (s.collRead r).mem = s.mem := by
  unfold State.collRead
  dsimp only
  split <;> simp [apply_ite State.mem]

@[simp] theorem State.upTicket_mem (k : Nat) (f : Ticket → Ticket) : (s.upTicket k f).mem = s.mem := rfl

@[simp] theorem State.abortTicket_mem (k state rank : Nat) : (s.abortTicket k state rank).mem = s.mem := rfl

@[simp] theorem State.contribute_mem (k : Nat) (t : Ticket) (ws : Option (List (Word × Nat × Nat))) :
    (s.contribute k t ws).mem = s.mem := by
  unfold State.contribute
  split <;> rfl

@[simp] theorem State.writeResult_mem (k : Nat) (t : Ticket) (p : Word) (l : List Word) : (s.writeResult k t p l).mem = s.mem := by
  induction l generalizing s p with
  | nil => rfl
  | cons v l ih =>
    rw [State.writeResult, ih]
    split <;> simp

@[simp] theorem State.collWrote_mem (k : Nat) : (s.collWrote k).mem = s.mem := by
  unfold State.collWrote
  repeat' split
  all_goals simp

@[simp] theorem State.contributed_mem (ticket rank cyc : Nat) (data : List Word) :
    (s.contributed ticket rank cyc data).mem = s.mem := by
  unfold State.contributed
  dsimp only
  repeat' split
  all_goals simp

theorem execCollectiveContribution_ok (ticket rank : Nat) (data : List Word) (h : s.MemOk) :
    OutOk (execCollectiveContribution ticket rank data s) := by
  unfold execCollectiveContribution
  dsimp only
  repeat' split
  all_goals simp [h]

@[simp] theorem State.takeEarly_mem (k : Nat) : (s.takeEarly k).mem = s.mem := by
  simp [State.takeEarly, foldl_mem]

@[simp] theorem State.collArrives_mem (n : Nat) (r : Req) : (s.collArrives n r).mem = s.mem := by
  unfold State.collArrives
  dsimp only
  repeat' split
  all_goals simp

theorem execCollectiveTimeout_ok (ticket : Nat) (h : s.MemOk) : OutOk (execCollectiveTimeout ticket s) := by
  unfold execCollectiveTimeout
  repeat' split
  all_goals simp [h]

@[simp] theorem State.publishRoot_mem (view : Word) (m : Map (BitVec 512)) : (s.publishRoot view m).mem = s.mem := by
  unfold State.publishRoot
  repeat' split
  all_goals simp

theorem execMembershipViewChange_ok (members : List (Nat × Option (BitVec 512))) (h : s.MemOk) :
    OutOk (execMembershipViewChange members s) := by
  unfold execMembershipViewChange
  extract_lets old m new u
  have hu : u.mem = s.mem := foldl_mem _ (fun _ _ => by split <;> simp) _
  simpa [hu] using h

/-! ### Branches, traps and returns (R93, R94, R181 to R185) -/

theorem execBrCc_ok (c : Cond) (a : Reg) (imm : Imm) (h : s.MemOk) : OutOk (execBrCc c a imm s) := by
  unfold execBrCc
  refine issue_ok _ _ (fun u x hu => ?_) h
  repeat' split
  all_goals simp [State.MemOk, hu]

theorem execJal_ok (d : Reg) (imm : Imm) (h : s.MemOk) : OutOk (execJal d imm s) := by
  unfold execJal
  refine issue_ok _ _ (fun u x hu => ?_) h
  split <;> simp [State.MemOk, hu]

theorem execJr_ok (a : Reg) (h : s.MemOk) : OutOk (execJr a s) := by
  unfold execJr
  refine issue_ok _ _ (fun u x hu => ?_) h
  dsimp only
  repeat' split
  all_goals simp [State.MemOk, hu]

theorem execJalr_ok (d a : Reg) (h : s.MemOk) : OutOk (execJalr d a s) := by
  unfold execJalr
  refine issue_ok _ _ (fun u x hu => ?_) h
  dsimp only
  repeat' split
  all_goals simp [State.MemOk, hu]

theorem execTrap_ok (a : Reg) (n : BitVec 12) (h : s.MemOk) : OutOk (execTrap a n s) := by
  unfold execTrap
  refine issue_ok _ _ (fun u x hu => ?_) h
  simp [hu]

theorem execEret_ok (h : s.MemOk) : OutOk (execEret s) := by
  unfold execEret
  refine issue_ok _ _ (fun u x hu => ?_) h
  split <;> simp [State.MemOk, hu]

theorem execBrk_ok (n : BitVec 8) (h : s.MemOk) : OutOk (execBrk n s) := by
  unfold execBrk
  refine issue_ok _ _ (fun u x hu => ?_) h
  split <;> simp [State.MemOk, hu]

/-! ### Integer instructions (R82 to R92) -/

@[simp] theorem issueDiv_ok (signed quotient : Bool) (d a b : Reg) (h : s.MemOk) : OutOk (issueDiv signed quotient d a b s) := by
  unfold issueDiv
  refine issue_ok _ _ (fun u x hu => ?_) h
  dsimp only
  repeat' split
  all_goals simp [State.MemOk, hu]

@[simp] theorem issueAlu_ok (d a b : Reg) (f : Word → Word → Word) (h : s.MemOk) : OutOk (issueAlu d a b s f) :=
  issue_ok _ _ (fun _ x hu => Cx.ret_ok x _ _ hu) h

@[simp] theorem issueUnary_ok (d a : Reg) (f : Word → Word) (h : s.MemOk) : OutOk (issueUnary d a s f) :=
  issue_ok _ _ (fun _ x hu => Cx.ret_ok x _ _ hu) h

theorem execSel_ok (d a b : Reg) (h : s.MemOk) : OutOk (execSel d a b s) :=
  issue_ok _ _ (fun _ x hu => Cx.ret_ok x _ _ hu) h

theorem execIns_ok (d a : Reg) (pos len1 : BitVec 6) (h : s.MemOk) : OutOk (execIns d a pos len1 s) :=
  issue_ok _ _ (fun _ x hu => Cx.ret_ok x _ _ hu) h

theorem execLdi_ok (d : Reg) (imm : Imm) (h : s.MemOk) : OutOk (execLdi d imm s) :=
  issue_ok _ _ (fun _ x hu => Cx.ret_ok x _ _ hu) h

theorem execPadd_ok (d a b : Reg) (h : s.MemOk) : OutOk (execPadd d a b s) := by
  unfold execPadd
  refine issue_ok _ _ (fun u x hu => ?_) h
  split <;> simp [State.MemOk, hu]

/-! ### Loads and stores (R95 to R104) -/

@[simp] theorem issueLoad_ok (m : Mod) (w : Nat) (signed : Bool) (d a : Reg) (imm : Imm) (h : s.MemOk) :
    OutOk (issueLoad m w signed d a imm s) :=
  issue_ok _ _ (fun _ _ hu => Cx.access_ok _ _ _ _ hu) h

@[simp] theorem issueStore_ok (m : Mod) (w : Nat) (d a : Reg) (imm : Imm) (h : s.MemOk) : OutOk (issueStore m w d a imm s) :=
  issue_ok _ _ (fun _ _ hu => Cx.access_ok _ _ _ _ hu) h

@[simp] theorem issueSync_ok (m : Mod) (ws : List Reg) (a : Reg) (imm : Imm) (use : Use) (op : State → Cx → MemOp) (h : s.MemOk) :
    OutOk (issueSync m ws a imm use s op) :=
  issue_ok _ _ (fun _ _ hu => Cx.access_ok _ _ _ _ hu) h

/-! ### The security core and kernel errors (R316, R347, R348, R357, R361, R362) -/

@[simp] theorem State.spdm_mem (request sess status : Nat) (payload : List SpdmItem) :
    (s.spdm request sess status payload).mem = s.mem := rfl

@[simp] theorem State.upSession_mem (n : Nat) (f : Session → Session) : (s.upSession n f).mem = s.mem := rfl

theorem execGetVersion_ok (sess : Nat) (h : s.MemOk) : OutOk (execGetVersion sess s) := by
  simp [execGetVersion, h]

theorem execGetCapabilities_ok (sess : Nat) (h : s.MemOk) : OutOk (execGetCapabilities sess s) := by
  simp [execGetCapabilities, h]

theorem execNegotiateAlgorithms_ok (sess : Nat) (h : s.MemOk) : OutOk (execNegotiateAlgorithms sess s) := by
  simp [execNegotiateAlgorithms, h]

theorem execGetDigests_ok (sess : Nat) (h : s.MemOk) : OutOk (execGetDigests sess s) := by
  simp [execGetDigests, h]

theorem execGetCertificate_ok (sess : Nat) (h : s.MemOk) : OutOk (execGetCertificate sess s) := by
  simp [execGetCertificate, h]

theorem execChallenge_ok (sess : Nat) (h : s.MemOk) : OutOk (execChallenge sess s) := by
  simp [execChallenge, h]

theorem execGetMeasurements_ok (sess : Nat) (h : s.MemOk) : OutOk (execGetMeasurements sess s) := by
  simp [execGetMeasurements, h]

theorem execKeyExchange_ok (sess : Nat) (h : s.MemOk) : OutOk (execKeyExchange sess s) := by
  simp [execKeyExchange, h]

theorem execFinish_ok (sess : Nat) (h : s.MemOk) : OutOk (execFinish sess s) := by
  unfold execFinish
  repeat' split
  all_goals simp [h]

theorem execEndSession_ok (sess : Nat) (h : s.MemOk) : OutOk (execEndSession sess s) := by
  simp [execEndSession, h]

@[simp] theorem State.vendor_mem (sess op status : Nat) : (s.vendor sess op status).mem = s.mem := rfl

theorem execBind_ok (sess : Nat) (payload : List Byte) (h : s.MemOk) : OutOk (execBind sess payload s) := by
  unfold execBind
  dsimp only
  repeat' split
  all_goals simp [h]

theorem execRingkey_ok (sess : Nat) (payload : List Byte) (h : s.MemOk) : OutOk (execRingkey sess payload s) := by
  unfold execRingkey
  dsimp only
  repeat' split
  all_goals simp [h]

theorem execVendorUnknownOpcode_ok (sess op : Nat) (h : s.MemOk) : OutOk (execVendorUnknownOpcode sess op s) := by
  simp [execVendorUnknownOpcode, h]

theorem execRngHealthFailure_ok (h : s.MemOk) : OutOk (execRngHealthFailure s) := by
  simp [execRngHealthFailure, h]

theorem execStartUpTestsPassed_ok (h : s.MemOk) : OutOk (execStartUpTestsPassed s) := by
  simp [execStartUpTestsPassed, h]

theorem execCxlDeviceLost_ok (port : Nat) (h : s.MemOk) : OutOk (execCxlDeviceLost port s) := by
  simp [execCxlDeviceLost, foldl_mem, h]

@[simp] theorem State.stopThreads_mem (c : Nat) : (s.stopThreads c).mem = s.mem := by
  simp [State.stopThreads, foldl_mem]

@[simp] theorem State.forceOut_mem (c : Nat) : (s.forceOut c).mem = s.mem := by
  unfold State.forceOut
  dsimp only
  simp [apply_ite State.mem, foldl_mem]

theorem execKernelTermination_ok (kern : Nat) (h : s.MemOk) : OutOk (execKernelTermination kern s) := by
  unfold execKernelTermination
  dsimp only
  repeat' split
  all_goals simp [foldl_mem, h]

theorem execKernelRestart_ok (kern : Nat) (h : s.MemOk) : OutOk (execKernelRestart kern s) := by
  unfold execKernelRestart
  split <;> simp [h]

@[simp] theorem State.strike_mem (c k : Nat) : (s.strike c k).mem = s.mem := by
  unfold State.strike
  split <;> simp

theorem execUncorrectableCoreStateError_ok (core : Nat) (h : s.MemOk) : OutOk (execUncorrectableCoreStateError core s) := by
  unfold execUncorrectableCoreStateError
  split
  · simpa using h
  · split
    · simpa using h
    · rw [outOk_next, foldl_mem _ fun _ _ => by simp]
      exact h

/-! ### Power, heat and time (R111, R351, R364 to R366) -/

/-- Nothing is left of memory without power. -/
@[simp] theorem State.off_ok : s.off.MemOk := rfl

theorem execPowerUp_ok (h : s.MemOk) : OutOk (execPowerUp s) := by
  unfold execPowerUp
  dsimp only
  repeat' split
  all_goals simp [h]

theorem execPowerRemoved_ok : OutOk (execPowerRemoved s) := by
  simp [execPowerRemoved]

theorem execThermalThrottle_ok (h : s.MemOk) : OutOk (execThermalThrottle s) := by
  simp [execThermalThrottle, foldl_mem, h]

theorem execThermalShutdown_ok : OutOk (execThermalShutdown s) := by
  simp [execThermalShutdown]

theorem execIeee1588TimingMessage_ok (ptp : Word) (h : s.MemOk) : OutOk (execIeee1588TimingMessage ptp s) := by
  simp [execIeee1588TimingMessage, h]

theorem execHeldCoreRelease_ok (core : Nat) (h : s.MemOk) : OutOk (execHeldCoreRelease core s) := by
  simp [execHeldCoreRelease, h]

/-! ### The steps of a request on its way (R97, R105, R133, R304) -/

@[simp] theorem State.unitArrives_mem (n : Nat) (r : Req) : (s.unitArrives n r).mem = s.mem := by
  simp [State.unitArrives, apply_ite State.mem]

@[simp] theorem State.withMerged_ok (n : Nat) (r : Req) (f : State → Nat → Req → State)
    (hf : ∀ u m q, u.MemOk → (f u m q).MemOk) (h : s.MemOk) : (s.withMerged n r f).MemOk := by
  unfold State.withMerged
  refine foldl_ok _ (fun u e hu => ?_) _ (hf s n r h)
  exact hf _ _ _ hu

@[simp] theorem State.blockArrives_ok (n : Nat) (r : Req) (h : s.MemOk) : (s.blockArrives n r).MemOk := by
  unfold State.blockArrives
  repeat' split
  all_goals simp [State.MemOk, h]

theorem execBankRequestArrival_ok (r : Nat) (h : s.MemOk) : OutOk (execBankRequestArrival r s) := by
  unfold execBankRequestArrival
  repeat' split
  all_goals simp_all [State.MemOk]

theorem execChannelAdmission_ok (ch : Nat) (h : s.MemOk) : OutOk (execChannelAdmission ch s) := by
  simp [execChannelAdmission, State.MemOk, h]

theorem execRefusedRequestResend_ok (r : Nat) (h : s.MemOk) : OutOk (execRefusedRequestResend r s) := by
  unfold execRefusedRequestResend
  repeat' split
  all_goals simp [h]

/-- A section's write-back is performed, or its hold ends (R141, R324). -/
@[simp] theorem State.sectionBack_ok (n : Nat) (r : Req) (h : s.MemOk) : (s.sectionBack n r).MemOk := by
  unfold State.sectionBack
  dsimp only
  split
  · exact State.writeBack_ok _ _ _ _ h
  · have hu : (if s.sectHeld r = true then s.release (s.bankOf r) r.first r.span else s).MemOk := by
      split
      · exact State.release_ok _ _ _ h
      · exact h
    split <;> simpa [State.MemOk] using hu

@[simp] theorem State.sectionLost_ok (n : Nat) (r : Req) (h : s.MemOk) : (s.sectionLost n r).MemOk := by
  unfold State.sectionLost
  dsimp only
  have hu : (if s.sectHeld r = true then s.release (s.bankOf r) r.first r.span else s).MemOk := by
    split
    · exact State.release_ok _ _ _ h
    · exact h
  split <;> simpa [State.MemOk] using hu

/-- A write-back at its bank: of a section, of a unit that has had its turn, or of an atomic (R133). -/
theorem execHoldWriteBack_ok (r : Nat) (h : s.MemOk) : OutOk (execHoldWriteBack r s) := by
  unfold execHoldWriteBack
  split
  · simpa using h
  · rename_i q _
    have hs : OutOk (.next (if s.lostAt q.pa then s.sectionLost r q else s.sectionBack r q)) := by
      rw [outOk_next]
      split
      · exact State.sectionLost_ok _ _ h
      · exact State.sectionBack_ok _ _ h
    cases q.op
    case rel => exact hs
    case giveBack => exact hs
    case turn =>
      rw [outOk_next]
      split
      · exact State.release_ok _ _ _ (by simpa [State.MemOk] using h)
      · exact h
    all_goals
      dsimp only
      split
      · simpa using h
      · split
        · rw [outOk_next, State.refuse_mem]
          exact State.release_ok _ _ _ h
        · simpa using State.writeBack_ok _ _ _ _ h

@[simp] theorem State.relaxedDone_mem (n : Nat) (t : Tid) (r : Req) (d : Option Nat) (ans : List Word) :
    (s.relaxedDone n t r d ans).mem = s.mem := by
  unfold State.relaxedDone
  repeat' split
  all_goals simp

@[simp] theorem State.passes_mem (t : Tid) (npc : Word) : (s.passes t npc).mem = s.mem := by
  unfold State.passes
  repeat' split
  all_goals simp

@[simp] theorem State.complete_mem (n : Nat) (r : Req) (ans : List Word) : (s.complete n r ans).mem = s.mem := by
  unfold State.complete
  split
  · rfl
  · split
    · simp
    · split
      · rfl
      · extract_lets u v
        have hv : v.mem = u.mem := by
          unfold v
          cases r.op <;> simp
        rw [State.passes_mem, State.acquire_mem, hv, State.setW_mem]
    · split <;> simp

@[simp] theorem State.waitOn_mem (n : Nat) : (s.waitOn n).mem = s.mem := by
  unfold State.waitOn
  exact foldl_mem _ (fun _ _ => by rfl) _

@[simp] theorem State.passLine_mem (r : Req) (l : CLine) : (s.passLine r l).mem = s.mem := by
  unfold State.passLine
  split <;> simp

@[simp] theorem State.lineGot_mem (n : Nat) (r : Req) (m : Nat) : (s.lineGot n r m).mem = s.mem := by
  unfold State.lineGot
  extract_lets ws bad stale l p u v w
  have hv : v.mem = s.mem := by
    unfold v
    rw [foldl_mem _ fun _ _ => by split <;> rfl, State.waitOn_mem]
  have hw : w.mem = s.mem := by
    unfold w
    split <;> simp [hv]
  refine (foldl_mem _ (fun u e => ?_) _).trans hw
  repeat' split
  all_goals simp

@[simp] theorem State.fillAgain_mem (n : Nat) : (s.fillAgain n).mem = s.mem := by
  unfold State.fillAgain
  exact foldl_mem _ (fun _ _ => by rfl) _

@[simp] theorem State.stageDone_mem (r : Req) (k : Nat) : (s.stageDone r k).mem = s.mem := by
  unfold State.stageDone
  dsimp only
  split <;> simp [apply_ite State.mem]

@[simp] theorem State.recordDone_mem (n : Nat) (r : Req) (who : Nat) : (s.recordDone n r who).mem = s.mem := by
  unfold State.recordDone
  repeat' split
  all_goals simp

@[simp] theorem State.orphanDone_mem (n : Nat) (r : Req) : (s.orphanDone n r).mem = s.mem := by
  unfold State.orphanDone
  repeat' split
  all_goals simp

@[simp] theorem State.afterFill_ok (r : Req) (h : s.MemOk) : (s.afterFill r).MemOk := by
  unfold State.afterFill
  repeat' split
  all_goals simp [State.MemOk, h]

@[simp] theorem State.filled_ok (n : Nat) (r : Req) (h : s.MemOk) : (s.filled n r).MemOk := by
  unfold State.filled
  dsimp only
  repeat' split
  all_goals simp [State.MemOk, h]

@[simp] theorem State.keyedLog_ok (n : Nat) (r : Req) (h : s.MemOk) : (s.keyedLog n r).MemOk := by
  unfold State.keyedLog
  split <;> simp [State.MemOk, h]

/-- The log unit appends an entry, and serves what waits for its slot (R304). -/
@[simp] theorem State.askLog_ok (n : Nat) (r : Req) (h : s.MemOk) : (s.askLog n r).MemOk := by
  unfold State.askLog
  split
  · dsimp only
    split
    · simpa [State.MemOk] using h
    · split <;> rename_i e <;> have hl := snd_ok e (State.logAppend_ok _ _ h)
      · simpa [State.MemOk] using State.scanWord_ok _ hl
      · simpa [State.MemOk] using hl
  · exact h

@[simp] theorem State.leafDone_ok (w : Nat) (h : s.MemOk) : (s.leafDone w).MemOk := by
  unfold State.leafDone
  dsimp only
  repeat' split
  all_goals simp [State.MemOk, h]

@[simp] theorem State.leafMet_ok (w code : Nat) (h : s.MemOk) : (s.leafMet w code).MemOk := by
  unfold State.leafMet
  repeat' split
  all_goals simp [State.MemOk, h]

@[simp] theorem State.nobodys_mem (r : Req) (set : Bool) : (s.nobodys r set).mem = s.mem := by
  unfold State.nobodys
  split
  · simp
  · split <;> rfl
  · simp [foldl_mem]

@[simp] theorem State.eventDone_ok (n : Nat) (r : Req) (code : Nat) (info : Word) (h : s.MemOk) :
    (s.eventDone n r code info).MemOk := by
  unfold State.eventDone
  split <;> simp [State.MemOk, h]

theorem execMemReply_ok (r : Nat) (h : s.MemOk) : OutOk (execMemReply r s) := by
  unfold execMemReply
  repeat' split
  all_goals simp [State.MemOk, h]

theorem execTranslationFill_ok (r : Nat) (h : s.MemOk) : OutOk (execTranslationFill r s) := by
  unfold execTranslationFill
  repeat' split
  all_goals simp [State.MemOk, h]

theorem execKeyFill_ok (r : Nat) (h : s.MemOk) : OutOk (execKeyFill r s) := by
  unfold execKeyFill
  repeat' split
  all_goals simp [State.MemOk, h]

/-! ### What a step runs -/

@[simp] theorem State.fetched_mem (h : Hand) (t : Thread) (ws : List Half) (len : Nat) : (s.fetched h t ws len).mem = s.mem := by
  simp [State.fetched, apply_ite State.mem]

theorem State.resumeTurn_ok (g : Hand) (t : Thread) (h : s.MemOk) : TurnOk (s.resumeTurn g t) := by
  unfold State.resumeTurn
  split <;> exact h

theorem State.issueTurn_ok (g : Hand) (h : s.MemOk) : TurnOk (s.issueTurn g) := by
  unfold State.issueTurn
  split
  · exact h
  · split
    · exact State.resumeTurn_ok _ _ h
    · split
      · simpa [TurnOk, State.MemOk] using h
      · simpa [TurnOk, State.MemOk] using h
      · split <;> simpa [TurnOk, State.MemOk] using h

@[simp] theorem State.tick_mem (time : Nat) : (s.tick time).mem = s.mem := by
  simp [State.tick]

theorem State.eventTurn_ok (h : s.MemOk) : TurnOk s.eventTurn := by
  unfold State.eventTurn
  split
  · simpa [TurnOk, State.MemOk] using h
  · split
    · exact h
    · split
      · exact h
      · simpa [TurnOk, State.MemOk] using h

/-- What a step does before the row that it runs writes no memory: fetching, the rotation and the passing of time. -/
theorem State.turn_ok (h : s.MemOk) : TurnOk s.turn := by
  unfold State.turn
  split
  · exact State.issueTurn_ok _ h
  · exact State.eventTurn_ok h

/-! ### Every row of the table -/

/-- Every row of the table of operations and events keeps memory canonical: an arm is a call of its own meaning or of the issue that
its family of instructions shares. -/
theorem exec_ok (i : Instr) (h : s.MemOk) : OutOk (exec i s) := by
  cases i <;> dsimp only [exec]
  case dispatch => exact execDispatch_ok _ _ h
  case threadReady => exact execThreadReady_ok _ h
  case bankRetention => exact execBankRetention_ok _ h
  case issueRotation => exact execIssueRotation_ok _ h
  case bankRequestArrival => exact execBankRequestArrival_ok _ h
  case holdWriteBack => exact execHoldWriteBack_ok _ h
  case refusedRequestResend => exact execRefusedRequestResend_ok _ h
  case memReply => exact execMemReply_ok _ h
  case channelAdmission => exact execChannelAdmission_ok _ h
  case sleepExpiry => exact execSleepExpiry_ok _ h
  case mwaitTimeout => exact execMwaitTimeout_ok _ h
  case waitpTimeReached => exact execWaitpTimeReached_ok _ h
  case yieldExpiry => exact execYieldExpiry_ok _ h
  case iflushExpiry => exact execIflushExpiry_ok _ h
  case teamBarrierCompletion => exact execTeamBarrierCompletion_ok _ _ h
  case barWaitReturn => exact execBarWaitReturn_ok _ _ h
  case registerWriteArrival => exact execRegisterWriteArrival_ok _ h
  case nputLinkArrival => exact execNputLinkArrival_ok _ h
  case amsgArrival => exact execAmsgArrival_ok _ h
  case wakeArrival => exact execWakeArrival_ok _ h
  case migrationArrival => exact execMigrationArrival_ok _ h
  case ibufLineFill => exact execIbufLineFill_ok _ _ h
  case copyCommandStart => exact execCopyCommandStart_ok _ h
  case engineWriteAck => exact execEngineWriteAck_ok _ _ _ h
  case engineCommandComplete => exact execEngineCommandComplete_ok _ _ h
  case engineFaultInFlight => exact execEngineFaultInFlight_ok _ _ _ _ h
  case gatherRequestAccept => exact execGatherRequestAccept_ok _ h
  case vectorCommandStart => exact execVectorCommandStart_ok _ h
  case vectorResultWrite => exact execVectorResultWrite_ok _ _ h
  case matrixArithmeticStart => exact execMatrixArithmeticStart_ok _ h
  case matrixCommandComplete => exact execMatrixCommandComplete_ok _ _ h
  case ringForward => exact execRingForward_ok _ _ h
  case faultEventArrival => exact execFaultEventArrival_ok _ h
  case faultRecordWrite => exact execFaultRecordWrite_ok _ h
  case monitorFire => exact execMonitorFire_ok _ _ h
  case stealProbe => exact execStealProbe_ok _ h
  case cancelNotice => exact execCancelNotice_ok _ _ h
  case launchTableEvaluation => exact execLaunchTableEvaluation_ok _ h
  case launchTableStore => exact execLaunchTableStore_ok _ h
  case controlCounterStore => exact execControlCounterStore_ok _ h
  case asidDescriptorStore => exact execAsidDescriptorStore_ok _ h
  case controlWindowWrite => exact execControlWindowWrite_ok _ h
  case translationFill => exact execTranslationFill_ok _ h
  case keyFill => exact execKeyFill_ok _ h
  case shootDownArrival => exact execShootDownArrival_ok _ h
  case shootDownComplete => exact execShootDownComplete_ok _ h
  case fotPerform => exact execFotPerform_ok _ h
  case revocation => exact execRevocation_ok _ h
  case noticeWrite => exact execNoticeWrite_ok _ h
  case pcieInboundWrite => exact execPcieInboundWrite_ok _ _ _ h
  case pcieInboundRead => exact execPcieInboundRead_ok _ _ h
  case orderingPointSend => exact execOrderingPointSend_ok h
  case pcieInboundAtomicop => exact execPcieInboundAtomicop_ok _ h
  case hotReset => exact execHotReset_ok h
  case ringControlStore => exact execRingControlStore_ok _ h
  case ringEntryLaunch => exact execRingEntryLaunch_ok _ h
  case ringEntryFill => exact execRingEntryFill_ok _ h
  case ringEntryUnknownKind => exact execRingEntryUnknownKind_ok _ h
  case apertureStore => exact execApertureStore_ok _ h
  case exrinFlitReceive => exact execExrinFlitReceive_ok _ _ h
  case exrinInboundRequest => exact execExrinInboundRequest_ok _ _ _ _ _ h
  case collectiveContribution => exact execCollectiveContribution_ok _ _ _ h
  case collectiveTimeout => exact execCollectiveTimeout_ok _ h
  case membershipViewChange => exact execMembershipViewChange_ok _ h
  case getVersion => exact execGetVersion_ok _ h
  case getCapabilities => exact execGetCapabilities_ok _ h
  case negotiateAlgorithms => exact execNegotiateAlgorithms_ok _ h
  case getDigests => exact execGetDigests_ok _ h
  case getCertificate => exact execGetCertificate_ok _ h
  case challenge => exact execChallenge_ok _ h
  case getMeasurements => exact execGetMeasurements_ok _ h
  case keyExchange => exact execKeyExchange_ok _ h
  case finish => exact execFinish_ok _ h
  case endSession => exact execEndSession_ok _ h
  case bind => exact execBind_ok _ _ h
  case ringkey => exact execRingkey_ok _ _ h
  case vendorUnknownOpcode => exact execVendorUnknownOpcode_ok _ _ h
  case rngHealthFailure => exact execRngHealthFailure_ok h
  case cxlDeviceLost => exact execCxlDeviceLost_ok _ h
  case kernelTermination => exact execKernelTermination_ok _ h
  case kernelRestart => exact execKernelRestart_ok _ h
  case drainLimitExpiry => exact execDrainLimitExpiry_ok _ h
  case powerUp => exact execPowerUp_ok h
  case thermalThrottle => exact execThermalThrottle_ok h
  case thermalShutdown => exact execThermalShutdown_ok
  case unassignedEncoding => exact execUnassignedEncoding_ok _ _ h
  case farEndCompletion => exact execFarEndCompletion_ok _ h
  case startUpTestsPassed => exact execStartUpTestsPassed_ok h
  case powerRemoved => exact execPowerRemoved_ok
  case pcieConfigurationRequest => exact execPcieConfigurationRequest_ok h
  case uncorrectableCoreStateError => exact execUncorrectableCoreStateError_ok _ h
  case ieee1588TimingMessage => exact execIeee1588TimingMessage_ok _ h
  case heldCoreRelease => exact execHeldCoreRelease_ok _ h
  case add | sub | and | or | xor | shl | slt | shr | mul | sra | rot | andn | mulh | mulhZ | sltZ | seq | min | max | minZ
      | maxZ => exact issueAlu_ok _ _ _ _ h
  case addi | clz | ctz | popc | bswap | extr | extrZ | ldh | psp => exact issueUnary_ok _ _ _ h
  case ldi => exact execLdi_ok _ _ h
  case ld | ld8 | ld8Z | ld16 | ld16Z | ld32 | ld32Z => exact issueLoad_ok _ _ _ _ _ _ h
  case st | st8 | st16 | st32 => exact issueStore_ok _ _ _ _ _ h
  case brCc => exact execBrCc_ok _ _ _ h
  case jal => exact execJal_ok _ _ h
  case div | divZ | rem | remZ => exact issueDiv_ok _ _ _ _ _ h
  case sel => exact execSel_ok _ _ _ h
  case ins => exact execIns_ok _ _ _ _ h
  case padd => exact execPadd_ok _ _ _ h
  case jr => exact execJr_ok _ h
  case jalr => exact execJalr_ok _ _ h
  case ldf | lde | stf | sts | sete | feq => exact issueSync_ok _ _ _ _ _ _ h
  case tnew => exact execTnew_ok _ _ _ h
  case tend => exact execTend_ok h
  case sleep => exact execSleep_ok _ _ h
  case yield => exact execYield_ok h
  case migrate => exact execMigrate_ok _ _ h
  case roam => exact execRoam_ok _ _ h
  case fmtset => exact execFmtset_ok _ _ h
  case barCfg => exact execBarCfg_ok _ _ _ h
  case barArr => exact execBarArr_ok _ _ h
  case barWait => exact execBarWait_ok _ _ h
  case launch => exact execLaunch_ok _ _ h
  case cancel => exact execCancel_ok _ _ h
  case send => exact execSend_ok _ _ _ _ h
  case nput => exact execNput_ok _ _ _ h
  case amsg => exact execAmsg_ok _ _ h
  case cont => exact execCont_ok _ _ h
  case contid => exact execContid_ok _ _ h
  case movT => exact execMovT_ok _ _ h
  case spawn => exact execSpawn_ok _ _ h
  case blend => exact execBlend_ok h
  case join => exact execJoin_ok h
  case vdecl => exact execVdecl_ok _ _ _ h
  case vdrop => exact execVdrop_ok _ h
  case rsv | rsvx => exact issueRsv_ok _ _ _ _ h
  case rel => exact execRel_ok _ _ h
  case aadd | aand | aor | axor | amin | amax | aminZ | amaxZ | axchg | cas => exact issueAtomic_ok _ _ _ _ _ h
  case cas2 => exact execCas2_ok _ _ _ _ h
  case fence => exact execFence_ok _ h
  case monArm => exact execMonArm_ok _ _ _ h
  case monClr => exact execMonClr_ok _ h
  case mwait => exact execMwait_ok _ _ _ h
  case cpy => exact execCpy_ok _ _ _ _ h
  case tcpy => exact execTcpy_ok _ _ _ _ h
  case waitp => exact execWaitp_ok _ _ _ h
  case lcwC => exact execLcwC_ok _ _ h
  case lcwV => exact execLcwV_ok _ _ h
  case lcwM => exact execLcwM_ok _ _ h
  case lcwCfg => exact execLcwCfg_ok _ _ h
  case lcrC | lcrV | lcrM | eqry | mqry | rds => exact issueRet_ok _ _ _ h
  case efence => exact execEfence_ok h
  case emsgGatherQuery | emsgCollectiveQuery | emsgAbort => exact issueEmsg_ok _ _ _ _ h
  case gath => exact execGath_ok _ _ _ _ h
  case collAllreduce | collBroadcast | collAllgather => exact issueColl_ok _ _ _ _ h
  case tbInit => exact execTbInit_ok _ h
  case tbExp => exact execTbExp_ok _ _ h
  case tbArr => exact execTbArr_ok _ _ _ h
  case tbWait => exact execTbWait_ok _ _ _ h
  case tbPhase => exact execTbPhase_ok _ _ h
  case vadd | vsub | vmul | vfma | vmin | vmax | vabs | vneg | vcmpEq | vcmpLt | vcmpLe | vredSum | vredMax | vredMin
      | vaddBf16 | vsubBf16 | vmulBf16 | vfmaBf16 | vminBf16 | vmaxBf16 | vabsBf16 | vnegBf16 | vcmpEqBf16 | vcmpLtBf16
      | vcmpLeBf16 | vredSumBf16 | vredMaxBf16 | vredMinBf16 | viadd | visub | vimul | vshl | vshr | vand | vor | vxor | vsel
      | vcvt | vexp2 | vrcp | vrsq | vshuf | vbcast | vmovx | vmovv | vaddM | vsubM | vmulM | vfmaM | vminM | vmaxM | vabsM
      | vnegM | vcmpEqM | vcmpLtM | vcmpLeM | vredSumM | vredMaxM | vredMinM | vaddBf16M | vsubBf16M | vmulBf16M | vfmaBf16M
      | vminBf16M | vmaxBf16M | vabsBf16M | vnegBf16M | vcmpEqBf16M | vcmpLtBf16M | vcmpLeBf16M | vredSumBf16M | vredMaxBf16M
      | vredMinBf16M | viaddM | visubM | vimulM | vshlM | vshrM | vandM | vorM | vxorM | vcvtM | vexp2M | vrcpM | vrsqM
      | vmovvM => exact issueVec_ok _ _ _ _ _ _ h
  case vmaddm | vmsubm | vmmulm | vtwid | vmaddmM | vmsubmM | vmmulmM | vtwidM => exact issueMod_ok _ _ _ _ _ _ h
  case vbflyCt | vbflyGs | vbflyCtM | vbflyGsM => exact issueBfly_ok _ _ _ _ _ h
  case vld | vst | vldM | vstM => exact issueLine_ok _ _ _ _ _ _ h
  case vgth | vsct | vgthM | vsctM => exact issueEach_ok _ _ _ _ _ _ h
  case mcfg => exact execMcfg_ok _ _ h
  case mzero => exact execMzero_ok _ h
  case mma | mmr | mring | mmod => exact issueMat_ok _ _ _ _ _ h
  case mst => exact execMst_ok _ _ _ h
  case mlda => exact execMlda_ok _ _ _ h
  case trap => exact execTrap_ok _ _ h
  case eret => exact execEret_ok h
  case wrs => exact execWrs_ok _ _ h
  case xinvPage | xinvAsid | xinvRlb | xinvFrame => exact issueXinv_ok _ _ _ h
  case iflush => exact execIflush_ok h
  case brk => exact execBrk_ok _ h
  case seqnew | seqmap | sequnmap | seqend | seqq => exact issueSeq_ok _ _ _ _ _ h
  case fofferOffer | fofferRelease | fofferWithdraw | faccept | flend | frecall | freturn | fquery | fstrikeClear
      | fstrikeSetLimit => exact issueFrame_ok _ _ _ _ _ h
  case wakeResume | wakeTrap => exact issueWake_ok _ _ h
  case evict | restore => exact issueBlock_ok _ _ _ _ h
  case drain | drainResume => exact issueDrain_ok _ _ _ h
  case partset => exact execPartset_ok _ _ _ h
  case ownsetCreate | ownsetDestroy | ownsetAssign | ownsetBindkey | ownsetUnbindkey | ownsetBindasid | ownsetUnbindasid
      | ownsetSetring | ownsetSetinbox => exact issueOwnset_ok _ _ _ h

/-! ### The step -/

theorem step_ok (h : s.MemOk) : OutOk (step s) := by
  have ht := State.turn_ok h
  unfold step
  split <;> rename_i e <;> rw [e] at ht
  · exact exec_ok _ ht
  · exact outOk_next.2 ht

/-- Settles O7: what comes before the row that a step runs writes no memory (`State.turn_ok`), and every row keeps the form
(`exec_ok`). -/
theorem everyStepKeepsMemoryCanonical : Obligations.EveryStepKeepsMemoryCanonical :=
  fun _ t h hs => step_ok h t hs

end Sys2Proof.Machine
end

section
/-! PROOFS. The turn of a slot. The rotation gives the turn to the slot that the core chooses (`State.rotate_gives_turn`), and
`State.takeTurn` is described once, by what it makes of the hand, of the core's last issuer and of the slot's thread. The step that
follows runs what the slot's chain decodes to (`State.issueTurn_of_words`), or the words of an instruction that has waited
(`State.resumeTurn_of_decode`). -/

namespace Sys2Proof.Machine

variable {s : State}

/-! ### A table whose values are changed under their numbers -/

theorem Map.find_map_values {α : Type} (m : Map α) (f : Nat → α → α) (n : Nat) :
    Map.find (m.map fun e => (e.1, f e.1 e.2)) n = (m.find n).map (f n) := by
  induction m with
  | nil => rfl
  | cons e rest ih =>
    obtain ⟨k, v⟩ := e
    by_cases h : k = n
    · simp [Map.find, h]
    · simpa [Map.find, h] using ih

/-- A change to the threads of a core's slots, each by its slot's number, reaches the thread of a slot. -/
theorem Core.mapThreads_slot_thread (x : Core) (f : Nat → Thread → Thread) (k : Nat) :
    (({ x with slots := x.slots.map fun e => (e.1, { e.2 with thread := e.2.thread.map (f e.1) }) } : Core).slot k).thread =
      (x.slot k).thread.map (f k) := by
  have hfind := Map.find_map_values x.slots (fun j sl => { sl with thread := sl.thread.map (f j) }) k
  simp only [Core.slot, hfind]
  cases x.slots.find k <;> rfl

/-! ### The core's next ISSUE_ROTATION

Setting its cycle changes that field of the core alone. -/

@[simp] theorem State.post_core (time rank : Nat) (ev : Instr) (c : Nat) : (s.post time rank ev).core c = s.core c := rfl

theorem State.kick_core (c : Nat) : ∃ at?, (s.kick c).core c = { s.core c with issueAt := at? } := by
  unfold State.kick
  split
  · exact ⟨_, rfl⟩
  · split
    · split
      · exact ⟨_, rfl⟩
      · exact ⟨_, (State.post_core _ _ _ c).trans (s.upCore_core_self c _)⟩
    · exact ⟨_, (State.post_core _ _ _ c).trans (s.upCore_core_self c _)⟩

@[simp] theorem State.kick_last (c : Nat) : ((s.kick c).core c).last = (s.core c).last := by
  obtain ⟨_, hcore⟩ := s.kick_core c
  rw [hcore]

@[simp] theorem State.kick_thread (c k : Nat) : (s.kick c).thread c k = s.thread c k := by
  obtain ⟨_, hcore⟩ := s.kick_core c
  rw [State.thread, hcore]
  rfl

@[simp] theorem State.issueAt_thread (at? : Option Nat) (c k : Nat) :
    (s.upCore c fun x => { x with issueAt := at? }).thread c k = s.thread c k := by
  simp [State.thread, Core.slot]

@[simp] theorem State.issueAt_chooses (at? : Option Nat) (c : Nat) :
    (s.upCore c fun x => { x with issueAt := at? }).chooses c = s.chooses c := by
  have hthread := funext (s.issueAt_thread at? c)
  rw [State.chooses, hthread, State.upCore_core_self]
  rfl

/-! ### A slot takes its turn (R11, R60, R382) -/

@[simp] theorem State.takeTurn_hand (c k : Nat) :
    (s.takeTurn c k).hand = some { core := c, slot := k, len := 1, was := (s.core c).last } := rfl

@[simp] theorem State.takeTurn_last (c k : Nat) : ((s.takeTurn c k).core c).last = some k := by
  rw [State.takeTurn]
  refine (State.kick_last c).trans ?_
  simp

/-- What a turn of slot `k` makes of the thread in slot `j`: the issuer may issue again after an interval, and who has yielded to
it no longer waits for it (R11, R64). -/
def State.turned (s : State) (c k j : Nat) (t : Thread) : Thread :=
  if j = k then { t with next := s.cyc + interval c, yield := none }
  else { t with yield := t.yield.map fun y => (without k y.1, y.2) }

@[simp] theorem State.turned_self (c k : Nat) (t : Thread) :
    s.turned c k k t = { t with next := s.cyc + interval c, yield := none } := if_pos rfl

theorem State.takeTurn_thread (c k j : Nat) : (s.takeTurn c k).thread c j = (s.thread c j).map (s.turned c k j) := by
  rw [State.takeTurn]
  refine (State.kick_thread c j).trans ?_
  simp only [State.thread, State.upCore_core_self]
  exact Core.mapThreads_slot_thread _ (s.turned c k) j

/-! ### The rotation (R11, R15) -/

/-- A slot whose chain lies in buffered lines takes its turn without another being looked for. -/
theorem State.rotate_gives_turn {c k n : Nat} {t : Thread} {ws : List Half} (hk : s.chooses c = some k)
    (ht : s.thread c k = some t) (hf : s.fetch c t = .words ws) : s.rotate c (n + 1) = s.takeTurn c k := by
  simp only [State.rotate, hk, ht, hf]

theorem execIssueRotation_due {c : Nat} (hat : (s.core c).issueAt = some s.cyc) (hheld : (s.core c).held = false) :
    execIssueRotation c s = .next ((s.upCore c fun x => { x with issueAt := none }).rotate c 65) := by
  simp [execIssueRotation, hat, hheld]

/-- Settles O31: a rotation that is due, on a core that is not held, comes to `State.takeTurn` of the chosen slot, since a core's
choice does not depend on when it issues next. -/
theorem theRotationChoosesTheNextSlot : Obligations.TheRotationChoosesTheNextSlot := by
  intro s c k t ws _ hat hheld hk ht hf
  have hturn := State.rotate_gives_turn (n := 64) ((State.issueAt_chooses none c).trans hk)
    ((State.issueAt_thread none c k).trans ht) hf
  refine ⟨_, { t with next := s.cyc + interval c, yield := none }, (execIssueRotation_due hat hheld).trans (congrArg _ hturn),
    ?_, ?_, rfl, rfl, rfl, State.takeTurn_last c k, ?_⟩
  · simp
  · simp [State.takeTurn_thread, ht]
  · simp

/-! ### The step of a slot that has its turn (R27, R59, R107) -/

theorem State.turn_of_hand {h : Hand} (hh : s.hand = some h) : s.turn = s.issueTurn h := by
  rw [State.turn, hh]

theorem step_of_run {i : Instr} {u : State} (hrun : s.turn = .run i u) : step s = exec i u := by
  rw [step, hrun]

theorem State.resumeTurn_of_decode {h : Hand} {t : Thread} {i : Instr} {n : Nat} (hd : decode t.chain = .instr i n) :
    s.resumeTurn h t = .run (select (fun r => s.keptW h.core t (rn r)) i) { s with hand := some { h with len := n } } := by
  rw [State.resumeTurn, hd]

theorem State.issueTurn_of_resumes {h : Hand} {t : Thread} (ht : s.thread h.core h.slot = some t) (hr : t.resumes = true) :
    s.issueTurn h = s.resumeTurn h t := by
  simp only [State.issueTurn, ht, hr, if_true]

theorem State.issueTurn_of_words {h : Hand} {t : Thread} {ws : List Half} {i : Instr} {n : Nat}
    (ht : s.thread h.core h.slot = some t) (hr : t.resumes = false) (hf : s.fetch h.core t = .words ws)
    (hd : decode ws = .instr i n) :
    s.issueTurn h = .run (select (fun r => (s.core h.core).regW t (rn r)) i) (s.fetched h t ws n) := by
  simp only [State.issueTurn, ht, hr, hf, hd, Bool.false_eq_true, if_false]

/-- Settles O4: the hand sends the step to the slot's thread, and whether the thread resumes says from which words the
instruction is decoded. -/
theorem aStepRunsTheDecodedInstruction : Obligations.AStepRunsTheDecodedInstruction := by
  intro s h t ws i n hh ht
  have hturn := State.turn_of_hand hh
  constructor
  · intro hr hf hd
    exact step_of_run (hturn.trans (State.issueTurn_of_words ht hr hf hd))
  · intro hr hd
    exact step_of_run (hturn.trans ((State.issueTurn_of_resumes ht hr).trans (State.resumeTurn_of_decode hd)))

end Sys2Proof.Machine
end

section
/-! PROOFS. Encoding and decoding. The words of an instruction are read back into one chain (`Parts.foldl_heads`, `decode_words`):
each word before the last adds its payload, and the base word its fields. The opcode map holds every instruction at the place
that its chain names (`Instr.parts_mapped`), with a form that reads its operands back (`Parts.whole_fields`) and whose checks let
the chain pass (`decode_whole`). -/

namespace Sys2Proof

/-! ### Prefixes as words (R18, R21)

They are `1111`, a kind and a payload of 10 bits. -/

theorem payload_append (k : BitVec 6) (x : BitVec 10) : (k ++ x : Half).extractLsb' 0 10 = x := by
  rw [BitVec.extractLsb'_append_eq_of_add_le (by decide), BitVec.extractLsb'_eq_self]

theorem kind_append (k : BitVec 6) (x : BitVec 10) : (k ++ x : Half).extractLsb' 10 2 = k.extractLsb' 0 2 :=
  BitVec.extractLsb'_append_eq_of_le (by decide)

theorem top_append (k : BitVec 6) (x : BitVec 10) : (k ++ x : Half).extractLsb' 12 4 = k.extractLsb' 2 4 :=
  BitVec.extractLsb'_append_eq_of_le (by decide)

/-- The payload of REG: the bits of the register numbers above their fields (Table 2.4). -/
def Parts.ext (p : Parts) : BitVec 10 :=
  p.d.extractLsb' 4 3 ++ p.a.extractLsb' 4 3 ++ p.b.extractLsb' 4 3 ++ 0#1

theorem regWord_eq (p : Parts) : regWord p.d p.a p.b = 0b111101#6 ++ p.ext := by
  rw [regWord, Parts.ext, BitVec.append_assoc', BitVec.append_assoc', BitVec.append_assoc']
  rfl

theorem pageWord_eq (page sub : Nat) :
    pageWord page sub = 0b111110#6 ++ (BitVec.ofNat 6 page ++ BitVec.ofNat 4 sub : BitVec 10) := by
  rw [pageWord, BitVec.append_assoc']
  rfl

theorem isPrefix_append (k : BitVec 6) (x : BitVec 10) : isPrefix (k ++ x) = (k.extractLsb' 2 4 == 15) := by
  rw [isPrefix, top_append]

@[simp] theorem isPrefix_immWord (x : BitVec 10) : isPrefix (immWord x) = true := isPrefix_append _ _

@[simp] theorem isPrefix_modWord (m : Mod) : isPrefix (modWord m) = true := isPrefix_append _ _

@[simp] theorem isPrefix_regWord (p : Parts) : isPrefix (regWord p.d p.a p.b) = true := by
  rw [regWord_eq]
  exact isPrefix_append _ _

@[simp] theorem isPrefix_pageWord (page sub : Nat) : isPrefix (pageWord page sub) = true := by
  rw [pageWord_eq]
  exact isPrefix_append _ _

/-! ### What PAGE, REG, MOD and IMM add to a chain (Table 2.2) -/

theorem Chain.push_immWord {c : Chain} (x : BitVec 10) (h : c.immPos.length < 3) :
    c.push (immWord x) = { c with len := c.len + 1, chunks := c.chunks ++ [x], immPos := c.immPos ++ [c.len] } := by
  simp [Chain.push, immWord, kind_append, payload_append, h]

theorem Chain.push_regWord {c : Chain} (p : Parts) (h : c.regPos = none) :
    c.push (regWord p.d p.a p.b) = { c with len := c.len + 1, ext := p.ext, regPos := some c.len } := by
  simp [Chain.push, regWord_eq, kind_append, payload_append, h]

theorem Chain.push_modWord {c : Chain} (m : Mod) (h : c.modPos = none) :
    c.push (modWord m) = { c with len := c.len + 1, bits := m.bits, modPos := some c.len } := by
  simp [Chain.push, modWord, kind_append, payload_append, h]

theorem Chain.push_pageWord {c : Chain} {page sub : Nat} (h : c.pagePos = none) (hp : page < 7) (hs : sub < 16) :
    c.push (pageWord page sub) = { c with len := c.len + 1, page := page, sub := sub, pagePos := some c.len } := by
  have hpage : ((BitVec.ofNat 6 page ++ BitVec.ofNat 4 sub : BitVec 10).extractLsb' 4 6).toNat = page := by
    rw [BitVec.extractLsb'_append_eq_of_le (by decide), BitVec.extractLsb'_eq_self, BitVec.toNat_ofNat]
    omega
  have hsub : ((BitVec.ofNat 6 page ++ BitVec.ofNat 4 sub : BitVec 10).extractLsb' 0 4).toNat = sub := by
    rw [BitVec.extractLsb'_append_eq_of_add_le (by decide), BitVec.extractLsb'_eq_self, BitVec.toNat_ofNat]
    omega
  simp [Chain.push, pageWord_eq, kind_append, payload_append, h, hpage, hsub, hp]

theorem Chain.push_immWords {c : Chain} (xs : List (BitVec 10)) (h : c.immPos.length + xs.length ≤ 3) :
    (xs.map immWord).foldl Chain.push c =
      { c with len := c.len + xs.length, chunks := c.chunks ++ xs, immPos := c.immPos ++ List.range' c.len xs.length } := by
  induction xs generalizing c with
  | nil => simp
  | cons x xs ih =>
    simp only [List.length_cons] at h
    rw [List.map_cons, List.foldl_cons, Chain.push_immWord x (by omega), ih (by simp; omega)]
    simp [List.range'_succ, Nat.add_assoc, Nat.add_comm 1]

/-! ### Reading a chain (R27) -/

/-- The prefixes of a chain, in the order of R32. -/
def Parts.heads (p : Parts) : List Half :=
  (if p.page = 0 ∧ p.sub = 0 then [] else [pageWord p.page p.sub]) ++
  (if p.wide then [regWord p.d p.a p.b] else []) ++
  (if p.mod = {} then [] else [modWord p.mod]) ++
  p.chunks.map immWord

theorem Parts.words_eq (p : Parts) : p.words = p.heads ++ [p.baseWord] := rfl

theorem Parts.heads_isPrefix (p : Parts) : ∀ w ∈ p.heads, isPrefix w = true := by
  intro w hw
  simp only [Parts.heads, List.mem_append, List.mem_map, List.mem_ite_nil_left, List.mem_ite_nil_right, List.mem_singleton] at hw
  obtain ((⟨_, rfl⟩ | ⟨_, rfl⟩) | ⟨_, rfl⟩) | ⟨_, _, rfl⟩ := hw <;> simp

@[simp] theorem chunksOf_length (v : Imm) (n : Nat) : (chunksOf v n).length = n := by
  induction n with
  | zero => rfl
  | succ n ih => simp [chunksOf, ih]

theorem immCount_le (v : Imm) : immCount v ≤ 3 := by
  simp only [immCount]
  split_ifs <;> decide

theorem Parts.chunks_length (p : Parts) : p.chunks.length = p.imms := by
  unfold Parts.chunks Parts.imms
  split <;> simp [*]

theorem Parts.imms_le (p : Parts) : p.imms ≤ 3 := by
  unfold Parts.imms
  split
  · decide
  · exact immCount_le _
  · decide

theorem Parts.heads_length (p : Parts) : p.heads.length = p.prefixes := by
  simp only [Parts.heads, Parts.prefixes, List.length_append, List.length_map, Parts.chunks_length]
  congr 3 <;> split <;> rfl

/-- The chain of an instruction's prefixes, each at its position: PAGE where it is needed, then REG, MOD and IMM (R32). -/
def Parts.chain (p : Parts) : Chain :=
  let afterPage := if p.page = 0 ∧ p.sub = 0 then 0 else 1
  let afterReg := afterPage + if p.wide then 1 else 0
  let afterMod := afterReg + if p.mod = {} then 0 else 1
  { len := afterMod + p.imms, page := p.page, sub := p.sub, ext := p.ext, bits := p.mod.bits, chunks := p.chunks
    pagePos := if p.page = 0 ∧ p.sub = 0 then none else some 0
    regPos := if p.wide then some afterPage else none
    modPos := if p.mod = {} then none else some afterReg
    immPos := List.range' afterMod p.imms }

theorem reg_high_of_lt {x : Reg} (h : x.toNat < 16) : x.extractLsb' 4 3 = 0 := by
  apply BitVec.eq_of_toNat_eq
  simp [Nat.shiftRight_eq_div_pow]
  omega

/-- A chain without REG has register numbers below 16 alone, whose bits above the fields are zero (R24). -/
theorem Parts.ext_of_not_wide {p : Parts} (h : p.wide = false) : p.ext = 0 := by
  simp only [Parts.wide, Bool.not_eq_false', Bool.and_eq_true, decide_eq_true_eq] at h
  obtain ⟨⟨hd, ha⟩, hb⟩ := h
  rw [Parts.ext, reg_high_of_lt hd, reg_high_of_lt ha, reg_high_of_lt hb]
  rfl

/-- An empty chain with the PAGE of an instruction, or with none where page 0, sub-page 0 is meant (R25). -/
theorem Chain.push_page {page sub : Nat} (hp : page < 7) (hs : sub < 16) :
    (if page = 0 ∧ sub = 0 then [] else [pageWord page sub]).foldl Chain.push {} =
      { len := if page = 0 ∧ sub = 0 then 0 else 1, page := page, sub := sub
        pagePos := if page = 0 ∧ sub = 0 then none else some 0 } := by
  split
  · next h => simp [h.1, h.2]
  · simp [Chain.push_pageWord _ hp hs]

/-- A chain with the REG of an instruction, or with none where no register number needs it (R24). -/
theorem Chain.push_reg {c : Chain} (p : Parts) (hext : c.ext = 0) (hpos : c.regPos = none) :
    (if p.wide then [regWord p.d p.a p.b] else []).foldl Chain.push c =
      { c with len := c.len + (if p.wide then 1 else 0), ext := p.ext, regPos := if p.wide then some c.len else none } := by
  split
  · simp [Chain.push_regWord _ hpos]
  · next h => simp [Parts.ext_of_not_wide (Bool.not_eq_true _ ▸ h), ← hext, ← hpos]

/-- A chain with the MOD of an instruction, or with none where it has no marks (R26). -/
theorem Chain.push_mod {c : Chain} (m : Mod) (hbits : c.bits = 0) (hpos : c.modPos = none) :
    (if m = {} then [] else [modWord m]).foldl Chain.push c =
      { c with len := c.len + (if m = {} then 0 else 1), bits := m.bits, modPos := if m = {} then none else some c.len } := by
  split
  · next h => simp [h, show Mod.bits {} = 0 from rfl, ← hbits, ← hpos]
  · simp [Chain.push_modWord _ hpos]

theorem Parts.foldl_heads {p : Parts} (hp : p.page < 7) (hs : p.sub < 16) : p.heads.foldl Chain.push {} = p.chain := by
  rw [Parts.heads, List.foldl_append, List.foldl_append, List.foldl_append, Chain.push_page hp hs, Chain.push_reg p rfl rfl,
    Chain.push_mod _ rfl rfl, Chain.push_immWords _ (by simpa [Parts.chunks_length] using p.imms_le)]
  simp [Parts.chain, Parts.chunks_length]

theorem Chain.push_len (c : Chain) (w : Half) : (c.push w).len = c.len + 1 := by
  unfold Chain.push
  grind

/-- Up to four prefixes and a base word are read as a whole chain, whatever follows them. -/
theorem scan_append {c : Chain} {ws : List Half} {w : Half} (rest : List Half) (hws : ∀ x ∈ ws, isPrefix x = true)
    (hw : isPrefix w = false) (hlen : c.len + ws.length ≤ 4) :
    scan c (ws ++ w :: rest) = .whole ((ws.foldl Chain.push c).base w) := by
  induction ws generalizing c with
  | nil => simp [scan, hw]
  | cons x ws ih =>
    obtain ⟨hx, hws⟩ := List.forall_mem_cons.1 hws
    rw [List.length_cons] at hlen
    have hne : c.len ≠ 4 := by omega
    rw [List.cons_append, scan, if_pos hx, if_neg hne, ih hws (by rw [Chain.push_len]; omega), List.foldl_cons]

/-! ### The base word (R18) -/

/-- Field b of a base word: the low bits of the immediate, or of the register number. -/
def Parts.low (p : Parts) : BitVec 4 :=
  match p.imm with
  | some v => v.extractLsb' 0 4
  | none => p.b.extractLsb' 0 4

theorem baseWord_major {p : Parts} : p.baseWord.extractLsb' 12 4 = BitVec.ofNat 4 p.major := by
  unfold Parts.baseWord
  rw [BitVec.extractLsb'_append_eq_of_le (by decide), BitVec.extractLsb'_append_eq_of_le (by decide),
    BitVec.extractLsb'_append_eq_of_le (by decide), BitVec.extractLsb'_eq_self]

theorem baseWord_d {p : Parts} : p.baseWord.extractLsb' 8 4 = p.d.extractLsb' 0 4 := by
  unfold Parts.baseWord
  rw [BitVec.extractLsb'_append_eq_of_le (by decide), BitVec.extractLsb'_append_eq_of_le (by decide),
    BitVec.extractLsb'_append_eq_of_add_le (by decide), BitVec.extractLsb'_eq_self]

theorem baseWord_a {p : Parts} : p.baseWord.extractLsb' 4 4 = p.a.extractLsb' 0 4 := by
  unfold Parts.baseWord
  rw [BitVec.extractLsb'_append_eq_of_le (by decide), BitVec.extractLsb'_append_eq_of_add_le (by decide),
    BitVec.extractLsb'_eq_self]

theorem baseWord_b {p : Parts} : p.baseWord.extractLsb' 0 4 = p.low :=
  (BitVec.extractLsb'_append_eq_of_add_le (by decide)).trans BitVec.extractLsb'_eq_self

theorem isPrefix_baseWord {p : Parts} (h : p.major < 15) : isPrefix p.baseWord = false := by
  rw [isPrefix, baseWord_major, beq_eq_false_iff_ne]
  intro heq
  have hval : p.major % 16 = 15 := by simpa using congrArg BitVec.toNat heq
  omega

/-- The whole chain of an instruction, with its base word. -/
def Parts.whole (p : Parts) : Chain :=
  { p.chain with major := p.major, dN := p.d.extractLsb' 0 4, aN := p.a.extractLsb' 0 4, bN := p.low }

theorem Parts.chain_base {p : Parts} (h : p.major < 15) : p.chain.base p.baseWord = p.whole := by
  rw [Chain.base, baseWord_major, baseWord_d, baseWord_a, baseWord_b, BitVec.toNat_ofNat, Nat.mod_eq_of_lt (by omega)]
  rfl

/-- The decoder reads the chain of an instruction back from its words, whatever follows them. -/
theorem decode_words {p : Parts} (rest : List Half) (hp : p.page < 7) (hs : p.sub < 16) (hm : p.major < 15)
    (hlen : p.prefixes ≤ 4) : decode (p.words ++ rest) = p.whole.decode := by
  have hscan : scan {} (p.words ++ rest) = .whole p.whole := by
    rw [Parts.words_eq, List.append_assoc, List.singleton_append,
      scan_append rest p.heads_isPrefix (isPrefix_baseWord hm) (by simpa [p.heads_length] using hlen), Parts.foldl_heads hp hs,
      Parts.chain_base hm]
  rw [decode, hscan]

/-! ### Marks (R26) -/

@[simp] theorem Scope.ofBits_bits (c : Scope) : Scope.ofBits c.bits = c := by cases c <;> rfl

@[simp] theorem Mod.ofBits_bits (m : Mod) : Mod.ofBits m.bits = m := by
  obtain ⟨r, c, a, e, k⟩ := m
  cases r <;> cases c <;> cases a <;> cases e <;> cases k <;> rfl

theorem Mod.bits_reserved (m : Mod) : m.bits.extractLsb' 0 3 = 0 := by
  unfold Mod.bits
  rw [BitVec.extractLsb'_append_eq_of_add_le (by decide), BitVec.extractLsb'_eq_self]
  rfl

theorem Mod.bits_scope (m : Mod) : (m.bits.extractLsb' 6 3).toNat < 5 := by
  have hscope : m.bits.extractLsb' 6 3 = m.scope.bits := by
    unfold Mod.bits
    rw [BitVec.extractLsb'_append_eq_of_le (by decide), BitVec.extractLsb'_append_eq_of_le (by decide),
      BitVec.extractLsb'_append_eq_of_le (by decide), BitVec.extractLsb'_append_eq_of_le (by decide),
      BitVec.extractLsb'_append_eq_of_add_le (by decide), BitVec.extractLsb'_eq_self]
  rw [hscope]
  cases m.scope <;> decide

/-! ### Immediates (R23) -/

/-- Reading the chunks of a value, most significant first, shifts them in below what was read before them. -/
theorem getLsbD_foldl_chunksOf (v x : Imm) (n i : Nat) (hi : i < 34) :
    ((chunksOf v n).foldl (fun (u : Imm) p => (u <<< 10) ||| p.setWidth 34) x).getLsbD i =
      if i < 10 * n then v.getLsbD (4 + i) else x.getLsbD (i - 10 * n) := by
  induction n generalizing x with
  | zero => simp [chunksOf]
  | succ n ih =>
    rw [chunksOf, List.foldl_cons, ih]
    by_cases h1 : i < 10 * n
    · simp [h1, show i < 10 * (n + 1) by omega]
    · rw [if_neg h1]
      by_cases h2 : i < 10 * (n + 1)
      · have hlow : i - 10 * n < 10 := by omega
        simp [h2, hlow, show i - 10 * n < 34 by omega, show 4 + 10 * n + (i - 10 * n) = 4 + i by omega]
      · have hhigh : ¬ i - 10 * n < 10 := by omega
        simp [-BitVec.getLsbD_eq_getElem, h2, hhigh, show i - 10 * n < 34 by omega,
          show i - 10 * n - 10 = i - 10 * (n + 1) by omega]

/-- A value within `34 - k` signed bits comes back when its high bits are shifted out and its sign is shifted in. -/
theorem sshiftRight_shiftLeft {v : Imm} {k : Nat} (hk : k < 34) (hlo : -2 ^ (33 - k) ≤ v.toInt)
    (hhi : v.toInt < 2 ^ (33 - k)) : (v <<< k).sshiftRight k = v := by
  have hpow : (2 : Int) ^ (33 - k) * 2 ^ k = 2 ^ 33 := by rw [← pow_add, Nat.sub_add_cancel (by omega)]
  have hk0 : (0 : Int) < 2 ^ k := by positivity
  have hshift : (v <<< k).toInt = v.toInt * 2 ^ k := by
    rw [BitVec.toInt_shiftLeft, Nat.shiftLeft_eq, Nat.cast_mul, ← Int.bmod_mul_bmod, ← BitVec.toInt_eq_toNat_bmod]
    push_cast
    apply Int.bmod_eq_of_le
    · simp; nlinarith
    · simp; nlinarith
  apply BitVec.eq_of_toInt_eq
  rw [BitVec.toInt_sshiftRight, hshift, Int.shiftRight_eq_div_pow]
  simp

/-- The chunks of a value in as many prefixes as hold it, and its low bits, make the value again. -/
theorem assemble_chunksOf {v : Imm} {n : Nat} (hn : n ≤ 3) (hlo : -2 ^ (3 + 10 * n) ≤ v.toInt)
    (hhi : v.toInt < 2 ^ (3 + 10 * n)) : assemble (chunksOf v n) (v.extractLsb' 0 4) = v := by
  have hk : 33 - (30 - 10 * n) = 3 + 10 * n := by omega
  rw [assemble]
  simp only [chunksOf_length]
  refine .trans (congrArg (BitVec.sshiftRight · (30 - 10 * n)) (BitVec.eq_of_getLsbD_eq fun i hi => ?_))
    (sshiftRight_shiftLeft (by omega) (hk ▸ hlo) (hk ▸ hhi))
  by_cases h1 : i < 30 - 10 * n
  · simp [h1, hi]
  · obtain ⟨j, rfl⟩ := Nat.exists_eq_add_of_le (Nat.le_of_not_lt h1)
    by_cases h2 : j < 4
    · simp [-BitVec.getLsbD_eq_getElem, h2, hi, show j < 34 by omega]
    · have hread := getLsbD_foldl_chunksOf v 0#34 n (j - 4) (by omega)
      rw [if_pos (by omega), Nat.add_sub_cancel' (by omega)] at hread
      simp [-BitVec.getLsbD_eq_getElem, h2, hi, hread, show j < 34 by omega]

/-- The prefixes that an immediate needs hold it, the sign included (Table 2.3). -/
theorem immCount_holds (v : Imm) : -2 ^ (3 + 10 * immCount v) ≤ v.toInt ∧ v.toInt < 2 ^ (3 + 10 * immCount v) := by
  simp only [immCount]
  split_ifs with h0 h1 h2
  · simpa using h0
  · simpa using h1
  · simpa using h2
  · exact ⟨v.le_toInt, v.toInt_lt⟩

@[simp] theorem assemble_immCount (v : Imm) : assemble (chunksOf v (immCount v)) (v.extractLsb' 0 4) = v :=
  assemble_chunksOf (immCount_le v) (immCount_holds v).1 (immCount_holds v).2

/-! ### Field values that name no register (R20, R75, R87, R91) -/

theorem SpReg.ofNum_num (r : SpReg) : SpReg.ofNum r.num = some r := by cases r <;> rfl

theorem narrow_setWidth {n : Nat} (hn : n ≤ 34) (x : BitVec n) : narrow n (x.setWidth 34) = some x := by
  have hval : (x.setWidth 34).toNat = x.toNat :=
    BitVec.toNat_setWidth_of_le hn
  rw [narrow, if_pos (hval ▸ x.isLt), BitVec.setWidth_setWidth_of_le _ hn, BitVec.setWidth_eq]

theorem narrow_bitsImm (pos len1 : BitVec 6) : narrow 12 (bitsImm pos len1) = some (len1 ++ pos) :=
  narrow_setWidth (by decide) _

/-- The number of an LCW or LCR is five bits: which set of registers, and which of its eight (R163). -/
theorem narrow_lcNumber (k : BitVec 2) (n : BitVec 3) : narrow 5 (k.setWidth 31 ++ n : Imm) = some (k ++ n) := by
  have hval : (k.setWidth 31 ++ n : Imm) = (k ++ n : BitVec 5).setWidth 34 := by
    apply BitVec.eq_of_toNat_eq
    rw [BitVec.toNat_setWidth_of_le (by decide), BitVec.toNat_append, BitVec.toNat_append,
      BitVec.toNat_setWidth_of_le (by decide)]
  rw [hval, narrow_setWidth (by decide)]

theorem lcNumber_set (k : BitVec 2) (n : BitVec 3) : (k ++ n : BitVec 5).extractLsb' 3 2 = k := by
  rw [BitVec.extractLsb'_append_eq_of_le (by decide), BitVec.extractLsb'_eq_self]

theorem lcNumber_register (k : BitVec 2) (n : BitVec 3) : (k ++ n : BitVec 5).setWidth 3 = n :=
  BitVec.setWidth_append_eq_right

theorem map_of_eq_some {α β : Type} {o : Option α} {a : α} (h : o = some a) (f : α → β) : o.map f = some (f a) := by
  rw [h, Option.map_some]

theorem map_narrow_bitsImm {pos len1 : BitVec 6} (f : BitVec 6 → BitVec 6 → Instr) :
    ((narrow 12 (bitsImm pos len1)).map fun x => f (x.extractLsb' 0 6) (x.extractLsb' 6 6)) = some (f pos len1) := by
  rw [narrow_bitsImm, Option.map_some, BitVec.extractLsb'_append_eq_of_add_le (by decide),
    BitVec.extractLsb'_append_eq_of_le (by decide), BitVec.extractLsb'_eq_self, BitVec.extractLsb'_eq_self]

theorem bind_lcNumber (k : BitVec 2) (n : BitVec 3) (f : BitVec 5 → Option Instr) :
    (narrow 5 (k.setWidth 31 ++ n : Imm)).bind f = f (k ++ n) := by
  rw [narrow_lcNumber, Option.bind_some]

/-! ### Rows -/

/-- Whether a field of a form can hold a number: all seven bits of a register number, four bits of another value. -/
def Field.admits (k : Field) (x : Reg) : Bool :=
  match k with
  | .reg => true
  | .plain => decide (x.toNat < 16)
  | .imm | .zero => x == 0

theorem Field.admits_code (x : BitVec 4) : Field.admits .plain (x.setWidth 7) = true := by
  have hval : (x.setWidth 7).toNat = x.toNat := BitVec.toNat_setWidth_of_le (by decide)
  rw [admits, hval]
  exact decide_eq_true x.isLt

/-- A form takes an instruction's fields, its immediate and its mask, of which there is at most one, and its row of marks. -/
structure Form.Fits (f : Form) (p : Parts) (m : ModRow) : Prop where
  d : f.d.admits p.d = true
  a : f.a.admits p.a = true
  b : f.b.admits p.b = true
  imm : (f.b == .imm) = p.imm.isSome
  masked : f.masked = p.mask.isSome
  single : (p.mask.isNone || p.imm.isNone) = true
  mod : f.mod = m

/-- The fields that a chain gives the row of an instruction: those of the instruction, and for an immediate or a mask that it has
not whatever the chain's words happen to give. -/
def Parts.fields (p : Parts) (other : Fields) : Fields :=
  { d := p.d, a := p.a, b := if p.imm.isSome then other.b else p.b, imm := p.imm.getD other.imm, mask := p.mask.getD other.mask
    mod := p.mod }

/-- What the opcode map looks at: page, sub-page, opcode and field d (R20, R33). -/
def Parts.key (p : Parts) : Chain :=
  { page := p.page, sub := p.sub, major := p.major, dN := p.d.extractLsb' 0 4 }

/-- Whether an instruction stands in pages 0 to 6, at an opcode below that of the prefixes, and takes no check mark on page 2
(R21, R151). -/
def Parts.placed (p : Parts) (m : ModRow) : Bool :=
  decide (p.page < 7) && decide (p.sub < 16) && decide (p.major < 15) && !(p.page == 2 && m == .check)

/-- The opcode map holds an instruction at its place, with a form that it fits, and its fields make it (log 8). -/
structure Parts.Mapped (p : Parts) (i : Instr) : Prop where
  placed : p.placed i.modRow = true
  row : ∃ r, lookup p.key = some r ∧ r.form.Fits p i.modRow ∧ ∀ other, r.make (p.fields other) = some i.canon

/-- Every instruction is mapped. Its row, its form and what the form makes of its fields are found by evaluation, but for the
codes and numbers that a row reads out of its immediate or out of a field. -/
theorem Instr.parts_mapped {i : Instr} {p : Parts} (hp : i.parts = some p) (hi : i.fieldsOk = true) : p.Mapped i := by
  cases i <;> cases hp
  case brCc c a imm =>
    cases c
    case always =>
      obtain rfl : a = 0 := by simpa [fieldsOk] using hi
      exact ⟨rfl, _, rfl, ⟨rfl, rfl, rfl, rfl, rfl, rfl, rfl⟩, fun _ => rfl⟩
    all_goals exact ⟨rfl, _, rfl, ⟨rfl, rfl, rfl, rfl, rfl, rfl, rfl⟩, fun _ => rfl⟩
  case nput dir _ _ => cases dir <;> exact ⟨rfl, _, rfl, ⟨rfl, rfl, rfl, rfl, rfl, rfl, rfl⟩, fun _ => rfl⟩
  case rds r | wrs r _ => exact ⟨rfl, _, rfl, ⟨rfl, rfl, rfl, rfl, rfl, rfl, rfl⟩, fun _ => map_of_eq_some r.ofNum_num _⟩
  case extr | extrZ | ins => exact ⟨rfl, _, rfl, ⟨rfl, rfl, rfl, rfl, rfl, rfl, rfl⟩, fun _ => map_narrow_bitsImm _⟩
  case psp | monArm | monClr | vmovx | vmovv | mcfg | mqry | trap | brk =>
    exact ⟨rfl, _, rfl, ⟨rfl, rfl, rfl, rfl, rfl, rfl, rfl⟩, fun _ => map_of_eq_some (narrow_setWidth (by decide) _) _⟩
  case lcwC | lcrC =>
    exact ⟨rfl, _, rfl, ⟨rfl, rfl, rfl, rfl, rfl, rfl, rfl⟩,
      fun _ => (bind_lcNumber 0 _ _).trans (by rw [lcNumber_set, lcNumber_register]; rfl)⟩
  case lcwV | lcrV =>
    exact ⟨rfl, _, rfl, ⟨rfl, rfl, rfl, rfl, rfl, rfl, rfl⟩,
      fun _ => (bind_lcNumber 1 _ _).trans (by rw [lcNumber_set, lcNumber_register]; rfl)⟩
  case lcwM | lcrM =>
    exact ⟨rfl, _, rfl, ⟨rfl, rfl, rfl, rfl, rfl, rfl, rfl⟩,
      fun _ => (bind_lcNumber 2 _ _).trans (by rw [lcNumber_set, lcNumber_register]; rfl)⟩
  case lcwCfg =>
    exact ⟨rfl, _, rfl, ⟨rfl, rfl, rfl, rfl, rfl, rfl, rfl⟩,
      fun _ => (bind_lcNumber 3 _ _).trans (by rw [lcNumber_set, lcNumber_register]; rfl)⟩
  case vcvt code | vcvtM code =>
    exact ⟨rfl, _, rfl, ⟨rfl, rfl, Field.admits_code code, rfl, rfl, rfl, rfl⟩, fun _ => by simp [Parts.fields, canon]⟩
  all_goals exact ⟨rfl, _, rfl, ⟨rfl, rfl, rfl, rfl, rfl, rfl, rfl⟩, fun _ => rfl⟩

/-! ### Decoding a chain that every check takes (R20 to R30, R46) -/

theorem lowest_eq_none {l : List (Bool × Nat)} (h : ∀ e ∈ l, e.1 = false) : lowest l = none := by
  induction l with
  | nil => rfl
  | cons e rest ih =>
    obtain ⟨he, hrest⟩ := List.forall_mem_cons.1 h
    obtain ⟨x, q⟩ := e
    simp only at he
    simp [lowest, ih hrest, he]

theorem Chain.decode_eq_instr {c : Chain} {r : Row} {i : Instr} (hpage : c.badPage = none) (hr : lookup c = some r)
    (hrep : c.repeated = none) (h5 : c.prefixNotTaken r.form = none) (h6 : c.modNotAccepted r.form = none)
    (h7 : c.badValue r = none) (hi : r.make (c.fields r.form) = some i) : c.decode = .instr i (c.len + 1) := by
  simp only [Chain.decode, hpage, hr, hrep, h5, h6, h7, hi]

/-- The row of a chain depends on its page, sub-page, opcode and field d alone. -/
theorem lookup_congr {c c' : Chain} (hp : c.page = c'.page) (hs : c.sub = c'.sub) (hm : c.major = c'.major)
    (hd : c.dN = c'.dN) : lookup c = lookup c' := by
  simp only [lookup, row0s0, hp, hs, hm, hd]

theorem Parts.lookup_whole (p : Parts) : lookup p.whole = lookup p.key := lookup_congr rfl rfl rfl rfl

theorem Instr.fieldsOk_canon (i : Instr) : i.canon.fieldsOk = i.fieldsOk := by cases i <;> rfl

/-! ### The fields of a chain, as the form of its row reads them (R19, R23, R24, R39) -/

theorem Parts.ext_d (p : Parts) : p.ext.extractLsb' 7 3 = p.d.extractLsb' 4 3 := by
  rw [Parts.ext, BitVec.extractLsb'_append_eq_of_le (by decide), BitVec.extractLsb'_append_eq_of_le (by decide),
    BitVec.extractLsb'_append_eq_of_le (by decide), BitVec.extractLsb'_eq_self]

theorem Parts.ext_a (p : Parts) : p.ext.extractLsb' 4 3 = p.a.extractLsb' 4 3 := by
  rw [Parts.ext, BitVec.extractLsb'_append_eq_of_le (by decide), BitVec.extractLsb'_append_eq_of_le (by decide),
    BitVec.extractLsb'_append_eq_of_add_le (by decide), BitVec.extractLsb'_eq_self]

theorem Parts.ext_b (p : Parts) : p.ext.extractLsb' 1 3 = p.b.extractLsb' 4 3 := by
  rw [Parts.ext, BitVec.extractLsb'_append_eq_of_le (by decide), BitVec.extractLsb'_append_eq_of_add_le (by decide),
    BitVec.extractLsb'_eq_self]

theorem Parts.ext_reserved (p : Parts) : p.ext.getLsbD 0 = false := by
  rw [Parts.ext, BitVec.getLsbD_append]
  rfl

theorem Field.lt_of_admits {k : Field} {x : Reg} (h : k.admits x = true) (hk : k ≠ .reg) : x.toNat < 16 := by
  cases k <;> simp_all [admits]

theorem Field.high_of_admits {k : Field} {x : Reg} (h : k.admits x = true) : (k != .reg && x.extractLsb' 4 3 != 0) = false := by
  by_cases hk : k = .reg
  · simp [hk]
  · simp [reg_high_of_lt (lt_of_admits h hk)]

theorem Field.low_of_admits {k : Field} {x : Reg} (h : k.admits x = true) : (k == .zero && x.extractLsb' 0 4 != 0) = false := by
  cases k <;> simp_all [admits]

theorem reg_low_of_lt {x : Reg} (h : x.toNat < 16) : (x.extractLsb' 0 4).setWidth 7 = x := by
  apply BitVec.eq_of_toNat_eq
  simp
  omega

theorem Field.value_of_admits {k : Field} {x : Reg} (h : k.admits x = true) :
    fieldValue k (x.extractLsb' 4 3) (x.extractLsb' 0 4) = x := by
  cases k with
  | reg => exact BitVec.extractLsb'_append_extractLsb'
  | plain | imm | zero => exact reg_low_of_lt (lt_of_admits h nofun)

theorem Parts.low_of_imm {p : Parts} {v : Imm} (h : p.imm = some v) : p.low = v.extractLsb' 0 4 := by rw [low, h]

theorem Parts.low_of_no_imm {p : Parts} (h : p.imm = none) : p.low = p.b.extractLsb' 0 4 := by rw [low, h]

theorem Parts.chunks_of_mask {p : Parts} {k : Reg} (h : p.mask = some k) : p.chunks = [k.setWidth 10] := by
  rw [chunks, h]

theorem Parts.chunks_of_imm {p : Parts} {v : Imm} (hm : p.mask = none) (h : p.imm = some v) :
    p.chunks = chunksOf v (immCount v) := by rw [chunks, hm, h]

theorem Parts.chunks_of_neither {p : Parts} (hm : p.mask = none) (h : p.imm = none) : p.chunks = [] := by
  rw [chunks, hm, h]

theorem mask_reserved (k : Reg) : (k.setWidth 10).extractLsb' 7 3 = 0 := by
  apply BitVec.eq_of_toNat_eq
  simp [Nat.shiftRight_eq_div_pow]
  omega

section
variable {p : Parts} {f : Form} {m : ModRow}

theorem Parts.whole_fields (h : f.Fits p m) : p.whole.fields f = p.fields (p.whole.fields f) := by
  have hb : p.imm = none → fieldValue f.b (p.b.extractLsb' 4 3) p.low = p.b := fun hi => by
    rw [low_of_no_imm hi, Field.value_of_admits h.b]
  have himm : ∀ v, p.imm = some v → assemble p.chunks p.low = v := fun v hi => by
    have hm : p.mask = none := by simpa [hi] using h.single
    rw [chunks_of_imm hm hi, low_of_imm hi, assemble_immCount]
  have hmask : ∀ k, p.mask = some k → (p.chunks.headD 0).setWidth 7 = k := fun k hm => by
    rw [chunks_of_mask hm]
    simp
  simp only [Chain.fields, Parts.fields, Parts.whole, Parts.chain, Parts.ext_d, Parts.ext_a, Parts.ext_b,
    Field.value_of_admits h.d, Field.value_of_admits h.a, Mod.ofBits_bits, Fields.mk.injEq, true_and, and_true]
  refine ⟨?_, ?_, ?_⟩
  · cases hi : p.imm with
    | none => exact hb hi
    | some v => rfl
  · cases hi : p.imm with
    | none => rfl
    | some v => exact himm v hi
  · cases hm : p.mask with
    | none => rfl
    | some k => exact hmask k hm

/-- The IMM prefixes of a chain are those that its form takes: one for a mask, and none where there is no immediate. -/
theorem Parts.whole_immsTaken (h : f.Fits p m) :
    (!f.masked && f.b != .imm && p.chunks != []) = false ∧ (f.masked && p.chunks == []) = false ∧
      (f.masked && decide (2 ≤ p.chunks.length)) = false ∧ (f.masked && (p.chunks.headD 0).extractLsb' 7 3 != 0) = false := by
  simp only [bne, h.masked, h.imm]
  cases hm : p.mask with
  | some k => simp [chunks_of_mask hm, mask_reserved]
  | none =>
    cases hi : p.imm with
    | some v => simp
    | none => simp [chunks_of_neither hm hi]

theorem Parts.whole_prefixNotTaken (h : f.Fits p m) (hm : m.accepts p.mod = true) (hpage : p.placed m = true) :
    p.whole.prefixNotTaken f = none := by
  obtain ⟨himm, hempty, hmany, -⟩ := whole_immsTaken h
  have hmod : (f.mod == .none && p.whole.modPos.isSome) = false := by
    by_cases hn : f.mod = .none
    · have hnone : p.mod = {} := by simpa [← h.mod, hn, ModRow.accepts] using hm
      simp [whole, chain, hnone]
    · simp [hn]
  have hcheck : (p.page == 2 && p.mod.check) = false := by
    cases m <;> simp_all [placed, ModRow.accepts]
  apply lowest_eq_none
  simp only [List.forall_mem_cons, List.not_mem_nil, false_imp_iff, implies_true, and_true]
  refine ⟨himm, hempty, hmany, ?_, ?_⟩
  · rw [hmod, Bool.false_or]
    simpa only [whole, chain, Mod.ofBits_bits] using hcheck
  · simp only [whole, chain, ext_d, ext_a, ext_b, Field.high_of_admits h.d, Field.high_of_admits h.a, Field.high_of_admits h.b,
      Bool.or_false]

theorem Parts.whole_modNotAccepted (h : f.Fits p m) (hm : m.accepts p.mod = true) (hc : p.mod.combines = true) :
    p.whole.modNotAccepted f = none := by
  simp [Chain.modNotAccepted, whole, chain, h.mod, hm, hc]

end

theorem Parts.whole_badValue {p : Parts} {r : Row} {m : ModRow} {i : Instr} (h : r.form.Fits p m)
    (hmake : r.make (p.whole.fields r.form) = some i) (hok : i.fieldsOk = true) : p.whole.badValue r = none := by
  obtain ⟨-, -, -, hmask⟩ := whole_immsTaken h
  have hscope : ¬ 5 ≤ (p.mod.bits.extractLsb' 6 3).toNat := Nat.not_le_of_lt p.mod.bits_scope
  have hb : (r.form.b == .zero && p.low != 0) = false := by
    cases hi : p.imm with
    | none => rw [low_of_no_imm hi, Field.low_of_admits h.b]
    | some v =>
      have hform : r.form.b = .imm := by simpa [hi] using h.imm
      rw [hform]
      rfl
  apply lowest_eq_none
  simp only [List.forall_mem_cons, List.not_mem_nil, false_imp_iff, implies_true, and_true]
  refine ⟨p.ext_reserved, ?_, hmask, ?_, ?_⟩
  · simp only [whole, chain, Mod.bits_reserved, hscope, decide_false, bne_self_eq_false, Bool.or_false]
  · simp only [whole, Field.low_of_admits h.d, Field.low_of_admits h.a, hb, Bool.or_false]
  · simp only [hmake, hok, Bool.not_true]

theorem decode_whole {p : Parts} {i : Instr} (hmap : p.Mapped i) (hok : i.fieldsOk = true) (hmod : i.modRow.accepts p.mod = true)
    (hcomb : p.mod.combines = true) : p.whole.decode = .instr i.canon (p.prefixes + 1) := by
  obtain ⟨hplaced, r, hr, hfits, hmake⟩ := hmap
  have hmade : r.make (p.whole.fields r.form) = some i.canon := by rw [Parts.whole_fields hfits, hmake]
  exact Chain.decode_eq_instr rfl (p.lookup_whole.trans hr) rfl (Parts.whole_prefixNotTaken hfits hmod hplaced)
    (Parts.whole_modNotAccepted hfits hmod hcomb) (Parts.whole_badValue hfits hmade (i.fieldsOk_canon.trans hok)) hmade

theorem Parts.lt_of_placed {p : Parts} {m : ModRow} (h : p.placed m = true) : p.page < 7 ∧ p.sub < 16 ∧ p.major < 15 := by
  simp only [placed, Bool.and_eq_true, decide_eq_true_eq] at h
  obtain ⟨⟨⟨hpage, hsub⟩, hmajor⟩, -⟩ := h
  exact ⟨hpage, hsub, hmajor⟩

theorem Instr.wf_iff {i : Instr} {p : Parts} (hp : i.parts = some p) :
    i.wf = true ↔ i.fieldsOk = true ∧ i.modRow.accepts p.mod = true ∧ p.mod.combines = true ∧ p.prefixes ≤ 4 := by
  simp [wf, hp, and_assoc]

theorem encode_of_parts {i : Instr} {p : Parts} (hp : i.parts = some p) : encode i = p.words := by rw [encode, hp]

theorem Parts.words_length (p : Parts) : p.words.length = p.prefixes + 1 := by
  rw [words_eq, List.length_append, heads_length, List.length_singleton]

/-- Settles O2: the words are read back into the chain of the instruction's parts (`decode_words`), at whose place the opcode map
holds it (`Instr.parts_mapped`). -/
theorem everyEncodedInstructionDecodesToItself : Obligations.EveryEncodedInstructionDecodesToItself := by
  intro i rest henc hwf
  obtain ⟨p, hp⟩ := Option.isSome_iff_exists.1 henc
  obtain ⟨hok, hmod, hcomb, hlen⟩ := (Instr.wf_iff hp).1 hwf
  have hmap := Instr.parts_mapped hp hok
  obtain ⟨hpage, hsub, hmajor⟩ := Parts.lt_of_placed hmap.placed
  rw [encode_of_parts hp, decode_words rest hpage hsub hmajor hlen, Parts.words_length]
  exact decode_whole hmap hok hmod hcomb

/-- Settles O3: a chain is its prefixes, of which there are at most four, and a base word whose opcode is none of theirs. -/
theorem encodedChainsEndAtTheirBaseWord : Obligations.EncodedChainsEndAtTheirBaseWord := by
  intro i henc hwf
  obtain ⟨p, hp⟩ := Option.isSome_iff_exists.1 henc
  obtain ⟨hok, -, -, hlen⟩ := (Instr.wf_iff hp).1 hwf
  obtain ⟨-, -, hmajor⟩ := Parts.lt_of_placed (Instr.parts_mapped hp hok).placed
  rw [encode_of_parts hp, Parts.words_length, Parts.words_eq, List.dropLast_concat, List.getLast?_concat]
  refine ⟨by omega, by omega, p.heads_isPrefix, fun w hw => ?_⟩
  rw [← Option.some.inj hw]
  exact isPrefix_baseWord hmajor

/-- Settles O1: each chain of the tables is the one that `encode` writes for its instruction. -/
theorem wordsOfTheTablesDecode : Obligations.WordsOfTheTablesDecode := by
  have h (i : Instr) (henc : i.encodable = true) (hwf : i.wf = true) := everyEncodedInstructionDecodesToItself i [] henc hwf
  exact ⟨h (.add 3 1 2) rfl rfl, h (.addi 5 4 (-8)) rfl rfl, h (.ldi 7 18) rfl rfl, h (.jalr 1 2) rfl rfl,
    h (.ldf { scope := .package, acquire := true } 3 1 0) rfl rfl, h (.add 0 16 0) rfl rfl, h .eret rfl rfl⟩

end Sys2Proof
end

section
/-! PROOFS. Branches and jumps: each is an issue (`issue_runs`) whose body goes to a target or traps. -/

namespace Sys2Proof.Machine

variable {s : State} {h : Hand} {t : Thread}

/-- The value of a register that an instruction reads as it issues. -/
theorem begun_regOf (r : Reg) : (cxAt s h t).w (begun s h) (rn r) = regOf s h t r := begun_w _

/-! ### Branches (R93) -/

theorem execBrCc_not_taken {c : Cond} {a : Reg} {imm : Imm} (hi : Issues s (pageZero [a]) h t)
    (hc : condHolds c (regOf s h t a) = false) : exec (.brCc c a imm) s = .next (goesTo s h (stepPc t.pc h.len)) := by
  change execBrCc c a imm s = _
  rw [execBrCc, issue_runs hi, begun_regOf, if_neg (Bool.eq_false_iff.1 hc)]
  exact done_begun

theorem execBrCc_taken {c : Cond} {a : Reg} {imm : Imm} (hi : Issues s (pageZero [a]) h t)
    (hc : condHolds c (regOf s h t a) = true) : exec (.brCc c a imm) s =
      match effective t.pc (2 * imm.toInt) with
      | .ok p => .next (goesTo s h p)
      | .error r => .next ((begun s h).trap h.core h.slot cPERM (BitVec.ofNat 64 r) t.pc 0 false) := by
  change execBrCc c a imm s = _
  rw [execBrCc, issue_runs hi, begun_regOf, if_pos hc]
  rfl

/-! ### Jumps (R28, R94) -/

/-- From the state `b`, the thread goes to an address. -/
def jumps (b : State) (h : Hand) (p : Word) : State := b.upThread h.core h.slot fun u => { u with pc := p }

theorem execJal_runs {d : Reg} {imm : Imm} (hi : Issues s (pageZero [d]) h t) : exec (.jal d imm) s =
    match effective t.pc (2 * imm.toInt) with
    | .ok p => .next (jumps ((begun s h).setW h.core h.slot (rn d) (stepPc t.pc h.len)) h p)
    | .error r => .next ((begun s h).trap h.core h.slot cPERM (BitVec.ofNat 64 r) t.pc 0 false) := by
  change execJal d imm s = _
  rw [execJal, issue_runs hi]
  rfl

theorem execJr_runs {a : Reg} (hi : Issues s (pageZero [a]) h t) : exec (.jr a) s =
    if (regOf s h t a).getLsbD 0 then
      .next ((begun s h).trap h.core h.slot cALIGN (regOf s h t a) t.pc 0 false)
    else .next (goesTo s h (regOf s h t a)) := by
  change execJr a s = _
  rw [execJr, issue_runs hi]
  simp only [begun_regOf]
  rfl

theorem execJalr_runs {d a : Reg} (hi : Issues s (pageZero [d, a]) h t) : exec (.jalr d a) s =
    if (regOf s h t a).getLsbD 0 then
      .next ((begun s h).trap h.core h.slot cALIGN (regOf s h t a) t.pc 0 false)
    else .next (jumps ((begun s h).setW h.core h.slot (rn d) (stepPc t.pc h.len)) h (regOf s h t a)) := by
  change execJalr d a s = _
  rw [execJalr, issue_runs hi]
  simp only [begun_regOf]
  rfl

/-- Settles O13: a branch is taken where its condition holds, and only then is its target formed; a jump reads its register
before it links. -/
theorem branchesAndJumpsGoToTheirTargets : Obligations.BranchesAndJumpsGoToTheirTargets := by
  refine ⟨fun s h t c a imm hi => ?_, fun s h t d imm hi => ?_, fun s h t a hi => ?_, fun s h t d a hi => ?_⟩
  · intro v taken
    have htaken : taken ↔ condHolds c (regOf s h t a) = true := by
      cases c <;> simp [taken, v, condHolds]
    refine ⟨fun hn => ?_, fun p hy hp => ?_, fun r hy hr => ?_⟩
    · exact execBrCc_not_taken hi (Bool.eq_false_iff.2 (mt htaken.2 hn))
    · rw [execBrCc_taken hi (htaken.1 hy), hp]
    · rw [execBrCc_taken hi (htaken.1 hy), hr]
      rfl
  · refine ⟨fun p hp => ?_, fun r hr => ?_⟩
    · rw [execJal_runs hi, hp]
      rfl
    · rw [execJal_runs hi, hr]
      rfl
  · intro p
    refine ⟨fun he => ?_, fun ho => ?_⟩
    · rw [execJr_runs hi, if_neg (Bool.eq_false_iff.1 he)]
    · rw [execJr_runs hi, if_pos ho]
      rfl
  · intro p
    refine ⟨fun he => ?_, fun ho => ?_⟩
    · rw [execJalr_runs hi, if_neg (Bool.eq_false_iff.1 he)]
      rfl
    · rw [execJalr_runs hi, if_pos ho]
      rfl

end Sys2Proof.Machine
end

section
/-! PROOFS. Special registers: RDS and WRS answer and change one field of the thread (`State.special`, `State.write`), and IFLUSH
parks its thread with the buffer empty. -/

namespace Sys2Proof.Machine

variable {s : State} {h : Hand} {t : Thread}

/-! ### Identifiers and threads -/

theorem State.upCore_slot {c : Nat} {f : Core → Core} (hf : ∀ x, (f x).slots = x.slots) (c' k : Nat) :
    ((s.upCore c f).core c').slot k = (s.core c').slot k := by
  rw [State.upCore_core]
  split
  · next hc => rw [hc, Core.slot, Core.slot, hf]
  · rfl

theorem State.upCore_thread {c : Nat} {f : Core → Core} (hf : ∀ x, (f x).slots = x.slots) (c' k : Nat) :
    (s.upCore c f).thread c' k = s.thread c' k := congrArg Slot.thread (State.upCore_slot hf c' k)

theorem State.upCore_threadOf {c : Nat} {f : Core → Core} (hf : ∀ x, (f x).slots = x.slots) (t : Tid) :
    (s.upCore c f).threadOf t = s.threadOf t := by
  rw [State.threadOf, State.upCore_slot hf]
  rfl

@[simp] theorem State.upThread_tidAt (c k : Nat) (f : Thread → Thread) (c' k' : Nat) :
    (s.upThread c k f).tidAt c' k' = s.tidAt c' k' := by
  by_cases hc : c' = c
  · subst hc
    by_cases hk : k' = k
    · subst hk
      simp [State.tidAt, State.upThread_core_self]
    · simp [State.tidAt, State.upThread_core_self, hk]
  · simp [State.tidAt, hc]

@[simp] theorem begun_tidAt (c k : Nat) : (begun s h).tidAt c k = s.tidAt c k :=
  State.upThread_tidAt (s := { s with hand := none }) _ _ _ _ _

theorem begun_thread (ht : s.thread h.core h.slot = some t) :
    ∃ u, (begun s h).thread h.core h.slot = some u :=
  ⟨_, (State.upThread_thread_self _ _ _ _).trans (congrArg _ ht)⟩

/-- Changing a thread to a value that is a change of the thread it was. -/
theorem State.upThread_const {c k : Nat} {u : Thread} (f : Thread → Thread) (hu : s.thread c k = some u) :
    (s.upThread c k fun _ => f u) = s.upThread c k f := by
  have hslot : ((s.core c).slot k).thread = some u := hu
  simp [State.upThread, State.upCore, Core.upSlot, hslot]

/-! ### RDS (R42) -/

theorem special_begun (r : SpReg) : (begun s h).special h.core h.slot t r = s.special h.core h.slot t r := by
  cases r with
  | id => exact congrArg Tid.word (begun_tidAt _ _)
  | owner => exact begun_core_owner _
  | _ => rfl

theorem execRds_runs {d : Reg} {r : SpReg} (hi : Issues s (pageZero [d]) h t) :
    exec (.rds d r) s = .next (retires s h t d (s.special h.core h.slot t r)) := by
  change execRds d r s = _
  rw [execRds, issueRet, issue_runs hi, ret_begun]
  exact congrArg (fun v => Host.Outcome.next (retires s h t d v)) (special_begun r)

/-! ### WRS (R43, R182, R212) -/

theorem execWrs_runs {a : Reg} {r : SpReg} {u : Thread} (hi : Issues s (plainKind [a]) h t)
    (hu : (begun s h).thread h.core h.slot = some u) :
    exec (.wrs r a) s = match (begun s h).write (s.ctxOf h.core) u r (regOf s h t a) with
      | .accept u' => .next (passes ((begun s h).upThread h.core h.slot fun _ => u') h t)
      | .align => .next ((begun s h).trap h.core h.slot cALIGN (regOf s h t a) t.pc 0 false)
      | .reject => .next ((begun s h).trap h.core h.slot cPERM 0x0A t.pc 0 false) := by
  have hx : (begun s h).thread (cxAt s h t).core (cxAt s h t).slot = some u := hu
  have hctx : (cxAt s h t).ctx (begun s h) = s.ctxOf h.core := begun_ctxOf _
  change execWrs r a s = _
  rw [execWrs, issue_runs hi]
  simp only [begun_w, hx, hctx]
  rfl

theorem execWrs_accepts {a : Reg} {r : SpReg} {f : Thread → Thread} (hi : Issues s (plainKind [a]) h t)
    (hw : ∀ u, (begun s h).write (s.ctxOf h.core) u r (regOf s h t a) = .accept (f u)) :
    exec (.wrs r a) s = .next (passes ((begun s h).upThread h.core h.slot f) h t) := by
  obtain ⟨u, hu⟩ := begun_thread hi.live
  rw [execWrs_runs hi hu, hw]
  simp only [State.upThread_const f hu]

theorem execWrs_aligns {a : Reg} {r : SpReg} (hi : Issues s (plainKind [a]) h t)
    (hw : ∀ u, (begun s h).write (s.ctxOf h.core) u r (regOf s h t a) = .align) :
    exec (.wrs r a) s = .next ((begun s h).trap h.core h.slot cALIGN (regOf s h t a) t.pc 0 false) := by
  obtain ⟨u, hu⟩ := begun_thread hi.live
  rw [execWrs_runs hi hu, hw]

theorem execWrs_rejects {a : Reg} {r : SpReg} (hi : Issues s (plainKind [a]) h t)
    (hw : ∀ u, (begun s h).write (s.ctxOf h.core) u r (regOf s h t a) = .reject) :
    exec (.wrs r a) s = .next ((begun s h).trap h.core h.slot cPERM 0x0A t.pc 0 false) := by
  obtain ⟨u, hu⟩ := begun_thread hi.live
  rw [execWrs_runs hi hu, hw]

/-- A word lies below a power of two where its bits from there on are zero. -/
theorem high_bits_eq_zero_iff {n m : Nat} (v : Word) (hn : n + m = 64) : v.extractLsb' n m = 0 ↔ v.toNat < 2 ^ n := by
  have hlt : v.toNat / 2 ^ n < 2 ^ m := Nat.div_lt_of_lt_mul (by rw [← pow_add, hn]; exact v.isLt)
  rw [← BitVec.toNat_inj, BitVec.extractLsb'_toNat, Nat.shiftRight_eq_div_pow, Nat.mod_eq_of_lt hlt]
  simp [Nat.div_eq_zero_iff]

theorem asidBound_iff {n ctx : Nat} :
    s.asidBound n ctx = true ↔ (s.desc n 0).getLsbD 63 = true ∧ (s.desc n 0).toNat % 65536 = ctx := by
  simp [State.asidBound]

/-! ### IFLUSH (R108) -/

theorem State.park_core {c k : Nat} (why : Park) (till : Wait) (c' : Nat) : ∃ f,
    (s.park c k why till).core c' = (s.upThread c k f).core c' := by
  unfold State.park
  dsimp only
  split <;> exact ⟨_, rfl⟩

@[simp] theorem State.park_tidAt (c k : Nat) (why : Park) (till : Wait) (c' k' : Nat) :
    (s.park c k why till).tidAt c' k' = s.tidAt c' k' := by
  obtain ⟨f, hf⟩ := s.park_core why till c'
  rw [State.tidAt, hf]
  exact State.upThread_tidAt _ _ _ _ _

@[simp] theorem State.staleFills_core (c c' : Nat) : (s.staleFills c).core c' = s.core c' := rfl

/-- The state at hand with its core's buffer empty, and the lines on their way to it marked (R108). -/
def emptied (s : State) (h : Hand) : State :=
  ((begun s h).upCore h.core fun c => { c with ibuf := [] }).staleFills h.core

@[simp] theorem emptied_slot (c k : Nat) : ((emptied s h).core c).slot k = ((begun s h).core c).slot k := by
  rw [emptied, State.staleFills_core, State.upCore_slot]
  exact fun _ => rfl

theorem emptied_core : (emptied s h).core h.core = { (begun s h).core h.core with ibuf := [] } := by
  rw [emptied, State.staleFills_core, State.upCore_core_self]

/-- The state in which an IFLUSH leaves the machine, but for the step that returns its thread (R108). -/
def flushed (s : State) (h : Hand) (t : Thread) : State :=
  (emptied s h).park h.core h.slot .mem (.flush (stepPc t.pc h.len))

theorem flushed_tidAt (c k : Nat) : (flushed s h t).tidAt c k = s.tidAt c k := by
  rw [flushed, State.park_tidAt, State.tidAt, emptied_slot]
  exact begun_tidAt c k

theorem execIflush_runs (hi : Issues s { big := false } h t) :
    exec .iflush s = .next ((flushed s h t).after 16 20 (.iflushExpiry (s.tidAt h.core h.slot))) := by
  change execIflush s = _
  rw [execIflush, issue_runs hi, ← flushed_tidAt (h := h) (t := t)]
  rfl

@[simp] theorem State.park_cyc (c k : Nat) (why : Park) (till : Wait) : (s.park c k why till).cyc = s.cyc := by
  unfold State.park
  dsimp only
  split <;> rfl

theorem flushed_cyc : (flushed s h t).cyc = s.cyc := State.park_cyc _ _ _ _

theorem flushed_core : ∃ f, (flushed s h t).core h.core =
    ({ (begun s h).core h.core with ibuf := [] } : Core).upSlot h.slot f := by
  obtain ⟨f, hf⟩ := State.park_core (s := emptied s h) (c := h.core) (k := h.slot) .mem (.flush (stepPc t.pc h.len)) h.core
  refine ⟨fun sl => { sl with thread := sl.thread.map f }, hf.trans ?_⟩
  rw [State.upThread_core_self, emptied_core]

theorem flushed_thread (ht : s.thread h.core h.slot = some t) :
    ∃ v, (flushed s h t).thread h.core h.slot = some v ∧ v.status = .parked .mem (.flush (stepPc t.pc h.len)) := by
  obtain ⟨u, hu⟩ := begun_thread ht
  have hempty : (emptied s h).thread h.core h.slot = some u := (congrArg Slot.thread (emptied_slot _ _)).trans hu
  exact ⟨_, State.park_thread _ _ hempty, rfl⟩

/-- Settles O50: RDS answers `State.special`, WRS does what `State.write` says of the register and its value, and IFLUSH leaves
the state `flushed`. -/
theorem specialRegistersAreReadAndWritten : Obligations.SpecialRegistersAreReadAndWritten := by
  refine ⟨fun s h t d r hi => ?_, fun s h t a hi => ?_, fun s h t hi => ?_⟩
  · rw [execRds_runs hi]
    cases r <;> rfl
  · intro v sets bars odd
    refine ⟨fun he => ⟨?_, ?_⟩, fun ho => ⟨?_, ?_⟩, fun hc => ?_, fun hc => ?_, fun h0 => ?_, fun h1 => ?_,
      fun hl => ?_, fun hm hk => ?_, fun hx => ?_, fun hf => ?_, fun hf => ?_, ?_, ?_, ?_, ?_, fun hn hb ho => ?_, fun ha => ?_,
      ?_, ?_, ?_, ?_, ?_, ?_, ?_, ?_⟩
    -- In the statement's order: vec and epc, cause, lvl, vx, fmt; info, sa, sb and band; asid; the registers that are only read.
    · exact execWrs_accepts hi fun _ => if_neg (Bool.eq_false_iff.1 he)
    · exact execWrs_accepts hi fun _ => if_neg (Bool.eq_false_iff.1 he)
    · exact execWrs_aligns hi fun _ => if_pos ho
    · exact execWrs_aligns hi fun _ => if_pos ho
    · exact execWrs_accepts hi fun _ => if_pos ((high_bits_eq_zero_iff v rfl).2 hc)
    · exact execWrs_rejects hi fun _ => if_neg (mt (high_bits_eq_zero_iff v rfl).1 (Nat.not_lt.2 hc))
    · exact execWrs_accepts hi fun _ => if_pos h0
    · have h0 : v ≠ 0 := by rw [h1]; decide
      exact execWrs_accepts hi fun _ => (if_neg h0).trans (if_pos h1)
    · have h0 : v ≠ 0 := fun h0 => by simp [h0] at hl
      have h1 : v ≠ 1 := fun h1 => by simp [h1] at hl
      exact execWrs_rejects hi fun _ => (if_neg h0).trans (if_neg h1)
    · exact execWrs_accepts hi fun _ => if_neg (by simp only [not_or, not_not]; exact ⟨hk, hm⟩)
    · exact execWrs_rejects hi fun _ => if_pos hx.symm
    · exact execWrs_accepts hi fun _ => if_pos hf
    · exact execWrs_rejects hi fun _ => if_neg (Bool.eq_false_iff.1 hf)
    · exact execWrs_accepts hi fun _ => rfl
    · exact execWrs_accepts hi fun _ => rfl
    · exact execWrs_accepts hi fun _ => rfl
    · exact execWrs_accepts hi fun _ => rfl
    · exact execWrs_accepts hi fun _ => if_pos ⟨(high_bits_eq_zero_iff v rfl).2 hn, asidBound_iff.2 ⟨hb, ho⟩⟩
    · refine execWrs_rejects hi fun _ => if_neg fun hw => ?_
      obtain ⟨hb, ho⟩ := asidBound_iff.1 hw.2
      rcases ha with ha | ha | ha
      · exact absurd ((high_bits_eq_zero_iff v rfl).1 hw.1) (Nat.not_lt.2 ha)
      · exact absurd hb (Bool.eq_false_iff.1 ha)
      · exact ha ho
    all_goals exact execWrs_rejects hi fun _ => rfl
  · obtain ⟨f, hcore⟩ := flushed_core (s := s) (h := h) (t := t)
    obtain ⟨v, hv, hst⟩ := flushed_thread hi.live
    refine ⟨_, v, execIflush_runs hi, ?_, hv, hst, ?_, ?_, ?_⟩
    · exact congrArg Core.ibuf hcore
    · rw [← flushed_cyc (s := s) (h := h) (t := t)]
      exact State.after_coming _ _ _
    · exact State.park_mem _ _
    · exact (congrArg Core.regs hcore).trans (begun_core_regs _)

end Sys2Proof.Machine
end

section
/-! PROOFS. Fills, turns, refusals and admissions. A filled line and the thread that awaits it (`lineFilled_thread`), a request
whose key is at hand (`State.go_small`), a walk that waits for its turn (`awaitTurn_found`), and a channel that admits a waiting
request (`admitNext_first`). -/

namespace Sys2Proof.Machine

variable {s : State}

/-! ### Lists of requests -/

theorem Map.find_singleton {α : Type} (n : Nat) (v : α) : Map.find [(n, v)] n = some v := if_pos rfl

theorem Map.drop_singleton {α : Type} (n : Nat) (v : α) : Map.drop [(n, v)] n = [] := if_pos rfl

theorem Map.mem_of_find {α : Type} {m : Map α} {n : Nat} {v : α} (h : m.find n = some v) : (n, v) ∈ m := by
  induction m with
  | nil => cases h
  | cons e rest ih =>
    obtain ⟨k, w⟩ := e
    by_cases hk : k = n
    · have hw : w = v := by simpa [Map.find, hk] using h
      rw [hk, hw]
      exact List.mem_cons_self
    · exact List.mem_cons_of_mem _ (ih (by simpa [Map.find, hk] using h))

/-! ### A thread that returns to the rotation (R57, R59) -/

theorem State.thread_of_threadOf {t : Tid} {th : Thread} (h : s.threadOf t = some th) : s.thread t.core t.slot = some th := by
  simp only [State.threadOf] at h
  split at h
  · exact h
  · cases h

@[simp] theorem State.kick_reqs (c : Nat) : (s.kick c).reqs = s.reqs := by
  unfold State.kick
  repeat' split
  all_goals rfl

theorem State.kick_ibuf (c : Nat) : ((s.kick c).core c).ibuf = (s.core c).ibuf := by
  obtain ⟨_, hcore⟩ := s.kick_core c
  rw [hcore]

/-- What a return to the rotation makes of the thread and of its core's buffer. -/
structure Returned (s u : State) (c k : Nat) (t : Thread) : Prop where
  thread : ∃ v, u.thread c k = some v ∧ v.status = .ready ∧ v.pc = t.pc
  ibuf : (u.core c).ibuf = (s.core c).ibuf
  reqs : u.reqs = s.reqs
  mem : u.mem = s.mem

theorem State.enter_returned {c k : Nat} {t : Thread} (ht : s.thread c k = some t) : Returned s (s.enter c k) c k t := by
  have hu : (s.upCore c fun x =>
      { x with retain := x.retain.filter fun b => !((winBanks t.win).contains b) }).thread c k = some t := by
    rw [State.upCore_thread, ht]
    exact fun _ => rfl
  refine ⟨?_, ?_, ?_, State.enter_mem⟩ <;> simp only [State.enter, ht]
  · rw [State.kick_thread, State.upThread_thread_self, hu]
    exact ⟨_, rfl, rfl, rfl⟩
  · rw [State.kick_ibuf, State.upThread_core_self, Core.upSlot_ibuf, State.upCore_core_self]
  · rw [State.kick_reqs]
    rfl

theorem State.wake_returned {c k : Nat} {t : Thread} (ht : s.thread c k = some t) (hw : warm s c t) :
    Returned s (s.wake c k) c k t := by
  have hwake : s.wake c k = s.enter c k := by
    rw [State.wake, ht]
    exact if_pos (.inr (Bool.eq_false_iff.1 hw))
  rw [hwake]
  exact State.enter_returned ht

/-! ### A line's fill (R107, R108) -/

/-- The line that a fetch's answer makes. -/
def Req.filledLine (r : Req) : ILine :=
  ⟨if spaceOf r.ptr = 0 then r.asid else 0, r.ptr, r.pa, r.key, r.ans, r.route⟩

theorem lineFilled_kept {c n : Nat} {r : Req} (hreqs : s.reqs = [(n, r)]) (hst : r.stage = .served) (hev : r.event = none)
    (hix : r.index = 0) (hc : isLarge c = false) :
    s.lineFilled c n = ((s.dropReq n).upCore c fun x => x.addLine r.filledLine).lineWake n r := by
  have hfetchers : ((s.dropReq n).upCore c fun x => x.addLine r.filledLine).fetchers c
      (if spaceOf r.ptr = 0 then r.asid else 0) r.ptr = [] := by
    simp [State.fetchers, State.dropReq, hreqs, Map.drop_singleton]
  rw [State.lineFilled, hreqs, Map.find_singleton]
  simp only [hst, hev, hix, hc]
  exact congrArg (List.foldl _ _) hfetchers

theorem lineFilled_flushed {c n : Nat} {r : Req} (hreqs : s.reqs = [(n, r)]) (hst : r.stage = .served) (hev : r.event = none)
    (hix : r.index = 1) : s.lineFilled c n = (s.dropReq n).lineWake n r := by
  rw [State.lineFilled, hreqs, Map.find_singleton]
  simp only [hst, hev, hix]
  rfl

theorem lineWake_awaited {n : Nat} {r : Req} {t : Tid} {th : Thread} {why : Park} (hr : r.tid = some t)
    (ht : s.threadOf t = some th) (hst : th.status = .parked why (.reply n)) : s.lineWake n r = s.wake t.core t.slot := by
  rw [State.lineWake, hr]
  simp only [ht, hst, if_true]

theorem lineWake_nobody {n : Nat} {r : Req} (hr : r.tid = none) : s.lineWake n r = s := by
  rw [State.lineWake, hr]

theorem dropReq_only {n : Nat} {r : Req} (hreqs : s.reqs = [(n, r)]) : (s.dropReq n).reqs = [] := by
  rw [State.dropReq, hreqs, Map.drop_singleton]

theorem addLine_head (x : Core) (l : ILine) : (x.addLine l).ibuf.head? = some l := rfl

/-- R107: the line that a fetch's answer makes stands first in the buffer, and the thread that awaits it returns. -/
theorem lineFilled_thread {c n : Nat} {r : Req} {t : Tid} {th : Thread} (hreqs : s.reqs = [(n, r)]) (hst : r.stage = .served)
    (hev : r.event = none) (hix : r.index = 0) (hr : r.tid = some t) (hc : t.core = c) (hl : isLarge c = false)
    (ht : s.threadOf t = some th) (hp : th.status = .parked .mem (.reply n)) (hw : warm s c th) :
    Returned ((s.dropReq n).upCore c fun x => x.addLine r.filledLine) (s.lineFilled c n) c t.slot th := by
  have hadd : ∀ x : Core, (x.addLine r.filledLine).slots = x.slots := fun _ => rfl
  have hof : ((s.dropReq n).upCore c fun x => x.addLine r.filledLine).threadOf t = some th :=
    (State.upCore_threadOf hadd t).trans ht
  have hwarm : warm ((s.dropReq n).upCore c fun x => x.addLine r.filledLine) c th := by
    rw [warm, State.upCore_core_self]
    exact hw
  have hthread := State.thread_of_threadOf hof
  rw [hc] at hthread
  rw [lineFilled_kept hreqs hst hev hix hl, lineWake_awaited hr hof hp, hc]
  exact State.wake_returned hthread hwarm

theorem lineFilled_thread_flushed {c n : Nat} {r : Req} {t : Tid} {th : Thread} (hreqs : s.reqs = [(n, r)])
    (hst : r.stage = .served) (hev : r.event = none) (hix : r.index = 1) (hr : r.tid = some t) (hc : t.core = c)
    (ht : s.threadOf t = some th) (hp : th.status = .parked .mem (.reply n)) (hw : warm s c th) :
    Returned (s.dropReq n) (s.lineFilled c n) c t.slot th := by
  rw [lineFilled_flushed hreqs hst hev hix, lineWake_awaited (s := s.dropReq n) hr ht hp, hc]
  exact State.wake_returned (s := s.dropReq n) (hc ▸ State.thread_of_threadOf ht) hw

/-! ### A request whose key is at hand (R308) -/

theorem upReq_post_find {n time rank : Nat} {f : Req → Req} {ev : Instr} {q : Req} (hn : s.reqs.find n = some q) :
    ((s.upReq n f).post time rank ev).reqs.find n = some (f q) := (State.upReq_find_self n f).trans (congrArg _ hn)

theorem useKey_core_other {c c' : Nat} (key : KeyName) (hne : c' ≠ c) : (s.useKey c key).core c' = s.core c' :=
  s.upCore_core_other _ hne

theorem useKey_mem_keys (c : Nat) (key : KeyName) : key ∈ ((s.useKey c key).core c).keys := by
  rw [State.useKey, State.upCore_core_self]
  exact List.mem_cons_self

theorem State.go_small {n : Nat} {q : Req} (hn : s.reqs.find n = some q) (huse : q.use = .done) (hc : isLarge q.core = false) :
    s.go n = (s.upReq n fun r => { r with stage := .sent, lat := r.time }).post (max s.cyc q.since + half q.lat)
      ((s.upReq n fun r => { r with stage := .sent, lat := r.time }).arrivalRank (max s.cyc q.since + half q.lat) q)
      (s.arrivalOf n q) := by
  have hflush : q.flushes = false := by simp [Req.flushes, hc]
  have hcomb : q.combines = false := by simp [Req.combines, huse]
  have htime : q.time = q.lat := by simp [Req.time, huse]
  simp [State.go, hn, State.blockers, hflush, hcomb, State.combiner, State.noteLine, huse, htime]
  rfl

theorem execKeyFill_small {n : Nat} {q : Req} {pa atom : Nat} {key : KeyName} {route : Route} {log : Option Nat}
    (hn : s.reqs.find n = some q) (hst : q.stage = .keying) (haf : q.after = []) (huse : q.use = .done)
    (hl : s.lookup q.core q.ctx q.asid q.want q.ptr = .now (.ok pa key atom route log)) (hc : q.cacheable = false) :
    exec (.keyFill n) s = .next ((s.useKey q.core key).go n) := by
  change execKeyFill n s = _
  simp [execKeyFill, hn, hst, haf, hl, huse, hc, State.afterFill]

theorem execKeyFill_cached {n : Nat} {q : Req} {pa atom : Nat} {key : KeyName} {route : Route} {log : Option Nat}
    (hn : s.reqs.find n = some q) (hst : q.stage = .keying) (haf : q.after = []) (huse : q.use = .done)
    (hl : s.lookup q.core q.ctx q.asid q.want q.ptr = .now (.ok pa key atom route log)) (hc : q.cacheable = true) :
    exec (.keyFill n) s = .next ((s.useKey q.core key).depart n key) := by
  change execKeyFill n s = _
  simp [execKeyFill, hn, hst, haf, hl, huse, hc, State.afterFill]

/-! ### A translation that is filled (R133, R302) -/

theorem execTranslationFill_translating {n : Nat} {q : Req} (hn : s.reqs.find n = some q) (hst : q.stage = .translating)
    (huse : q.use = .done) : exec (.translationFill n) s = .next (s.filled n q) := by
  change execTranslationFill n s = _
  simp [execTranslationFill, hn, hst, huse, State.afterFill]

theorem filled_now {n : Nat} {q : Req} {t : Trans} (hp : q.placing = false)
    (hl : s.lookup q.core q.ctx q.asid q.want q.ptr = .now t) : s.filled n q = s.translated n t := by
  simp [State.filled, hp, hl]

theorem filled_held {n a time : Nat} {q : Req} (hp : q.placing = false)
    (hl : s.lookup q.core q.ctx q.asid q.want q.ptr = .later time)
    (hh : s.heldWalk q.core q.ctx q.asid q.want q.ptr = some a) :
    s.filled n q = (s.upReq n fun r => { r with stage := .translating }).awaitTurn a (.translationFill n) := by
  simp [State.filled, hp, hl, hh]

theorem filled_later {n time : Nat} {q : Req} (hp : q.placing = false)
    (hl : s.lookup q.core q.ctx q.asid q.want q.ptr = .later time)
    (hh : s.heldWalk q.core q.ctx q.asid q.want q.ptr = none) :
    s.filled n q =
      (s.refill q.core q.ctx q.asid q.want q.ptr).2.translated n (s.refill q.core q.ctx q.asid q.want q.ptr).1 := by
  simp [State.filled, hp, hl, hh]

theorem heldWalk_later {core ctx asid a : Nat} {w : Want} {p : Word} (h : s.heldWalk core ctx asid w p = some a) :
    ∃ time, s.lookup core ctx asid w p = .later time := by
  unfold State.heldWalk at h
  split at h
  · cases h
  · next time hl => exact ⟨time, hl⟩

theorem heldIn_of_heldWord {runs : List (Nat × Nat)} {a : Nat} (h : s.heldWord runs = some a) : s.heldIn a 1 = true :=
  List.find?_some (p := fun a => s.heldIn a 1) h

theorem heldIn_of_heldWalk {core ctx asid a : Nat} {w : Want} {p : Word} (h : s.heldWalk core ctx asid w p = some a) :
    s.heldIn a 1 = true := by
  obtain ⟨time, hl⟩ := heldWalk_later h
  simp only [State.heldWalk, hl] at h
  split at h
  · cases h
  · exact heldIn_of_heldWord h

/-! ### A turn that is awaited (R133, log 115) -/

theorem serve_turn {n : Nat} {r : Req} (hop : r.op = .turn) : s.serve n r = s.grant n r := by
  rw [State.serve, hop]
  rfl

theorem serveScan_turn {n : Nat} {r : Req} (hop : r.op = .turn) (hv : r.view = none) : s.serveScan n r = s.grant n r := by
  have hscan : (r.op.changesBit || r.view.isSome) = false := by
    rw [hop, hv]
    rfl
  rw [State.serveScan, serve_turn hop, hscan]
  rfl

theorem grant_turn_reqs {n : Nat} {r : Req} (hop : r.op = .turn) :
    (s.grant n r).reqs = s.reqs.adjust n fun q => { q with stage := .held } := by
  rw [State.grant, hop]
  cases r.instr <;> rfl

/-- A unit's turn is queued, refused or granted at its word: of the requests, its stage alone changes. -/
theorem meetWord_turn_reqs {n : Nat} {r : Req} (hop : r.op = .turn) (hv : r.view = none) :
    ∃ st, (s.meetWord n r).reqs = s.reqs.adjust n fun q => { q with stage := st } := by
  have hserves : r.op.canServe (s.mem.full r.first) = true := by
    rw [hop]
    rfl
  simp only [State.meetWord, hserves, if_true]
  split
  · split
    · exact ⟨.queued, rfl⟩
    · exact ⟨.refused, rfl⟩
  · rw [serveScan_turn hop hv]
    exact ⟨.held, grant_turn_reqs hop⟩

/-- The request by which a step waits for its turn at a word. -/
def turnReq (a : Nat) (ev : Instr) (rank : Nat) : Req := { op := .turn, instr := some ev, pa := a, index := rank }

theorem awaitTurn_cases (a : Nat) (ev : Instr) (rank : Nat) :
    s.awaitTurn a ev rank = s ∧ (∃ k r, (k, r) ∈ s.reqs ∧ r.op = .turn ∧ r.instr = some ev ∧ r.pa = a) ∨
      ∃ st, (s.awaitTurn a ev rank).reqs =
        (s.reqs.put s.serial (turnReq a ev rank)).adjust s.serial fun q => { q with stage := st } := by
  unfold State.awaitTurn
  split
  · next h =>
    obtain ⟨⟨k, r⟩, hmem, hr⟩ := List.any_eq_true.1 h
    simp only [Bool.and_eq_true, beq_iff_eq] at hr
    obtain ⟨⟨hop, hin⟩, hpa⟩ := hr
    exact .inl ⟨rfl, k, r, hmem, hop, hin, hpa⟩
  · exact .inr (meetWord_turn_reqs (s := (s.addReq (turnReq a ev rank)).2) rfl rfl)

/-- A step that waits for its turn has its request among those in flight. -/
theorem awaitTurn_found (a : Nat) (ev : Instr) (rank : Nat) :
    ∃ k r, (k, r) ∈ (s.awaitTurn a ev rank).reqs ∧ r.op = .turn ∧ r.instr = some ev ∧ r.pa = a := by
  obtain ⟨hs, hfound⟩ | ⟨st, hreqs⟩ := awaitTurn_cases (s := s) a ev rank
  · rw [hs]
    exact hfound
  · refine ⟨s.serial, { turnReq a ev rank with stage := st }, Map.mem_of_find ?_, rfl, rfl, rfl⟩
    rw [hreqs, Map.find_adjust_self, Map.find_put_self]
    rfl

theorem awaitTurn_find {m : Nat} (a : Nat) (ev : Instr) (rank : Nat) (hm : m ≠ s.serial) :
    (s.awaitTurn a ev rank).reqs.find m = s.reqs.find m := by
  obtain ⟨hs, -⟩ | ⟨st, hreqs⟩ := awaitTurn_cases (s := s) a ev rank
  · rw [hs]
  · rw [hreqs, Map.find_adjust_other _ _ hm, Map.find_put_other _ _ hm]

/-! ### Refusals (R103) -/

theorem execRefusedRequestResend_sends {n : Nat} {q : Req} (hn : s.reqs.find n = some q) (hst : q.stage = .refused)
    (ho : q.orphan = false) : exec (.refusedRequestResend n) s = .next
      ((s.upReq n fun r => { r with stage := .sent, portAt := none }).post (s.cyc + half q.lat)
        (s.arrivalRank (s.cyc + half q.lat) q) (s.arrivalOf n q)) := by
  change execRefusedRequestResend n s = _
  simp [execRefusedRequestResend, hn, hst, ho]

theorem execRefusedRequestResend_orphan {n : Nat} {q : Req} (hn : s.reqs.find n = some q) (hst : q.stage = .refused)
    (ho : q.orphan = true) : exec (.refusedRequestResend n) s = .next (s.dropReq n) := by
  change execRefusedRequestResend n s = _
  simp [execRefusedRequestResend, hn, hst, ho]

/-! ### Admission (R343, log 81) -/

/-- The state in which a channel has taken the waiting request `w`, and `rest` wait (R343). -/
def admitted (s : State) (b : Nat) (w : Waiting) (rest : List Waiting) : State :=
  s.upBank b fun x =>
    { x with arrived := rest, vtime := max x.vtime w.start, tags := x.tags.put (2 ^ 100 + flowOf w.ctx w.part) w.sub }

@[simp] theorem admitted_arrived (b : Nat) (w : Waiting) (rest : List Waiting) :
    ((admitted s b w rest).bank b).arrived = rest := by
  simp [admitted, State.bank, State.upBank]

@[simp] theorem Waiting.flow_self (w : Waiting) : w.flow w = true := by simp [Waiting.flow]

@[simp] theorem Waiting.share_self (w : Waiting) : w.share w = true := by simp [Waiting.share]

theorem Waiting.flow_of_ne {w v : Waiting} (h : (w.ctx, w.part) ≠ (v.ctx, v.part)) : w.flow v = false := by
  simpa [Waiting.flow] using h

theorem Waiting.share_of_ne {w v : Waiting} (h : (w.ctx, w.part) ≠ (v.ctx, v.part)) : w.share v = false := by
  simp [Waiting.share, Waiting.flow_of_ne h]

theorem retag_nil (same : Waiting → Bool) (set : Waiting → Nat → Waiting) (l : List Waiting) : retag same set [] l = l := by
  cases l <;> rfl

/-- The channel takes the first of the waiting requests, where it is the one that R343 chooses, and comes again while
others wait. -/
theorem admitNext_first {b : Nat} {w : Waiting} {rest l : List Waiting} {r : Req} (hw : (s.bank b).arrived = w :: rest)
    (hflow : nextFlow (w :: rest) = some w) (hone : ∀ tag, nextOfFlow w tag (w :: rest) = some w)
    (hl : w.remove (w :: rest) = l) (hr : s.reqs.find w.req = some r) :
    s.admitNext b =
      (if l.isEmpty then admitted s b w l else (admitted s b w l).after 0 20 (.channelAdmission b)).takeUp w.req r := by
  have hempty : ((admitted s b w l).bank b).arrived.isEmpty = l.isEmpty := by rw [admitted_arrived]
  have hreqs : (if l.isEmpty then admitted s b w l else (admitted s b w l).after 0 20 (.channelAdmission b)).reqs.find w.req =
      some r := by split <;> exact hr
  simp only [admitted] at hempty hreqs ⊢
  simp only [State.admitNext, hw, hflow, hone, Option.bind_some, Option.map_some, List.find?, Waiting.share_self, hl, hempty,
    hreqs]

theorem remove_only (w : Waiting) : w.remove [w] = [] := by simp [Waiting.remove, retag]

theorem remove_other {w v : Waiting} (hf : (v.ctx, v.part) ≠ (w.ctx, w.part)) (hreq : w.req ≠ v.req) :
    w.remove [w, v] = [v] := by
  have hflow : w.flow v = false := Waiting.flow_of_ne hf.symm
  have hshare : w.share v = false := Waiting.share_of_ne hf.symm
  simp [Waiting.remove, hflow, hshare, retag_nil, Ne.symm hreq]

theorem execChannelAdmission_one {b : Nat} {w : Waiting} {r : Req} (hw : (s.bank b).arrived = [w])
    (hr : s.reqs.find w.req = some r) : exec (.channelAdmission b) s = .next ((admitted s b w []).takeUp w.req r) := by
  have hone (tag : Waiting → Nat) : nextOfFlow w tag [w] = some w := by simp [nextOfFlow]
  change Host.Outcome.next (s.admitNext b) = _
  rw [admitNext_first hw rfl hone (remove_only w) hr]
  rfl

/-- Of two flows, the one of the smaller start tag is admitted, and the channel comes again for the other. -/
theorem execChannelAdmission_two {b : Nat} {w v : Waiting} {r : Req} (hw : (s.bank b).arrived = [w, v])
    (hf : (w.ctx, w.part) ≠ (v.ctx, v.part)) (hreq : w.req ≠ v.req) (hlt : w.start < v.start)
    (hr : s.reqs.find w.req = some r) : exec (.channelAdmission b) s =
      .next (((admitted s b w [v]).after 0 20 (.channelAdmission b)).takeUp w.req r) := by
  have hbefore : v.before w = false := by simp [Waiting.before, Nat.ne_of_gt hlt, Nat.le_of_lt hlt]
  have hnext : nextFlow [w, v] = some w := by simp [nextFlow, hbefore]
  have hone (tag : Waiting → Nat) : nextOfFlow w tag [w, v] = some w := by simp [nextOfFlow, Waiting.flow_of_ne hf.symm]
  change Host.Outcome.next (s.admitNext b) = _
  rw [admitNext_first hw hnext hone (remove_other hf.symm hreq) hr]
  rfl

/-- Settles O54: each step is followed from its request to what it leaves, by the lemmas on fills, keys, turns and admissions
above. -/
theorem linesKeysAndTranslationsAreFilled : Obligations.LinesKeysAndTranslationsAreFilled := by
  refine ⟨⟨?_, ?_, ?_, ?_⟩, ?_, ?_, ?_, ?_⟩
  · intro s c n r t th hreqs hst hev _ hix hr hc hl ht hp hw
    obtain ⟨⟨v, hv, hready, hpc⟩, hbuf, hrs, hmem⟩ := lineFilled_thread hreqs hst hev hix hr hc hl ht hp hw
    refine ⟨_, v, rfl, hv, hready, hpc, ?_, hrs.trans (dropReq_only hreqs), hmem⟩
    rw [hbuf, State.upCore_core_self]
    exact addLine_head _ _
  · intro s c n r hreqs hst hev _ hix hr hl
    have hfill := (lineFilled_kept (c := c) hreqs hst hev hix hl).trans (lineWake_nobody hr)
    refine ⟨_, congrArg Host.Outcome.next hfill, dropReq_only hreqs, rfl, rfl, ?_, ?_⟩
    · rw [State.upCore_core_self]
      exact addLine_head _ _
    · intro c' hne
      exact State.upCore_core_other (s.dropReq n) _ hne
  · intro s c n r t th hreqs hst hev _ hix hr hc ht hp hw
    obtain ⟨⟨v, hv, hready, hpc⟩, hbuf, hrs, hmem⟩ := lineFilled_thread_flushed hreqs hst hev hix hr hc ht hp hw
    exact ⟨_, v, rfl, hv, hready, hpc, hbuf, hrs.trans (dropReq_only hreqs), hmem⟩
  · intro s h t reason pos hh ht
    change execUnassignedEncoding reason pos s = _
    simp only [execUnassignedEncoding, hh, ht]
    rfl
  · intro s n q pa atom key route log hn hst haf huse hl
    refine ⟨fun hc => ?_, execKeyFill_cached hn hst haf huse hl⟩
    have hcache : q.cacheable = false := by simp [Req.cacheable, hc]
    have hn' : (s.useKey q.core key).reqs.find n = some q := hn
    have hgo := (execKeyFill_small hn hst haf huse hl hcache).trans (congrArg _ (State.go_small hn' huse hc))
    refine ⟨_, hgo, ?_, ?_, ?_, ?_, rfl⟩
    · have htime : q.time = q.lat := by simp [Req.time, huse]
      rw [upReq_post_find hn', htime]
    · exact State.post_coming _ _ _
    · exact useKey_mem_keys _ _
    · intro c' hne
      exact useKey_core_other key hne
  · intro s n q hn hst huse hp
    have hfill := execTranslationFill_translating hn hst huse
    refine ⟨fun t hl => ?_, fun a hne hh => ?_, fun time hl hh => ?_⟩
    · rw [hfill, filled_now hp hl]
    · obtain ⟨time, hl⟩ := heldWalk_later hh
      obtain ⟨k, r, hmem, hop, hin, hpa⟩ := awaitTurn_found (s := s.upReq n fun r => { r with stage := .translating }) a
        (.translationFill n) 7
      refine ⟨_, k, r, hfill.trans (congrArg _ (filled_held hp hl hh)), heldIn_of_heldWalk hh, ?_, hmem, hop, hin, hpa, ?_⟩
      · rw [awaitTurn_find (s := s.upReq n _) _ _ _ hne, State.upReq_find_self, hn, ← hst]
        rfl
      · exact State.awaitTurn_mem _ _ _
    · rw [hfill, filled_later hp hl hh]
  · intro s n q hn hst
    refine ⟨fun ho => ?_, execRefusedRequestResend_orphan hn hst⟩
    refine ⟨_, execRefusedRequestResend_sends hn hst ho, ?_, State.post_coming _ _ _, rfl, rfl⟩
    exact upReq_post_find hn
  · intro s b w r hr takes
    exact ⟨fun hw => execChannelAdmission_one hw hr, fun v hw hf hreq hlt => execChannelAdmission_two hw hf hreq hlt hr⟩

end Sys2Proof.Machine
end

section
/-! PROOFS. What stays with the threads. `State.Keeps` says that a step has left slots, registers and waiting messages alone;
below it stand the slots of a core after a thread is settled in one (`State.settle_thread`) and after one leaves
(`State.leave_vacates`), and a thread that returns to the rotation (`State.enter_thread`, `State.resumeAt_thread`). -/

namespace Sys2Proof.Machine

variable {s u w : State} {c k : Nat}

/-! ### Tables -/

/-- Setting the value at one number leaves what is read of the others, in their order. -/
theorem Map.filterMap_put {α β : Type} (m : Map α) (n : Nat) (v : α) (f : Nat × α → Option β) (hf : ∀ w, f (n, w) = none) :
    (m.put n v).filterMap f = List.filterMap f m := by
  induction m with
  | nil => simp [Map.put, hf]
  | cons e rest ih =>
    obtain ⟨i, x⟩ := e
    by_cases hlt : n < i
    · simp [Map.put, hlt, hf]
    · by_cases heq : n = i
      · subst heq
        simp [Map.put, hf]
      · simp [Map.put, hlt, heq, List.filterMap_cons, ih]

theorem Map.find_dropRange {α : Type} (m : Map α) {lo n i : Nat} (hlo : lo ≤ i) (hi : i < lo + n) :
    (m.dropRange lo n).find i = none := by
  induction m with
  | nil => rfl
  | cons e rest ih =>
    obtain ⟨j, x⟩ := e
    rw [Map.dropRange, List.filter_cons]
    split
    · next hj =>
      have hne : j ≠ i := by rintro rfl; simp [hlo, hi] at hj
      exact (if_neg hne).trans ih
    · exact ih

theorem firstFrom_accepts {p : Nat → Bool} {lo n i : Nat} (h : firstFrom p lo n = some i) : p i = true := by
  induction n generalizing lo with
  | zero => cases h
  | succ n ih =>
    rw [firstFrom] at h
    split at h
    · next hp => cases h; exact hp
    · exact ih h

/-! ### Steps that leave the threads alone -/

/-- From `s` to `u` no time has passed, and no core's slots, scalar registers or waiting active messages have changed. -/
structure State.Keeps (s u : State) : Prop where
  cyc : u.cyc = s.cyc
  slots : ∀ c, (u.core c).slots = (s.core c).slots
  regs : ∀ c, (u.core c).regs = (s.core c).regs
  doors : ∀ c, (u.core c).doors = (s.core c).doors

namespace State.Keeps

theorem refl : Keeps s s := ⟨rfl, fun _ => rfl, fun _ => rfl, fun _ => rfl⟩

theorem trans (h : Keeps s u) (h' : Keeps u w) : Keeps s w :=
  ⟨h'.cyc.trans h.cyc, fun c => (h'.slots c).trans (h.slots c), fun c => (h'.regs c).trans (h.regs c),
    fun c => (h'.doors c).trans (h.doors c)⟩

theorem of_cores (hcyc : u.cyc = s.cyc) (hcores : u.cores = s.cores) (hsys : u.sys = s.sys) : Keeps s u := by
  have hcore (c : Nat) : u.core c = s.core c := by rw [State.core, hcores, hsys]; rfl
  exact ⟨hcyc, fun c => by rw [hcore], fun c => by rw [hcore], fun c => by rw [hcore]⟩

theorem upCore {f : Core → Core} (hs : (f (s.core c)).slots = (s.core c).slots)
    (hr : (f (s.core c)).regs = (s.core c).regs) (hd : (f (s.core c)).doors = (s.core c).doors) : Keeps s (s.upCore c f) := by
  refine ⟨rfl, fun c' => ?_, fun c' => ?_, fun c' => ?_⟩ <;> rw [State.upCore_core] <;> split
  · next hc => rw [hc, hs]
  · rfl
  · next hc => rw [hc, hr]
  · rfl
  · next hc => rw [hc, hd]
  · rfl

theorem foldl {α : Type} {f : State → α → State} (hf : ∀ u a, Keeps u (f u a)) (l : List α) : Keeps s (l.foldl f s) := by
  induction l generalizing s with
  | nil => exact refl
  | cons a l ih => exact (hf s a).trans ih

theorem slot (h : Keeps s u) (c k : Nat) : (u.core c).slot k = (s.core c).slot k := by rw [Core.slot, h.slots]; rfl

theorem thread (h : Keeps s u) (c k : Nat) : u.thread c k = s.thread c k := congrArg Slot.thread (h.slot c k)

theorem tidAt (h : Keeps s u) (c k : Nat) : u.tidAt c k = s.tidAt c k := by rw [State.tidAt, h.slot]; rfl

theorem post (time rank : Nat) (ev : Instr) : Keeps s (s.post time rank ev) := of_cores rfl rfl rfl

theorem after (d rank : Nat) (ev : Instr) : Keeps s (s.after d rank ev) := of_cores rfl rfl rfl

theorem postAll (rank : Nat) (f : Nat → Instr) (l : List Nat) : Keeps s (s.postAll rank f l) := by
  induction l generalizing s with
  | nil => exact refl
  | cons n l ih => exact (after _ _ _).trans ih

theorem kick (c : Nat) : Keeps s (s.kick c) := by
  have hat (t : Nat) (ev : Instr) : Keeps s ((s.upCore c fun x => { x with issueAt := some t }).post t 50 ev) :=
    (upCore rfl rfl rfl).trans (post _ _ _)
  unfold State.kick
  split
  · exact refl
  · split
    · split
      · exact refl
      · exact hat _ _
    · exact hat _ _

theorem drop (c : Nat) : Keeps s (s.drop c) := by
  unfold State.drop
  split
  · exact of_cores rfl rfl rfl
  · exact upCore rfl rfl rfl

theorem dropN (c n : Nat) : Keeps s (s.dropN c n) := by
  induction n generalizing s with
  | zero => exact refl
  | succ n ih => exact (drop c).trans ih

theorem sweep : Keeps s s.sweep := by
  unfold State.sweep
  split
  · exact of_cores rfl rfl rfl
  · exact refl

theorem retryPressed (c : Nat) : Keeps s (s.retryPressed c) :=
  (upCore (f := fun x => { x with pressed := [] }) rfl rfl rfl).trans (postAll _ _ _)

theorem seatElsewhere (c : Nat) : Keeps s (s.seatElsewhere c) := postAll _ _ _

theorem retryDispatch (c : Nat) : Keeps s (s.retryDispatch c) :=
  foldl (fun _ _ => foldl (fun _ _ => foldl (fun u p => by split <;> [exact postAll _ _ _; exact refl]) _) _) _

theorem drainCheck (c : Nat) : Keeps s (s.drainCheck c) :=
  foldl (fun u e => by split <;> [exact after _ _ _; exact refl]) _

/-! #### A thread's first line (R57, R107) -/

theorem countRead (a n : Nat) : Keeps s (s.countRead a n) := by
  unfold State.countRead State.countFixed
  repeat' split
  · exact refl
  · exact upCore rfl rfl rfl
  · exact of_cores rfl rfl rfl

theorem tellPoison (pa : Nat) : Keeps s (s.tellPoison pa) := by
  unfold State.tellPoison
  repeat' split
  all_goals exact of_cores rfl rfl rfl

theorem walked (w : Walk) : Keeps s (s.walked w) := by
  unfold State.walked
  dsimp only
  split
  · exact (foldl (fun _ _ => countRead _ _) _).trans (tellPoison _)
  · exact foldl (fun _ _ => countRead _ _) _

theorem tagFrame (n : Nat) (t : Tag) : Keeps s (s.tagFrame n t) := by
  unfold State.tagFrame
  dsimp only
  split <;> exact of_cores rfl rfl rfl

theorem addEntry (c : Nat) (e : TEntry) : Keeps s (s.addEntry c e) := upCore rfl rfl rfl

theorem useKey (c : Nat) (n : KeyName) : Keeps s (s.useKey c n) := upCore rfl rfl rfl

theorem fill (c ctx asid : Nat) (w : Walk) (l : Leaf) : Keeps s (s.fill c ctx asid w l) := by
  have htags (v : State) (fs : List Nat) : Keeps v (fs.foldl (fun v f => v.tagFrame f (.id l.kid ctx)) v) :=
    foldl (fun _ _ => tagFrame _ _) _
  unfold State.fill
  dsimp only
  split <;> split
  · exact (addEntry _ _).trans (upCore rfl rfl rfl)
  · exact addEntry _ _
  · exact ((addEntry _ _).trans (upCore rfl rfl rfl)).trans (htags _ _)
  · exact (addEntry _ _).trans (htags _ _)

theorem refill (core ctx asid : Nat) (n : Want) (p : Word) : Keeps s (s.refill core ctx asid n p).2 := by
  unfold State.refill
  dsimp only
  split
  · split
    · exact refl
    · split
      · exact refl
      · exact (addEntry _ _).trans (useKey _ _)
  · split
    · exact walked _
    · split
      · exact walked _
      · split <;> exact (walked _).trans (fill _ _ _ _ _)

theorem locate (core ctx asid : Nat) (n : Want) (p : Word) : Keeps s (s.locate core ctx asid n p).2 := by
  unfold State.locate
  split
  · exact refl
  · exact refill _ _ _ _ _

theorem freeWords (n : Nat) : Keeps s (s.freeWords n).2 := by
  induction n generalizing s with
  | zero => exact refl
  | succ n ih => exact (of_cores (s := s) (u := s.freeWord.2) rfl rfl rfl).trans ih

theorem lineWords (pa key : Nat) : Keeps s (s.lineWords pa key).2 := by
  unfold State.lineWords
  split
  · exact freeWords _
  · exact refl

theorem firstLine (c : Nat) (t : Thread) : Keeps s (s.firstLine c t) := by
  unfold State.firstLine
  split
  · exact refl
  · next p _ =>
    have hloc := locate (s := s) c (s.ctxOf c) t.asid.toNat { x := true } (linePtr p)
    split
    · exact refl
    · split
      · next heq =>
        rw [heq] at hloc
        dsimp only
        split
        · exact refl
        · exact (((hloc.trans (countRead _ _)).trans (useKey _ _)).trans (lineWords _ _)).trans (upCore rfl rfl rfl)
      · exact refl

end State.Keeps

end Sys2Proof.Machine
end

section
/-! PROOFS. Slots and their threads: a thread that is settled in a slot (`State.settle_thread`), one that leaves
(`State.leave_frees`), one that returns to the rotation (`State.enter_thread`, `State.resumeAt_thread`), and the thread at hand in
the states from which an instruction starts and ends (`begun_thread_self`, `passes_thread`). -/

namespace Sys2Proof.Machine

variable {s u w : State} {h : Hand} {c k : Nat} {t v : Thread}

/-! ### Slots, threads and generations -/

theorem Core.mem_threads {x : Core} (ht : (x.slot k).thread = some t) : (k, t) ∈ x.threads := by
  unfold Core.slot at ht
  cases hfind : x.slots.find k with
  | none => rw [hfind] at ht; cases ht
  | some sl =>
    rw [hfind] at ht
    exact List.mem_filterMap.2 ⟨(k, sl), Map.mem_of_find hfind, by simp [show sl.thread = some t from ht]⟩

theorem Core.upSlot_gen {x : Core} {f : Slot → Slot} (hf : ∀ sl, (f sl).gen = sl.gen) (j : Nat) :
    ((x.upSlot k f).slot j).gen = (x.slot j).gen := by
  by_cases hj : j = k
  · rw [hj, Core.upSlot_slot_self, hf]
  · rw [Core.upSlot_slot_other _ _ hj]

theorem State.upCore_tidAt {f : Core → Core} (hf : ∀ j, ((f (s.core c)).slot j).gen = ((s.core c).slot j).gen) (c' j : Nat) :
    (s.upCore c f).tidAt c' j = s.tidAt c' j := by
  rw [State.tidAt, State.upCore_core]
  split
  · next hc => rw [hc, hf]; rfl
  · rfl

/-- A change of a thread changes the slots of its core alone. -/
theorem State.upThread_core (c k : Nat) (f : Thread → Thread) (c' : Nat) :
    ∃ slots, (s.upThread c k f).core c' = { s.core c' with slots := slots } := by
  by_cases hc : c' = c
  · rw [hc, State.upThread_core_self]
    exact ⟨_, rfl⟩
  · rw [State.upThread_core_other _ _ _ hc]
    exact ⟨_, rfl⟩

@[simp] theorem State.upThread_regs (c k : Nat) (f : Thread → Thread) (c' : Nat) :
    ((s.upThread c k f).core c').regs = (s.core c').regs := by
  obtain ⟨_, hcore⟩ := s.upThread_core c k f c'
  rw [hcore]

@[simp] theorem State.upThread_doors (c k : Nat) (f : Thread → Thread) (c' : Nat) :
    ((s.upThread c k f).core c').doors = (s.core c').doors := by
  obtain ⟨_, hcore⟩ := s.upThread_core c k f c'
  rw [hcore]

theorem State.park_slots (why : Park) (till : Wait) (c' : Nat) :
    ∃ slots, (s.park c k why till).core c' = { s.core c' with slots := slots } := by
  obtain ⟨f, hcore⟩ := s.park_core why till c'
  rw [hcore]
  exact s.upThread_core c k f c'

theorem State.upTid_of_live {i : Tid} (ht : s.threadOf i = some t) (f : Thread → Thread) :
    s.upTid i f = s.upThread i.core i.slot f := by
  rw [State.upTid, ht]
  rfl

/-! ### Scalar registers -/

/-- A write of a scalar register changes the scalar registers of its core alone. -/
theorem State.setW_core (c k n : Nat) (v : Word) (c' : Nat) :
    ∃ regs, (s.setW c k n v).core c' = { s.core c' with regs := regs } := by
  unfold State.setW
  split
  · exact ⟨_, rfl⟩
  · split
    · exact ⟨_, rfl⟩
    · rw [State.upCore_core]
      split
      · next hc => rw [hc]; exact ⟨_, rfl⟩
      · exact ⟨_, rfl⟩

@[simp] theorem State.setW_tidAt (c k n : Nat) (v : Word) (c' j : Nat) : (s.setW c k n v).tidAt c' j = s.tidAt c' j := by
  obtain ⟨_, hcore⟩ := s.setW_core c k n v c'
  rw [State.tidAt, hcore]
  rfl

@[simp] theorem State.setW_cyc (c k n : Nat) (v : Word) : (s.setW c k n v).cyc = s.cyc := by
  unfold State.setW; repeat' split
  all_goals rfl

@[simp] theorem State.setW_msgs (c k n : Nat) (v : Word) : (s.setW c k n v).msgs = s.msgs := by
  unfold State.setW; repeat' split
  all_goals rfl

@[simp] theorem State.setW_agenda (c k n : Nat) (v : Word) : (s.setW c k n v).agenda = s.agenda := by
  unfold State.setW; repeat' split
  all_goals rfl

/-- A write of a scalar register is found where the thread's window places it, and no other entry changes. -/
theorem State.setW_find {n : Nat} (v : Word) (ht : s.thread c k = some t) (i : Nat) :
    ((s.setW c k n v).core c).regs.find i = if n ≠ 0 ∧ i = 8 * wBase t.win + n then some v else (s.core c).regs.find i := by
  by_cases hn : n = 0
  · simp [hn]
  · simp only [State.setW, if_neg hn, ht, State.upCore_core_self, Map.find_put]
    simp [hn]

@[simp] theorem State.setWs_thread (c k n : Nat) (l : List Word) (c' j : Nat) :
    (s.setWs c k n l).thread c' j = s.thread c' j := by
  induction l generalizing s n with
  | nil => rfl
  | cons v l ih => simp [State.setWs, ih]

@[simp] theorem State.setWs_tidAt (c k n : Nat) (l : List Word) (c' j : Nat) :
    (s.setWs c k n l).tidAt c' j = s.tidAt c' j := by
  induction l generalizing s n with
  | nil => rfl
  | cons v l ih => simp [State.setWs, ih]

@[simp] theorem State.setWs_cyc (c k n : Nat) (l : List Word) : (s.setWs c k n l).cyc = s.cyc := by
  induction l generalizing s n with
  | nil => rfl
  | cons v l ih => simp [State.setWs, ih]

@[simp] theorem State.setWs_msgs (c k n : Nat) (l : List Word) : (s.setWs c k n l).msgs = s.msgs := by
  induction l generalizing s n with
  | nil => rfl
  | cons v l ih => simp [State.setWs, ih]

/-! ### A slot is taken (R54, R57, R61) -/

/-- A thread as it stands in the slot that it has taken. -/
def Thread.settled (t : Thread) (since ready : Nat) : Thread :=
  { t with status := .starting, readyAt := ready, outSince := some since, next := 0 }

theorem State.freeSlot_free {part : Nat} (hk : s.freeSlot c part = some k) : s.thread c k = none := by
  unfold State.freeSlot at hk
  split at hk
  · cases hk
  · split at hk
    · cases hk
    · have hfree := firstFrom_accepts hk
      simp only [Bool.and_eq_true, Option.isNone_iff_eq_none] at hfree
      exact hfree.2

theorem State.settle_core (c k : Nat) (t : Thread) (ready : Nat) : ∃ retain, (s.settle c k t ready).core c =
    ({ (s.core c).zeroWin t.win with retain := retain } : Core).upSlot k fun sl =>
      { sl with thread := some (t.settled s.cyc ready) } := ⟨_, State.upCore_core_self _ _ _⟩

theorem State.settle_thread (c k : Nat) (t : Thread) (ready : Nat) :
    (s.settle c k t ready).thread c k = some (t.settled s.cyc ready) := by
  obtain ⟨_, hcore⟩ := s.settle_core c k t ready
  rw [State.thread, hcore, Core.upSlot_slot_self]

theorem State.settle_thread_other {j : Nat} (t : Thread) (ready : Nat) (hj : j ≠ k) :
    (s.settle c k t ready).thread c j = s.thread c j := by
  obtain ⟨_, hcore⟩ := s.settle_core c k t ready
  rw [State.thread, hcore, Core.upSlot_slot_other _ _ hj]
  rfl

theorem State.settle_tidAt (c k : Nat) (t : Thread) (ready c' j : Nat) :
    (s.settle c k t ready).tidAt c' j = s.tidAt c' j := by
  by_cases hc : c' = c
  · obtain ⟨_, hcore⟩ := s.settle_core c k t ready
    rw [hc, State.tidAt, hcore, Core.upSlot_gen]
    · rfl
    · exact fun _ => rfl
  · rw [State.tidAt, State.settle, State.upCore_core_other _ _ hc]
    rfl

theorem State.createIn_core (c k : Nat) (t : Thread) (d c' : Nat) :
    (s.createIn c k t d).core c' = (s.settle c k t (s.cyc + d)).core c' := by
  unfold State.createIn
  dsimp only
  split <;> rfl

theorem State.createIn_thread (c k : Nat) (t : Thread) (d : Nat) :
    (s.createIn c k t d).thread c k = some (t.settled s.cyc (s.cyc + d)) := by
  rw [State.thread, State.createIn_core]
  exact State.settle_thread _ _ _ _

theorem State.createIn_thread_other {j : Nat} (t : Thread) (d : Nat) (hj : j ≠ k) :
    (s.createIn c k t d).thread c j = s.thread c j := by
  rw [State.thread, State.createIn_core]
  exact State.settle_thread_other _ _ hj

@[simp] theorem State.createIn_tidAt (c k : Nat) (t : Thread) (d c' j : Nat) :
    (s.createIn c k t d).tidAt c' j = s.tidAt c' j := by
  rw [State.tidAt, State.createIn_core]
  exact State.settle_tidAt _ _ _ _ _ _

theorem State.createIn_coming (c k : Nat) (t : Thread) (d : Nat) :
    coming (s.createIn c k t d) (s.cyc + d) (.threadReady (s.tidAt c k)) := by
  rw [← State.settle_tidAt c k t (s.cyc + d)]
  unfold State.createIn
  dsimp only
  split <;> exact State.after_coming _ _ _

/-! ### What waits for a slot (R55, R76) -/

theorem State.seat_tidAt {msg : Nat} (hs : s.seat msg = some u) (c' j : Nat) : u.tidAt c' j = s.tidAt c' j := by
  unfold State.seat at hs
  dsimp only at hs
  split at hs
  · split at hs
    · cases hs; exact (State.Keeps.drop _).tidAt _ _
    · split at hs
      · cases hs; rfl
      · split at hs
        · cases hs
        · split at hs
          · cases hs
          · split at hs <;> cases hs
            simp only [State.setW_tidAt, State.setWs_tidAt, State.create, State.createIn_tidAt]
            rfl
  · cases hs; rfl

theorem State.seatAll_tidAt (c : Nat) (l : List Nat) (c' j : Nat) : (s.seatAll c l).tidAt c' j = s.tidAt c' j := by
  induction l generalizing s with
  | nil => exact State.upCore_tidAt (fun _ => rfl) _ _
  | cons n l ih =>
    rw [State.seatAll]
    split
    · next hs => exact ih.trans (State.seat_tidAt hs _ _)
    · exact State.upCore_tidAt (fun _ => rfl) _ _

theorem State.Keeps.afterSeats (c : Nat) : State.Keeps (s.seatAll c (s.core c).doors) (s.vacated c) :=
  ((State.Keeps.seatElsewhere c).trans (State.Keeps.retryDispatch c)).trans (State.Keeps.drainCheck c)

theorem State.vacated_tidAt (c c' j : Nat) : (s.vacated c).tidAt c' j = s.tidAt c' j :=
  ((State.Keeps.afterSeats c).tidAt _ _).trans (State.seatAll_tidAt _ _ _ _)

theorem State.Keeps.vacated (hd : (s.core c).doors = []) : State.Keeps s (s.vacated c) := by
  refine .trans ?_ (State.Keeps.afterSeats c)
  rw [hd]
  exact State.Keeps.upCore rfl rfl hd.symm

/-! ### A slot is left (R49, R62) -/

/-- From `s` to `u` the thread has left a slot, whose generation has risen; the core's waiting active messages stay. -/
structure State.Frees (s u : State) (c k : Nat) : Prop where
  thread : u.thread c k = none
  gen : (u.tidAt c k).gen = ((s.tidAt c k).gen + 1) % 256
  doors : (u.core c).doors = (s.core c).doors

theorem State.Frees.keeps (hf : State.Frees s u c k) (hk : State.Keeps u w) : State.Frees s w c k :=
  ⟨(hk.thread c k).trans hf.thread, by rw [hk.tidAt, hf.gen], (hk.doors c).trans hf.doors⟩

theorem State.disarm_tidAt (c k m c' j : Nat) : (s.disarm c k m).tidAt c' j = s.tidAt c' j := by
  unfold State.disarm
  split
  · rfl
  · exact State.upThread_tidAt _ _ _ _ _

theorem State.disarm_doors (c k m c' : Nat) : ((s.disarm c k m).core c').doors = (s.core c').doors := by
  unfold State.disarm
  split
  · rfl
  · exact State.upThread_doors _ _ _ _

theorem State.disarmAll_tidAt (c k c' j : Nat) : (s.disarmAll c k).tidAt c' j = s.tidAt c' j := by
  simp only [State.disarmAll, List.foldl_cons, List.foldl_nil, State.disarm_tidAt]

theorem State.disarmAll_doors (c k c' : Nat) : ((s.disarmAll c k).core c').doors = (s.core c').doors := by
  simp only [State.disarmAll, List.foldl_cons, List.foldl_nil, State.disarm_doors]

theorem Core.missed_slot (x : Core) (k j : Nat) : ∃ f : Thread → Thread,
    (x.missed k).slot j = { x.slot j with thread := (x.slot j).thread.map f } := by
  refine ⟨fun t => { t with yield := t.yield.map fun y => (y.1.map fun j => if j = k then k + 64 else j, y.2) }, ?_⟩
  have hfind := Map.find_map_values x.slots (fun _ sl => { sl with thread := sl.thread.map fun t =>
    { t with yield := t.yield.map fun y => (y.1.map fun j => if j = k then k + 64 else j, y.2) } }) j
  rw [Core.slot, Core.missed, Map.mapVals, hfind, Core.slot]
  cases x.slots.find j <;> rfl

theorem State.Frees.missed (hf : State.Frees s u c k) {f : Core → Core} {j : Nat}
    (hs : ∀ x, (f x).slots = (x.missed j).slots) (hd : ∀ x, (f x).doors = x.doors) :
    State.Frees s (u.upCore c f) c k := by
  obtain ⟨g, hslot⟩ := (u.core c).missed_slot j k
  have hslot : (f (u.core c)).slot k = { (u.core c).slot k with thread := ((u.core c).slot k).thread.map g } := by
    rw [← hslot, Core.slot, hs]
    rfl
  refine ⟨?_, ?_, ?_⟩
  · rw [State.thread, State.upCore_core_self, hslot, show ((u.core c).slot k).thread = none from hf.thread]
    rfl
  · rw [← hf.gen, State.tidAt, State.upCore_core_self, hslot]
    rfl
  · rw [State.upCore_core_self, hd, hf.doors]

theorem State.Keeps.lastCleared (c : Nat) :
    State.Keeps s (s.upCore c fun x => if x.threads.isEmpty then { x with last := none } else x) := by
  refine State.Keeps.upCore ?_ ?_ ?_ <;> split <;> rfl

/-- A slot that is left is free before what waited for it goes on. -/
theorem State.leave_frees (ht : s.thread c k = some t) :
    ∃ u, State.Frees s u c k ∧ State.Keeps (u.vacated c) (s.leave c k) := by
  have hslot : State.Frees s ((s.disarmAll c k).upCore c fun x =>
      x.upSlot k fun sl => { sl with thread := none, gen := (sl.gen + 1) % 256 }) c k := by
    refine ⟨?_, ?_, ?_⟩
    · rw [State.thread, State.upCore_core_self, Core.upSlot_slot_self]
    · rw [← s.disarmAll_tidAt c k, State.tidAt, State.upCore_core_self, Core.upSlot_slot_self]
      rfl
    · rw [State.upCore_core_self, Core.upSlot_doors, State.disarmAll_doors]
  have hkick (v : State) : State.Keeps v (if isLarge c then v.kick c else (v.kick c).after 0 30 (.bankRetention c)) := by
    split
    · exact State.Keeps.kick c
    · exact (State.Keeps.kick c).trans (State.Keeps.after _ _ _)
  unfold State.leave
  split
  · next hnone => rw [ht] at hnone; cases hnone
  · extract_lets s1 s2 s3 lost s4 s5
    have h2 : State.Frees s s2 c k := hslot.keeps State.Keeps.sweep
    have h3 : State.Frees s s3 c k := h2.keeps (State.Keeps.lastCleared c)
    have h4 : State.Frees s s4 c k :=
      h3.missed (j := k) (fun _ => by dsimp only; split <;> rfl) (fun _ => by dsimp only; split <;> rfl)
    exact ⟨_, (h4.keeps (State.Keeps.dropN _ _)).keeps (State.Keeps.retryPressed _), hkick _⟩

theorem State.leave_gen (ht : s.thread c k = some t) : ((s.leave c k).tidAt c k).gen = ((s.tidAt c k).gen + 1) % 256 := by
  obtain ⟨u, hfrees, hkeeps⟩ := State.leave_frees ht
  rw [hkeeps.tidAt, State.vacated_tidAt, hfrees.gen]

/-- With no active message waiting, a slot that is left stays free. -/
theorem State.leave_thread (ht : s.thread c k = some t) (hd : (s.core c).doors = []) : (s.leave c k).thread c k = none := by
  obtain ⟨u, hfrees, hkeeps⟩ := State.leave_frees ht
  rw [hkeeps.thread, (State.Keeps.vacated (hfrees.doors.trans hd)).thread, hfrees.thread]

/-! ### A thread returns to the rotation (R57, R59) -/

/-- A thread as it stands in the rotation. -/
def Thread.entered (t : Thread) : Thread := { t with status := .ready, outSince := none, wakeAt := none, cold := false }

theorem State.enter_thread (ht : s.thread c k = some t) : (s.enter c k).thread c k = some t.entered := by
  simp only [State.enter, ht]
  rw [State.kick_thread, State.upThread_thread_self, State.upCore_thread, ht]
  · rfl
  · exact fun _ => rfl

@[simp] theorem State.enter_regs (c k : Nat) : ((s.enter c k).core c).regs = (s.core c).regs := by
  unfold State.enter
  split
  · rfl
  · rw [(State.Keeps.kick c).regs, State.upThread_regs, State.upCore_core_self]

theorem State.wake_of_warm (ht : s.thread c k = some t) (hw : warm s c t) : s.wake c k = s.enter c k := by
  rw [State.wake, ht]
  exact if_pos (.inr (Bool.eq_false_iff.1 hw))

/-- Whether a thread is warm depends on its window and its core's banks alone. -/
theorem warm_upThread {f : Thread → Thread} {t' : Thread} (hwin : t'.win = t.win) (hw : warm s c t) :
    warm (s.upThread c k f) c t' := by
  obtain ⟨_, hcore⟩ := s.upThread_core c k f c
  rw [warm, hcore, hwin]
  exact hw

theorem State.resumeAt_thread (pc : Word) (ht : s.thread c k = some t) (hw : warm s c t) :
    (s.resumeAt c k pc).thread c k = some ({ t with pc := pc } : Thread).entered := by
  have hu : (s.upThread c k fun t => { t with pc := pc }).thread c k = some { t with pc := pc } := by
    rw [State.upThread_thread_self, ht]
    rfl
  rw [State.resumeAt, State.wake_of_warm hu (warm_upThread rfl hw)]
  exact State.enter_thread hu

/-! ### The thread at hand -/

/-- A thread whose instruction is at issue: no restart index is pending, and an open section counts one instruction more
(R138). -/
def Thread.issuing (t : Thread) : Thread := { t with restart := none, sect := t.sect.map counted }

theorem begun_core (c : Nat) : ∃ slots, (begun s h).core c = { s.core c with slots := slots } :=
  State.upThread_core (s := { s with hand := none }) _ _ _ _

theorem begun_core_self : (begun s h).core h.core =
    (s.core h.core).upSlot h.slot fun sl => { sl with thread := sl.thread.map Thread.issuing } :=
  State.upThread_core_self (s := { s with hand := none }) _ _ _

theorem begun_thread_self (ht : s.thread h.core h.slot = some t) : (begun s h).thread h.core h.slot = some t.issuing := by
  rw [State.thread, begun_core_self, Core.upSlot_slot_self, show ((s.core h.core).slot h.slot).thread = some t from ht]
  rfl

theorem passes_thread {b : State} (hb : b.thread h.core h.slot = some v) :
    (passes b h t).thread h.core h.slot = some { v with pc := stepPc t.pc h.len } := by
  rw [passes, State.upThread_thread_self, hb]
  rfl

theorem passes_thread_other {b : State} {j : Nat} (hj : j ≠ h.slot) :
    (passes b h t).thread h.core j = b.thread h.core j := State.upThread_thread_slot _ _ _ hj

theorem passes_core {b : State} (c : Nat) : ∃ slots, (passes b h t).core c = { b.core c with slots := slots } :=
  State.upThread_core _ _ _ _

end Sys2Proof.Machine
end

section
/-! PROOFS. TEND, SLEEP, YIELD, ROAM and MIGRATE, and the steps in which threads return: each is an issue (`issue_runs`) or an
event whose effect the slots' lemmas describe. -/

namespace Sys2Proof.Machine

variable {s : State} {h : Hand} {t : Thread}

/-! ### TEND (R62) -/

theorem execTend_ends (hi : Issues s (lateKind .ends) h t) (hr : t.relaxed = [])
    (hd : t.deferred.find? (dueAt (lateKind .ends)) = none) (hb : (begun s h).endBarred t = false) :
    exec .tend s = .next ((begun s h).endThread h.core h.slot) := by
  have hth : (cxAt s h t).th = t := rfl
  have hquiet : (begun s h).quiet t = true := by rw [State.quiet, hr]; rfl
  change execTend s = _
  rw [execTend, issue_runs hi]
  simp only [hth, hb, hquiet, Cx.deliverDue, hd]
  rfl

theorem begun_endThread (ht : s.thread h.core h.slot = some t) :
    (begun s h).endThread h.core h.slot = ((begun s h).dropFrames t.frames).leave h.core h.slot := by
  rw [State.endThread, begun_thread_self ht]
  rfl

/-! ### SLEEP (R63) -/

/-- The state in which a SLEEP leaves the machine, but for the step that ends it (R63). -/
def slept (s : State) (h : Hand) (t : Thread) (time : Nat) : State :=
  ((begun s h).park h.core h.slot .sleep (.sleep (stepPc t.pc h.len))).upThread h.core h.slot fun th =>
    { th with pc := stepPc t.pc h.len, wakeAt := some time }

theorem slept_tidAt (time c k : Nat) : (slept s h t time).tidAt c k = s.tidAt c k := by
  rw [slept, State.upThread_tidAt, State.park_tidAt, begun_tidAt]

theorem slept_thread (time : Nat) (ht : s.thread h.core h.slot = some t) :
    ∃ v, (slept s h t time).thread h.core h.slot = some v ∧ v.status = .parked .sleep (.sleep (stepPc t.pc h.len)) ∧
      v.wakeAt = some time := by
  rw [slept, State.upThread_thread_self, State.park_thread _ _ (begun_thread_self ht)]
  exact ⟨_, rfl, rfl, rfl⟩

theorem slept_regs (time : Nat) : ((slept s h t time).core h.core).regs = (s.core h.core).regs := by
  obtain ⟨_, hcore⟩ := (begun s h).park_slots .sleep (.sleep (stepPc t.pc h.len)) (c := h.core) (k := h.slot) h.core
  rw [slept, State.upThread_regs, hcore]
  exact begun_core_regs _

theorem execSleep_runs {a : Reg} {imm : Imm} (hi : Issues s (plainKind [a]) h t) {time : Nat}
    (htime : s.cyc + Max.max 8 (regOf s h t a + BitVec.ofInt 64 imm.toInt).toNat = time) :
    exec (.sleep a imm) s = .next (if time < 2 ^ 64 then
      (slept s h t time).post time 20 (.sleepExpiry (s.tidAt h.core h.slot)) else slept s h t time) := by
  change execSleep a imm s = _
  rw [execSleep, issue_runs hi]
  simp only [begun_regOf, begun_cyc, htime]
  rw [← slept_tidAt (h := h) (t := t) time]
  rfl

/-! ### YIELD (R64) -/

/-- The threads of the other slots do not depend on a slot's contents. -/
theorem Core.threads_upSlot_others (x : Core) (k : Nat) (f : Slot → Slot) (p : Thread → Bool) :
    ((x.upSlot k f).threads.filter fun e => e.1 != k && p e.2) = x.threads.filter fun e => e.1 != k && p e.2 := by
  have hput : ∀ sl : Slot, ((sl.thread.map fun t => (k, t)).filter fun e => e.1 != k && p e.2) = none := by
    intro sl
    cases sl.thread <;> simp
  simp only [Core.threads, Core.upSlot, List.filter_filterMap]
  exact Map.filterMap_put _ _ _ _ hput

/-- The slots of the other threads that are in the rotation as an instruction issues. -/
def othersReady (s : State) (h : Hand) : List Nat :=
  ((s.core h.core).threads.filter fun e => e.1 != h.slot && e.2.status == .ready).map Prod.fst

theorem begun_othersReady :
    (((begun s h).core h.core).threads.filter fun e => e.1 != h.slot && e.2.status == .ready).map Prod.fst = othersReady s h := by
  rw [begun_core_self, Core.threads_upSlot_others (p := fun t => t.status == .ready)]
  rfl

/-- The state in which a YIELD leaves the machine, but for the next pc (R64). -/
def yielded (s : State) (h : Hand) : State :=
  ((begun s h).upThread h.core h.slot fun th =>
    { th with yield := some (othersReady s h, s.cyc + 64), next := max th.next (s.cyc + 8) }).after 64 20
      (.yieldExpiry (s.tidAt h.core h.slot))

theorem execYield_runs (hi : Issues s {} h t) : exec .yield s = .next (passes (yielded s h) h t) := by
  have htid (f : Thread → Thread) : ((begun s h).upThread h.core h.slot f).tidAt h.core h.slot = s.tidAt h.core h.slot := by
    rw [State.upThread_tidAt, begun_tidAt]
  change execYield s = _
  rw [execYield, issue_runs hi, yielded, ← begun_othersReady, ← htid]
  rfl

theorem yielded_thread (ht : s.thread h.core h.slot = some t) :
    ∃ v, (yielded s h).thread h.core h.slot = some v ∧ v.status = t.status ∧
      v.yield = some (othersReady s h, s.cyc + 64) :=
  ⟨_, (State.upThread_thread_self _ _ _ _).trans (congrArg _ (begun_thread_self ht)), rfl, rfl⟩

/-- Settles O28: TEND leaves the thread's slot (`State.leave_frees`), SLEEP leaves the state `slept`, and YIELD the state
`yielded`. -/
theorem threadsEndSleepAndYield : Obligations.ThreadsEndSleepAndYield := by
  refine ⟨fun s h t hi hr hd hb => ⟨execTend_ends hi hr hd hb, ?_⟩, fun s h t a imm hi => ?_, fun s h t hi => ?_⟩
  · have hlive : ((begun s h).dropFrames t.frames).thread h.core h.slot = some t.issuing := begun_thread_self hi.live
    rw [begun_endThread hi.live]
    refine ⟨fun hdoors => State.leave_thread hlive ?_, ?_⟩
    · obtain ⟨_, hcore⟩ := begun_core (s := s) (h := h) h.core
      exact (congrArg Core.doors hcore).trans hdoors
    · have hgen : (((begun s h).dropFrames t.frames).tidAt h.core h.slot).gen = (s.tidAt h.core h.slot).gen :=
        congrArg Tid.gen (begun_tidAt _ _)
      exact (State.leave_gen hlive).trans (by rw [hgen]; rfl)
  · intro time
    obtain ⟨v, hv, hst, hwake⟩ := slept_thread time hi.live
    have hmem : (slept s h t time).mem = s.mem := State.park_mem _ _
    refine ⟨_, v, execSleep_runs hi rfl, ?_⟩
    split
    · exact ⟨hv, hst, hwake, fun _ => State.post_coming _ _ _, hmem, slept_regs time⟩
    · next hlate => exact ⟨hv, hst, hwake, fun hlt => absurd hlt hlate, hmem, slept_regs time⟩
  · obtain ⟨v, hv, hst, hy⟩ := yielded_thread hi.live
    exact ⟨_, _, execYield_runs hi, passes_thread hv, rfl, hst, hy, State.after_coming _ _ _, rfl⟩

/-! ### ROAM and MIGRATE (R78, R80) -/

theorem execRoam_runs {d a : Reg} (hi : Issues s (smallKind [d, a]) h t) : exec (.roam d a) s =
    if (begun s h).slim h.core t then
      .next (ends ((begun s h).upThread h.core h.slot fun u => { u with roaming := regOf s h t a != 0 }) h t d 0)
    else .next (retires s h t d (-1)) := by
  change execRoam d a s = _
  rw [execRoam, issue_runs hi]
  simp only [begun_regOf]
  rfl

/-- The core that a MIGRATE's operand names (R80). -/
def migrateDest (v : Word) : Nat := if v.getLsbD 18 then 0x0FF00 + v.toNat % 16 else v.toNat % 2 ^ 18

theorem execMigrate_runs {d a : Reg} (hi : Issues s (plainKind [d, a]) h t) :
    exec (.migrate d a) s =
      let v := regOf s h t a
      let dest := migrateDest v
      let answer (n : Int) : Out := .next (retires s h t d (BitVec.ofInt 64 n))
      if !(if v.getLsbD 18 then isLarge dest else isSmall dest) || s.ctxOf dest != s.ctxOf h.core then answer (-4)
      else if !(begun s h).slim h.core t then answer (-3)
      else if !(begun s h).movable h.core h.slot t then answer (-2)
      else match (begun s h).berth h.core dest t with
        | none => answer (-1)
        | some (k, w) =>
          let i := (cxOf h t).tid (begun s h)
          if (begun s h).releaseDone i .package then
            .next (((begun s h).setW h.core h.slot (rn d) 0).move h.core h.slot dest k w (stepPc t.pc h.len))
          else (cxAt s h t).again ((begun s h).releaseStart i .package) .mem := by
  have hctx : (cxAt s h t).ctx (begun s h) = s.ctxOf h.core := begun_ctxOf _
  change execMigrate d a s = _
  rw [execMigrate, issue_runs hi]
  simp only [begun_regOf, begun_ctxOf, hctx]
  rfl

/-- Settles O29: ROAM and MIGRATE answer by the first of their conditions that fails (`execRoam_runs`, `execMigrate_runs`). -/
theorem threadsRoamAndMigrate : Obligations.ThreadsRoamAndMigrate := by
  refine ⟨fun s h t d a hi => ?_, fun s h t d a hi => ?_⟩
  · rw [execRoam_runs hi]
    exact ⟨fun hs => if_pos hs, fun hs => if_neg (Bool.eq_false_iff.1 hs)⟩
  · intro v dest b ok answers
    have hrun := execMigrate_runs hi
    have hnamed (hok : ok = true) (hctx : s.ctxOf dest = s.ctxOf h.core) :
        ¬ (!ok || s.ctxOf dest != s.ctxOf h.core) = true := by simp [hok, hctx]
    have hsays {p : Bool} (hp : p = true) : ¬ (!p) = true := by simp [hp]
    have hfails {p : Bool} (hp : p = false) : (!p) = true := by simp [hp]
    refine ⟨fun hbad => hrun.trans (if_pos ?_), fun hok hctx hslim => ?_, fun hok hctx hslim hmov => ?_,
      fun hok hctx hslim hmov hberth => ?_, fun k w hok hctx hslim hmov hberth hrel => ?_⟩
    · change (!ok || s.ctxOf dest != s.ctxOf h.core) = true
      rcases hbad with hok | hctx
      · simp [hok]
      · simp [hctx]
    · exact hrun.trans ((if_neg (hnamed hok hctx)).trans (if_pos (hfails hslim)))
    · exact hrun.trans ((if_neg (hnamed hok hctx)).trans ((if_neg (hsays hslim)).trans
        (if_pos (hfails hmov))))
    all_goals refine hrun.trans ((if_neg (hnamed hok hctx)).trans ((if_neg (hsays hslim)).trans
      ((if_neg (hsays hmov)).trans ?_)))
    · rw [show (begun s h).berth h.core (migrateDest (regOf s h t a)) t = none from hberth]
    · rw [show (begun s h).berth h.core (migrateDest (regOf s h t a)) t = some (k, w) from hberth]
      exact if_pos hrel

end Sys2Proof.Machine
end

section
/-! PROOFS. TNEW: the thread that it creates stands in a free slot with its windows zeroed (`created_thread`, `created_find`), and
the identifiers that TNEW writes stay apart, since the windows of its creator and of its thread do not meet (`wins_apart`). -/

namespace Sys2Proof.Machine

variable {s : State} {h : Hand} {k : Nat} {t : Thread}

/-! ### Windows (R52, R54) -/

theorem winsMeet_of_free {x : Core} {win : Word} (hw : x.winTaken win = false) (ht : (x.slot k).thread = some t) :
    winsMeet win t.win = false := by
  have hnone := List.any_eq_false.1 hw (k, t) (Core.mem_threads ht)
  simpa using hnone

/-- Scalar registers of windows that do not meet have different places. -/
theorem wins_apart {w w' : Word} {n n' : Nat} (hw : winsMeet w w' = false) (hn : n < 8 * wSize w) (hn' : n' < 8 * wSize w') :
    8 * wBase w + n ≠ 8 * wBase w' + n' := by
  have hruns : runsMeet (wBase w) (wSize w) (wBase w') (wSize w') = false := by
    simp only [winsMeet, Bool.or_eq_false_iff] at hw
    exact hw.1.1
  simp only [runsMeet, Bool.and_eq_false_iff, decide_eq_false_iff_not] at hruns
  omega

theorem one_lt_of_winOk {w : Word} (hw : winOk w = true) : 1 < 8 * wSize w := by
  simp only [winOk, Bool.and_eq_true, decide_eq_true_eq] at hw
  omega

theorem named_inside {ws : List Reg} {r : Reg} (hi : Issues s (plainKind ws) h t) (hr : r ∈ ws) : rn r < 8 * wSize t.win := by
  have hin := hi.inside
  simp only [outside, plainKind, Bool.or_eq_false_iff] at hin
  have hnot := List.any_eq_false.1 hin.1 (rn r) (List.mem_map.2 ⟨r, hr, rfl⟩)
  simpa using hnot

theorem Core.zeroWin_absent (x : Core) (w : Word) {n : Nat} (hn : n < 8 * wSize w) :
    (x.zeroWin w).present.contains (8 * wBase w + n) = false := by
  rw [List.contains_eq_mem, decide_eq_false_iff_not]
  intro hmem
  have hout := (List.mem_filter.1 hmem).2
  simp at hout
  omega

theorem Core.zeroWin_vregs (x : Core) (w : Word) {n : Nat} (hn : n < vSize w) :
    (x.zeroWin w).vregs.find (vBase w + n) = none :=
  Map.find_dropRange _ (Nat.le_add_right _ n) (Nat.add_lt_add_left hn _)

theorem Core.zeroWin_accs (x : Core) (w : Word) {n : Nat} (hn : n < aSize w) :
    (x.zeroWin w).accs.find (aBase w + n) = none :=
  Map.find_dropRange _ (Nat.le_add_right _ n) (Nat.add_lt_add_left hn _)

/-! ### TNEW (R54, R57, R61) -/

theorem State.create_thread (c k : Nat) (t : Thread) :
    (s.create c k t).thread c k = some (t.settled s.cyc (s.cyc + s.startDelay c t.win)) := State.createIn_thread _ _ _ _

/-- Creating a thread zeroes its windows. -/
theorem State.create_core (c k : Nat) (t : Thread) : ∃ slots retain,
    (s.create c k t).core c = { (s.core c).zeroWin t.win with slots := slots, retain := retain } := by
  obtain ⟨retain, hcore⟩ := s.settle_core c k t (s.cyc + s.startDelay c t.win)
  exact ⟨_, retain, (s.createIn_core c k t _ c).trans hcore⟩

/-- The state in which TNEW has created its thread in slot `k`, with the creator's identifier in its w1 (R61). -/
def bred (s : State) (h : Hand) (t : Thread) (k : Nat) (entry win : Word) : State :=
  ((begun s h).create h.core k (childOf t entry win)).setW h.core k 1 (Tid.word (s.tidAt h.core h.slot))

theorem execTnew_runs {d a b : Reg} (hi : Issues s (plainKind [d, a, b]) h t) (hc : isLarge h.core = false) :
    exec (.tnew d a b) s =
      let entry := regOf s h t a
      let win := regOf s h t b
      let answer (n : Int) : Out := .next (retires s h t d (BitVec.ofInt 64 n))
      if entry.getLsbD 0 then answer (-4)
      else if !winOk win then answer (-2)
      else if ((begun s h).core h.core).winTaken win then answer (-3)
      else match (begun s h).freeSlot h.core t.part with
        | none => answer (-1)
        | some k =>
          if !(begun s h).fits h.core t.region 1 then answer (-1)
          else .next (ends (bred s h t k entry win) h t d (Tid.word (s.tidAt h.core k))) := by
  have hcore : (cxAt s h t).core = h.core := rfl
  have htid (u : State) : (cxAt s h t).tid u = u.tidAt h.core h.slot := rfl
  change execTnew d a b s = _
  rw [execTnew, issue_runs hi]
  simp only [begun_regOf, hcore, hc, htid, State.create, State.setW_tidAt, State.createIn_tidAt, begun_tidAt]
  rfl

section Created

variable {entry win : Word} {d : Reg}

theorem bred_thread : (bred s h t k entry win).thread h.core k =
    some ((childOf t entry win).settled s.cyc (s.cyc + (begun s h).startDelay h.core win)) := by
  rw [bred, State.setW_thread]
  exact State.create_thread _ _ _

theorem bred_thread_hand (ht : s.thread h.core h.slot = some t) (hk : h.slot ≠ k) :
    (bred s h t k entry win).thread h.core h.slot = some t.issuing := by
  rw [bred, State.setW_thread, State.create, State.createIn_thread_other _ _ hk]
  exact begun_thread_self ht

/-- Beside slots and scalar registers TNEW changes its core as the zeroing of the new windows does. -/
theorem bred_ends_core (v : Word) : ∃ slots regs retain, (ends (bred s h t k entry win) h t d v).core h.core =
    { (s.core h.core).zeroWin win with slots := slots, regs := regs, retain := retain } := by
  obtain ⟨_, hbegun⟩ := begun_core (s := s) (h := h) h.core
  obtain ⟨_, _, hcreate⟩ := (begun s h).create_core h.core k (childOf t entry win)
  obtain ⟨_, hbred⟩ := ((begun s h).create h.core k (childOf t entry win)).setW_core h.core k 1
    (Tid.word (s.tidAt h.core h.slot)) h.core
  obtain ⟨_, hset⟩ := (bred s h t k entry win).setW_core h.core h.slot (rn d) v h.core
  obtain ⟨_, hpass⟩ := passes_core (h := h) (t := t) (b := (bred s h t k entry win).setW h.core h.slot (rn d) v) h.core
  rw [ends, hpass, hset, bred, hbred, hcreate, hbegun]
  exact ⟨_, _, _, rfl⟩

/-- The scalar registers after TNEW: W[d] of the creator, w1 of the new thread, and zeros in the rest of its window. -/
theorem bred_ends_find (ht : s.thread h.core h.slot = some t) (hk : h.slot ≠ k) (v : Word) (i : Nat) :
    ((ends (bred s h t k entry win) h t d v).core h.core).regs.find i =
      if rn d ≠ 0 ∧ i = 8 * wBase t.win + rn d then some v
      else if i = 8 * wBase win + 1 then some (Tid.word (s.tidAt h.core h.slot))
      else ((s.core h.core).regs.dropRange (8 * wBase win) (8 * wSize win)).find i := by
  have hzero : (((begun s h).create h.core k (childOf t entry win)).core h.core).regs =
      (s.core h.core).regs.dropRange (8 * wBase win) (8 * wSize win) := by
    obtain ⟨_, _, hcreate⟩ := (begun s h).create_core h.core k (childOf t entry win)
    rw [hcreate, ← begun_core_regs h.core]
    rfl
  have hchild : (childOf t entry win).win = win := rfl
  rw [ends, passes, State.upThread_regs, State.setW_find v (bred_thread_hand ht hk), bred,
    State.setW_find _ (State.create_thread _ _ _), hzero]
  simp [Thread.settled, Thread.issuing, hchild]

/-- The new thread's scalar registers read as zero but for its w1. -/
theorem bred_ends_regW (ht : s.thread h.core h.slot = some t) (hk : h.slot ≠ k) (hd : rn d < 8 * wSize t.win)
    (hmeet : winsMeet win t.win = false) (v : Word) {w : Thread} (hw : w.win = win) {n : Nat} (hn : n < 8 * wSize win) :
    ((ends (bred s h t k entry win) h t d v).core h.core).regW w n =
      if n = 1 then Tid.word (s.tidAt h.core h.slot) else 0 := by
  have hzero := Map.find_dropRange (s.core h.core).regs (Nat.le_add_right (8 * wBase win) n) (Nat.add_lt_add_left hn _)
  have hfind : ((ends (bred s h t k entry win) h t d v).core h.core).regs.find (8 * wBase win + n) =
      if n = 1 then some (Tid.word (s.tidAt h.core h.slot)) else none := by
    rw [bred_ends_find ht hk, if_neg fun hp => wins_apart hmeet hn hd hp.2, hzero]
    simp
  rw [Core.regW, hw, hfind]
  by_cases h0 : n = 0
  · simp [h0]
  · by_cases h1 : n = 1 <;> simp [h0, h1]

end Created

/-- Settles O27: TNEW answers by the first of its conditions that fails (`execTnew_runs`), and the thread that it creates reads
what `bred_ends_regW` and `bred_ends_core` find in its windows. -/
theorem tnewCreatesAThread : Obligations.TnewCreatesAThread := by
  intro s h t d a b hi hc entry win taken answers
  have hrun := execTnew_runs hi hc
  have hno {p : Bool} (hp : p = false) : ¬ p = true := Bool.eq_false_iff.1 hp
  have hyes {p : Bool} (hp : p = true) : ¬ (!p) = true := by simp [hp]
  refine ⟨fun he => hrun.trans (if_pos he), fun he hw => ?_, fun he hw ht => ?_, fun he hw ht hk => ?_,
    fun k he hw ht hk hfits => ?_⟩ <;> replace hrun := hrun.trans (if_neg (hno he))
  · exact hrun.trans (if_pos ((Bool.not_eq_true' _).mpr hw))
  all_goals replace hrun := hrun.trans (if_neg (hyes hw))
  · exact hrun.trans (if_pos ht)
  all_goals
    replace hrun := hrun.trans (if_neg (hno ht))
    rw [hk] at hrun
  · exact hrun
  · replace hrun := hrun.trans (if_neg (hyes hfits))
    have hne : h.slot ≠ k := by
      intro heq
      have hlive := begun_thread_self hi.live
      rw [heq, State.freeSlot_free hk] at hlive
      cases hlive
    have hmeet : winsMeet win t.win = false := winsMeet_of_free (k := h.slot) (t := t.issuing) ht (begun_thread_self hi.live)
    have hd : rn d < 8 * wSize t.win := named_inside hi (by simp)
    have hreg {n : Nat} (hn : n < 8 * wSize win) := bred_ends_regW (entry := entry) hi.live hne hd hmeet
      (Tid.word (s.tidAt h.core k)) rfl hn
      (w := (childOf t entry win).settled s.cyc (s.cyc + (begun s h).startDelay h.core win))
    obtain ⟨slots, regs, retain, hcore⟩ := bred_ends_core (s := s) (h := h) (t := t) (k := k) (entry := entry) (win := win)
      (d := d) (Tid.word (s.tidAt h.core k))
    refine ⟨_, _, hrun, (passes_thread_other hne.symm).trans ((State.setW_thread _ _ _ _).trans bred_thread), rfl, rfl, rfl, rfl,
      rfl, rfl, rfl, rfl, rfl, rfl, rfl, rfl, rfl, hreg (one_lt_of_winOk hw), fun n hn1 hn => ?_, fun n hn => ?_, fun n hn => ?_,
      fun n hn => ?_, fun hd0 => ?_, ?_, ?_⟩
    · exact (hreg hn).trans (if_neg hn1)
    · rw [hcore]
      exact Core.zeroWin_absent _ _ hn
    · rw [hcore, Core.regV]
      exact congrArg (·.getD 0) ((s.core h.core).zeroWin_vregs win hn)
    · rw [hcore, Core.regA]
      exact congrArg (·.getD 0) ((s.core h.core).zeroWin_accs win hn)
    · rw [bred_ends_find hi.live hne]
      exact if_pos ⟨hd0, rfl⟩
    · have hcome := (begun s h).createIn_coming h.core k (childOf t entry win) ((begun s h).startDelay h.core win)
      simp only [coming, ends, passes, State.upThread_agenda, State.setW_agenda, bred]
      rw [← begun_tidAt (h := h)]
      exact hcome
    · simp [ends, passes, bred]

end Sys2Proof.Machine
end

section
/-! PROOFS. Threads return at their time, and quiet banks rest: what THREAD_READY makes of a starting thread follows the cases of
`State.getsReady`, whose first line leaves the threads alone (`State.Keeps.firstLine`); the other returns come to
`State.resumeAt_thread`. -/

namespace Sys2Proof.Machine

variable {s : State} {i : Tid} {t : Thread}

/-! ### THREAD_READY (R57, R63, R191) -/

/-- The state in which a starting thread's first line is there, if it is new (R57). -/
def lineReady (s : State) (i : Tid) (t : Thread) : State := if t.next = 0 then s.firstLine i.core t else s

theorem lineReady_keeps (i : Tid) (t : Thread) : State.Keeps s (lineReady s i t) := by
  unfold lineReady
  split
  · exact State.Keeps.firstLine _ _
  · exact State.Keeps.refl

theorem lineReady_mem (i : Tid) (t : Thread) : (lineReady s i t).mem = s.mem := by
  unfold lineReady
  split
  · exact State.firstLine_mem _ _
  · rfl

theorem lineReady_thread (ht : s.threadOf i = some t) : (lineReady s i t).thread i.core i.slot = some t :=
  ((lineReady_keeps i t).thread _ _).trans (State.thread_of_threadOf ht)

theorem execThreadReady_starts (ht : s.threadOf i = some t) (hst : t.status = .starting) (hready : t.readyAt ≤ s.cyc)
    (hlive : t.next ≠ 0 ∨ s.regionCancelled i.core t.region = false) :
    exec (.threadReady i) s = .next (s.getsReady i t) := by
  have hdue : ¬ s.cyc < t.readyAt := Nat.not_lt.2 hready
  have hgoes : ¬ (decide (t.next = 0) && s.regionCancelled i.core t.region) = true := by
    rcases hlive with hnext | hregion
    · simp [hnext]
    · simp [hregion]
  change execThreadReady i s = _
  simp only [execThreadReady, ht, hst, if_neg hdue, if_neg hgoes]

theorem getsReady_enters (ht : s.threadOf i = some t) (hwake : t.wakeAt = none ∨ ∃ w, t.wakeAt = some w ∧ w ≤ s.cyc)
    (hwarm : t.next = 0 ∨ t.cold = true ∨ warm s i.core t) : s.getsReady i t = (lineReady s i t).enter i.core i.slot := by
  rcases hwake with hnone | ⟨w, hw, hle⟩
  · have hcases : s.getsReady i t = if t.next = 0 ∨ t.cold then (lineReady s i t).enter i.core i.slot
        else (lineReady s i t).wake i.core i.slot := by
      rw [State.getsReady, hnone]
      rfl
    rw [hcases]
    split
    · rfl
    · next hno =>
      obtain ⟨hnext, hcold⟩ := not_or.1 hno
      have hline : lineReady s i t = s := if_neg hnext
      rw [hline]
      exact State.wake_of_warm (State.thread_of_threadOf ht) ((hwarm.resolve_left hnext).resolve_left hcold)
  · have hcyc : ¬ (lineReady s i t).cyc < w := by rw [(lineReady_keeps i t).cyc]; exact Nat.not_lt.2 hle
    rw [State.getsReady, hw]
    exact if_neg hcyc

theorem getsReady_sleeps {w : Nat} (hw : t.wakeAt = some w) (hlt : s.cyc < w) :
    s.getsReady i t = (lineReady s i t).sleepOn i t.pc w := by
  have hcyc : (lineReady s i t).cyc < w := by rw [(lineReady_keeps i t).cyc]; exact hlt
  rw [State.getsReady, hw]
  exact if_pos hcyc

/-- A SLEEP that goes on, but for the step that ends it. -/
def sleeping (s : State) (i : Tid) (pc : Word) (w : Nat) : State :=
  (s.park i.core i.slot .sleep (.sleep pc)).upThread i.core i.slot fun t => { t with wakeAt := some w }

theorem sleepOn_eq (i : Tid) (pc : Word) (w : Nat) : s.sleepOn i pc w =
    if w < 2 ^ 64 then (sleeping s i pc w).post w 20 (.sleepExpiry i) else sleeping s i pc w := rfl

theorem sleeping_thread (pc : Word) (w : Nat) (ht : s.thread i.core i.slot = some t) :
    ∃ v, (sleeping s i pc w).thread i.core i.slot = some v ∧ v.status = .parked .sleep (.sleep pc) ∧ v.wakeAt = some w ∧
      v.pc = t.pc := by
  rw [sleeping, State.upThread_thread_self, State.park_thread _ _ ht]
  exact ⟨_, rfl, rfl, rfl, rfl⟩

theorem sleeping_regs (pc : Word) (w : Nat) : ((sleeping s i pc w).core i.core).regs = (s.core i.core).regs := by
  obtain ⟨_, hcore⟩ := s.park_slots .sleep (.sleep pc) (c := i.core) (k := i.slot) i.core
  rw [sleeping, State.upThread_regs, hcore]

theorem sleeping_mem (pc : Word) (w : Nat) : (sleeping s i pc w).mem = s.mem := State.park_mem _ _

/-- A thread that goes on with its SLEEP is parked until its time, with the step that ends it on the agenda. -/
theorem sleepOn_sleeps (pc : Word) (w : Nat) (ht : s.thread i.core i.slot = some t) :
    ∃ v, (s.sleepOn i pc w).thread i.core i.slot = some v ∧ v.status = .parked .sleep (.sleep pc) ∧ v.wakeAt = some w ∧
      v.pc = t.pc ∧ (w < 2 ^ 64 → coming (s.sleepOn i pc w) w (.sleepExpiry i)) ∧
      ((s.sleepOn i pc w).core i.core).regs = (s.core i.core).regs ∧ (s.sleepOn i pc w).mem = s.mem := by
  obtain ⟨v, hv, hst, hwake, hpc⟩ := sleeping_thread pc w ht
  rw [sleepOn_eq]
  split
  · exact ⟨v, hv, hst, hwake, hpc, fun _ => State.post_coming _ _ _, sleeping_regs pc w, sleeping_mem pc w⟩
  · next hlate => exact ⟨v, hv, hst, hwake, hpc, fun hlt => absurd hlt hlate, sleeping_regs pc w, sleeping_mem pc w⟩

/-! ### Waits that end at their time (R63, R64, R108) -/

theorem State.endSleep_eq {why : Park} {npc : Word} (ht : s.threadOf i = some t) (hst : t.status = .parked why (.sleep npc)) :
    s.endSleep i = s.resumeAt i.core i.slot npc := by
  simp only [State.endSleep, ht, hst]

theorem execSleepExpiry_ends {npc : Word} (ht : s.threadOf i = some t) (hst : t.status = .parked .sleep (.sleep npc))
    (hw : t.wakeAt = some s.cyc) : exec (.sleepExpiry i) s = .next (s.resumeAt i.core i.slot npc) := by
  change execSleepExpiry i s = _
  simp only [execSleepExpiry, ht, hw, if_true, State.endSleep_eq ht hst]

theorem execIflushExpiry_ends {npc : Word} (ht : s.threadOf i = some t) (hst : t.status = .parked .mem (.flush npc)) :
    exec (.iflushExpiry i) s = .next (s.resumeAt i.core i.slot npc) := by
  change execIflushExpiry i s = _
  simp only [execIflushExpiry, ht, hst, State.upTid_of_live ht]
  rfl

theorem execYieldExpiry_ends {l : List Nat} (ht : s.threadOf i = some t) (hy : t.yield = some (l, s.cyc)) :
    exec (.yieldExpiry i) s = .next ((s.upThread i.core i.slot fun t => { t with yield := none }).kick i.core) := by
  change execYieldExpiry i s = _
  simp only [execYieldExpiry, ht, hy, if_true, State.upTid_of_live ht]

/-! ### A thread that has moved (R79, R80) -/

theorem State.acquire_small (a : Option Scope) (hc : isLarge i.core = false) : s.acquire i a = s := by
  unfold State.acquire
  split
  · exact if_neg (by simp [hc])
  · rfl

theorem execMigrationArrival_settles {n ready : Nat} {regs : List Word} (hc : isLarge i.core = false)
    (hm : s.msgs.find n = some (.move i regs ready)) (ht : s.threadOf i = some t) :
    exec (.migrationArrival n) s = .next ((({ s with msgs := s.msgs.drop n } : State).setWs i.core i.slot 1
      ((regs.take (8 * wSize t.win)).drop 1)).post (Max.max s.cyc ready) 20 (.threadReady i)) := by
  have ht' : ({ s with msgs := s.msgs.drop n } : State).threadOf i = some t := ht
  change execMigrationArrival n s = _
  simp only [execMigrationArrival, hm, ht', State.acquire_small _ hc, State.setWs_cyc]

/-! ### Retention (R56) -/

/-- Whether the threads of a bank, of which there is one, have all been out of the rotation for 1,024 cyc. -/
def Core.bankQuiet (x : Core) (cyc b : Nat) : Bool :=
  let ts := x.threads.filter fun e => (winBanks e.2.win).contains b
  !ts.isEmpty && ts.all fun e => match e.2.outSince with | some t => decide (t + 1024 ≤ cyc) | none => false

theorem Core.bankQuiet_iff (x : Core) (cyc b : Nat) : x.bankQuiet cyc b = true ↔
    (∃ e ∈ x.threads, b ∈ winBanks e.2.win) ∧
      ∀ e ∈ x.threads, b ∈ winBanks e.2.win → ∃ n, e.2.outSince = some n ∧ n + 1024 ≤ cyc := by
  have hout (t : Thread) : (match t.outSince with | some n => decide (n + 1024 ≤ cyc) | none => false) = true ↔
      ∃ n, t.outSince = some n ∧ n + 1024 ≤ cyc := by
    cases t.outSince <;> simp
  rw [Core.bankQuiet, Bool.and_eq_true, List.all_eq_true]
  refine and_congr ?_ ⟨fun hall e he hb => ?_, fun hall e he => ?_⟩
  · simp [List.filter_eq_nil_iff]
  · exact (hout e.2).1 (hall e (List.mem_filter.2 ⟨he, by simpa using hb⟩))
  · obtain ⟨hmem, hb⟩ := List.mem_filter.1 he
    exact (hout e.2).2 (hall e hmem (by simpa using hb))

theorem execBankRetention_eq (c : Nat) : exec (.bankRetention c) s = .next (s.upCore c fun x => { x with
    retain := x.retain ++ (List.range 24).filter fun b => (s.core c).bankQuiet s.cyc b && !x.retain.contains b }) := rfl

theorem mem_retained (x : Core) (cyc b : Nat) :
    b ∈ x.retain ++ (List.range 24).filter (fun b => x.bankQuiet cyc b && !x.retain.contains b) ↔
      b ∈ x.retain ∨ b < 24 ∧ x.bankQuiet cyc b = true := by
  by_cases hb : b ∈ x.retain <;> simp [hb]

/-- Settles O30: a starting thread enters or goes on with its SLEEP (`getsReady_enters`, `getsReady_sleeps`), a parked one is
resumed at its time, and a bank is retained where `Core.bankQuiet` says so. -/
theorem threadsReturnAndQuietBanksRest : Obligations.ThreadsReturnAndQuietBanksRest := by
  refine ⟨⟨fun s i t ht hst hready hlive => ⟨fun hwake hwarm => ?_, fun w hw hlt => ?_⟩,
    fun s i t npc ht hwarm => ⟨fun hst hw => ?_, fun hst => ?_, fun l hy => ?_⟩,
    fun s n i t regs ready hc hm ht => ?_⟩, fun s c => ?_⟩
  · have hrun := execThreadReady_starts ht hst hready hlive
    rw [getsReady_enters ht hwake hwarm] at hrun
    exact ⟨_, _, hrun, State.enter_thread (lineReady_thread ht), rfl, rfl, rfl,
      (State.enter_regs _ _).trans ((lineReady_keeps i t).regs _), State.enter_mem.trans (lineReady_mem i t)⟩
  · have hrun := execThreadReady_starts ht hst hready hlive
    obtain ⟨v, hv, hst, hwake, hpc, hcome, hregs, hmem⟩ := sleepOn_sleeps t.pc w (lineReady_thread ht)
    rw [getsReady_sleeps hw hlt] at hrun
    exact ⟨_, v, hrun, hv, hst, hwake, hpc, hcome, hregs.trans ((lineReady_keeps i t).regs _), hmem.trans (lineReady_mem i t)⟩
  · exact ⟨_, _, execSleepExpiry_ends ht hst hw, State.resumeAt_thread npc (State.thread_of_threadOf ht) hwarm, rfl, rfl⟩
  · exact ⟨_, _, execIflushExpiry_ends ht hst, State.resumeAt_thread npc (State.thread_of_threadOf ht) hwarm, rfl, rfl⟩
  · refine ⟨_, { t with yield := none }, execYieldExpiry_ends ht hy, ?_, rfl, rfl⟩
    rw [State.kick_thread, State.upThread_thread_self, State.thread_of_threadOf ht]
    rfl
  · refine ⟨_, execMigrationArrival_settles hc hm ht, ?_, rfl⟩
    exact congrArg (fun m => Map.find m n) (State.setWs_msgs _ _ _ _)
  · refine ⟨_, execBankRetention_eq c, fun b => ?_, ?_, ?_, rfl, fun c' hc => State.upCore_core_other _ _ hc⟩
    · rw [State.upCore_core_self]
      exact (mem_retained _ _ _).trans (or_congr_right (and_congr_right fun _ => Core.bankQuiet_iff _ _ _))
    · rw [State.upCore_core_self]
    · rw [State.upCore_core_self]

end Sys2Proof.Machine
end

section
/-! PROOFS. Words and messages. A message that is sent stands under the next number with its arrival on the agenda
(`State.sendMsg_find`, `State.sendMsg_coming`); one that arrives is placed, waits or is dropped (`State.deliver`), takes a slot
(`State.seat`), or ends a SLEEP. -/

namespace Sys2Proof.Machine

variable {s : State} {h : Hand} {c k : Nat} {t : Thread}

/-! ### What an instruction waits for (R122, R127) -/

theorem Cx.releasing_of_none {x : Cx} {m : Mod} (body : State → Out) (far : Bool) (hm : m.release = false) :
    x.releasing s m body far = body s := by
  rw [Cx.releasing, hm]
  rfl

theorem afterVectors_begun (body : State → Out) (hv : (begun s h).vecMemory ((cxOf h t).tid (begun s h)) false = false) :
    (cxAt s h t).afterVectors (begun s h) body = body (begun s h) := by
  have hx : ¬ (begun s h).vecMemory ((cxAt s h t).tid (begun s h)) false = true := Bool.eq_false_iff.1 hv
  exact if_neg hx

/-! ### Sending (R50, R76) -/

theorem State.sendMsg_find (frm dest : Nat) (m : Msg) (ev : Nat → Instr) :
    (s.sendMsg frm dest m ev).msgs.find s.serial = some m := Map.find_put_self _ _ _

theorem State.sendMsg_coming (frm dest : Nat) (m : Msg) (ev : Nat → Instr) :
    coming (s.sendMsg frm dest m ev) (s.cyc + messageTime frm dest) (ev s.serial) := State.after_coming _ _ _

/-- An identifier's low 32 bits name its thread. -/
theorem tidOf_low (d : Word) : tidOf (BitVec.ofNat 64 (d.toNat % 2 ^ 32)) = tidOf d := by
  have hlow : (BitVec.ofNat 64 (d.toNat % 2 ^ 32)).toNat % 2 ^ 32 = d.toNat % 2 ^ 32 := by
    rw [BitVec.toNat_ofNat]
    omega
  simp only [tidOf, hlow]

theorem State.sendWord_nowhere {frm reg : Nat} {d v : Word} {cont : Bool} (hd : isCore (tidOf d).core = false) :
    s.sendWord frm d reg v cont = s.drop frm := by
  rw [State.sendWord]
  simp only [tidOf_low, hd]
  rfl

theorem State.sendWord_somewhere {frm reg : Nat} {d v : Word} {cont : Bool} (hd : isCore (tidOf d).core = true) :
    s.sendWord frm d reg v cont = s.sendMsg frm (tidOf d).core
      (.word (BitVec.ofNat 64 (d.toNat % 2 ^ 32)) reg v (s.ctxOf frm) cont) .registerWriteArrival := by
  rw [State.sendWord]
  simp only [tidOf_low, hd]
  rfl

theorem execSend_runs {m : Mod} {d a b : Reg} (hi : Issues s (plainKind [d, a, b]) h t) (hm : m.release = false)
    (hv : (begun s h).vecMemory ((cxOf h t).tid (begun s h)) false = false) : exec (.send m d a b) s =
      .next (passes ((begun s h).sendWord h.core (regOf s h t a) ((regOf s h t d).toNat % 128) (regOf s h t b) false) h t) := by
  change execSend m d a b s = _
  rw [execSend, issue_runs hi, Cx.releasing_of_none _ _ hm, afterVectors_begun _ hv]
  simp only [begun_regOf]
  rfl

theorem execCont_runs {a b : Reg} (hi : Issues s (plainKind [a, b]) h t)
    (hv : (begun s h).vecMemory ((cxOf h t).tid (begun s h)) false = false) : exec (.cont a b) s =
      .next (passes ((begun s h).sendWord h.core (regOf s h t a) ((regOf s h t a).toNat / 2 ^ 32 % 128) (regOf s h t b) true)
        h t) := by
  change execCont a b s = _
  rw [execCont, issue_runs hi, afterVectors_begun _ hv]
  simp only [begun_regOf]
  rfl

/-- The register's number in a continuation's identifier (R76). -/
theorem contField_eq (v : Word) : (v.extractLsb' 0 7).setWidth 64 <<< 32 = BitVec.ofNat 64 (v.toNat % 128 * 2 ^ 32) := by
  apply BitVec.eq_of_toNat_eq
  simp [Nat.shiftLeft_eq]

theorem execContid_runs {d a : Reg} (hi : Issues s (plainKind [d, a]) h t) : exec (.contid d a) s =
    .next (retires s h t d (BitVec.ofNat 64 ((regOf s h t a).toNat % 128 * 2 ^ 32) ||| Tid.word (s.tidAt h.core h.slot))) := by
  have htid : (cxAt s h t).tid (begun s h) = s.tidAt h.core h.slot := begun_tidAt _ _
  change execContid d a s = _
  rw [execContid, issue_runs hi]
  simp only [begun_regOf, htid, contField_eq]
  rfl

/-! ### MOV.t (R74) -/

theorem execMovT_runs {d a : Reg} (hi : Issues s (smallKind [d, a]) h t) : exec (.movT d a) s =
    if (s.core h.core).present.contains (8 * wBase t.win + rn a) then
      .next (passes ((begun s h).take h.core h.slot (rn d) (rn a)) h t)
    else .next ((begun s h).park h.core h.slot .presence (.presence (rn d) (rn a) (stepPc t.pc h.len))) := by
  obtain ⟨_, hcore⟩ := begun_core (s := s) (h := h) h.core
  have hpresent : ((begun s h).core h.core).present = (s.core h.core).present := by rw [hcore]
  change execMovT d a s = _
  rw [execMovT, issue_runs hi, ← hpresent]
  rfl

theorem State.postAll_core (rank : Nat) (f : Nat → Instr) (l : List Nat) (c : Nat) :
    (s.postAll rank f l).core c = s.core c := by
  induction l generalizing s with
  | nil => rfl
  | cons n l ih => exact ih

theorem State.retryPressed_core (c : Nat) : (s.retryPressed c).core c = { s.core c with pressed := [] } :=
  (State.postAll_core _ _ _ _).trans (State.upCore_core_self _ _ _)

/-- With nothing in the inbound buffer, a take moves the register's value and clears its presence bit. -/
theorem State.take_of_empty {d a : Nat} (ht : s.thread c k = some t) (hin : (s.core c).inbound = []) :
    s.take c k d a = ((s.upCore c fun x => { x with present := without (8 * wBase t.win + a) x.present }).setW c k d
      ((s.core c).regW t a)).retryPressed c := by
  obtain ⟨_, hcore⟩ := (s.upCore c fun x => { x with present := without (8 * wBase t.win + a) x.present }).setW_core c k d
    ((s.core c).regW t a) c
  simp only [State.take, ht, hcore, State.upCore_core_self, hin, List.find?_nil]

theorem taken_thread {d a : Nat} (ht : s.thread c k = some t) (hin : (s.core c).inbound = []) :
    (s.take c k d a).thread c k = some t := by
  rw [State.take_of_empty ht hin, (State.Keeps.retryPressed c).thread, State.setW_thread, State.upCore_thread, ht]
  exact fun _ => rfl

theorem taken_core {d a : Nat} (ht : s.thread c k = some t) (hin : (s.core c).inbound = []) :
    ((s.take c k d a).core c).present = without (8 * wBase t.win + a) (s.core c).present ∧
      ∀ v : Thread, v.win = t.win → ((s.take c k d a).core c).regW v d = if d = 0 then 0 else (s.core c).regW t a := by
  have hu : (s.upCore c fun x => { x with present := without (8 * wBase t.win + a) x.present }).thread c k = some t := by
    rw [State.upCore_thread, ht]
    exact fun _ => rfl
  rw [State.take_of_empty ht hin]
  refine ⟨?_, fun v hv => ?_⟩
  · obtain ⟨_, hcore⟩ := (s.upCore c fun x => { x with present := without (8 * wBase t.win + a) x.present }).setW_core c k d
      ((s.core c).regW t a) c
    rw [State.retryPressed_core, hcore, State.upCore_core_self]
  · rw [Core.regW, (State.Keeps.retryPressed c).regs, State.setW_find _ hu, hv]
    by_cases hd : d = 0 <;> simp [hd]

/-! ### NPUT (R75) -/

/-- A message has the next number. -/
def numbered (s : State) (m : Msg) : State := { s with serial := s.serial + 1, msgs := s.msgs.put s.serial m }

theorem numbered_keeps (m : Msg) : State.Keeps s (numbered s m) := State.Keeps.of_cores rfl rfl rfl

/-- A write has entered its link (R75). -/
def linked (s : State) (frm d : Nat) (m : Msg) : State :=
  ((numbered s m).upCore frm fun x => { x with links := x.links.put d ((s.core frm).linkOf d ++ [s.serial]) }).after 4 20
    (.nputLinkArrival s.serial)

theorem linked_keeps (frm d : Nat) (m : Msg) : State.Keeps s (linked s frm d m) :=
  ((numbered_keeps m).trans (State.Keeps.upCore rfl rfl rfl)).trans (State.Keeps.after _ _ _)

theorem linked_link (frm d : Nat) (m : Msg) :
    ((linked s frm d m).core frm).linkOf d = (s.core frm).linkOf d ++ [s.serial] := by
  have hcore : (linked s frm d m).core frm =
      { s.core frm with links := (s.core frm).links.put d ((s.core frm).linkOf d ++ [s.serial]) } :=
    State.upCore_core_self (numbered s m) frm fun x =>
      { x with links := x.links.put d ((s.core frm).linkOf d ++ [s.serial]) }
  rw [hcore, Core.linkOf, Map.find_put_self]
  rfl

theorem execNput_runs {dir : Dir} {a b : Reg} {n : Nat} (hi : Issues s (smallKind [a, b]) h t)
    (hv : (begun s h).vecMemory ((cxOf h t).tid (begun s h)) false = false) (hn : neighbour h.core dir = some n)
    (hctx : s.ctxOf n = s.ctxOf h.core) (hroom : ((s.core h.core).linkOf (dirNum dir)).length < 2) :
    exec (.nput dir a b) s = .next (passes (linked (begun s h) h.core (dirNum dir)
      (.nput h.core n ((regOf s h t a).toNat / 256 % 64) ((regOf s h t a).toNat % 128) (regOf s h t b))) h t) := by
  obtain ⟨_, hcore⟩ := begun_core (s := s) (h := h) h.core
  have hlink : ((begun s h).core h.core).linkOf (dirNum dir) = (s.core h.core).linkOf (dirNum dir) := by rw [hcore]; rfl
  have hown : ¬ ((begun s h).ctxOf n != (cxAt s h t).ctx (begun s h)) = true := by
    have hx : (cxAt s h t).ctx (begun s h) = s.ctxOf h.core := begun_ctxOf _
    simp [hx, hctx]
  have hb : (cxAt s h t).w (begun s h).fresh.2 (rn b) = regOf s h t b := begun_regOf b
  have hn' : neighbour (cxAt s h t).core dir = some n := hn
  change execNput dir a b s = _
  rw [execNput, issue_runs hi, afterVectors_begun _ hv]
  simp only [hn', if_neg hown, begun_regOf]
  refine (if_pos (hlink ▸ hroom)).trans ?_
  rw [hb]
  rfl

/-! ### AMSG (R76) -/

/-- What an AMSG asks of its message (R76). -/
def amsgAsk (v : Word) : Ask := { op := .block 8, use := .stage stAmsg, align := 64, bytes := 64, args := [v] }

/-- An access that is admitted waits for no vector command (R263). -/
theorem Admits.vecMemory {p : Word} {q : Ask} (ha : Admits s h t p q) (hq : q.mod.relaxed = false) :
    (begun s h).vecMemory ((cxOf h t).tid (begun s h)) false = false := by
  have hheld := ha.unheld
  simp only [State.heldBack, hq, Bool.not_false, Bool.true_and, Bool.or_eq_false_iff] at hheld
  exact hheld.2

theorem execAmsg_asks {a b : Reg} {p : Word} (hi : Issues s (smallKind [a, b]) h t)
    (hc : isCore ((regOf s h t a).toNat % 2 ^ 18) = true) (hctx : s.ctxOf ((regOf s h t a).toNat % 2 ^ 18) = s.ctxOf h.core)
    (hal : (regOf s h t b).toNat % 64 = 0) (hp : effective (regOf s h t b) 0 = .ok p)
    (ha : Admits s h t p (amsgAsk (regOf s h t a))) :
    exec (.amsg a b) s = .next (asks s h t p (amsgAsk (regOf s h t a))) := by
  have hown : (cxAt s h t).ctx (begun s h) = s.ctxOf h.core := begun_ctxOf _
  have hfine : ¬ (!isCore ((regOf s h t a).toNat % 2 ^ 18) ||
      (begun s h).ctxOf ((regOf s h t a).toNat % 2 ^ 18) != (cxAt s h t).ctx (begun s h) ||
      (regOf s h t b).toNat % 64 != 0) = true := by
    rw [hc, begun_ctxOf, hctx, hal, hown]
    simp
  change execAmsg a b s = _
  rw [execAmsg, issue_runs hi, afterVectors_begun _ (ha.vecMemory rfl)]
  simp only [begun_regOf]
  exact (if_neg hfine).trans (access_runs hp ha)

/-- Settles O32: SEND and CONT send a word where the identifier names a core, MOV.t takes a word or parks, NPUT links its write,
and AMSG asks its message. -/
theorem wordsAreSentAndTaken : Obligations.WordsAreSentAndTaken := by
  refine ⟨⟨fun s h t m d a b hi hm hv => ?_, fun s h t a b hi hv => ?_, fun s h t d a hi => execContid_runs hi⟩,
    fun s h t d a hi => ⟨fun hab => ?_, fun hpr hin => ?_⟩, fun s h t dir a b c hi hv hn hctx hroom => ?_,
    fun s h t a b p hi hc hctx hal hp ha => execAmsg_asks hi hc hctx hal hp ha⟩
  · intro dest w
    have hrun := execSend_runs hi hm hv
    refine ⟨fun hd => ?_, fun hd => ?_⟩
    · rw [hrun, State.sendWord_nowhere hd]
    · rw [State.sendWord_somewhere hd, begun_ctxOf] at hrun
      exact ⟨_, hrun, State.sendMsg_find (s := begun s h) h.core dest _ .registerWriteArrival,
        State.sendMsg_coming (s := begun s h) h.core dest _ .registerWriteArrival,
        ⟨_, passes_thread (begun_thread_self hi.live), rfl, rfl⟩, rfl⟩
  · intro dest w
    have hrun := execCont_runs hi hv
    refine ⟨fun hd => ?_, fun hd => ?_⟩
    · rw [hrun, State.sendWord_nowhere hd]
    · rw [State.sendWord_somewhere hd, begun_ctxOf] at hrun
      exact ⟨_, hrun, State.sendMsg_find (s := begun s h) h.core dest _ .registerWriteArrival,
        State.sendMsg_coming (s := begun s h) h.core dest _ .registerWriteArrival, rfl⟩
  · exact ⟨_, _, (execMovT_runs hi).trans (if_neg (Bool.eq_false_iff.1 hab)),
      State.park_thread _ _ (begun_thread_self hi.live), rfl⟩
  · obtain ⟨_, hbegun⟩ := begun_core (s := s) (h := h) h.core
    have hlive := begun_thread_self hi.live
    have hempty : ((begun s h).core h.core).inbound = [] := by rw [hbegun]; exact hin
    obtain ⟨hpresent, hreg⟩ := taken_core (d := rn d) (a := rn a) hlive hempty
    obtain ⟨_, hcore⟩ := passes_core (h := h) (t := t) (b := (begun s h).take h.core h.slot (rn d) (rn a)) h.core
    refine ⟨_, (execMovT_runs hi).trans (if_pos hpr), ?_, fun v hv => ?_⟩
    · rw [hcore]
      exact hpresent.trans (by rw [hbegun]; rfl)
    · rw [passes_thread (taken_thread hlive hempty)] at hv
      cases hv
      refine ⟨rfl, ?_⟩
      rw [hcore]
      exact (hreg _ rfl).trans (congrArg (fun v => if rn d = 0 then 0 else v) (begun_regOf (t := t) a))
  · refine ⟨_, execNput_runs hi hv hn hctx hroom, State.after_coming _ _ _, Map.find_put_self _ _ _, ?_, ?_⟩
    · obtain ⟨_, hbegun⟩ := begun_core (s := s) (h := h) h.core
      obtain ⟨_, hcore⟩ := passes_core (h := h) (t := t) (b := linked (begun s h) h.core (dirNum dir)
        (.nput h.core c ((regOf s h t a).toNat / 256 % 64) ((regOf s h t a).toNat % 128) (regOf s h t b))) h.core
      rw [hcore]
      exact (linked_link _ _ _).trans (by rw [hbegun]; rfl)
    · exact ⟨_, passes_thread (((linked_keeps _ _ _).thread _ _).trans (begun_thread_self hi.live)), rfl, rfl⟩

end Sys2Proof.Machine
end

section
/-! PROOFS. Arrivals. A word that arrives is written (`State.putPresent_core`), buffered or dropped, as `State.deliver` says of its
register; an active message takes a slot (`State.seat_takes`), and a WAKE ends a SLEEP. -/

namespace Sys2Proof.Machine

variable {s u : State} {c k n reg : Nat} {t : Thread} {v : Word}

/-! ### Words (R73, R75) -/

theorem State.setW_of_live {m : Nat} (hm : m ≠ 0) (ht : s.thread c k = some t) :
    s.setW c k m v = s.upCore c fun x => { x with regs := x.regs.put (8 * wBase t.win + m) v } := by
  rw [State.setW, if_neg hm, ht]

/-- A word that is placed is the register's value, and the presence bit is set. -/
theorem State.putPresent_core (hr : reg ≠ 0) (ht : s.thread c k = some t) : (s.putPresent c k reg v).core c =
    { s.core c with
      regs := (s.core c).regs.put (8 * wBase t.win + reg) v
      present := (8 * wBase t.win + reg) :: (s.core c).present } := by
  have hcore : ((s.setW c k reg v).upCore c fun x => { x with present := (8 * wBase t.win + reg) :: x.present }).core c =
      { s.core c with
        regs := (s.core c).regs.put (8 * wBase t.win + reg) v
        present := (8 * wBase t.win + reg) :: (s.core c).present } := by
    rw [State.upCore_core_self, State.setW_of_live hr ht, State.upCore_core_self]
  simp only [State.putPresent, ht]
  split
  · split <;> exact hcore
  · exact hcore

theorem State.putPresent_find (hr : reg ≠ 0) (ht : s.thread c k = some t) :
    ((s.putPresent c k reg v).core c).regs.find (8 * wBase t.win + reg) = some v := by
  rw [State.putPresent_core hr ht]
  exact Map.find_put_self _ _ _

theorem State.deliver_outside (ht : s.thread c k = some t) (hr : reg = 0 ∨ 8 * wSize t.win ≤ reg) :
    s.deliver c k reg v = some (s.drop c) := by
  simp only [State.deliver, ht, if_pos hr]

theorem State.deliver_puts (hc : isLarge c = false) (ht : s.thread c k = some t) (h0 : reg ≠ 0) (hin : reg < 8 * wSize t.win)
    (hp : (s.core c).present.contains (8 * wBase t.win + reg) = false) :
    s.deliver c k reg v = some (s.putPresent c k reg v) := by
  have hinside : ¬ (reg = 0 ∨ 8 * wSize t.win ≤ reg) := not_or.2 ⟨h0, Nat.not_le.2 hin⟩
  simp only [State.deliver, ht, if_neg hinside, hc, hp]
  rfl

theorem State.deliver_buffers (hc : isLarge c = false) (ht : s.thread c k = some t) (h0 : reg ≠ 0)
    (hin : reg < 8 * wSize t.win) (hp : (s.core c).present.contains (8 * wBase t.win + reg) = true)
    (hroom : (s.core c).inbound.length < 8) :
    s.deliver c k reg v = some (s.upCore c fun x => { x with inbound := x.inbound ++ [(k, reg, v)] }) := by
  have hinside : ¬ (reg = 0 ∨ 8 * wSize t.win ≤ reg) := not_or.2 ⟨h0, Nat.not_le.2 hin⟩
  simp only [State.deliver, ht, if_neg hinside, hc, hp]
  exact if_pos hroom

section Word

variable {d : Word} {ctx : Nat} (hm : s.msgs.find n = some (.word d reg v ctx false))
  (hb : s.behind (tidOf d).core d = false)
include hm hb

theorem execRegisterWriteArrival_drops (hgone : s.threadOf (tidOf d) = none ∨ s.mayReach ctx (tidOf d).core = false) :
    exec (.registerWriteArrival n) s = .next ((s.dropMsg n).drop (tidOf d).core) := by
  have hno : ((s.threadOf (tidOf d)).isNone || !s.mayReach ctx (tidOf d).core) = true := by
    rcases hgone with hgone | hgone <;> simp [hgone]
  change execRegisterWriteArrival n s = _
  simp only [execRegisterWriteArrival, hm, hb, hno]
  rfl

theorem execRegisterWriteArrival_delivers (ht : s.threadOf (tidOf d) = some t) (hr : s.mayReach ctx (tidOf d).core = true)
    (hu : s.deliver (tidOf d).core (tidOf d).slot reg v = some u) :
    exec (.registerWriteArrival n) s = .next (u.dropMsg n) := by
  have hlive : ((s.threadOf (tidOf d)).isNone || !s.mayReach ctx (tidOf d).core) = false := by simp [ht, hr]
  change execRegisterWriteArrival n s = _
  simp only [execRegisterWriteArrival, hm, hb, hlive, hu]
  rfl

end Word

theorem execNputLinkArrival_delivers {frm : Nat} (hm : s.msgs.find n = some (.nput frm c k reg v)) (hp : (s.core c).pressed = [])
    (hu : s.deliver c k reg v = some u) : exec (.nputLinkArrival n) s = .next (u.unlink frm n) := by
  change execNputLinkArrival n s = _
  simp only [execNputLinkArrival, hm, hp, hu]
  rfl

/-! ### Active messages (R55, R76) -/

section Spawn

variable {ws : List Word} {sender : Word} {ctx : Nat} (hm : s.msgs.find n = some (.spawn c ws sender t ctx))
include hm

theorem execAmsgArrival_seats (hd : (s.core c).doors = []) (hu : s.seat n = some u) :
    exec (.amsgArrival n) s = .next u := by
  change execAmsgArrival n s = _
  simp only [execAmsgArrival, hm, hd, hu]
  rfl

theorem State.seat_foreign (hctx : s.ctxOf c ≠ ctx) : s.seat n = some ((s.dropMsg n).drop c) := by
  have hbad : ((ws.getD 0 0).getLsbD 0 || !winOk (ws.getD 1 0) || s.ctxOf c != ctx) = true := by simp [hctx]
  simp only [State.seat, hm]
  exact if_pos hbad

/-- With a slot and a window free, a well-formed message creates its thread. -/
theorem State.seat_takes {w : Word} (he : (ws.getD 0 0).getLsbD 0 = false) (hw : winOk (ws.getD 1 0) = true)
    (hctx : s.ctxOf c = ctx) (hlive : s.regionCancelled c t.region = false) (hp : s.placeable c t.part = true)
    (hf : s.fits c t.region 1 = true) (hk : s.freeSlot c t.part = some k)
    (hwin : s.windowFor c k (wSize (ws.getD 1 0)) (vSize (ws.getD 1 0)) (aSize (ws.getD 1 0)) = some w) :
    s.seat n = some ((((s.dropMsg n).create c k { t with pc := ws.getD 0 0, win := w }).setWs c k 1 ((ws.drop 2).take 6)).setW
      c k 7 sender) := by
  have hfine : ¬ ((ws.getD 0 0).getLsbD 0 || !winOk (ws.getD 1 0) || s.ctxOf c != ctx) = true := by
    rw [he, hw, hctx]
    simp
  simp only [State.seat, hm]
  refine (if_neg hfine).trans ?_
  simp only [hlive, hp, hf, hk, hwin]
  rfl

end Spawn

/-! ### WAKE (R189) -/

theorem execWakeArrival_rouses {d : Word} {ctx : Nat} {npc : Word} (hm : s.msgs.find n = some (.wake d false ctx))
    (hb : s.behind (tidOf d).core d = false) (he : s.evicting d = false) (hr : s.mayReach ctx (tidOf d).core = true)
    (hev : ((s.core (tidOf d).core).slot (tidOf d).slot).evicted = none) (hcs : s.stalledCopies (tidOf d) = [])
    (hvs : s.stalledVecs (tidOf d) = []) (ht : s.threadOf (tidOf d) = some t) (hst : t.status = .parked .sleep (.sleep npc)) :
    exec (.wakeArrival n) s = .next ((s.dropMsg n).resumeAt (tidOf d).core (tidOf d).slot npc) := by
  have hr' : (s.dropMsg n).mayReach ctx (tidOf d).core = true := hr
  have hev' : (((s.dropMsg n).core (tidOf d).core).slot (tidOf d).slot).evicted = none := hev
  have hcs' : (s.dropMsg n).stalledCopies (tidOf d) = [] := hcs
  have hvs' : (s.dropMsg n).stalledVecs (tidOf d) = [] := hvs
  have ht' : (s.dropMsg n).threadOf (tidOf d) = some t := ht
  change execWakeArrival n s = _
  simp only [execWakeArrival, hm, hb, he, hr', hev', hcs', hvs', ht', hst, State.rouse, State.endSleep_eq ht' hst]
  rfl

/-- Settles O33: an arriving word goes where `State.deliver` puts it, a message of another context is dropped and one with a free
slot and window seated, and a WAKE resumes a sleeping thread. -/
theorem wordsMessagesAndWakesArrive : Obligations.WordsMessagesAndWakesArrive := by
  refine ⟨⟨fun s n d reg v ctx hm hb hc => ?_, fun s n frm c k reg v t hm hp hc ht h0 hin hab => ?_⟩,
    fun s n c ws sender t ctx hm hd hctx => execAmsgArrival_seats hm hd (State.seat_foreign hm hctx),
    fun s n c ws sender t k w hm he hw hlive hd hp hf hk hwin => ?_,
    fun s n d ctx t npc hm hb he hr hev hcs hvs ht hst hwarm => ?_⟩
  · intro i c
    refine ⟨execRegisterWriteArrival_drops hm hb, fun t ht hr => ?_⟩
    have hlive : s.thread i.core i.slot = some t := State.thread_of_threadOf ht
    have hrun {u : State} (hu : s.deliver i.core i.slot reg v = some u) := execRegisterWriteArrival_delivers hm hb ht hr hu
    refine ⟨fun hout => hrun (State.deliver_outside hlive hout), fun h0 hin hab => ?_, fun h0 hin hpr hroom => ?_⟩
    · refine ⟨_, hrun (State.deliver_puts hc hlive h0 hin hab), State.putPresent_find h0 hlive, ?_, ?_⟩
      · change _ ∈ ((s.putPresent i.core i.slot reg v).core i.core).present
        rw [State.putPresent_core h0 hlive]
        exact List.mem_cons_self
      · exact State.putPresent_mem _ _ _ _
    · have hcore := State.upCore_core_self s i.core fun x => { x with inbound := x.inbound ++ [(i.slot, reg, v)] }
      have hinbound := congrArg Core.inbound hcore
      have hregs := congrArg Core.regs hcore
      exact ⟨_, hrun (State.deliver_buffers hc hlive h0 hin hpr hroom), hinbound, hregs, rfl⟩
  · exact ⟨execNputLinkArrival_delivers hm hp (State.deliver_puts hc ht h0 hin hab), State.putPresent_find h0 ht⟩
  · intro made
    exact ⟨execAmsgArrival_seats hm hd (State.seat_takes hm he hw rfl hlive hp hf hk hwin), _,
      State.create_thread _ _ _, rfl, rfl, rfl⟩
  · exact ⟨_, _, execWakeArrival_rouses hm hb he hr hev hcs hvs ht hst,
      State.resumeAt_thread (s := s.dropMsg n) npc (State.thread_of_threadOf ht) hwarm, rfl, rfl⟩

end Sys2Proof.Machine
end

section
/-! PROOFS. Team barriers: each instruction's case is read off its checks, and the completion of a phase lowers every lead
(`TeamBar.complete_lead`). -/

namespace Sys2Proof.Machine

variable {s : State} {h : Hand} {t : Thread}

/-! ### BAR.CFG (R69) -/

theorem execBarCfg_configures {d a b : Reg} {mask : Nat} (hi : Issues s (smallKind [d, a, b]) h t)
    (hmask : (if regOf s h t b = 0 then 2 ^ localIndex h.core else (regOf s h t b).toNat) = mask)
    (hop : barOperands (regOf s h t d) (regOf s h t a) (regOf s h t b) = true)
    (hnew : (begun s h).maskIn (clusterOf h.core) mask (s.ctxOf h.core) = true)
    (hold : (begun s h).maskIn (clusterOf h.core) ((begun s h).bar (clusterOf h.core) (regOf s h t d).toNat).members
      (s.ctxOf h.core) = true) :
    exec (.barCfg d a b) s =
      let old := (begun s h).bar (clusterOf h.core) (regOf s h t d).toNat
      .next (passes (if old.members = mask ∧ old.count = (regOf s h t a).toNat then begun s h
        else (begun s h).configure (clusterOf h.core) (regOf s h t d).toNat (regOf s h t a).toNat mask) h t) := by
  have hctx : (cxAt s h t).ctx (begun s h) = s.ctxOf h.core := begun_ctxOf _
  have hcore : (cxAt s h t).core = h.core := rfl
  change execBarCfg d a b s = _
  rw [execBarCfg, issue_runs hi]
  simp only [begun_regOf, hctx, hcore, hmask, hop, hnew, hold]
  refine (if_neg Bool.false_ne_true).trans ?_
  split <;> rfl

/-! ### BAR.ARR and BAR.WAIT (R70) -/

theorem execBarArr_runs {m : Mod} {d : Reg} (hi : Issues s (smallKind [d]) h t) (hm : m.release = false)
    (hn : (regOf s h t d).toNat < 32) (hc : ((begun s h).bar (clusterOf h.core) (regOf s h t d).toNat).configured = true)
    (hmember : ((begun s h).bar (clusterOf h.core) (regOf s h t d).toNat).members.testBit (localIndex h.core) = true) :
    exec (.barArr m d) s =
      if ((begun s h).bar (clusterOf h.core) (regOf s h t d).toNat).leadOf (localIndex h.core) < 3 then
        .next (passes ((begun s h).arriveBar (clusterOf h.core) (regOf s h t d).toNat h.core h.slot) h t)
      else .next ((begun s h).park h.core h.slot .barrier (.arrive (regOf s h t d).toNat (stepPc t.pc h.len))) := by
  have hcore : (cxAt s h t).core = h.core := rfl
  have hfine : ¬ (32 ≤ (regOf s h t d).toNat ∨
      (!((begun s h).bar (clusterOf h.core) (regOf s h t d).toNat).configured) = true ∨
      (!((begun s h).bar (clusterOf h.core) (regOf s h t d).toNat).members.testBit (localIndex h.core)) = true) := by
    simp [hc, hmember, hn]
  change execBarArr m d s = _
  rw [execBarArr, issue_runs hi]
  simp only [begun_regOf, hcore, if_neg hfine, Cx.releasing_of_none _ _ hm]
  rfl

theorem execBarWait_runs {m : Mod} {d : Reg} (hi : Issues s (smallKind [d]) h t) (hn : (regOf s h t d).toNat < 32)
    (hc : ((begun s h).bar (clusterOf h.core) (regOf s h t d).toNat).configured = true) :
    exec (.barWait m d) s = match t.lastArr with
      | some (n', ph) =>
        if n' = (regOf s h t d).toNat ∧ ((begun s h).bar (clusterOf h.core) (regOf s h t d).toNat).phase ≤ ph then
          .next ((begun s h).park h.core h.slot .barrier (.phase (regOf s h t d).toNat ph (stepPc t.pc h.len)))
        else .next (goesTo s h (stepPc t.pc h.len))
      | none => .next (goesTo s h (stepPc t.pc h.len)) := by
  have hcore : (cxAt s h t).core = h.core := rfl
  have hfine : ¬ (32 ≤ (regOf s h t d).toNat ∨
      (!((begun s h).bar (clusterOf h.core) (regOf s h t d).toNat).configured) = true) := by simp [hc, hn]
  change execBarWait m d s = _
  rw [execBarWait, issue_runs hi]
  simp only [begun_regOf, hcore, if_neg hfine]
  rfl

/-! ### Completion and return (R71) -/

theorem TeamBar.complete_lead (b : TeamBar) {i l : Nat} (hl : b.lead.find i = some l) :
    b.complete.lead.find i = some (l - 1) := by
  rw [TeamBar.complete, Map.mapVals, Map.find_map_values b.lead fun _ n => n - 1, hl]
  rfl

theorem execTeamBarrierCompletion_due {cl n : Nat} {rest : List Nat} (hd : (s.bar cl n).due = s.cyc :: rest) :
    exec (.teamBarrierCompletion cl n) s = .next (((s.setBar cl n { (s.bar cl n).complete with
      due := rest, backs := (s.bar cl n).backs ++ [s.cyc + 10] }).after 10 20 (.barWaitReturn cl n)).arriveWaiting cl n) := by
  change execTeamBarrierCompletion cl n s = _
  simp only [execTeamBarrierCompletion, hd, if_true]

theorem execBarWaitReturn_due {cl n : Nat} {rest : List Nat} (hb : (s.bar cl n).backs = s.cyc :: rest) :
    exec (.barWaitReturn cl n) s = .next ((s.setBar cl n { s.bar cl n with
      freed := (s.bar cl n).freed + 1, backs := rest }).returnWaiting cl n ((s.bar cl n).freed + 1)) := by
  change execBarWaitReturn cl n s = _
  simp only [execBarWaitReturn, hb, if_true]

/-- Settles O34: the barrier instructions do what their lemmas above say, and so do the two steps of a completed phase. -/
theorem teamBarriersCollectTheirMembers : Obligations.TeamBarriersCollectTheirMembers := by
  refine ⟨fun s h t d a b hi => ?_, fun s h t m d hi hm => ?_, fun s h t m d hi => ?_, fun s cl n rest hd => ?_,
    fun s cl n rest hb => execBarWaitReturn_due hb⟩
  · intro n count m cl mask old hop hnew hold
    exact execBarCfg_configures hi rfl hop hnew hold
  · intro n cl bar hn hc hmember
    have hrun := execBarArr_runs hi hm hn hc hmember
    exact ⟨fun hl => hrun.trans (if_pos hl), fun hl =>
      ⟨_, _, hrun.trans (if_neg hl), State.park_thread _ _ (begun_thread_self hi.live), rfl⟩⟩
  · intro n bar hn hc
    have hrun := execBarWait_runs (m := m) hi hn hc
    refine ⟨fun ph hl hph => ?_, fun hpast => ?_⟩
    · rw [hl] at hrun
      exact ⟨_, _, hrun.trans (if_pos ⟨rfl, hph⟩), State.park_thread _ _ (begun_thread_self hi.live), rfl⟩
    · cases hl : t.lastArr with
      | none => rw [hl] at hrun; exact hrun
      | some e =>
        obtain ⟨n', ph⟩ := e
        rw [hl] at hrun
        refine hrun.trans (if_neg fun hboth => ?_)
        exact absurd (hpast ph (by rw [hl, hboth.1])) (Nat.not_lt.2 hboth.2)
  · exact ⟨_, execTeamBarrierCompletion_due hd, rfl, rfl, fun i l hl => TeamBar.complete_lead _ hl⟩

end Sys2Proof.Machine
end

section
/-! PROOFS. LAUNCH, CANCEL and DISPATCH: the two instructions ask their memory, and a packet whose team fits is placed; a team of
one is one created thread (`State.placeTeam_single`). -/

namespace Sys2Proof.Machine

variable {s s' : State} {h : Hand} {c k : Nat} {t : Thread}

/-! ### LAUNCH and CANCEL (R66, R285) -/

theorem execLaunch_refuses {d a : Reg} (hi : Issues s (plainKind [d, a]) h t)
    (hv : (begun s h).vecMemory ((cxOf h t).tid (begun s h)) false = false) (hal : (regOf s h t a).toNat % 128 ≠ 0) :
    exec (.launch d a) s = .next (retires s h t d (-1)) := by
  change execLaunch d a s = _
  rw [execLaunch, issue_runs hi, afterVectors_begun _ hv]
  simp only [begun_regOf]
  exact if_pos hal

/-- What a LAUNCH asks of its packet (R66). -/
def launchAsk (d : Reg) : Ask :=
  { op := .block 16, use := .stage stPacket, align := 128, bytes := 128, args := [BitVec.ofNat 64 (rn d)], why := .launch }

theorem execLaunch_asks {d a : Reg} {p : Word} (hi : Issues s (plainKind [d, a]) h t)
    (hv : (begun s h).vecMemory ((cxOf h t).tid (begun s h)) false = false) (hal : (regOf s h t a).toNat % 128 = 0)
    (hp : effective (regOf s h t a) 0 = .ok p) (ha : Admits s h t p (launchAsk d)) :
    exec (.launch d a) s = .next (asks s h t p (launchAsk d)) := by
  change execLaunch d a s = _
  rw [execLaunch, issue_runs hi, afterVectors_begun _ hv]
  simp only [begun_regOf]
  exact (if_neg (not_not.2 hal)).trans (access_runs hp ha)

theorem execCancel_misaligned {d a : Reg} (hi : Issues s (plainKind [d, a]) h t) (hal : (regOf s h t a).toNat % 256 ≠ 0) :
    exec (.cancel d a) s = .next ((begun s h).trap h.core h.slot cALIGN (regOf s h t a) t.pc 0 false) := by
  change execCancel d a s = _
  rw [execCancel, issue_runs hi]
  simp only [begun_regOf]
  exact if_pos hal

/-- What a CANCEL asks of its region block's flag word (R285). -/
def cancelAsk (d : Reg) (v : Word) : Ask :=
  { op := .cancel, use := .reg (rn d), align := 8, bytes := 8, redir := .forbidden, args := [v] }

theorem execCancel_asks {d a : Reg} {p : Word} (hi : Issues s (plainKind [d, a]) h t) (hal : (regOf s h t a).toNat % 256 = 0)
    (hp : effective (regOf s h t a) 16 = .ok p) (ha : Admits s h t p (cancelAsk d (regOf s h t a))) :
    exec (.cancel d a) s = .next (asks s h t p (cancelAsk d (regOf s h t a))) := by
  change execCancel d a s = _
  rw [execCancel, issue_runs hi]
  simp only [begun_regOf]
  exact (if_neg (not_not.2 hal)).trans (access_runs hp ha)

/-! ### DISPATCH (R67, R68, R268) -/

/-- The members of a packet's team on one core (R67). -/
def teamSize (p : Packet) : Nat := (wordOf p.ws 3).toNat % 64 + 1

theorem execDispatch_places {pkt die cls base size : Nat} {before : List Packet} {p : Packet} {r : Rect} {slots : List Nat}
    (hfind : s.findPacket pkt = some (die, cls, before, p)) (htodo : p.todo.contains c = true)
    (hlive : s.regionCancelled c p.region = false) (hfirst : before.any (fun q => q.todo.contains c) = false)
    (hplace : s.placeable c p.part = true) (hwaits : s.awaits c p.waits = false) (hctx : s.ctxOf c = p.ctx)
    (hrect : rectOf (wordOf p.ws 2) = some r) (hslots : (s.freeSlots c p.part).take (teamSize p) = slots)
    (hlen : slots.length = teamSize p) (hfits : s.fits c p.region (teamSize p) = true)
    (hbase : (r.cores.takeWhile fun x => x != c).length * teamSize p = base) (hsize : r.rows * r.cols * teamSize p = size)
    (hteam : s.placeTeam c p base size slots = some s') :
    exec (.dispatch pkt c) s = .next (s'.dispatched die cls pkt c) := by
  have hfree : ¬ (slots.length < teamSize p ∨ (!s.fits c p.region (teamSize p)) = true) := by simp [hlen, hfits]
  subst hslots hbase hsize
  change execDispatch pkt c s = _
  simp only [execDispatch, hfind, htodo, hlive, hfirst, hplace, hwaits, hctx, hrect]
  refine (if_neg (by simp)).trans ((if_neg (by simp)).trans ((if_neg (by simp)).trans ((if_neg (by simp)).trans ?_)))
  refine (if_neg hfree).trans ?_
  rw [teamSize] at hteam
  rw [hteam]

/-- A team of one is one thread, created in its slot with the packet's registers (R68). -/
theorem State.placeTeam_single {p : Packet} {base size : Nat} (hteam : s.placeTeam c p base size [k] = some s') :
    ∃ w ready, s'.thread c k = some (({ packetThread p with win := w } : Thread).settled s.cyc ready) := by
  simp only [State.placeTeam, Core.teamWins] at hteam
  split at hteam
  · cases hteam
  · next w _ =>
    cases hteam
    refine ⟨w, s.cyc + s.teamDelay c [(k, w)], ?_⟩
    exact (State.setWs_thread _ _ _ _ _ _).trans (State.createIn_thread _ _ _ _)

/-- Settles O37: LAUNCH and CANCEL ask their memory, and the dispatched packet's team is placed (`execDispatch_places`), a team of
one as one thread (`State.placeTeam_single`). -/
theorem packetsAreLaunchedAndDispatched : Obligations.PacketsAreLaunchedAndDispatched := by
  refine ⟨⟨fun s h t d a p hi hv => ⟨execLaunch_refuses hi hv, execLaunch_asks hi hv⟩,
    fun s h t d a p hi => ⟨execCancel_misaligned hi, execCancel_asks hi⟩⟩, ?_⟩
  intro s s' pkt c die cls before p r hfind htodo hlive hfirst hplace hwaits hctx hrect n slots hlen hfits hteam
  refine ⟨execDispatch_places hfind htodo hlive hfirst hplace hwaits hctx hrect rfl hlen hfits rfl rfl hteam, fun k hk => ?_⟩
  rw [hk] at hteam
  obtain ⟨w, ready, hthread⟩ := State.placeTeam_single hteam
  exact ⟨_, hthread, rfl, rfl, rfl, rfl, rfl, rfl, rfl, rfl⟩

end Sys2Proof.Machine
end

section
/-! PROOFS. Integer instructions: each is an issue of one register result (`issueAlu_runs`, `issueUnary_runs`, `issueDiv_runs`), and
the results of `Sys2Proof/Machine/Integer.lean` are read bit by bit or as numbers. -/

namespace Sys2Proof.Machine

variable {s : State} {h : Hand} {t : Thread}

/-! ### Three registers (R82, R83) -/

theorem shiftOf_eq (v : Word) : shiftOf v = v.toNat % 64 := by
  simp [shiftOf, BitVec.extractLsb'_toNat]

theorem ofInt_min (u v : Word) :
    BitVec.ofInt 64 (Min.min u.toInt v.toInt) = if u.toInt < v.toInt then u else v := by
  split
  · next hlt => rw [min_eq_left hlt.le, BitVec.ofInt_toInt]
  · next hge => rw [min_eq_right (not_lt.1 hge), BitVec.ofInt_toInt]

theorem ofInt_max (u v : Word) :
    BitVec.ofInt 64 (Max.max u.toInt v.toInt) = if u.toInt < v.toInt then v else u := by
  split
  · next hlt => rw [max_eq_right hlt.le, BitVec.ofInt_toInt]
  · next hge => rw [max_eq_left (not_lt.1 hge), BitVec.ofInt_toInt]

theorem ofNat_min (u v : Word) :
    BitVec.ofNat 64 (Min.min u.toNat v.toNat) = if u.toNat < v.toNat then u else v := by
  split
  · next hlt => rw [min_eq_left hlt.le, BitVec.ofNat_toNat, BitVec.setWidth_eq]
  · next hge => rw [min_eq_right (not_lt.1 hge), BitVec.ofNat_toNat, BitVec.setWidth_eq]

theorem ofNat_max (u v : Word) :
    BitVec.ofNat 64 (Max.max u.toNat v.toNat) = if u.toNat < v.toNat then v else u := by
  split
  · next hlt => rw [max_eq_right hlt.le, BitVec.ofNat_toNat, BitVec.setWidth_eq]
  · next hge => rw [max_eq_left (not_lt.1 hge), BitVec.ofNat_toNat, BitVec.setWidth_eq]

theorem flagWord_decide (p : Prop) [Decidable p] : flagWord (decide p) = if p then 1 else 0 := by
  simp [flagWord]

/-- Settles O8: each is `issueAlu` of its operator, whose shift count and flags are the statement's. -/
theorem integerInstructionsWriteTheirResults : Obligations.IntegerInstructionsWriteTheirResults := by
  intro s h t d a b hi u v n
  have hn : shiftOf v = n := shiftOf_eq v
  have heq : flagWord (u == v) = if u = v then 1 else 0 := flagWord_decide (u = v)
  rw [← hn, ← heq, ← flagWord_decide, ← flagWord_decide, ofInt_min, ofInt_max, ofNat_min, ofNat_max]
  exact ⟨(rfl : _ = execAdd d a b s).trans (issueAlu_runs hi _),
    (rfl : _ = execSub d a b s).trans (issueAlu_runs hi _),
    (rfl : _ = execAnd d a b s).trans (issueAlu_runs hi _),
    (rfl : _ = execOr d a b s).trans (issueAlu_runs hi _),
    (rfl : _ = execXor d a b s).trans (issueAlu_runs hi _),
    (rfl : _ = execAndn d a b s).trans (issueAlu_runs hi _),
    (rfl : _ = execMul d a b s).trans (issueAlu_runs hi _),
    (rfl : _ = execMulh d a b s).trans (issueAlu_runs hi _),
    (rfl : _ = execMulhZ d a b s).trans (issueAlu_runs hi _),
    (rfl : _ = execShl d a b s).trans (issueAlu_runs hi _),
    (rfl : _ = execShr d a b s).trans (issueAlu_runs hi _),
    (rfl : _ = execSra d a b s).trans (issueAlu_runs hi _),
    (rfl : _ = execRot d a b s).trans (issueAlu_runs hi _),
    (rfl : _ = execSlt d a b s).trans (issueAlu_runs hi _),
    (rfl : _ = execSltZ d a b s).trans (issueAlu_runs hi _),
    (rfl : _ = execSeq d a b s).trans (issueAlu_runs hi _),
    (rfl : _ = execMin d a b s).trans (issueAlu_runs hi _),
    (rfl : _ = execMax d a b s).trans (issueAlu_runs hi _),
    (rfl : _ = execMinZ d a b s).trans (issueAlu_runs hi _),
    (rfl : _ = execMaxZ d a b s).trans (issueAlu_runs hi _)⟩

/-! ### Divisions (R84, R152, R212) -/

/-- What a division answers: the trap of a fixed case that is enabled, or the quotient or the remainder. -/
theorem issueDiv_runs {d a b : Reg} (hi : Issues s (pageZero [d, a, b]) h t) (signed quotient : Bool) :
    issueDiv signed quotient d a b s =
      match divTraps (if isLarge h.core then 0 else t.fmt) (divide signed (regOf s h t a) (regOf s h t b)) with
      | some n => .next ((begun s h).trap h.core h.slot cARITH (BitVec.ofNat 64 n) t.pc 0 false)
      | none => .next (retires s h t d (if quotient then (divide signed (regOf s h t a) (regOf s h t b)).q
          else (divide signed (regOf s h t a) (regOf s h t b)).r)) := by
  rw [issueDiv, issue_runs hi]
  simp only [begun_regOf]
  rfl

theorem divTraps_none (fmt : Word) (q r : Word) : divTraps fmt ⟨q, r, none⟩ = none := rfl

theorem divTraps_zero (fmt : Word) (q r : Word) : divTraps fmt ⟨q, r, some 1⟩ = if fmt.getLsbD 8 then some 1 else none := rfl

theorem divTraps_overflow (fmt : Word) (q r : Word) :
    divTraps fmt ⟨q, r, some 2⟩ = if fmt.getLsbD 9 then some 2 else none := rfl

theorem divide_zero (signed : Bool) (u : Word) : divide signed u 0 = ⟨-1, u, some 1⟩ := if_pos rfl

theorem divide_overflow : divide true 0x8000000000000000 0xFFFFFFFFFFFFFFFF = ⟨0x8000000000000000, 0, some 2⟩ := rfl

theorem divide_unsigned {u v : Word} (hv : v ≠ 0) : divide false u v = ⟨u.udiv v, u.umod v, none⟩ := by
  rw [divide, if_neg hv, if_neg (fun h => Bool.false_ne_true h.1), if_neg Bool.false_ne_true, BitVec.udiv_eq, BitVec.udiv_def,
    BitVec.umod_eq, BitVec.umod_def]

theorem divide_signed {u v : Word} (hv : v ≠ 0) (hc : ¬ (u = 0x8000000000000000 ∧ v = 0xFFFFFFFFFFFFFFFF)) :
    divide true u v = ⟨u.sdiv v, u.srem v, none⟩ := by
  have hne : u ≠ BitVec.intMin 64 ∨ v ≠ -1#64 := not_and_or.1 hc
  have hq : BitVec.ofInt 64 (u.toInt.tdiv v.toInt) = u.sdiv v := by
    rw [← BitVec.toInt_sdiv_of_ne_or_ne u v hne, BitVec.ofInt_toInt]
  have hr : BitVec.ofInt 64 (u.toInt.tmod v.toInt) = u.srem v := by
    rw [← BitVec.toInt_srem, BitVec.ofInt_toInt]
  rw [divide, if_neg hv, if_neg (fun h => hc h.2), if_pos rfl, hq, hr]

/-- A fixed case traps where its bit of the format that counts is set: th.fmt on a small core, zero on a large one. -/
theorem fmt_off {fmt : Word} {c n : Nat} (hoff : fmt.getLsbD n = false ∨ isLarge c = true) :
    (if isLarge c then 0 else fmt).getLsbD n = false := by
  rcases hoff with hoff | hoff
  · split
    · exact BitVec.getLsbD_zero
    · exact hoff
  · rw [if_pos hoff]
    exact BitVec.getLsbD_zero

theorem fmt_on {fmt : Word} {c n : Nat} (hon : fmt.getLsbD n = true) (hc : isLarge c = false) :
    (if isLarge c then 0 else fmt).getLsbD n = true := by
  rw [hc]
  exact hon

/-- A division that does not trap answers its quotient or its remainder. -/
theorem issueDiv_answers {d a b : Reg} {signed : Bool} {q r : Word} {c : Option Nat} (hi : Issues s (pageZero [d, a, b]) h t)
    (hq : divide signed (regOf s h t a) (regOf s h t b) = ⟨q, r, c⟩)
    (ht : divTraps (if isLarge h.core then 0 else t.fmt) ⟨q, r, c⟩ = none) (quotient : Bool) :
    issueDiv signed quotient d a b s = .next (retires s h t d (if quotient then q else r)) := by
  rw [issueDiv_runs hi, hq, ht]

/-- A division that traps raises ARITH with the number of its fixed case. -/
theorem issueDiv_traps {d a b : Reg} {signed : Bool} {q : Quot} {n : Nat} (hi : Issues s (pageZero [d, a, b]) h t)
    (hq : divide signed (regOf s h t a) (regOf s h t b) = q)
    (ht : divTraps (if isLarge h.core then 0 else t.fmt) q = some n) (quotient : Bool) :
    issueDiv signed quotient d a b s = .next ((begun s h).trap h.core h.slot cARITH (BitVec.ofNat 64 n) t.pc 0 false) := by
  rw [issueDiv_runs hi, hq, ht]

/-- Settles O9: `divide` gives the two fixed cases and otherwise the library's divisions, and the format's bit decides the
trap. -/
theorem divisionsGiveQuotientsAndRemainders : Obligations.DivisionsGiveQuotientsAndRemainders := by
  intro s h t d a b hi u v corner trap
  refine ⟨fun hv => ?_, fun hv hc => ?_, fun hv hoff => ?_, fun hv hon hs => ?_, fun hc hoff => ?_, fun hc hon hs => ?_⟩
  · have runs := issueDiv_answers hi (divide_unsigned hv) (divTraps_none _ _ _)
    exact ⟨runs true, runs false⟩
  · have runs := issueDiv_answers hi (divide_signed hv hc) (divTraps_none _ _ _)
    exact ⟨runs true, runs false⟩
  · have hz (signed : Bool) : divide signed u v = ⟨-1, u, some 1⟩ := by rw [hv, divide_zero]
    have ht (r : Word) : divTraps (if isLarge h.core then 0 else t.fmt) ⟨-1, r, some 1⟩ = none := by
      rw [divTraps_zero, fmt_off hoff, if_neg Bool.false_ne_true]
    have runs (signed : Bool) := issueDiv_answers (signed := signed) hi (hz signed) (ht u)
    exact ⟨runs true true, runs false true, runs true false, runs false false⟩
  · have hz (signed : Bool) : divide signed u v = ⟨-1, u, some 1⟩ := by rw [hv, divide_zero]
    have ht (q r : Word) : divTraps (if isLarge h.core then 0 else t.fmt) ⟨q, r, some 1⟩ = some 1 := by
      rw [divTraps_zero, fmt_on hon hs, if_pos rfl]
    have runs (signed : Bool) := issueDiv_traps (signed := signed) hi (hz signed) (ht _ _)
    exact ⟨runs true true, runs false true, runs true false, runs false false⟩
  · obtain ⟨hu, hv⟩ := hc
    have hq : divide true u v = ⟨u, 0, some 2⟩ := by rw [hu, hv, divide_overflow]
    have runs := issueDiv_answers hi hq (by rw [divTraps_overflow, fmt_off hoff, if_neg Bool.false_ne_true])
    exact ⟨runs true, runs false⟩
  · obtain ⟨hu, hv⟩ := hc
    have hq : divide true u v = ⟨u, 0, some 2⟩ := by rw [hu, hv, divide_overflow]
    have runs := issueDiv_traps hi hq (by rw [divTraps_overflow, fmt_on hon hs, if_pos rfl])
    exact ⟨runs true, runs false⟩

/-! ### Counts of bits and bytes in reverse (R86) -/

theorem leadingZeros_spec (v : Word) (n : Nat) : leadingZeros v n ≤ n ∧
    (∀ i < leadingZeros v n, v.getLsbD (n - 1 - i) = false) ∧
    (leadingZeros v n < n → v.getLsbD (n - 1 - leadingZeros v n) = true) := by
  induction n with
  | zero => simp [leadingZeros]
  | succ n ih =>
    obtain ⟨hle, hzero, hone⟩ := ih
    rw [leadingZeros]
    split
    · next hn => simpa using hn
    · next hn =>
      refine ⟨by omega, fun i hi => ?_, fun hlt => ?_⟩
      · cases i with
        | zero => simpa using hn
        | succ i =>
          rw [show n + 1 - 1 - (i + 1) = n - 1 - i by omega]
          exact hzero i (by omega)
      · rw [show n + 1 - 1 - (leadingZeros v n + 1) = n - 1 - leadingZeros v n by omega]
        exact hone (by omega)

theorem trailingZeros_spec (v : Word) (i n : Nat) : trailingZeros v i n ≤ n ∧
    (∀ j < trailingZeros v i n, v.getLsbD (i + j) = false) ∧
    (trailingZeros v i n < n → v.getLsbD (i + trailingZeros v i n) = true) := by
  induction n generalizing i with
  | zero => simp [trailingZeros]
  | succ n ih =>
    obtain ⟨hle, hzero, hone⟩ := ih (i + 1)
    rw [trailingZeros]
    split
    · next hn => simpa using hn
    · next hn =>
      refine ⟨by omega, fun j hj => ?_, fun hlt => ?_⟩
      · cases j with
        | zero => simpa using hn
        | succ j =>
          rw [show i + (j + 1) = i + 1 + j by omega]
          exact hzero j (by omega)
      · rw [show i + (trailingZeros v (i + 1) n + 1) = i + 1 + trailingZeros v (i + 1) n by omega]
        exact hone (by omega)

theorem oneBits_eq (v : Word) (n : Nat) : oneBits v n = ((List.range n).filter fun i => v.getLsbD i).length := by
  induction n with
  | zero => rfl
  | succ n ih =>
    rw [oneBits, ih, List.range_succ, List.filter_append, List.length_append, Nat.add_comm, List.filter_singleton]
    cases v.getLsbD n <;> rfl

theorem swapBytes_bit (v : Word) {i j : Nat} (hi : i < 8) (hj : j < 8) :
    (swapBytes v).getLsbD (8 * i + j) = v.getLsbD (8 * (7 - i) + j) := by
  simp only [swapBytes, BitVec.getLsbD_append, BitVec.getLsbD_extractLsb']
  interval_cases i <;> simp [hj, show ∀ n, 8 ≤ n → ¬ (n + j < 8) by omega] <;> grind

/-! ### Bit fields (R87) -/

theorem lowOnes_bit (n i : Nat) : (lowOnes n).getLsbD i = (decide (i < 64) && decide (i < n)) := by
  rw [lowOnes, BitVec.getLsbD_ofNat, Nat.testBit_two_pow_sub_one]

theorem fieldAt_bit (v : Word) (pos n : Nat) {i : Nat} (hi : i < 64) :
    (fieldAt v pos n).getLsbD i = (decide (i < n) && v.getLsbD (pos + i)) := by
  rw [fieldAt, BitVec.getLsbD_and, BitVec.getLsbD_ushiftRight, lowOnes_bit, decide_eq_true hi, Bool.true_and, Bool.and_comm]

theorem signFrom_bit (f : Word) {n i : Nat} (h0 : 0 < n) (hn : n ≤ 64) (hi : i < 64) :
    (signFrom f n).getLsbD i = f.getLsbD (Min.min i (n - 1)) := by
  have hshift (j : Nat) (hj : j < n) : (f <<< (64 - n)).getLsbD (64 - n + j) = f.getLsbD j := by
    rw [BitVec.getLsbD_shiftLeft]
    simp [show 64 - n + j < 64 by omega]
  have hmsb : (f <<< (64 - n)).msb = f.getLsbD (n - 1) := by
    rw [← hshift _ (by omega), BitVec.msb_eq_getLsbD_last]
    congr 1
    omega
  rw [signFrom, BitVec.getLsbD_sshiftRight, hmsb, decide_eq_false (by omega), Bool.not_false, Bool.true_and]
  split
  · next hlt => rw [hshift i (by omega), min_eq_left (by omega)]
  · next hge => rw [min_eq_right (by omega)]

theorem insertField_bit (old v : Word) {pos n i : Nat} (hi : i < 64) :
    (insertField old v pos n).getLsbD i = if pos ≤ i ∧ i < pos + n then v.getLsbD (i - pos) else old.getLsbD i := by
  rw [insertField, BitVec.getLsbD_or, BitVec.getLsbD_and, BitVec.getLsbD_not, BitVec.getLsbD_shiftLeft, BitVec.getLsbD_shiftLeft,
    BitVec.getLsbD_and, lowOnes_bit]
  by_cases hlo : i < pos
  · simp [hi, hlo, not_le.2 hlo]
  · have hlt : i - pos < n ↔ i < pos + n := by omega
    by_cases hin : i < pos + n <;> simp [hi, hlo, hlt, hin, not_lt.1 hlo, show i - pos < 64 by omega]

/-! ### SEL and the two-register forms (R85 to R88, R91) -/

theorem execSel_runs {d a b : Reg} (hi : Issues s (pageZero [d, a, b]) h t) : exec (.sel d a b) s =
    .next (retires s h t d (if regOf s h t d = 0 then regOf s h t b else regOf s h t a)) := by
  change execSel d a b s = _
  rw [execSel, issue_runs hi]
  simp only [begun_regOf, ret_begun, ne_eq, ite_not]

theorem execIns_runs {d a : Reg} {pos len1 : BitVec 6} (hi : Issues s (pageZero [d, a]) h t) : exec (.ins d a pos len1) s =
    .next (retires s h t d (insertField (regOf s h t d) (regOf s h t a) pos.toNat (len1.toNat + 1))) := by
  change execIns d a pos len1 s = _
  rw [execIns, issue_runs hi]
  simp only [begun_regOf, ret_begun]

theorem execLdi_runs {d : Reg} {imm : Imm} (hi : Issues s (pageZero [d]) h t) :
    exec (.ldi d imm) s = .next (retires s h t d (imm.signExtend 64)) := by
  change execLdi d imm s = _
  rw [execLdi, issue_runs hi, ret_begun]

/-- Settles O10: the counts, the reversed bytes and the fields are read bit by bit. -/
theorem selectionsBitCountsAndBitFields : Obligations.SelectionsBitCountsAndBitFields := by
  refine ⟨⟨fun s h t d a b hi => execSel_runs hi, ?_⟩, ?_⟩
  · intro s h t d a hi v
    refine ⟨?_, ?_, ?_, ?_⟩
    · obtain ⟨hle, hzero, hone⟩ := leadingZeros_spec v 64
      exact ⟨_, hle, (rfl : _ = execClz d a s).trans (issueUnary_runs hi _), hzero, hone⟩
    · obtain ⟨hle, hzero, hone⟩ := trailingZeros_spec v 0 64
      simp only [Nat.zero_add] at hzero hone
      exact ⟨_, hle, (rfl : _ = execCtz d a s).trans (issueUnary_runs hi _), hzero, hone⟩
    · rw [← oneBits_eq]
      exact (rfl : _ = execPopc d a s).trans (issueUnary_runs hi _)
    · exact ⟨_, (rfl : _ = execBswap d a s).trans (issueUnary_runs hi _), fun i hi j hj => swapBytes_bit v hi hj⟩
  · intro s h t d a pos len1 hi hin v old p n
    refine ⟨?_, ?_, ?_⟩
    · exact ⟨_, (rfl : _ = execExtrZ d a pos len1 s).trans (issueUnary_runs hi _), fun i hi => fieldAt_bit v p n hi⟩
    · refine ⟨_, (rfl : _ = execExtr d a pos len1 s).trans (issueUnary_runs hi _), fun i hi => ?_⟩
      rw [signFrom_bit _ (by omega) (by omega) hi, fieldAt_bit _ _ _ (by omega), decide_eq_true (by omega), Bool.true_and]
    · exact ⟨_, execIns_runs hi, fun i hi => insertField_bit old v hi⟩

/-! ### Constants and pointers (R88, R90 to R92) -/

theorem ldh_eq (imm : Imm) (v : Word) : imm.extractLsb' 0 30 ++ v.extractLsb' 0 34 =
    BitVec.ofNat 64 (imm.toNat % 2 ^ 30 * 2 ^ 34 + v.toNat % 2 ^ 34) := by
  apply BitVec.eq_of_toNat_eq
  have hlo : v.toNat % 2 ^ 34 < 2 ^ 34 := Nat.mod_lt _ (by norm_num)
  rw [BitVec.toNat_append, BitVec.extractLsb'_toNat, BitVec.extractLsb'_toNat, Nat.shiftRight_zero, Nat.shiftRight_zero,
    ← Nat.shiftLeft_add_eq_or_of_lt hlo, Nat.shiftLeft_eq, BitVec.toNat_ofNat]
  omega

theorem psp_eq (sp : BitVec 3) (v : Word) : sp.setWidth 7 ++ v.extractLsb' 0 57 =
    BitVec.ofNat 64 (sp.toNat * 2 ^ 57 + v.toNat % 2 ^ 57) := by
  apply BitVec.eq_of_toNat_eq
  have hsp := sp.isLt
  have hlo : v.toNat % 2 ^ 57 < 2 ^ 57 := Nat.mod_lt _ (by norm_num)
  rw [BitVec.toNat_append, BitVec.extractLsb'_toNat, BitVec.toNat_setWidth, Nat.shiftRight_zero,
    ← Nat.shiftLeft_add_eq_or_of_lt hlo, Nat.shiftLeft_eq, BitVec.toNat_ofNat]
  omega

theorem execPadd_runs {d a b : Reg} (hi : Issues s (pageZero [d, a, b]) h t) : exec (.padd d a b) s =
    match effective (regOf s h t a) (regOf s h t b).toInt with
    | .ok p => .next (retires s h t d p)
    | .error r => .next ((begun s h).trap h.core h.slot cPERM (BitVec.ofNat 64 r) t.pc 0 false) := by
  change execPadd d a b s = _
  rw [execPadd, issue_runs hi]
  simp only [begun_regOf]
  rfl

theorem effective_noSpace {p : Word} {delta : Int} (hs : 4 < spaceOf p) : effective p delta = .error 1 := if_pos hs

theorem effective_badForm {p : Word} {delta : Int} (hs : spaceOf p ≤ 4) (hp : ptrOk p = false) : effective p delta = .error 2 := by
  rw [effective, if_neg (not_lt.2 hs), hp]
  rfl

/-- R90: a sum that leaves the space of its pointer. -/
theorem effective_outside {p : Word} {delta : Int} (hs : spaceOf p ≤ 4) (hp : ptrOk p = true)
    (ho : (offsetOf p : Int) + delta < 0 ∨ ((2 ^ offsetBits (spaceOf p) : Nat) : Int) ≤ (offsetOf p : Int) + delta) :
    effective p delta = .error 3 := by
  rw [effective, if_neg (not_lt.2 hs), hp]
  exact if_pos ho

/-- R90: a sum that stays inside. -/
theorem effective_inside {p : Word} {delta : Int} (hs : spaceOf p ≤ 4) (hp : ptrOk p = true)
    (h0 : 0 ≤ (offsetOf p : Int) + delta) (h1 : (offsetOf p : Int) + delta < ((2 ^ offsetBits (spaceOf p) : Nat) : Int)) :
    effective p delta = .ok (BitVec.ofNat 64 (p.toNat / 2 ^ offsetBits (spaceOf p) * 2 ^ offsetBits (spaceOf p) +
      ((offsetOf p : Int) + delta).toNat)) := by
  rw [effective, if_neg (not_lt.2 hs), hp]
  exact if_neg (not_or.2 ⟨not_lt.2 h0, not_le.2 h1⟩)

/-- Settles O11: the constants are sums of their fields, and PADD is the address check of R90. -/
theorem constantsAndPointersAreFormed : Obligations.ConstantsAndPointersAreFormed := by
  refine ⟨⟨fun s h t d imm hi => execLdi_runs hi, ?_⟩, ?_⟩
  · intro s h t d a imm sp hi v
    refine ⟨(rfl : _ = execAddi d a imm s).trans (issueUnary_runs hi _), ?_, ?_⟩
    · rw [← ldh_eq]
      exact (rfl : _ = execLdh d a imm s).trans (issueUnary_runs hi _)
    · rw [← psp_eq]
      exact (rfl : _ = execPsp d a sp s).trans (issueUnary_runs hi _)
  · intro s h t d a b hi p n off perm
    refine ⟨fun hs => ?_, fun hs hp => ?_, fun hs hp ho => ?_, fun hs hp h0 h1 => ?_⟩
    · rw [execPadd_runs hi, effective_noSpace hs]
      rfl
    · rw [execPadd_runs hi, effective_badForm hs hp]
      rfl
    · rw [execPadd_runs hi, effective_outside hs hp ho]
      rfl
    · rw [execPadd_runs hi, effective_inside hs hp h0 h1]
      rfl

/-! ### What a register-only instruction leaves -/

/-- A register-only instruction writes one value to its register and goes on. -/
theorem registerForm_retires {i : Instr} {ws : List Reg} {d : Reg} (hf : registerForm i = some (ws, d))
    (hi : Issues s (pageZero ws) h t) : ∃ v, exec i s = .next (retires s h t d v) := by
  unfold registerForm at hf
  split at hf
  all_goals cases hf
  exacts [⟨_, (rfl : _ = execAdd _ _ _ s).trans (issueAlu_runs hi _)⟩,
    ⟨_, (rfl : _ = execSub _ _ _ s).trans (issueAlu_runs hi _)⟩,
    ⟨_, (rfl : _ = execAnd _ _ _ s).trans (issueAlu_runs hi _)⟩,
    ⟨_, (rfl : _ = execOr _ _ _ s).trans (issueAlu_runs hi _)⟩,
    ⟨_, (rfl : _ = execXor _ _ _ s).trans (issueAlu_runs hi _)⟩,
    ⟨_, (rfl : _ = execAndn _ _ _ s).trans (issueAlu_runs hi _)⟩,
    ⟨_, (rfl : _ = execMul _ _ _ s).trans (issueAlu_runs hi _)⟩,
    ⟨_, (rfl : _ = execMulh _ _ _ s).trans (issueAlu_runs hi _)⟩,
    ⟨_, (rfl : _ = execMulhZ _ _ _ s).trans (issueAlu_runs hi _)⟩,
    ⟨_, (rfl : _ = execShl _ _ _ s).trans (issueAlu_runs hi _)⟩,
    ⟨_, (rfl : _ = execShr _ _ _ s).trans (issueAlu_runs hi _)⟩,
    ⟨_, (rfl : _ = execSra _ _ _ s).trans (issueAlu_runs hi _)⟩,
    ⟨_, (rfl : _ = execRot _ _ _ s).trans (issueAlu_runs hi _)⟩,
    ⟨_, (rfl : _ = execSlt _ _ _ s).trans (issueAlu_runs hi _)⟩,
    ⟨_, (rfl : _ = execSltZ _ _ _ s).trans (issueAlu_runs hi _)⟩,
    ⟨_, (rfl : _ = execSeq _ _ _ s).trans (issueAlu_runs hi _)⟩,
    ⟨_, (rfl : _ = execMin _ _ _ s).trans (issueAlu_runs hi _)⟩,
    ⟨_, (rfl : _ = execMax _ _ _ s).trans (issueAlu_runs hi _)⟩,
    ⟨_, (rfl : _ = execMinZ _ _ _ s).trans (issueAlu_runs hi _)⟩,
    ⟨_, (rfl : _ = execMaxZ _ _ _ s).trans (issueAlu_runs hi _)⟩,
    ⟨_, execSel_runs hi⟩,
    ⟨_, (rfl : _ = execClz _ _ s).trans (issueUnary_runs hi _)⟩,
    ⟨_, (rfl : _ = execCtz _ _ s).trans (issueUnary_runs hi _)⟩,
    ⟨_, (rfl : _ = execPopc _ _ s).trans (issueUnary_runs hi _)⟩,
    ⟨_, (rfl : _ = execBswap _ _ s).trans (issueUnary_runs hi _)⟩,
    ⟨_, (rfl : _ = execAddi _ _ _ s).trans (issueUnary_runs hi _)⟩,
    ⟨_, (rfl : _ = execLdh _ _ _ s).trans (issueUnary_runs hi _)⟩,
    ⟨_, (rfl : _ = execPsp _ _ _ s).trans (issueUnary_runs hi _)⟩,
    ⟨_, (rfl : _ = execExtr _ _ _ _ s).trans (issueUnary_runs hi _)⟩,
    ⟨_, (rfl : _ = execExtrZ _ _ _ _ s).trans (issueUnary_runs hi _)⟩,
    ⟨_, execIns_runs hi⟩,
    ⟨_, execLdi_runs hi⟩]

/-- A result that is written changes cores alone. -/
theorem retires_eq (d : Reg) (v : Word) : ∃ cores, retires s h t d v = { s with hand := none, cores := cores } := by
  have hset (b : State) : ∃ cores, b.setW h.core h.slot (rn d) v = { b with cores := cores } := by
    unfold State.setW
    split
    · exact ⟨_, rfl⟩
    · split <;> exact ⟨_, rfl⟩
  obtain ⟨_, hset⟩ := hset (begun s h)
  rw [retires, ends, hset]
  exact ⟨_, rfl⟩

theorem retires_core_self (d : Reg) (v : Word) : ∃ slots regs,
    (retires s h t d v).core h.core = { s.core h.core with slots := slots, regs := regs } := by
  obtain ⟨_, hpass⟩ := passes_core (h := h) (t := t) (b := (begun s h).setW h.core h.slot (rn d) v) h.core
  obtain ⟨_, hset⟩ := (begun s h).setW_core h.core h.slot (rn d) v h.core
  obtain ⟨_, hbegun⟩ := begun_core (s := s) (h := h) h.core
  rw [retires, ends, hpass, hset, hbegun]
  exact ⟨_, _, rfl⟩

theorem State.setW_core_other {c c' k n : Nat} (v : Word) (hc : c' ≠ c) : (s.setW c k n v).core c' = s.core c' := by
  unfold State.setW
  split
  · rfl
  · split
    · rfl
    · exact s.upCore_core_other _ hc

theorem retires_core_other {c : Nat} (d : Reg) (v : Word) (hc : c ≠ h.core) : (retires s h t d v).core c = s.core c := by
  rw [retires, ends, passes, State.upThread_core_other _ _ _ hc, State.setW_core_other v hc]
  exact State.upThread_core_other _ _ _ hc

/-- Of the scalar registers, a result changes the one that W[d] names in the thread's window, and w0 none. -/
theorem retires_find {d : Reg} (v : Word) {n : Nat} (ht : s.thread h.core h.slot = some t)
    (hn : rn d = 0 ∨ n ≠ 8 * wBase t.win + rn d) :
    ((retires s h t d v).core h.core).regs.find n = (s.core h.core).regs.find n := by
  have hother : ¬ (rn d ≠ 0 ∧ n = 8 * wBase t.issuing.win + rn d) := fun ⟨h0, heq⟩ => hn.elim h0 fun hne => hne heq
  rw [retires, ends, passes, State.upThread_regs, State.setW_find v (begun_thread_self ht), if_neg hother, begun_core_regs]

theorem retires_thread_self (d : Reg) (v : Word) (ht : s.thread h.core h.slot = some t) :
    (retires s h t d v).thread h.core h.slot = some { t.issuing with pc := stepPc t.pc h.len } :=
  passes_thread ((State.setW_thread _ _ _ _).trans (begun_thread_self ht))

theorem retires_thread_other {k : Nat} (d : Reg) (v : Word) (hk : k ≠ h.slot) :
    (retires s h t d v).thread h.core k = s.thread h.core k :=
  ((passes_thread_other hk).trans (State.setW_thread _ _ _ _)).trans (State.upThread_thread_slot _ _ _ hk)

/-- Settles O12: the one result is written with `State.setW`, and only the thread's own fields change beside it. -/
theorem registerInstructionsLeaveTheRest : Obligations.RegisterInstructionsLeaveTheRest := by
  intro s u h t i ws d hf hi hu
  obtain ⟨v, hv⟩ := registerForm_retires hf hi
  obtain rfl : retires s h t d v = u := Host.Outcome.next.inj (hv.symm.trans hu)
  obtain ⟨_, hstate⟩ := retires_eq (s := s) (h := h) (t := t) d v
  obtain ⟨_, _, hcore⟩ := retires_core_self (s := s) (h := h) (t := t) d v
  refine ⟨fun n hn => retires_find v hi.live hn, ?_, ?_, ?_, ?_, ⟨_, retires_thread_self d v hi.live⟩,
    fun k hk => retires_thread_other d v hk, fun c hc => retires_core_other d v hc, ?_, ?_, ?_, ?_, ?_, ?_, ?_, ?_⟩
  -- The rest of the core at hand, and then the rest of the state.
  iterate 4 rw [hcore]
  all_goals rw [hstate]

end Sys2Proof.Machine
end

section
/-! PROOFS. Loads, stores and the full/empty instructions at issue: each is one access (`Cx.access`), which has been asked where every
check lets it (`access_runs`), and which traps first where its address is bad (`access_bad`, `access_misaligned`). -/

namespace Sys2Proof.Machine

variable {s : State} {h : Hand} {t : Thread}

/-! ### The three families (R95, R98, R102) -/

theorem exec_loadForm {i : Instr} {m : Mod} {w : Nat} {sg : Bool} {d a : Reg} {imm : Imm}
    (hf : loadForm i = some (m, w, sg, d, a, imm)) : exec i s = issueLoad m w sg d a imm s := by
  unfold loadForm at hf
  split at hf
  all_goals cases hf
  exacts [(rfl : _ = execLd _ _ _ _ s), (rfl : _ = execLd8 _ _ _ _ s), (rfl : _ = execLd8Z _ _ _ _ s),
    (rfl : _ = execLd16 _ _ _ _ s), (rfl : _ = execLd16Z _ _ _ _ s), (rfl : _ = execLd32 _ _ _ _ s),
    (rfl : _ = execLd32Z _ _ _ _ s)]

theorem exec_storeForm {i : Instr} {m : Mod} {w : Nat} {d a : Reg} {imm : Imm}
    (hf : storeForm i = some (m, w, d, a, imm)) : exec i s = issueStore m w d a imm s := by
  unfold storeForm at hf
  split at hf
  all_goals cases hf
  exacts [(rfl : _ = execSt _ _ _ _ s), (rfl : _ = execSt8 _ _ _ _ s), (rfl : _ = execSt16 _ _ _ _ s),
    (rfl : _ = execSt32 _ _ _ _ s)]

theorem exec_syncForm {i : Instr} {m : Mod} {ws : List Reg} {a v : Reg} {imm : Imm} {op : Word → MemOp} {use : Use}
    (hf : syncForm i = some (m, ws, a, imm, v, op, use)) :
    exec i s = issueSync m ws a imm use s fun s x => op (x.w s (rn v)) := by
  unfold syncForm at hf
  split at hf
  all_goals cases hf
  exacts [(rfl : _ = execLdf _ _ _ _ s), (rfl : _ = execLde _ _ _ _ s), (rfl : _ = execStf _ _ _ _ s),
    (rfl : _ = execSts _ _ _ _ s), (rfl : _ = execSete _ _ _ s), (rfl : _ = execFeq _ _ _ _ s)]

/-- What a load asks. -/
def loadAsk (m : Mod) (w : Nat) (sg : Bool) (d : Reg) : Ask :=
  { op := .load w sg, use := loadUse m d, align := w, bytes := w, mod := m, redir := .follows }

/-- What a store of the value `v` asks. -/
def storeAsk (m : Mod) (w : Nat) (v : Word) : Ask :=
  { op := if w = 8 then .store v else .sub w v false, use := storeUse m, align := w, bytes := w, mod := m, redir := .follows }

theorem issueLoad_runs {m : Mod} {w : Nat} {sg : Bool} {d a : Reg} {imm : Imm} (hi : Issues s (accessKind [d, a]) h t) :
    issueLoad m w sg d a imm s =
      (cxAt s h t).access (begun s h) (regOf s h t a) (w * immInt imm) (loadAsk m w sg d) := by
  rw [issueLoad, issue_runs hi, begun_regOf]
  rfl

theorem issueStore_runs {m : Mod} {w : Nat} {d a : Reg} {imm : Imm} (hi : Issues s (accessKind [d, a]) h t) :
    issueStore m w d a imm s =
      (cxAt s h t).access (begun s h) (regOf s h t a) (w * immInt imm) (storeAsk m w (regOf s h t d)) := by
  rw [issueStore, issue_runs hi, begun_regOf]
  simp only [begun_regOf]
  rfl

theorem issueSync_runs {m : Mod} {ws : List Reg} {a : Reg} {imm : Imm} {use : Use} {op : State → Cx → MemOp}
    (hi : Issues s (accessKind ws) h t) : issueSync m ws a imm use s op =
      (cxAt s h t).access (begun s h) (regOf s h t a) (8 * immInt imm)
        { op := op (begun s h) (cxAt s h t), use := use, align := 8, mod := m, redir := .forbidden } := by
  rw [issueSync, issue_runs hi, begun_regOf]

/-- Settles O17: each family's access is `Cx.access` of the statement's `Ask`, which `access_runs` follows. -/
theorem memoryInstructionsAskTheirAccess : Obligations.MemoryInstructionsAskTheirAccess := by
  refine ⟨⟨?_, ?_⟩, ?_⟩
  · intro s h t i m w sg d a imm p q hf hi hp ha
    rw [exec_loadForm hf, issueLoad_runs hi]
    exact access_runs hp ha
  · intro s h t i m w d a imm p q hf hi hp ha
    rw [exec_storeForm hf, issueStore_runs hi]
    exact access_runs hp ha
  · intro s h t i m ws a imm v op use p q hf hi hp ha
    rw [exec_syncForm hf, issueSync_runs hi, begun_regOf]
    exact access_runs hp ha

/-! ### Bad addresses (R96) -/

theorem access_bad {base : Word} {delta : Int} {r : Nat} (q : Ask) (hr : effective base delta = .error r) :
    (cxAt s h t).access (begun s h) base delta q =
      .next ((begun s h).trap h.core h.slot 0x09 (BitVec.ofNat 64 r) t.pc 0 false) := by
  rw [Cx.access, hr]
  rfl

/-- A misaligned address traps where no deferred event on its word comes first (R99). -/
theorem access_misaligned {base p : Word} {delta : Int} {q : Ask} (hp : effective base delta = .ok p)
    (hd : (cxOf h t).dueOn (begun s h) p q = none) (ho : offsetOf p % q.align ≠ 0) :
    (cxAt s h t).access (begun s h) base delta q = .next ((begun s h).trap h.core h.slot 0x02 p t.pc 0 false) := by
  have hd' : (cxAt s h t).dueOn (begun s h) p q = none := hd
  simp only [Cx.access, hp, Cx.accessAt, hd', if_pos ho]
  rfl

/-- A load or a store is one access at its width. -/
theorem exec_access {i : Instr} {m : Mod} {w : Nat} {sg : Bool} {d a : Reg} {imm : Imm}
    (hf : loadForm i = some (m, w, sg, d, a, imm) ∨ storeForm i = some (m, w, d, a, imm))
    (hi : Issues s (accessKind [d, a]) h t) : ∃ q : Ask, q.align = w ∧
      exec i s = (cxAt s h t).access (begun s h) (regOf s h t a) (w * immInt imm) q := by
  rcases hf with hf | hf
  · exact ⟨loadAsk m w sg d, rfl, (exec_loadForm hf).trans (issueLoad_runs hi)⟩
  · exact ⟨storeAsk m w (regOf s h t d), rfl, (exec_storeForm hf).trans (issueStore_runs hi)⟩

/-- Settles O18: the access stops at its first check that fails. -/
theorem badAddressesTrapBeforeTheAccess : Obligations.BadAddressesTrapBeforeTheAccess := by
  intro s u h t i m w sg d a imm hf hi hu
  obtain ⟨q, hw, hexec⟩ := exec_access hf hi
  refine ⟨fun r hr => ?_, fun p hp hd ho => ?_⟩
  · exact Host.Outcome.next.inj (hu.symm.trans (hexec.trans (access_bad q hr)))
  · exact Host.Outcome.next.inj (hu.symm.trans (hexec.trans (access_misaligned hp (hd q) (hw ▸ ho))))

end Sys2Proof.Machine
end

section
/-! PROOFS. A request that arrives alone at its vault bank (`Alone`): its port takes it, and it meets its word
(`execBankRequestArrival_alone`), and is served at once (`Alone.served`) or waits in the bank's list (`Alone.waits`). -/

namespace Sys2Proof.Machine

variable {s u : State} {n c b : Nat} {r : Req}

/-! ### Replies and writes (R97, R147) -/

/-- What a thread's access leaves for its core as it is served. -/
theorem State.reply_found {q : Req} {ans : List Word} (hn : s.reqs.find n = some q) (huse : q.use ≠ .fetch)
    (hop : ∀ ws, q.op ≠ .dirty ws) : s.reply n ans =
      (s.upReq n fun r => { r with stage := .served, ans := ans }).after (halfUp q.lat) 7 (.memReply n) := by
  simp only [State.reply, hn, if_neg huse]

theorem State.fireLine_eq (b line : Nat) : ∃ agenda, s.fireLine b line = { s with agenda := agenda } := by
  simp only [State.fireLine]
  induction (s.bank b).watches generalizing s with
  | nil => exact ⟨_, rfl⟩
  | cons w l ih =>
    rw [List.foldl_cons]
    split
    · obtain ⟨_, hag⟩ := ih (s := s.after (halfUp w.lat) 8 (.monitorFire w.tid w.mon))
      exact ⟨_, hag⟩
    · exact ih

/-- A write fires monitors and marks cached lines, and does nothing else. -/
theorem State.wrote_eq (pa : Nat) : ∃ agenda cache, s.wrote pa = { s with agenda := agenda, cache := cache } := by
  obtain ⟨_, hfire⟩ := s.fireLine_eq (homeOf s.sys.image pa).num (pa / 64 * 64)
  rw [State.wrote, hfire]
  exact ⟨_, _, rfl⟩

theorem foldl_max_le {α : Type} (f : α → Nat) (l : List α) (m : Nat) :
    m ≤ l.foldl (fun m w => max m (f w)) m ∧ ∀ w ∈ l, f w ≤ l.foldl (fun m w => max m (f w)) m := by
  induction l generalizing m with
  | nil => simp
  | cons a l ih =>
    obtain ⟨hm, hall⟩ := ih (max m (f a))
    rw [List.foldl_cons]
    refine ⟨le_trans (le_max_left _ _) hm, fun w hw => ?_⟩
    rcases List.mem_cons.1 hw with rfl | hw
    · exact le_trans (le_max_right _ _) hm
    · exact hall w hw

/-- A read of words without an error counts none (R101). -/
theorem State.countRead_sound {a k : Nat} (he : s.errorIn a k = 0) : s.countRead a k = s := by
  refine if_pos ?_
  rw [State.fixedIn, List.length_eq_zero_iff, List.filter_eq_nil_iff]
  intro w hw h1
  have hle : (s.mem.attr w).error ≤ s.errorIn a k := (foldl_max_le (fun w => (s.mem.attr w).error) (wordsFrom a k) 0).2 w hw
  rw [he, beq_iff_eq.1 h1] at hle
  omega

/-! ### Arrival (R105) -/

/-- The request `r` of an instruction that reads or writes W[d] reaches its vault bank alone: its port is free, no hold and no check
stands against it, nobody waits at the bank, no read is merged with it, and its words have no error. -/
structure Alone (s : State) (n : Nat) (r : Req) (c b : Nat) : Prop where
  found : s.reqs.find n = some r
  sent : r.stage = .sent
  use : r.use = .done ∨ ∃ d, r.use = .reg d
  view : r.view = none
  home : homeOf s.sys.image r.pa = .bank c b
  port : s.portFree n r c
  unheld : (s.bank (s.bankOf r)).holds.any (fun x => x.covers r) = false
  nobody : (s.bank (s.bankOf r)).waiters = []
  admitted : s.admitEvent r = none
  single : s.merged n = []
  sound : s.errorIn r.first r.words = 0

/-- The request meets its word in the state `u`, which is `s` but for the cycles that the bank's ports have given away. -/
structure AtWord (s u : State) (n : Nat) (r : Req) (c b : Nat) : Prop where
  found : u.reqs.find n = some r
  reqs : u.reqs = s.reqs
  home : homeOf u.sys.image r.pa = .bank c b
  place : u.bankOf r = s.bankOf r
  cyc : u.cyc = s.cyc
  mem : u.mem = s.mem
  unheld : (u.bank (u.bankOf r)).holds.any (fun x => x.covers r) = false
  nobody : (u.bank (u.bankOf r)).waiters = []
  admitted : u.admitEvent r = none
  single : u.merged n = []
  sound : u.errorIn r.first r.words = 0

@[simp] theorem State.upBank_bank (b : Nat) (f : Bank → Bank) : (s.upBank b f).bank b = f (s.bank b) := by
  simp [State.bank, State.upBank]

theorem Alone.notFetch (ha : Alone s n r c b) : r.use ≠ .fetch := by
  rcases ha.use with hu | ⟨d, hu⟩ <;> simp [hu]

theorem Alone.notStage (ha : Alone s n r c b) (k : Nat) : r.use ≠ .stage k := by
  rcases ha.use with hu | ⟨d, hu⟩ <;> simp [hu]

theorem Alone.fillsLine (ha : Alone s n r c b) : r.fillsLine = false := by
  rcases ha.use with hu | ⟨d, hu⟩ <;> simp [Req.fillsLine, hu]

theorem Alone.inTurn (ha : Alone s n r c b) : s.outOfTurn r = false := by
  rcases ha.use with hu | ⟨d, hu⟩ <;> simp [State.outOfTurn, Req.turn, hu]

theorem Alone.atWord (ha : Alone s n r c b) : AtWord s s n r c b :=
  ⟨ha.found, rfl, ha.home, rfl, rfl, rfl, ha.unheld, ha.nobody, ha.admitted, ha.single, ha.sound⟩

/-- What ports have given away does not change what the request meets. -/
theorem AtWord.ports {f : Bank → Bank} (ha : AtWord s s n r c b) (hh : ∀ x, (f x).holds = x.holds)
    (hw : ∀ x, (f x).waiters = x.waiters) : AtWord s (s.upBank (s.bankOf r) f) n r c b := by
  have hbank : (s.upBank (s.bankOf r) f).bank (s.bankOf r) = f (s.bank (s.bankOf r)) := State.upBank_bank _ _
  have hholds : ((s.upBank (s.bankOf r) f).bank (s.bankOf r)).holds = (s.bank (s.bankOf r)).holds := by rw [hbank, hh]
  refine ⟨ha.found, rfl, ha.home, rfl, rfl, rfl, ?_, ?_, ha.admitted, ha.single, ha.sound⟩
  · exact (congrArg (fun l => List.any l _) hholds).trans ha.unheld
  · exact (congrArg Bank.waiters hbank).trans ((hw _).trans ha.nobody)

/-- R105: the port of the bank takes the request in this cycle. -/
theorem Alone.arrives (ha : Alone s n r c b) : ∃ u, AtWord s u n r c b ∧ s.arrive n = u.takeUp n r := by
  simp only [State.arrive, ha.found, ha.inTurn, Bool.false_eq_true, if_false, ha.home]
  split
  · exact ⟨s, ha.atWord, rfl⟩
  · next hp =>
    have hfree := ha.port.resolve_left (mt Or.inl hp)
    refine ⟨_, ?_, if_pos hfree⟩
    exact ha.atWord.ports (fun _ => rfl) (fun _ => rfl)

/-- A request that arrives alone at its bank meets its word there. -/
theorem execBankRequestArrival_alone (ha : Alone s n r c b) (hunit : r.op ≠ .unit) :
    ∃ u, AtWord s u n r c b ∧ exec (.bankRequestArrival n) s = .next (u.meetWord n r) := by
  obtain ⟨u, hu, harrive⟩ := ha.arrives
  have hlost : s.lostAt r.pa = false := by rw [State.lostAt, ha.home]
  have htake : u.takeUp n r = u.meetWord n r := by
    rw [State.takeUp, hu.single, List.foldl_nil, State.admitOne, hu.admitted]
    simp [ha.fillsLine]
  refine ⟨u, hu, ?_⟩
  change execBankRequestArrival n s = _
  simp [execBankRequestArrival, ha.found, ha.sent, hunit, hlost, ha.notStage, ha.home, harrive, htake]

/-! ### Waiting (R102, R103) -/

@[simp] theorem State.upTid_reqs (t : Tid) (f : Thread → Thread) : (s.upTid t f).reqs = s.reqs := by
  unfold State.upTid
  split <;> rfl

@[simp] theorem State.upTid_banks (t : Tid) (f : Thread → Thread) : (s.upTid t f).banks = s.banks := by
  unfold State.upTid
  split <;> rfl

/-- A synchronising access whose word does not allow it joins the bank's list. -/
theorem Alone.waits (ha : Alone s n r c b) (hunit : r.op ≠ .unit) (hc : r.op.canServe (s.mem.full r.first) = false)
    (ho : r.orphan = false) : ∃ u, exec (.bankRequestArrival n) s = .next u ∧ (u.bank (s.bankOf r)).waiters = [n] ∧
      u.mem = s.mem ∧ ∃ q, u.reqs.find n = some q ∧ q.stage = .waiting := by
  obtain ⟨u, hu, hexec⟩ := execBankRequestArrival_alone ha hunit
  have hlist : ((u.upBank (u.bankOf r) fun x => { x with waiters := x.waiters ++ [n] }).bank (s.bankOf r)).waiters = [n] := by
    rw [← hu.place, State.upBank_bank, hu.nobody]
    rfl
  have hreq : ((u.upBank (u.bankOf r) fun x => { x with waiters := x.waiters ++ [n] }).upReq n
      fun r => { r with stage := .waiting }).reqs.find n = some { r with stage := .waiting } := by
    rw [State.upReq_find_self]
    exact congrArg _ hu.found
  refine ⟨_, hexec, ?_⟩
  rw [← hu.mem] at hc ⊢
  simp only [State.meetWord, hu.unheld, hc, ho, hu.home, hu.nobody, waitMax, Bool.false_eq_true, if_false, List.length_nil,
    Nat.zero_lt_succ, if_true]
  split
  · refine ⟨?_, State.upTid_mem _ _, { r with stage := .waiting }, ?_, rfl⟩
    · rw [State.bank, State.upTid_banks]
      exact hlist
    · rw [State.upTid_reqs]
      exact hreq
  · exact ⟨hlist, rfl, { r with stage := .waiting }, hreq, rfl⟩

/-! ### Service (R97, R101, R102) -/

/-- What an access answers as it is served at once, and the memory that it leaves (R97, Table 4.5). -/
def performed (m : Memory) (r : Req) : Option (List Word × Memory) :=
  match r.op with
  | .load w sg => some ([extractBytes (m.read r.key r.first) r.pa w sg], m)
  | .store v => some ([], m.write r.key r.first v (m.attr r.first).empty)
  | .ldf => some ([m.read r.key r.first], m)
  | .lde => some ([m.read r.key r.first], m.setEmpty r.first true)
  | .stf v | .sts v => some ([], m.write r.key r.first v false)
  | .sete => some ([], m.setEmpty r.first true)
  | .feq => some ([flagWord (m.full r.first)], m)
  | _ => none

/-- The requests, the time, the banks and the fabric are as they were. -/
structure Stays (s u : State) : Prop where
  reqs : u.reqs = s.reqs
  cyc : u.cyc = s.cyc
  banks : u.banks = s.banks
  sys : u.sys = s.sys

theorem Stays.refl : Stays s s := ⟨rfl, rfl, rfl, rfl⟩

theorem State.wrote_stays (pa : Nat) (m : Memory) : Stays s ((s.setMem m).wrote pa) := by
  obtain ⟨_, _, hw⟩ := (s.setMem m).wrote_eq pa
  rw [hw]
  exact ⟨rfl, rfl, rfl, rfl⟩

theorem State.readFor_plain (hv : r.view = none) (a : Nat) : s.readFor r a = s.mem.read r.key a := by rw [State.readFor, hv]

theorem State.writeFor_plain (hv : r.view = none) (a : Nat) (v : Word) (full : Bool) : s.writeFor r a v full =
    (s.setMem (s.mem.write r.key a v (if full then false else (s.mem.attr a).empty))).wrote a := by
  rw [State.writeFor, State.emptyAfter, hv, Option.isSome_none, Bool.or_false]

theorem State.farStore_bank (hh : homeOf s.sys.image r.pa = .bank c b) : s.farStore n r = s := by
  simp only [State.farStore, hh]

/-- An access that is served at once replies from a state in which its effect alone has taken place. -/
theorem State.perform_replies {ans : List Word} {m : Memory} (hp : performed s.mem r = some (ans, m)) (hv : r.view = none)
    (hh : homeOf s.sys.image r.pa = .bank c b) : ∃ w, Stays s w ∧ w.mem = m ∧ s.perform n r = w.reply n ans := by
  have hset (m' : Memory) (a : Nat) : ((s.setMem m').wrote a).mem = m' := by rw [State.wrote_mem, State.setMem_mem]
  have hfar (m' : Memory) (a : Nat) : ((s.setMem m').wrote a).farStore n r = (s.setMem m').wrote a :=
    State.farStore_bank (by rw [(State.wrote_stays a m').sys]; exact hh)
  have hread : s.readFor r r.first = s.mem.read r.key r.first := State.readFor_plain hv _
  have hsets (m' : Memory) : ∃ w, Stays s w ∧ w.mem = m' ∧ ((s.setMem m').wrote r.first).reply n ans = w.reply n ans :=
    ⟨_, State.wrote_stays _ _, hset _ _, rfl⟩
  cases hop : r.op <;> simp only [performed, hop, reduceCtorEq, Option.some.injEq, Prod.mk.injEq] at hp
  all_goals
    obtain ⟨rfl, rfl⟩ := hp
    rw [State.perform, hop]
    dsimp only
  · exact ⟨s, Stays.refl, rfl, by rw [hread]⟩
  · rw [State.writeFor_plain hv, hfar]
    exact hsets _
  · exact ⟨s, Stays.refl, rfl, by rw [hread]⟩
  · rw [hread]
    exact hsets _
  · rw [State.writeFor_plain hv]
    exact hsets _
  · rw [State.writeFor_plain hv, hfar]
    exact hsets _
  · exact hsets _
  · exact ⟨s, Stays.refl, rfl, rfl⟩

theorem performed_op {m m' : Memory} {ans : List Word} (hp : performed m r = some (ans, m')) :
    r.op.holds = false ∧ r.op ≠ .unit ∧ ∀ ws, r.op ≠ .dirty ws := by
  cases hop : r.op <;> simp only [performed, hop, reduceCtorEq] at hp
  all_goals exact ⟨rfl, MemOp.noConfusion, fun _ => MemOp.noConfusion⟩

/-- Words without an error raise none, and count none. -/
theorem State.serve_sound (hs : s.errorIn r.first r.words = 0) :
    s.serve n r = if r.op.holds then s.grant n r else s.perform n r := by
  have hcount : (if r.op.reads then s.countRead r.first r.words else s) = s := by
    rw [State.countRead_sound hs, ite_self]
  simp [State.serve, hcount, hs]

/-- A bank where nobody waits after the service scans nobody. -/
theorem State.serveScan_nobody (hw : ((s.serve n r).bank ((s.serve n r).bankOf r)).waiters = []) :
    s.serveScan n r = s.serve n r := by
  simp [State.serveScan, hw]

/-- What an access leaves that has been served: its answer on the way, and the memory. -/
structure Served (s u : State) (n : Nat) (r : Req) (ans : List Word) (m : Memory) : Prop where
  request : u.reqs.find n = some { r with stage := .served, ans := ans }
  mem : u.mem = m
  due : { time := s.cyc + (r.lat + 1) / 2, rank := 7, ev := .memReply n } ∈ u.agenda

/-- A reply leaves from a state in which requests and time are as they were. -/
theorem State.reply_served {ans : List Word} (hn : s.reqs.find n = some r) (hreqs : u.reqs = s.reqs) (hcyc : u.cyc = s.cyc)
    (huse : r.use ≠ .fetch) (hop : ∀ ws, r.op ≠ .dirty ws) : Served s (u.reply n ans) n r ans u.mem := by
  rw [← hreqs] at hn
  rw [State.reply_found hn huse hop]
  refine ⟨?_, rfl, ?_⟩
  · exact upReq_post_find hn
  · rw [← hcyc]
    exact (State.mem_post _ _ _ _).2 (.inl rfl)

theorem State.reply_bank {ans : List Word} {q : Req} (hn : s.reqs.find n = some q) (huse : q.use ≠ .fetch)
    (hop : ∀ ws, q.op ≠ .dirty ws) : (s.reply n ans).banks = s.banks ∧ (s.reply n ans).sys = s.sys := by
  rw [State.reply_found hn huse hop]
  exact ⟨rfl, rfl⟩

/-- A request alone at its bank whose word allows it is served at once. -/
theorem AtWord.served {ans : List Word} {m : Memory} (hu : AtWord s u n r c b) (hp : performed s.mem r = some (ans, m))
    (hv : r.view = none) (huse : r.use ≠ .fetch) (hc : r.op.canServe (s.mem.full r.first) = true) :
    Served s (u.meetWord n r) n r ans m := by
  rw [← hu.mem] at hp hc
  obtain ⟨hholds, -, hdirty⟩ := performed_op hp
  obtain ⟨w, hw, hmem, hperf⟩ := State.perform_replies (n := n) hp hv hu.home
  have hserve : u.serve n r = w.reply n ans := by
    rw [State.serve_sound hu.sound, hholds, if_neg Bool.false_ne_true, hperf]
  have hfound : w.reqs.find n = some r := by rw [hw.reqs]; exact hu.found
  have hscan : u.serveScan n r = w.reply n ans := by
    rw [State.serveScan_nobody, hserve]
    obtain ⟨hbanks, hsys⟩ := State.reply_bank (ans := ans) hfound huse hdirty
    rw [hserve, State.bank, State.bankOf, hbanks, hsys, hw.banks, hw.sys]
    exact hu.nobody
  have hmeet : u.meetWord n r = w.reply n ans := by
    simp only [State.meetWord, hu.unheld, hc, hscan, Bool.false_eq_true, if_false, if_true]
  rw [hmeet, ← hmem]
  exact State.reply_served (hu.reqs ▸ hu.found) (hw.reqs.trans hu.reqs) (hw.cyc.trans hu.cyc) huse hdirty

theorem Alone.served {ans : List Word} {m : Memory} (ha : Alone s n r c b) (hp : performed s.mem r = some (ans, m))
    (hc : r.op.canServe (s.mem.full r.first) = true) :
    ∃ u, exec (.bankRequestArrival n) s = .next u ∧ Served s u n r ans m := by
  obtain ⟨-, hunit, -⟩ := performed_op hp
  obtain ⟨u, hu, hexec⟩ := execBankRequestArrival_alone ha hunit
  exact ⟨_, hexec, hu.served hp ha.view ha.notFetch hc⟩

/-! ### Full and empty words (R102, R103) -/

/-- Settles O20: what is performed and what waits is `performed` and `MemOp.canServe`, operation by operation. -/
theorem fullAndEmptyWordsAreSynchronised : Obligations.FullAndEmptyWordsAreSynchronised := by
  intro s n r c b hok hn hst huse hv ho hh hp hheld hwait hadmit hsingle hsound full served waits
  have ha : Alone s n r c b := ⟨hn, hst, huse, hv, hh, hp, hheld, hwait, hadmit, hsingle, hsound⟩
  have hserves {ans : List Word} {m : Memory} (hperf : performed s.mem r = some (ans, m)) (hc : r.op.canServe full = true) :
      ∃ u, exec (.bankRequestArrival n) s = .next u ∧ served ans u ∧ u.mem = m := by
    obtain ⟨u, hexec, hu⟩ := ha.served hperf hc
    exact ⟨u, hexec, hu.request, hu.mem⟩
  have hwaits (hunit : r.op ≠ .unit) (hc : r.op.canServe full = false) :
      ∃ u, exec (.bankRequestArrival n) s = .next u ∧ waits u := ha.waits hunit hc ho
  refine ⟨fun hop => ?_, fun hop => ?_, fun v hop => ?_, fun v hop => ?_, fun hop => ?_, fun hop => ?_⟩
  all_goals rw [hop] at hserves hwaits
  · cases hfull : full
    · exact hwaits MemOp.noConfusion hfull
    · exact hserves (by rw [performed, hop]) hfull
  · cases hfull : full
    · exact hwaits MemOp.noConfusion hfull
    · exact hserves (by rw [performed, hop]) hfull
  · cases hfull : full
    · exact hserves (by rw [performed, hop]) (by rw [hfull]; rfl)
    · exact hwaits MemOp.noConfusion (by rw [hfull]; rfl)
  · exact hserves (by rw [performed, hop]) rfl
  · exact hserves (by rw [performed, hop]) rfl
  · exact hserves (by rw [performed, hop]; rfl) rfl

end Sys2Proof.Machine
end

section
/-! PROOFS. Accesses to vaults: from its translation, which is at hand (`lookup_vault`), an access passes the checks that follow
(`State.begin_vault`), departs (`State.depart_vault`) and arrives half its latency later; it is performed as it arrives alone
(`Alone.served`). -/

namespace Sys2Proof.Machine

variable {s : State} {n c b v : Nat} {r : Req}

/-! ### The place of a vault's byte (R89, R97) -/

theorem offsetOf_vault_lt {p : Word} (hs : spaceOf p = 1 ∨ spaceOf p = 2) : offsetOf p < 65536 := by
  rw [offsetOf, offsetBits, if_pos hs]
  exact Nat.mod_lt _ (by norm_num)

theorem homeOf_vault (im : Image) {off : Nat} (ho : off < 65536) : homeOf im (vaultAddr v off) = .bank v (off / 8192) := by
  rw [homeOf, vaultAddr, if_pos (by omega)]
  congr 1 <;> omega

/-- An L-space or C-space pointer of a core and the core whose vault it names. -/
def NamesVault (core : Nat) (p : Word) (v : Nat) : Prop := spaceOf p = 1 ∧ v = core ∨ spaceOf p = 2 ∧ v = ptrCore p

theorem NamesVault.space {core : Nat} {p : Word} (hv : NamesVault core p v) : spaceOf p = 1 ∨ spaceOf p = 2 :=
  hv.imp And.left And.left

theorem lookup_vault {core ctx asid : Nat} {p : Word} (w : Want) (hv : NamesVault core p v) :
    s.lookup core ctx asid w p = .now (.ok (vaultAddr v (offsetOf p)) (.id 0 (s.ctxOf core)) 1 .plain none) := by
  rcases hv with ⟨hs, rfl⟩ | ⟨hs, rfl⟩ <;> rw [State.lookup, hs] <;> rfl

theorem touch_vault {core asid : Nat} {p : Word} (hv : NamesVault core p v) : s.touch core asid p = s := by
  have hserves (e : TEntry) : e.serves asid p = false := by
    rcases hv.space with hs | hs <;> (rw [TEntry.serves, hs]; rfl)
  have hnone : ((s.core core).tlb.find? fun e => e.serves asid p) = none := by simp [hserves]
  rw [State.touch, hnone]

/-! ### Departure (R97, R100, R308) -/

theorem Req.time_of_use (huse : r.use = .done ∨ ∃ d, r.use = .reg d) : r.time = r.lat := by
  rcases huse with hu | ⟨d, hu⟩ <;> simp [Req.time, hu]

/-- An access of a small core that reads or writes W[d] or nothing is sent at once, and arrives half its latency later. -/
theorem State.go_vault {off : Nat} (hn : s.reqs.find n = some r) (huse : r.use = .done ∨ ∃ d, r.use = .reg d)
    (hl : isLarge r.core = false) (hpa : r.pa = vaultAddr v off) (ho : off < 65536) : ∃ rank, s.go n =
      (s.upReq n fun q => { q with stage := .sent, lat := q.time }).post (max s.cyc r.since + half r.lat) rank
        (.bankRequestArrival n) := by
  have hflush : r.flushes = false := by simp [Req.flushes, hl]
  have hcomb : r.combines = false := by rcases huse with hu | ⟨d, hu⟩ <;> simp [Req.combines, hu]
  have htime := Req.time_of_use huse
  have harrival (u : State) : u.arrivalOf n r = .bankRequestArrival n := by rw [State.arrivalOf, hpa, homeOf_vault _ ho]
  refine ⟨(s.upReq n fun q => { q with stage := .sent, lat := q.time }).arrivalRank (max s.cyc r.since + half r.lat) r, ?_⟩
  rcases huse with hu | ⟨d, hu⟩ <;>
    simp [State.go, hn, State.blockers, hflush, hcomb, State.combiner, State.noteLine, hu, htime, harrival]

theorem State.depart_vault {t : Tid} {off : Nat} {key : KeyName} (hn : s.reqs.find n = some r) (ht : r.tid = some t)
    (huse : r.use = .done ∨ ∃ d, r.use = .reg d) (hl : isLarge r.core = false) (hpa : r.pa = vaultAddr v off)
    (hk : s.hasKey r.core key = true) : s.depart n key = (s.useKey r.core key).go n := by
  have hcache : r.cacheable = false := by simp [Req.cacheable, hl]
  have hlast : s.lastWaits r = false := by rcases huse with hu | ⟨d, hu⟩ <;> simp [State.lastWaits, hu]
  have hfar : ¬ (2 ≤ tierOf r.pa ∧ r.pa < 2 ^ 57) := by rw [hpa, vaultAddr]; omega
  have hsend : s.send n key = (s.useKey r.core key).go n := by
    simp only [State.send, hn, if_neg hfar, hk, if_true]
  rcases huse with hu | ⟨d, hu⟩ <;> simp [State.depart, hn, ht, hcache, hlast, hu, hsend]

/-! ### The checks after translation (R96, R99, R100) -/

/-- A request with its translation to a byte of a vault. -/
def Req.toVault (q : Req) (v off key : Nat) : Req :=
  { q with pa := vaultAddr v off, key := key, atom := 1, route := .plain, lat := latency q.core (.bank v (off / 8192)) }

theorem toVault_found {off key : Nat} (hn : s.reqs.find n = some r) :
    (s.upReq n fun q => q.toVault v off key).reqs.find n = some (r.toVault v off key) :=
  (State.upReq_find_self _ _).trans (congrArg _ hn)

/-- The loads and stores. -/
def MemOp.plain : MemOp → Bool
  | .load _ _ | .store _ | .sub _ _ _ => true
  | _ => false

theorem routeEvent_vault {im : Image} {off : Nat} (hpa : r.pa = vaultAddr v off) (ho : off < 65536) (hop : r.op.plain = true) :
    routeEvent im r = none := by
  have hhold : canHold im r.pa r.atom = true := by rw [canHold, hpa, homeOf_vault _ ho]
  unfold routeEvent
  cases hr : r.op <;> simp only [hr, MemOp.plain, Bool.false_eq_true] at hop
  · rfl
  · rfl
  · exact if_pos hhold

theorem tableEvent_vault {off : Nat} (hpa : r.pa = vaultAddr v off) (ho : off < 65536) : s.tableEvent r = none := by
  have hlow : ¬ (tierOf r.pa = 4 ∧ r.pa < 2 ^ 57) := by rw [hpa, vaultAddr]; omega
  rw [State.tableEvent, State.runEvent, if_neg hlow, State.wordEvent, hpa, homeOf_vault _ ho]

/-- What a request itself becomes does not change what of the others it meets. -/
theorem conflicts_upReq (f : Req → Req) (q : Req) : (s.upReq n f).conflicts n q = s.conflicts n q := by
  have hrel : (s.upReq n f).relaxedOn q.tid n q.first q.words = s.relaxedOn q.tid n q.first q.words := by
    simp only [State.relaxedOn, State.upReq, Map.adjust, List.any_map]
    congr 1
    funext e
    by_cases he : e.1 = n
    · simp [he]
    · simp only [Function.comp_apply, if_neg he]
      rfl
  rw [State.conflicts, hrel]
  rfl

/-- A load or a store that is not relaxed, through an L-space or C-space pointer, of a small core that holds its context's key,
past the same-word rule, is sent. -/
theorem State.begin_vault {t : Tid} {th : Thread} {off key : Nat} (hn : s.reqs.find n = some r) (ht : r.tid = some t)
    (hth : s.threadOf t = some th) (hl : isLarge r.core = false) (huse : r.use = .done ∨ ∃ d, r.use = .reg d)
    (hop : r.op.plain = true) (hv : NamesVault r.core r.ptr v) (hk : s.hasKey r.core (.id 0 (s.ctxOf r.core)) = true)
    (hoff : offsetOf r.ptr = off) (hkey : s.keyOf (.id 0 (s.ctxOf r.core)) = key)
    (hd : th.deferredOn (r.toVault v off key) = none) (hc : s.conflicts n (r.toVault v off key) = false) :
    s.begin n = ((s.upReq n fun q => q.toVault v off key).useKey r.core (.id 0 (s.ctxOf r.core))).go n := by
  have ho : off < 65536 := hoff ▸ offsetOf_vault_lt hv.space
  have hengine : r.ofEngine = false := by rcases huse with hu | ⟨d, hu⟩ <;> simp [Req.ofEngine, hu]
  have hreports : s.reports r = none := by
    have hword : s.wordAt r.core r.ctx r.asid r.ptr = some (vaultAddr v off) := by
      rw [State.wordAt, lookup_vault _ hv, hoff]
    simp only [State.reports, ht, hengine, hth, hword, Bool.false_eq_true, if_false]
    exact congrArg (Option.map _) hd
  have hbecomes : (fun q : Req =>
      { q with
        pa := vaultAddr v off, key := s.keyOf (.id 0 (s.ctxOf r.core)), atom := 1, route := .plain
        lat := s.reach q.core (vaultAddr v off) }) = fun q => q.toVault v off key := by
    funext q
    rw [hkey, State.reach, homeOf_vault _ ho]
    rfl
  have hfound := toVault_found (v := v) (off := off) (key := key) hn
  have hframe (u : State) : u.frameFirst (r.toVault v off key) = none := by
    have hspace : spaceOf (r.toVault v off key).ptr ≠ 4 := by
      rcases hv.space with hs | hs <;> exact fun h4 => by rw [show spaceOf r.ptr = 4 from h4] at hs; omega
    exact if_neg fun h => hspace h.1
  have hdepart := State.depart_vault (key := .id 0 (s.ctxOf r.core)) hfound ht huse hl rfl hk
  have htable : (s.upReq n fun q => q.toVault v off key).tableEvent (r.toVault v off key) = none := tableEvent_vault rfl ho
  have hroute : routeEvent (s.upReq n fun q => q.toVault v off key).sys.image (r.toVault v off key) = none :=
    routeEvent_vault rfl ho hop
  have hconf := (conflicts_upReq (fun q => q.toVault v off key) (r.toVault v off key)).trans hc
  have ht' : (r.toVault v off key).tid = some t := ht
  have hengine' : (r.toVault v off key).ofEngine = false := hengine
  have htrans : s.translated n (.ok (vaultAddr v off) (.id 0 (s.ctxOf r.core)) 1 .plain none) =
      (s.upReq n fun q => q.toVault v off key).depart n (.id 0 (s.ctxOf r.core)) := by
    rw [State.translated, hn, Option.bind_some, hreports]
    simp only [hbecomes, hfound, htable, hframe, hroute, ht', hengine', hconf, Option.orElse_none, Bool.false_eq_true, if_false,
      Option.isSome_none, Bool.and_false]
  rw [State.begin, hn]
  dsimp only
  rw [lookup_vault _ hv, hoff]
  dsimp only
  rw [touch_vault hv, htrans, hdepart]
  rfl

/-- Settles O19: an access departs as `State.begin_vault` says, and is served as it arrives alone (`Alone.served`). -/
theorem vaultAccessesArriveAndArePerformed : Obligations.VaultAccessesArriveAndArePerformed := by
  refine ⟨?_, ?_⟩
  · intro s n r t th v hn ht hth hl huse hop hv hsmall hk hchecks
    obtain ⟨hd, hc⟩ := hchecks
    have hplain : r.op.plain = true := by cases hr : r.op <;> simp only [hr] at hop <;> rfl
    have hbegin := State.begin_vault (off := offsetOf r.ptr) (key := s.keyOf (.id 0 (s.ctxOf r.core))) hn ht hth hl huse
      hplain hv hk rfl rfl hd hc
    have hfound : ((s.upReq n fun q => q.toVault v (offsetOf r.ptr) (s.keyOf (.id 0 (s.ctxOf r.core)))).useKey r.core
        (.id 0 (s.ctxOf r.core))).reqs.find n = some (r.toVault v (offsetOf r.ptr) (s.keyOf (.id 0 (s.ctxOf r.core)))) :=
      toVault_found hn
    obtain ⟨rank, hgo⟩ := State.go_vault hfound huse hl rfl (offsetOf_vault_lt (NamesVault.space hv))
    rw [hbegin, hgo]
    exact ⟨State.post_coming _ _ _, ⟨_, upReq_post_find hfound, rfl, rfl, rfl, Req.time_of_use huse⟩, rfl⟩
  · intro s n r c b hok hn hst huse hv hh hp hheld hwait hadmit hsingle hsound
    have ha : Alone s n r c b := ⟨hn, hst, huse, hv, hh, hp, hheld, hwait, hadmit, hsingle, hsound⟩
    refine ⟨fun w sg hop => ?_, fun v hop => ?_⟩
    · obtain ⟨u, hexec, hu⟩ := ha.served (by rw [performed, hop]) (by rw [hop]; rfl)
      exact ⟨u, hexec, hu.mem, hu.request, hu.due⟩
    · obtain ⟨u, hexec, hu⟩ := ha.served (by rw [performed, hop]) (by rw [hop]; rfl)
      have hempty := (Memory.write_attr r.key r.first v (s.mem.attr r.first).empty hok).1
      refine ⟨u, hexec, ?_, ?_, fun a hne => ?_, hu.due⟩ <;> rw [hu.mem]
      · exact Memory.write_read _ _ _ _ hok
      · rw [Memory.full, Memory.full, hempty]
      · exact Memory.write_byte_other _ _ _ _ hok (by rw [Req.first]; omega)

end Sys2Proof.Machine
end

section
/-! PROOFS. The reply of an access completes its instruction: W[d] is written, and the parked thread goes on (`State.resumeAt`). -/

namespace Sys2Proof.Machine

variable {s : State} {n c k : Nat} {r : Req} {i : Tid} {t : Thread}

/-- The reply of a request that its thread awaits, and that met no event. -/
theorem execMemReply_completes (hn : s.reqs.find n = some r) (hst : r.stage = .served) (ho : r.orphan = false)
    (he : r.event = none) (huse : r.use = .done ∨ ∃ d, r.use = .reg d) :
    exec (.memReply n) s = .next ((s.dropReq n).complete n r r.ans) := by
  change execMemReply n s = _
  rcases huse with hu | ⟨d, hu⟩ <;> simp [execMemReply, hn, hst, ho, he, hu]

/-- A thread that has left its instruction's access behind stands ready at the next instruction. -/
theorem State.passes_parked {npc : Word} (ht : s.threadOf i = some t) (hp : t.status = .parked .mem (.reply n)) :
    s.passes i npc = s.resumeAt i.core i.slot npc := by
  simp [State.passes, ht, hp]

theorem State.enter_core (c k : Nat) : ∃ slots retain at?,
    (s.enter c k).core c = { s.core c with slots := slots, retain := retain, issueAt := at? } := by
  unfold State.enter
  split
  · exact ⟨_, _, _, rfl⟩
  · obtain ⟨_, hkick⟩ := State.kick_core (s := (s.upCore c _).upThread c k _) c
    obtain ⟨_, hup⟩ := State.upThread_core (s := s.upCore c _) c k _ c
    rw [hkick, hup, State.upCore_core_self]
    exact ⟨_, _, _, rfl⟩

/-- A thread that goes on changes its core's slots, retention and rotation alone. -/
theorem State.resumeAt_core (pc : Word) (ht : s.thread c k = some t) (hw : warm s c t) : ∃ slots retain at?,
    (s.resumeAt c k pc).core c = { s.core c with slots := slots, retain := retain, issueAt := at? } := by
  have hu : (s.upThread c k fun t => { t with pc := pc }).thread c k = some { t with pc := pc } := by
    rw [State.upThread_thread_self, ht]
    rfl
  obtain ⟨_, _, _, henter⟩ := State.enter_core (s := s.upThread c k fun t => { t with pc := pc }) c k
  obtain ⟨_, hup⟩ := State.upThread_core (s := s) c k (fun t => { t with pc := pc }) c
  rw [State.resumeAt, State.wake_of_warm hu (warm_upThread rfl hw), henter, hup]
  exact ⟨_, _, _, rfl⟩

theorem State.resumeAt_regs (pc : Word) (ht : s.thread c k = some t) (hw : warm s c t) :
    ((s.resumeAt c k pc).core c).regs = (s.core c).regs := by
  obtain ⟨_, _, _, hcore⟩ := State.resumeAt_core pc ht hw
  rw [hcore]

theorem State.resumeAt_accs (pc : Word) (ht : s.thread c k = some t) (hw : warm s c t) :
    ((s.resumeAt c k pc).core c).accs = (s.core c).accs := by
  obtain ⟨_, _, _, hcore⟩ := State.resumeAt_core pc ht hw
  rw [hcore]

theorem State.setW_threadOf (c k m : Nat) (v : Word) (i : Tid) : (s.setW c k m v).threadOf i = s.threadOf i := by
  obtain ⟨_, hcore⟩ := s.setW_core c k m v i.core
  rw [State.threadOf, hcore]
  rfl

theorem State.setW_warm {m : Nat} {v : Word} {c' : Nat} (hw : warm s c' t) : warm (s.setW c k m v) c' t := by
  obtain ⟨_, hcore⟩ := s.setW_core c k m v c'
  rw [warm, hcore]
  exact hw

/-- R97: an answer that W[d] receives. -/
theorem State.complete_reg {d : Nat} {ans : List Word} (ht : r.tid = some i) (hth : s.threadOf i = some t)
    (hp : t.status = .parked .mem (.reply n)) (ha : r.acq = none) (hu : r.use = .reg d)
    (hop : (∀ e0 e1 x0 x1, r.op ≠ .cas2 e0 e1 x0 x1) ∧ r.op ≠ .cancel) :
    s.complete n r ans = (s.setW i.core i.slot d (ans.getD 0 0)).resumeAt i.core i.slot r.npc := by
  obtain ⟨hcas, hcancel⟩ := hop
  rw [← State.passes_parked ((State.setW_threadOf _ _ _ _ _).trans hth) hp]
  have hlive : ¬ (s.threadOf i).isNone = true := by rw [hth]; exact Bool.false_ne_true
  rw [State.complete, ht]
  dsimp only
  rw [hu]
  dsimp only
  rw [if_neg hlive, ha]
  cases hr : r.op
  case cas2 => exact absurd hr (hcas _ _ _ _)
  case cancel => exact absurd hr hcancel
  all_goals rfl

/-- R97: an acknowledgement. -/
theorem State.complete_done {ans : List Word} (ht : r.tid = some i) (hth : s.threadOf i = some t)
    (hp : t.status = .parked .mem (.reply n)) (ha : r.acq = none) (hu : r.use = .done) :
    s.complete n r ans = s.resumeAt i.core i.slot r.npc := by
  rw [← State.passes_parked hth hp]
  have hlive : ¬ (s.threadOf i).isNone = true := by rw [hth]; exact Bool.false_ne_true
  rw [State.complete, ht]
  dsimp only
  rw [hu]
  dsimp only
  rw [if_neg hlive, ha]
  rfl

/-- Settles O21: the answer is written with `State.setW`, and the thread goes on with `State.resumeAt`. -/
theorem repliesCompleteTheirInstruction : Obligations.RepliesCompleteTheirInstruction := by
  intro s n r t th hn hst ho he ht hth hp hacq hw hop
  have hlive : (s.dropReq n).thread t.core t.slot = some th := State.thread_of_threadOf hth
  have hone : (∀ e0 e1 x0 x1, r.op ≠ .cas2 e0 e1 x0 x1) ∧ r.op ≠ .cancel := by
    refine ⟨fun _ _ _ _ h => ?_, fun h => ?_⟩ <;> rw [h] at hop <;> exact hop
  refine ⟨fun d hu => ?_, fun hu => ?_⟩
  · have hcomplete := State.complete_reg (s := s.dropReq n) (n := n) (ans := r.ans) ht hth hp hacq hu hone
    have hthread := (State.setW_thread (s := s.dropReq n) (c := t.core) (k := t.slot) d (r.ans.getD 0 0) _ _).trans hlive
    have hwarm : warm ((s.dropReq n).setW t.core t.slot d (r.ans.getD 0 0)) t.core th := State.setW_warm hw
    have hregs := State.resumeAt_regs r.npc hthread hwarm
    have hfind := State.setW_find (n := d) (r.ans.getD 0 0) hlive
    refine ⟨_, ({ th with pc := r.npc } : Thread).entered, execMemReply_completes hn hst ho he (.inr ⟨d, hu⟩), ?_⟩
    rw [hcomplete]
    refine ⟨State.resumeAt_thread _ hthread hwarm, rfl, rfl, ?_, fun j hj => ?_, ?_⟩
    · rw [Core.regW, hregs, hfind]
      by_cases hd : d = 0
      · rw [if_pos hd, if_pos hd]
      · rw [if_neg hd, if_neg hd, if_pos ⟨hd, rfl⟩]
        rfl
    · rw [hregs, hfind, if_neg fun h => hj h.2]
      rfl
    · rw [State.resumeAt_mem, State.setW_mem]
      rfl
  · have hcomplete := State.complete_done (s := s.dropReq n) (n := n) (ans := r.ans) ht hth hp hacq hu
    refine ⟨_, ({ th with pc := r.npc } : Thread).entered, execMemReply_completes hn hst ho he (.inl hu), ?_⟩
    rw [hcomplete]
    exact ⟨State.resumeAt_thread _ hlive hw, rfl, rfl, State.resumeAt_regs _ hlive hw, State.resumeAt_mem _ _ _⟩

end Sys2Proof.Machine
end

section
/-! PROOFS. A write-back whose request is marked as the fetch of a line answers the instruction buffer, and no thread. -/

namespace Sys2Proof.Machine

/-- An atomic that holds the first word of core 0's vault, and whose answer is marked as a line of the instruction buffer. -/
def fetchingAtomic : Req := { op := .atom .aadd 0 0, use := .fetch, stage := .held, pa := vaultAddr 0 0, ans := [0, 0] }

/-- The machine whose only request is `fetchingAtomic`. -/
def fetchingState : State := { reqs := [(0, fetchingAtomic)] }

/-- The write-back of `fetchingAtomic` is answered by IBUF_LINE_FILL alone. -/
theorem fetchingState_agenda : (fetchingState.writeBack 0 fetchingAtomic 0 0).agenda =
    [{ time := 0, rank := 7, ev := .ibufLineFill 0 0 }] := rfl

/-- Refutes O23: the clauses of the write-backs say nothing about the use of the holder's answer, and where it is `.fetch` the
answer goes to the instruction buffer and no MEM_REPLY follows (`State.reply`). -/
theorem not_atomicsHoldAndWriteBackTheirWord : ¬ Obligations.AtomicsHoldAndWriteBackTheirWord := by
  intro h
  obtain ⟨-, hatomic, -⟩ := h
  obtain ⟨u, hexec, -, -, -, -, rank, hdue⟩ := hatomic fetchingState 0 fetchingAtomic 0 0 .aadd 0 0 0 rfl rfl rfl rfl rfl rfl
    (by decide) rfl rfl
  have hu : exec (.holdWriteBack 0) fetchingState = .next (fetchingState.writeBack 0 fetchingAtomic 0 0) := rfl
  obtain rfl : fetchingState.writeBack 0 fetchingAtomic 0 0 = u := Host.Outcome.next.inj (hu.symm.trans hexec)
  rw [fetchingState_agenda] at hdue
  simp at hdue

end Sys2Proof.Machine
end

section
/-! PROOFS. Tiles. MST and MLDA, past their checks, are one `Cx.move` (`move_begun`) of the words that `mstMoving` and `mldaMoving`
list; a plain tile's words are read off its bits (`mstMoving_plain`); and a tile that has been read is written (`moveNext_done`). -/

namespace Sys2Proof.Machine

variable {s : State} {h : Hand} {t : Thread} {d a b : Reg} {fmt : Option Nat} {stride row : Nat}

/-! ### A move starts (R242, R243) -/

@[simp] theorem begun_core_accs (c : Nat) : ((begun s h).core c).accs = (s.core c).accs := by
  obtain ⟨_, hcore⟩ := begun_core (s := s) (h := h) c
  rw [hcore]

/-- The state in which the thread at hand has parked with the words that it moves. -/
def movingSt (s : State) (h : Hand) (m : Moving) : State :=
  ((begun s h).fresh.2.upThread h.core h.slot fun u => { u with moving := some m }).park h.core h.slot .mem .moving

theorem move_begun (m : Moving) : (cxAt s h t).move (begun s h) m =
    .next ((movingSt s h { m with id := s.serial }).moveNext ((cxOf h t).tid (begun s h)) (m.todo.length + 1)) := by
  have htid : ((begun s h).fresh.2.upThread h.core h.slot fun u => { u with moving := some { m with id := s.serial } }).tidAt
      h.core h.slot = (begun s h).tidAt h.core h.slot := State.upThread_tidAt (s := (begun s h).fresh.2) _ _ _ _ _
  change Host.Outcome.next (State.moveNext _ (State.tidAt _ h.core h.slot) _) = Host.Outcome.next (State.moveNext _ _ _)
  exact congrArg (fun i => Host.Outcome.next ((movingSt s h { m with id := s.serial }).moveNext i (m.todo.length + 1))) htid

/-- What an MLDA moves. -/
def mldaMoving (s : State) (h : Hand) (t : Thread) (d a b : Reg) (stride row : Nat) : Moving :=
  { id := s.serial, npc := stepPc t.pc h.len, load := true, tile := aBase t.win + rn d, base := regOf s h t a,
    ctl := regOf s h t b, sat := false, start := s.cyc,
    todo := (rowWords (regOf s h t a) stride row).map fun p => (p, 8, 0, 0) }

theorem execMlda_runs (hi : Issues s { names := { w := [rn a, rn b], a := [rn d] }, big := false } h t)
    (hc : tileControl (regOf s h t b) true = some (fmt, stride, row))
    (hr : sideRange (regOf s h t a) 0 ((7 * stride + row : Nat) - 1 : Int) = none)
    (hh : (begun s h).heldBack ((cxOf h t).tid (begun s h)) false = false) : exec (.mlda d a b) s =
      .next ((movingSt s h (mldaMoving s h t d a b stride row)).moveNext ((cxOf h t).tid (begun s h))
        ((mldaMoving s h t d a b stride row).todo.length + 1)) := by
  have hh' : (begun s h).heldBack ((cxAt s h t).tid (begun s h)) false = false := hh
  change execMlda d a b s = _
  rw [execMlda, issue_runs hi]
  simp only [begun_regOf, hc, hr, hh', Bool.false_eq_true, if_false]
  exact move_begun _

/-- The elements of the tile that an MST stores, converted. -/
def mstElem (s : State) (h : Hand) (t : Thread) (d : Reg) (fmt : Option Nat) (n : Nat) : Nat × Bool :=
  storeElem (fmtRm t.fmt) fmt (elemOf 32 ((s.core h.core).regA t (rn d)).toNat n)

/-- The words of an MST's row. -/
def mstRow (s : State) (h : Hand) (t : Thread) (d a : Reg) (fmt : Option Nat) (stride row i : Nat) :
    List (Word × Nat × Word × Nat) :=
  (splitWords (regOf s h t a + BitVec.ofNat 64 (i * stride)) row
    (packed row ((List.range 8).map fun j => (mstElem s h t d fmt (8 * i + j)).1)) 9).map fun w =>
      (w.1, w.2.1, BitVec.ofNat 64 w.2.2, i)

/-- What an MST of some words moves. -/
def mstOf (s : State) (h : Hand) (t : Thread) (a b : Reg) (sat : Bool) (todo : List (Word × Nat × Word × Nat)) : Moving :=
  { id := s.serial, npc := stepPc t.pc h.len, load := false, tile := 0, base := regOf s h t a, ctl := regOf s h t b, sat := sat,
    start := s.cyc, todo := todo }

/-- What an MST moves. -/
def mstMoving (s : State) (h : Hand) (t : Thread) (d a b : Reg) (fmt : Option Nat) (stride row : Nat) : Moving :=
  mstOf s h t a b ((List.range 64).any fun n => (mstElem s h t d fmt n).2)
    ((List.range 8).flatMap (mstRow s h t d a fmt stride row))

theorem zipIdx_map_range {α : Type} (f : Nat → α) (n : Nat) :
    ((List.range n).map f).zipIdx = (List.range n).map fun i => (f i, i) := by
  apply List.ext_getElem <;> simp

theorem take_drop_map_range {α : Type} (f : Nat → α) {i k n : Nat} (hn : i + k ≤ n) :
    (((List.range n).map f).drop i).take k = (List.range k).map fun j => f (i + j) := by
  apply List.ext_getElem
  · simp; omega
  · simp

/-- The rows' words, as MST forms them from the list of its elements. -/
theorem mst_words : (((List.range 8).map fun i =>
      packed row ((((List.range 64).map (mstElem s h t d fmt)).drop (8 * i)).take 8 |>.map Prod.fst)).zipIdx).flatMap (fun e =>
        (splitWords (regOf s h t a + BitVec.ofNat 64 (e.2 * stride)) row e.1 9).map fun w =>
          (w.1, w.2.1, BitVec.ofNat 64 w.2.2, e.2)) = (List.range 8).flatMap (mstRow s h t d a fmt stride row) := by
  rw [zipIdx_map_range, List.flatMap_map]
  refine List.flatMap_congr fun i hi => ?_
  rw [take_drop_map_range _ (by have := List.mem_range.1 hi; omega), List.map_map]
  rfl

theorem execMst_traps {e : Nat} (hi : Issues s { names := { w := [rn a, rn b], a := [rn d] }, big := false } h t)
    (hc : tileControl (regOf s h t b) false = some (fmt, stride, row))
    (hr : sideRange (regOf s h t a) 0 ((7 * stride + row : Nat) - 1 : Int) = none)
    (hs : ((List.range 8).findSome? fun i =>
      (begun s h).spanEvent h.core t.part (regOf s h t a + BitVec.ofNat 64 (i * stride)) row) = some e) :
    exec (.mst d a b) s = .next ((begun s h).trap h.core h.slot 0x09 (BitVec.ofNat 64 e) t.pc 0 false) := by
  have hs' : ((List.range 8).findSome? fun i => (begun s h).spanEvent (cxAt s h t).core (cxAt s h t).th.part
      (regOf s h t a + BitVec.ofNat 64 (i * stride)) row) = some e := hs
  change execMst d a b s = _
  rw [execMst, issue_runs hi]
  simp only [begun_regOf, hc, hr, hs']
  rfl

theorem execMst_runs (hi : Issues s { names := { w := [rn a, rn b], a := [rn d] }, big := false } h t)
    (hc : tileControl (regOf s h t b) false = some (fmt, stride, row))
    (hr : sideRange (regOf s h t a) 0 ((7 * stride + row : Nat) - 1 : Int) = none)
    (hs : ((List.range 8).findSome? fun i =>
      (begun s h).spanEvent h.core t.part (regOf s h t a + BitVec.ofNat 64 (i * stride)) row) = none)
    (hh : (begun s h).heldBack ((cxOf h t).tid (begun s h)) false = false) : exec (.mst d a b) s =
      .next ((movingSt s h (mstMoving s h t d a b fmt stride row)).moveNext ((cxOf h t).tid (begun s h))
        ((mstMoving s h t d a b fmt stride row).todo.length + 1)) := by
  have hs' : ((List.range 8).findSome? fun i => (begun s h).spanEvent (cxAt s h t).core (cxAt s h t).th.part
      (regOf s h t a + BitVec.ofNat 64 (i * stride)) row) = none := hs
  have hh' : (begun s h).heldBack ((cxAt s h t).tid (begun s h)) false = false := hh
  have htile : ((begun s h).core (cxAt s h t).core).regA (cxAt s h t).th (rn d) = (s.core h.core).regA t (rn d) := by
    rw [Core.regA, begun_core_accs]
    rfl
  change execMst d a b s = _
  rw [execMst, issue_runs hi]
  simp only [begun_regOf, hc, hr, hs', hh', Bool.false_eq_true, if_false, htile, move_begun]
  exact congrArg₂ (fun sat todo => Host.Outcome.next ((movingSt s h (mstOf s h t a b sat todo)).moveNext
    ((cxOf h t).tid (begun s h)) (todo.length + 1))) List.any_map mst_words

/-! ### The words of a plain tile (R242) -/

theorem elemOf_toNat (v : Tile) (n : Nat) : elemOf 32 v.toNat n = (v.extractLsb' (32 * n) 32).toNat := by
  rw [BitVec.extractLsb'_toNat, Nat.shiftRight_eq_div_pow, elemOf]

/-- Elements of 32 bits put together again are the bits that they come from. -/
theorem packed_elemOf (v o k : Nat) :
    packed 32 ((List.range k).map fun j => elemOf 32 v (o + j)) = v / 2 ^ (32 * o) % 2 ^ (32 * k) := by
  induction k generalizing o with
  | zero => simp [packed, Nat.mod_one]
  | succ k ih =>
    have htail : (List.range k).map ((fun j => elemOf 32 v (o + j)) ∘ Nat.succ) =
        (List.range k).map fun j => elemOf 32 v (o + 1 + j) := by
      refine List.map_congr_left fun j _ => ?_
      simp only [Function.comp_apply, Nat.succ_eq_add_one]
      congr 1
      omega
    rw [List.range_succ_eq_map, List.map_cons, List.map_map, htail, packed, ih, Nat.add_zero, elemOf, Nat.mod_mod,
      Nat.mul_succ, pow_add, ← Nat.div_div_eq_div_mul, show 32 * (k + 1) = 32 + 32 * k by ring, pow_add, Nat.mod_mul]

/-- Whole words from an aligned address. -/
theorem splitWords_aligned {p : Word} {k fuel : Nat} (v : Nat) (hp : p.toNat % 8 = 0) (hk : k < fuel) :
    splitWords p (8 * k) v fuel =
      (List.range k).map fun j => (p + BitVec.ofNat 64 (8 * j), 8, v / 2 ^ (64 * j) % 2 ^ 64) := by
  induction k generalizing p v fuel with
  | zero =>
    obtain ⟨fuel, rfl⟩ := Nat.exists_eq_succ_of_ne_zero (Nat.ne_of_gt hk)
    rfl
  | succ k ih =>
    obtain ⟨fuel, rfl⟩ := Nat.exists_eq_succ_of_ne_zero (Nat.ne_of_gt (Nat.zero_lt_of_lt hk))
    have hnext : (p + BitVec.ofNat 64 8).toNat % 8 = 0 := by
      rw [BitVec.toNat_add, BitVec.toNat_ofNat]
      omega
    have hmin : Min.min (8 * (k + 1)) (8 - p.toNat % 8) = 8 := by omega
    rw [splitWords, if_neg (by omega)]
    simp only [hmin]
    rw [show 8 * (k + 1) - 8 = 8 * k by omega, ih _ hnext (by omega), List.range_succ_eq_map, List.map_cons, List.map_map]
    congr 1
    · simp
    · refine List.map_congr_left fun j _ => ?_
      have haddr : p + BitVec.ofNat 64 8 + BitVec.ofNat 64 (8 * j) = p + BitVec.ofNat 64 (8 * (j + 1)) := by
        rw [BitVec.add_assoc, ← BitVec.ofNat_add, show 8 + 8 * j = 8 * (j + 1) by ring]
      have hval : v / 2 ^ (8 * 8) / 2 ^ (64 * j) = v / 2 ^ (64 * (j + 1)) := by
        rw [Nat.div_div_eq_div_mul, ← pow_add, show 8 * 8 + 64 * j = 64 * (j + 1) by ring]
      rw [haddr, hval]
      rfl

/-- A word of a tile that is stored without a conversion: its place, bytes, value and row. -/
def plainWord (base : Word) (v : Tile) (n : Nat) : Word × Nat × Word × Nat :=
  (base + BitVec.ofNat 64 (8 * n), 8, v.extractLsb' (64 * n) 64, n / 4)

/-- Word `j` of the 32 bytes of row `i`. -/
theorem rowWord_eq (v : Tile) {i j : Nat} (hj : j < 4) :
    BitVec.ofNat 64 (v.toNat / 2 ^ (32 * (8 * i)) % 2 ^ (32 * 8) / 2 ^ (64 * j) % 2 ^ 64) =
      v.extractLsb' (64 * (4 * i + j)) 64 := by
  apply BitVec.eq_of_getLsbD_eq
  intro k hk
  rw [BitVec.getLsbD_ofNat, BitVec.getLsbD_extractLsb', Nat.testBit_mod_two_pow, Nat.testBit_div_two_pow, Nat.testBit_mod_two_pow,
    Nat.testBit_div_two_pow, ← BitVec.testBit_toNat, show 64 * (4 * i + j) + k = 64 * j + k + 32 * (8 * i) by ring]
  simp [hk, show k + 64 * j < 256 by omega, Nat.add_comm]

theorem mstRow_plain {i : Nat} (hal : (regOf s h t a).toNat % 8 = 0) : mstRow s h t d a none 32 32 i =
    (List.range 4).map fun j => plainWord (regOf s h t a) ((s.core h.core).regA t (rn d)) (4 * i + j) := by
  have hstart : (regOf s h t a + BitVec.ofNat 64 (i * 32)).toNat % 8 = 0 := by
    rw [BitVec.toNat_add, BitVec.toNat_ofNat]
    omega
  rw [mstRow, show packed 32 ((List.range 8).map fun j => (mstElem s h t d none (8 * i + j)).1) =
    ((s.core h.core).regA t (rn d)).toNat / 2 ^ (32 * (8 * i)) % 2 ^ (32 * 8) from packed_elemOf _ _ _]
  rw [show splitWords _ 32 _ 9 = splitWords _ (8 * 4) _ 9 from rfl, splitWords_aligned _ hstart (by omega), List.map_map]
  refine List.map_congr_left fun j hj => ?_
  have hj : j < 4 := List.mem_range.1 hj
  simp only [Function.comp_apply, rowWord_eq _ hj, plainWord]
  rw [BitVec.add_assoc, ← BitVec.ofNat_add, show i * 32 + 8 * j = 8 * (4 * i + j) by ring,
    show (4 * i + j) / 4 = i by omega]

/-- A tile stored without a conversion, its rows one behind the other from an aligned address. -/
theorem mstMoving_plain (hal : (regOf s h t a).toNat % 8 = 0) :
    (mstMoving s h t d a b none 32 32).sat = false ∧ (mstMoving s h t d a b none 32 32).todo =
      (List.range 32).map (plainWord (regOf s h t a) ((s.core h.core).regA t (rn d))) := by
  refine ⟨?_, ?_⟩
  · simp [mstMoving, mstOf, mstElem, storeElem]
  · calc (List.range 8).flatMap (mstRow s h t d a none 32 32)
        = (List.range 8).flatMap fun i => (List.range 4).map fun j =>
            plainWord (regOf s h t a) ((s.core h.core).regA t (rn d)) (4 * i + j) :=
          List.flatMap_congr fun i _ => mstRow_plain hal
      _ = (List.range 32).map (plainWord (regOf s h t a) ((s.core h.core).regA t (rn d))) := rfl

/-! ### A tile that has been read (R243) -/

variable {i : Tid} {m : Moving}

theorem State.setA_thread (c n : Nat) (v : Tile) (c' k : Nat) : (s.setA c n v).thread c' k = s.thread c' k := by
  rw [State.setA, State.upCore_thread]
  exact fun _ => rfl

theorem State.setA_warm {c n c' : Nat} (v : Tile) (hw : warm s c' t) : warm (s.setA c n v) c' t := by
  rw [warm, State.setA, State.upCore_core]
  split
  · next hc => exact hc ▸ hw
  · exact hw

/-- With every word answered, no other step of the move is left. -/
theorem moveNext_done (ht : s.threadOf i = some t) (hp : t.status = .parked .mem .moving) (hm : t.moving = some m)
    (htodo : m.todo = []) (hleft : m.left = []) (hmet : m.met = none) (hu : s.moveUnsure m.id = false) :
    s.moveNext i 1 = s.moveDone i m := by
  simp [State.moveNext, ht, hm, hmet, hu, hp, htodo, hleft]

/-- An MLDA that has read every word writes its tile and goes on. -/
theorem moveDone_load (ht : s.threadOf i = some t) (hl : m.load = true) (hc : tileControl m.ctl true = some (fmt, stride, row)) :
    s.moveDone i m = ((s.upThread i.core i.slot fun t => { t with moving := none }).setA i.core m.tile
      (m.tileValue stride row fmt (rowWords m.base stride row))).resumeAt i.core i.slot m.npc := by
  rw [← State.upTid_of_live ht]
  simp only [State.moveDone, hl, if_true, hc]

/-- Settles O49: MST and MLDA are the moves that `mstMoving` and `mldaMoving` list, and `State.moveDone` writes the tile. -/
theorem tilesAreMovedWordByWord : Obligations.TilesAreMovedWordByWord := by
  refine ⟨?_, ?_⟩
  · intro s h t d a b fmt stride row hi base id w span hr hh
    refine ⟨fun hc => ?_, fun hc => ?_⟩
    · exact ⟨mldaMoving s h t d a b stride row, rfl, rfl, rfl, rfl, rfl, rfl, execMlda_runs hi hc hr hh⟩
    · refine ⟨mstMoving s h t d a b fmt stride row, rfl, rfl, rfl, rfl, fun e hs => execMst_traps hi hc hr hs,
        fun hs => execMst_runs hi hc hr hs hh, ?_, ?_⟩
      · intro tile el rm conv
        have hconv (n : Nat) : conv (el n) = mstElem s h t d fmt n := by
          rw [mstElem, elemOf_toNat]
          rfl
        refine ⟨?_, ?_⟩
        · simp only [hconv]
          rfl
        · simp only [hconv]
          rfl
      · rintro rfl rfl rfl hal
        exact mstMoving_plain hal
  · intro s t th m fmt stride row ht hp hm hl htodo hleft hmet hu hc hw
    have hlive := State.thread_of_threadOf ht
    rw [moveNext_done ht hp hm htodo hleft hmet hu, moveDone_load ht hl hc]
    have hended : (s.upThread t.core t.slot fun t => { t with moving := none }).thread t.core t.slot =
        some { th with moving := none } := by
      rw [State.upThread_thread_self, hlive]
      rfl
    have hthread := (State.setA_thread t.core m.tile (m.tileValue stride row fmt (rowWords m.base stride row)) _ _).trans hended
    have hwarm := State.setA_warm (c := t.core) (n := m.tile) (m.tileValue stride row fmt (rowWords m.base stride row))
      (warm_upThread (k := t.slot) (f := fun t => { t with moving := none }) (t' := { th with moving := none }) rfl hw)
    refine ⟨_, State.resumeAt_thread _ hthread hwarm, rfl, rfl, rfl, ?_, ?_⟩
    · rw [State.resumeAt_accs _ hthread hwarm, State.setA, State.upCore_core_self]
      exact Map.find_put_self _ _ _
    · rw [State.resumeAt_mem]
      rfl

end Sys2Proof.Machine
end

section
/-! PROOFS. Kernels that end and begin again, and power that comes and goes. `State.told` is what a kernel is told by: the cycle and
the kernels of the I/O die. What stops a thread, clears a core or seats a thread leaves it alone, so that a termination and a restart
write the one notice that they form, in the cycle in which it is formed. -/

namespace Sys2Proof.Machine

variable {s u : State} {c k : Nat} {t : Thread}

/-! ### The cycle and the kernels of the I/O die -/

/-- The cycle, in which a notice is formed, and the kernels of the I/O die, which hold the notices (R340). -/
def State.told (s : State) : Nat × Map Kernel := (s.cyc, s.io.kernels)

theorem State.told_eq : u.told = s.told ↔ u.cyc = s.cyc ∧ u.io.kernels = s.io.kernels := Prod.mk.injEq _ _ _ _ |>.to_iff

/-- What each step of a fold over the state leaves alone, the fold leaves alone. -/
theorem foldl_same {α β : Type} (g : State → β) {f : State → α → State} (hf : ∀ u a, g (f u a) = g u) (l : List α) :
    g (l.foldl f s) = g s := by
  induction l generalizing s with
  | nil => rfl
  | cons a l ih => rw [List.foldl_cons, ih, hf]

theorem foldl_told {α : Type} (f : State → α → State) (hf : ∀ u a, (f u a).told = u.told) (l : List α) :
    (l.foldl f s).told = s.told := foldl_same State.told hf l

@[simp] theorem State.upCore_told (c : Nat) (f : Core → Core) : (s.upCore c f).told = s.told := rfl

@[simp] theorem State.upThread_told (c k : Nat) (f : Thread → Thread) : (s.upThread c k f).told = s.told := rfl

@[simp] theorem State.dropReq_told (n : Nat) : (s.dropReq n).told = s.told := rfl

@[simp] theorem State.addReq_told (r : Req) : (s.addReq r).2.told = s.told := rfl

@[simp] theorem State.upMat_told (c : Nat) (f : MatEngine → MatEngine) : (s.upMat c f).told = s.told := rfl

@[simp] theorem State.post_told (time rank : Nat) (ev : Instr) : (s.post time rank ev).told = s.told := rfl

@[simp] theorem State.after_told (d rank : Nat) (ev : Instr) : (s.after d rank ev).told = s.told := rfl

@[simp] theorem State.postAll_told (rank : Nat) (f : Nat → Instr) (l : List Nat) : (s.postAll rank f l).told = s.told := by
  induction l generalizing s with
  | nil => rfl
  | cons n l ih => rw [State.postAll, ih, State.after_told]

/-! ### The rotation, records and traps -/

@[simp] theorem State.kick_told (c : Nat) : (s.kick c).told = s.told := by
  unfold State.kick
  repeat' split
  all_goals rfl

@[simp] theorem State.enter_told (c k : Nat) : (s.enter c k).told = s.told := by
  unfold State.enter
  split
  · rfl
  · simp

@[simp] theorem State.wake_told (c k : Nat) : (s.wake c k).told = s.told := by
  unfold State.wake
  repeat' split
  all_goals simp

@[simp] theorem State.resumeAt_told (c k : Nat) (pc : Word) : (s.resumeAt c k pc).told = s.told := by
  rw [State.resumeAt, State.wake_told, State.upThread_told]

@[simp] theorem State.park_told (c k : Nat) (why : Park) (till : Wait) : (s.park c k why till).told = s.told := by
  unfold State.park
  split <;> rfl

@[simp] theorem State.abandon_told (c k : Nat) : (s.abandon c k).told = s.told := by
  unfold State.abandon
  repeat' split
  all_goals rfl

@[simp] theorem State.postRecord_told (c : Nat) (r : FRec) : (s.postRecord c r).told = s.told := rfl

@[simp] theorem State.abortToKernel_told (c k code : Nat) (info resume epc : Word) :
    (s.abortToKernel c k code info resume epc).told = s.told := by
  unfold State.abortToKernel
  repeat' split
  · rfl
  · simp
  · exact State.park_told _ _ _ _

@[simp] theorem State.trap_told (c k code : Nat) (info epc vx : Word) (late : Bool) :
    (s.trap c k code info epc vx late).told = s.told := by
  unfold State.trap
  dsimp only
  repeat' split
  all_goals simp

/-! ### Threads that take and leave slots -/

@[simp] theorem State.create_told (c k : Nat) (t : Thread) : (s.create c k t).told = s.told := by
  unfold State.create State.createIn
  dsimp only
  split <;> rfl

@[simp] theorem State.setW_told (c k n : Nat) (v : Word) : (s.setW c k n v).told = s.told := by
  unfold State.setW
  repeat' split
  all_goals rfl

@[simp] theorem State.setWs_told (c k n : Nat) (l : List Word) : (s.setWs c k n l).told = s.told := by
  induction l generalizing s n with
  | nil => rfl
  | cons v l ih => rw [State.setWs, ih, State.setW_told]

@[simp] theorem State.drop_told (c : Nat) : (s.drop c).told = s.told := by
  unfold State.drop
  split <;> rfl

@[simp] theorem State.dropN_told (c n : Nat) : (s.dropN c n).told = s.told := by
  induction n generalizing s with
  | zero => rfl
  | succ n ih => rw [State.dropN, ih, State.drop_told]

@[simp] theorem State.retryPressed_told (c : Nat) : (s.retryPressed c).told = s.told := by
  simp [State.retryPressed]

@[simp] theorem State.drainCheck_told (c : Nat) : (s.drainCheck c).told = s.told :=
  foldl_told _ (fun _ _ => by split <;> rfl) _

/-- What becomes of an active message that waits at its core: it stays, it is dropped, it goes with its region, or its thread takes a
slot that was free (R55, R76). -/
theorem State.seat_cases {msg : Nat} (h : s.seat msg = some u) :
    u = s ∨ (∃ c, u = ({ s with msgs := s.msgs.drop msg } : State).drop c) ∨ u = { s with msgs := s.msgs.drop msg } ∨
      ∃ c k part t ws sender, s.freeSlot c part = some k ∧
        u = ((({ s with msgs := s.msgs.drop msg } : State).create c k t).setWs c k 1 ws).setW c k 7 sender := by
  unfold State.seat at h
  dsimp only at h
  split at h
  · split at h
    · cases h; exact .inr (.inl ⟨_, rfl⟩)
    · split at h
      · cases h; exact .inr (.inr (.inl rfl))
      · split at h
        · cases h
        · split at h
          · cases h
          · next hk =>
            split at h <;> cases h
            exact .inr (.inr (.inr ⟨_, _, _, _, _, _, hk, rfl⟩))
  · cases h; exact .inl rfl

theorem State.seat_told {msg : Nat} (h : s.seat msg = some u) : u.told = s.told := by
  obtain rfl | ⟨c, rfl⟩ | rfl | ⟨c, k, part, t, ws, sender, -, rfl⟩ := State.seat_cases h
  · rfl
  · exact State.drop_told _
  · rfl
  · rw [State.setW_told, State.setWs_told, State.create_told]
    rfl

@[simp] theorem State.seatAll_told (c : Nat) (l : List Nat) : (s.seatAll c l).told = s.told := by
  induction l generalizing s with
  | nil => rfl
  | cons n l ih =>
    rw [State.seatAll]
    split
    · next hs => rw [ih, State.seat_told hs]
    · rfl

@[simp] theorem State.retryDispatch_told (c : Nat) : (s.retryDispatch c).told = s.told :=
  foldl_told _ (fun _ _ => foldl_told _ (fun _ _ => foldl_told _ (fun _ _ => by split <;> simp) _) _) _

@[simp] theorem State.vacated_told (c : Nat) : (s.vacated c).told = s.told := by
  simp [State.vacated, State.seatElsewhere]

@[simp] theorem State.sweep_told : s.sweep.told = s.told := by
  unfold State.sweep
  split <;> rfl

@[simp] theorem State.disarm_told (c k m : Nat) : (s.disarm c k m).told = s.told := by
  unfold State.disarm
  split <;> rfl

@[simp] theorem State.disarmAll_told (c k : Nat) : (s.disarmAll c k).told = s.told :=
  foldl_told _ (fun _ _ => State.disarm_told _ _ _) _

@[simp] theorem State.leave_told (c k : Nat) : (s.leave c k).told = s.told := by
  unfold State.leave
  repeat' split
  all_goals simp

/-! ### Threads that are stopped (R195, R286) -/

@[simp] theorem State.withdraw_told (n : Nat) : (s.withdraw n).told = s.told := by
  unfold State.withdraw
  repeat' split
  all_goals rfl

@[simp] theorem State.dropGather_told (i : Tid) : (s.dropGather i).told = s.told := by
  unfold State.dropGather
  dsimp only
  split
  · rfl
  · rw [foldl_told _ fun _ _ => by split <;> rfl]
    refine foldl_told _ (fun u e => ?_) _
    repeat' split
    all_goals simp

@[simp] theorem State.withdrawAll_told (i : Tid) : (s.withdrawAll i).told = s.told :=
  (foldl_told _ (fun _ _ => by split <;> simp) _).trans (State.dropGather_told i)

@[simp] theorem State.dropRecords_told (i : Tid) : (s.dropRecords i).told = s.told := rfl

@[simp] theorem State.dropViews_told (f st : Nat) : (s.dropViews f st).told = s.told := rfl

@[simp] theorem State.endCancelled_told (c k : Nat) : (s.endCancelled c k).told = s.told := by
  unfold State.endCancelled
  repeat' split
  all_goals simp

theorem State.withFrames_told (m : Map TFrame) : State.told { s with frames := m } = s.told := rfl

@[simp] theorem State.cancelThread_told (c k : Nat) : (s.cancelThread c k).told = s.told := by
  unfold State.cancelThread
  split
  · rfl
  · refine (State.endCancelled_told _ _).trans ((State.withFrames_told _).trans ?_)
    split <;> simp

@[simp] theorem State.stopThreads_told (c : Nat) : (s.stopThreads c).told = s.told :=
  foldl_told _ (fun _ _ => State.cancelThread_told _ _) _

@[simp] theorem State.forceOut_told (c : Nat) : (s.forceOut c).told = s.told := by
  refine foldl_told _ (fun u e => ?_) _
  rw [State.leave_told, State.upThread_told]
  exact foldl_told _ (fun _ _ => by split <;> simp) _

/-! ### Cores that are cleared (R348) -/

@[simp] theorem State.unconfigure_told (cl n : Nat) : (s.unconfigure cl n).told = s.told := by
  refine (foldl_told _ (fun u e => ?_) _).trans (show (s.setBar cl n {}).told = s.told from rfl)
  repeat' split
  all_goals simp

@[simp] theorem State.unbar_told (c : Nat) : (s.unbar c).told = s.told :=
  foldl_told _ (fun _ _ => by split <;> simp) _

@[simp] theorem State.kickMat_told (c : Nat) : (s.kickMat c).told = s.told := by
  unfold State.kickMat
  dsimp only
  split <;> rfl

@[simp] theorem State.loadMatCfg_told (r : Req) : (s.loadMatCfg r).told = s.told := by
  unfold State.loadMatCfg
  dsimp only
  repeat' split
  all_goals simp

@[simp] theorem State.retryMatCfg_told (c : Nat) : (s.retryMatCfg c).told = s.told :=
  foldl_told _ (fun _ _ => by split <;> simp) _

@[simp] theorem State.matDone_told (c : Nat) (q : MatCmd) : (s.matDone c q).told = s.told := by
  unfold State.matDone State.matReturn
  repeat' split
  all_goals simp [State.dropMat]

@[simp] theorem State.tryForwards_told (c fuel : Nat) : (s.tryForwards c fuel).told = s.told := by
  induction fuel generalizing s with
  | zero => rfl
  | succ fuel ih =>
    rw [State.tryForwards]
    dsimp only
    repeat' split
    all_goals simp [ih]

@[simp] theorem State.clearCore_told (c ctx : Nat) : (s.clearCore c ctx).told = s.told := by
  unfold State.clearCore State.tryForward
  dsimp only
  repeat' split
  all_goals simp

@[simp] theorem State.retryCtx_told (ctx : Nat) : (s.retryCtx ctx).told = s.told := by
  refine (foldl_told _ (fun _ _ => by simp) _).trans ?_
  exact foldl_told _ (fun _ _ => foldl_told _ (fun _ _ => foldl_told _ (fun _ _ => by split <;> simp) _) _) _

/-! ### Notices to the kernels (R340, R348) -/

section
variable {kern kind : Nat} {w1 w2 : Word} {f : Kernel → Kernel} {o : Kernel}

theorem State.notice_kernels : (s.notice kern kind w1 w2).io.kernels =
    s.io.kernels.adjust kern fun k => { k with notices := k.notices ++ [(kind, w1, w2, s.cyc)] } := rfl

theorem State.upKernel_told (hu : u.told = s.told) : (u.upKernel kern f).told = (s.upKernel kern f).told := by
  obtain ⟨hcyc, hkernels⟩ := State.told_eq.1 hu
  rw [State.told_eq, State.upKernel_cyc, State.upKernel_io, hcyc, hkernels]
  exact ⟨rfl, rfl⟩

/-- The other of the two kernels is another one. -/
theorem otherKernel_ne (hk : kern = 1 ∨ kern = 2) : 3 - kern ≠ kern := by
  rcases hk with rfl | rfl <;> decide

/-- Where one of the two kernels has been changed and nothing else, it stays so as the other is told. -/
theorem tellOther_changed (hk : kern = 1 ∨ kern = 2) (hu : u.told = (s.upKernel kern f).told)
    (ho : s.io.kernels.find kern = some o) : (u.notice (3 - kern) kind w1 w2).io.kernels.find kern = some (f o) := by
  obtain ⟨-, hkernels⟩ := State.told_eq.1 hu
  rw [State.notice_kernels, Map.find_adjust_other _ _ (otherKernel_ne hk).symm, hkernels, State.upKernel_io,
    Map.find_adjust_self, ho]
  rfl

/-- The other kernel has the notice behind those that it had, formed in the same cycle. -/
theorem tellOther_notices (hk : kern = 1 ∨ kern = 2) (hu : u.told = (s.upKernel kern f).told)
    (ho : s.io.kernels.find (3 - kern) = some o) : (u.notice (3 - kern) kind w1 w2).io.kernels.find (3 - kern) =
      some { o with notices := o.notices ++ [(kind, w1, w2, s.cyc)] } := by
  obtain ⟨hcyc, hkernels⟩ := State.told_eq.1 hu
  rw [State.notice_kernels, Map.find_adjust_self, hkernels, hcyc, State.upKernel_io, Map.find_adjust_other _ _ (otherKernel_ne hk),
    ho]
  rfl

/-- The other kernel's writer of notices comes in the notice's time (log 26). -/
theorem tellOther_coming (hu : u.told = (s.upKernel kern f).told) :
    coming (u.notice (3 - kern) kind w1 w2) (s.cyc + noticeTime) (.noticeWrite (3 - kern)) := by
  obtain ⟨hcyc, -⟩ := State.told_eq.1 hu
  rw [← s.upKernel_cyc kern f, ← hcyc]
  exact State.after_coming _ _ _

end

/-! ### Termination (R348) -/

/-- The state in which a kernel's threads have been stopped and its service cores cleared. -/
def ended (s : State) (kern : Nat) : State :=
  (serviceCores kern).foldl (fun s c => (s.forceOut c).clearCore c kern) ((s.coresOf kern).foldl State.stopThreads s)

theorem ended_told (kern : Nat) : (ended s kern).told = s.told :=
  (foldl_told _ (fun _ _ => by simp) _).trans (foldl_told _ (fun _ _ => State.stopThreads_told _) _)

/-- The state in which the kernel is down and the other kernel has been told. -/
def toldOfEnd (s : State) (kern : Nat) : State :=
  ((ended s kern).upKernel kern fun k => { k with down := true }).notice (3 - kern) 8 0 0

theorem execKernelTermination_runs {kern : Nat} (hk : kern = 1 ∨ kern = 2) : execKernelTermination kern s =
    .next (({ toldOfEnd s kern with free := (toldOfEnd s kern).free + 1 } : State).after
      (Config.freeNat (toldOfEnd s kern).free) 20 (.kernelRestart kern)) := by
  have hservice : ¬ (kern ≠ 1 ∧ kern ≠ 2) := by omega
  rw [execKernelTermination, if_neg hservice]
  rfl

theorem execKernelTermination_other {kern : Nat} (hk : kern ≠ 1 ∧ kern ≠ 2) : execKernelTermination kern s = .next s :=
  if_pos hk

/-! ### Restart (R348) -/

/-- A thread that lives stays in its slot as active messages are seated: each takes a free slot (R76). -/
theorem State.seat_thread {msg : Nat} (hs : s.seat msg = some u) (ht : s.thread c k = some t) : u.thread c k = some t := by
  obtain rfl | ⟨d, rfl⟩ | rfl | ⟨d, j, part, t', ws, sender, hfree, rfl⟩ := State.seat_cases hs
  · exact ht
  · exact ((State.Keeps.drop d).thread c k).trans ht
  · exact ht
  · rw [State.setW_thread, State.setWs_thread, State.create]
    by_cases hc : c = d
    · subst hc
      have hne : k ≠ j := by rintro rfl; rw [State.freeSlot_free hfree] at ht; cases ht
      rw [State.createIn_thread_other _ _ hne]
      exact ht
    · rw [State.thread, State.createIn_core, State.settle, State.upCore_core_other _ _ hc]
      exact ht

theorem State.seatAll_thread (d : Nat) (l : List Nat) (ht : s.thread c k = some t) : (s.seatAll d l).thread c k = some t := by
  have hdoors (doors : List Nat) (v : State) : (v.upCore d fun x => { x with doors := doors }).thread c k = v.thread c k :=
    State.upCore_thread (f := fun x => { x with doors := doors }) (fun _ => rfl) _ _
  induction l generalizing s with
  | nil => exact (hdoors _ _).trans ht
  | cons n l ih =>
    rw [State.seatAll]
    split
    · next hs => exact ih (State.seat_thread hs ht)
    · exact (hdoors _ _).trans ht

theorem foldl_thread {α : Type} {f : State → α → State} (hf : ∀ u a, u.thread c k = some t → (f u a).thread c k = some t)
    (l : List α) (ht : s.thread c k = some t) : (l.foldl f s).thread c k = some t := by
  induction l generalizing s with
  | nil => exact ht
  | cons a l ih => exact ih (hf s a ht)

theorem State.retryCtx_thread (ctx : Nat) (ht : s.thread c k = some t) : (s.retryCtx ctx).thread c k = some t := by
  refine foldl_thread (fun _ d hu => ((State.Keeps.drainCheck d).thread c k).trans (State.seatAll_thread d _ hu)) _ ?_
  refine (State.Keeps.thread ?_ c k).trans ht
  exact State.Keeps.foldl (fun _ _ => State.Keeps.foldl (fun _ _ => State.Keeps.foldl (fun _ _ => by
    split
    · exact State.Keeps.postAll _ _ _
    · exact State.Keeps.refl) _) _) _

/-- The core on which a kernel starts. -/
def serviceCore (kern : Nat) : Nat := if kern = 1 then 0x0FF00 else 0

/-- The entry at which a kernel starts. -/
def Image.entryOf (im : Image) (kern : Nat) : Word := if kern = 1 then im.hostEntry else im.arrayEntry

/-- The state in which a kernel has started again, before the other kernel is told. -/
def restarted (s : State) (kern : Nat) : State :=
  ((s.upKernel kern fun k => { k with down := false }).create (serviceCore kern) 0
    (bootThread (s.sys.image.entryOf kern) 0x1000)).retryCtx kern

theorem execKernelRestart_runs {kern : Nat} {o : Kernel} (ho : s.io.kernels.find kern = some o) (hdown : o.down = true) :
    execKernelRestart kern s = .next ((restarted s kern).notice (3 - kern) 9 0 0) := by
  have h : (s.kernel kern).down = true := by rw [State.kernel, ho]; exact hdown
  rw [execKernelRestart, h]
  rfl

theorem execKernelRestart_up {kern : Nat} {o : Kernel} (ho : s.io.kernels.find kern = some o) (hup : o.down = false) :
    execKernelRestart kern s = .next s := by
  have h : (s.kernel kern).down = false := by rw [State.kernel, ho]; exact hup
  rw [execKernelRestart, h]
  rfl

theorem restarted_told (kern : Nat) :
    (restarted s kern).told = (s.upKernel kern fun k => { k with down := false }).told := by
  rw [restarted, State.retryCtx_told, State.create_told]

theorem restarted_thread (kern : Nat) : ∃ ready, (restarted s kern).thread (serviceCore kern) 0 =
    some ((bootThread (s.sys.image.entryOf kern) 0x1000).settled s.cyc ready) :=
  ⟨_, State.retryCtx_thread _ (State.createIn_thread _ _ _ _)⟩

/-! ### An error that strikes a core (R347) -/

theorem State.Keeps.withdraw (n : Nat) : State.Keeps s (s.withdraw n) := by
  unfold State.withdraw
  repeat' split
  all_goals exact State.Keeps.of_cores rfl rfl rfl

theorem State.Keeps.dropGather (i : Tid) : State.Keeps s (s.dropGather i) := by
  unfold State.dropGather
  dsimp only
  split
  · exact State.Keeps.refl
  · refine .trans ?_ (State.Keeps.foldl (fun _ _ => ?_) _)
    · refine State.Keeps.trans (State.Keeps.foldl (fun _ _ => ?_) _) (State.Keeps.of_cores rfl rfl rfl)
      repeat' split
      · exact State.Keeps.withdraw _
      · exact State.Keeps.refl
      · exact State.Keeps.refl
    · split
      · exact State.Keeps.refl
      · exact State.Keeps.after _ _ _

theorem State.Keeps.withdrawRest (i : Tid) : State.Keeps s (s.withdrawRest i) :=
  (State.Keeps.dropGather i).trans (State.Keeps.foldl (fun _ _ => by
    split
    · exact State.Keeps.withdraw _
    · exact State.Keeps.refl) _)

theorem State.abandon_noSect (ht : s.thread c k = some t) (hsect : t.sect = none) : s.abandon c k = s := by
  rw [State.abandon, ht]
  dsimp only
  rw [hsect]

/-- A thread without a section that an error strikes parks with POISON (R186, R347). -/
theorem State.strike_status (ht : s.thread c k = some t) (hsect : t.sect = none) : ∃ v, (s.strike c k).thread c k = some v ∧
    v.status = .parked .fault (.fault t.resumePc 0x12 0 t.pc 0 none) := by
  rw [State.strike, ht]
  dsimp only
  rw [State.abandon_noSect ht hsect]
  exact ⟨_, State.kernelFault_thread _ _ _ _ _ _ _ _ (((State.Keeps.withdrawRest _).thread c k).trans ht), rfl⟩

/-- The error is charged to the context of a core that runs no kernel. -/
theorem execUncorrectableCoreStateError_user (hl : isLarge c = false) (hk : isKernelCore c = false) :
    execUncorrectableCoreStateError c s = .next ((s.core c).threads.foldl (fun s e => s.strike c e.1) s) := by
  rw [execUncorrectableCoreStateError, hl, hk]
  rfl

/-! ### Power, heat and held cores (R111, R365, R366) -/

theorem State.kick_sys (c : Nat) : (s.kick c).sys = s.sys := by
  unfold State.kick
  repeat' split
  all_goals rfl

theorem State.kick_held (c : Nat) : ((s.kick c).core c).held = (s.core c).held := by
  obtain ⟨_, hcore⟩ := s.kick_core c
  rw [hcore]

/-- The readiness word of a bring-up that has failed: bit 0 is clear, and the stage stands from bit 8 on (R365). -/
theorem failedReady (k : Fin 7) (attached : Bool) :
    (BitVec.ofNat 64 (256 * (k.val + 1) + 4 * attached.toNat)).getLsbD 0 = false ∧
      (BitVec.ofNat 64 (256 * (k.val + 1) + 4 * attached.toNat)).toNat / 256 = k.val + 1 := by
  revert k attached
  decide

theorem execPowerUp_on (hp : s.sys.powered = true) : execPowerUp s = .next s := by
  rw [execPowerUp, if_pos hp]

/-- A core that is released is held no longer, and keeps its registers (R111). -/
theorem released (c : Nat) :
    let u := (s.upCore c fun x => { x with held := false }).kick c
    (u.core c).held = false ∧ (u.core c).regs = (s.core c).regs ∧ u.mem = s.mem := by
  refine ⟨?_, ?_, ?_⟩
  · rw [State.kick_held, State.upCore_core_self]
  · rw [(State.Keeps.kick c).regs, State.upCore_core_self]
  · rw [State.kick_mem, State.upCore_mem]

/-- In the cycle of a timing message the time is what the message says (R364). -/
theorem ptp_disciplined (v : Word) : State.ptp { s with sys := { s.sys with ptp := v, ptpAt := s.cyc } } = v.toNat := by
  simp only [State.ptp, Nat.sub_self, Nat.zero_mul, Nat.zero_div, Nat.add_zero]
  exact Nat.mod_eq_of_lt v.isLt

/-- R366: every core is slowed, and each looks for its next issue again. -/
theorem execThermalThrottle_keeps :
    ∃ u, execThermalThrottle s = .next u ∧ u.sys.throttle = true ∧ u.mem = s.mem ∧ State.Keeps s u := by
  refine ⟨_, rfl, ?_, ?_, ?_⟩
  · rw [foldl_same State.sys fun _ _ => by rw [State.kick_sys, State.upCore_sys]]
  · exact foldl_mem _ (fun _ _ => by rw [State.kick_mem, State.upCore_mem]) _
  · have hthrottle : State.Keeps s { s with sys := { s.sys with throttle := true } } :=
      ⟨rfl, fun _ => rfl, fun _ => rfl, fun _ => rfl⟩
    exact hthrottle.trans (State.Keeps.foldl (fun _ _ => (State.Keeps.upCore rfl rfl rfl).trans (State.Keeps.kick _)) _)

/-! ### The obligation -/

/-- A core whose one slot holds a thread holds that thread alone. -/
theorem Core.threads_single {x : Core} (hx : x.slots = [(k, { thread := some t })]) :
    x.threads = [(k, t)] ∧ (x.slot k).thread = some t := by
  rw [Core.threads, Core.slot, hx]
  simp [Map.find]

theorem Thread.resumePc_noSect (hsect : t.sect = none) :
    t.resumePc = match t.status with | .parked _ (.fault r _ _ _ _ _) => r | _ => t.pc := by
  cases t
  cases hsect
  rfl

/-- R347: an uncorrectable error ends the kernel whose core it strikes, or parks the thread of another core. -/
theorem execUncorrectableCoreStateError_single (hl : isLarge c = false) (hk : isKernelCore c = false)
    (hx : (s.core c).slots = [(k, { thread := some t })]) (hsect : t.sect = none) :
    ∃ u v, execUncorrectableCoreStateError c s = .next u ∧ u.thread c k = some v ∧
      v.status = .parked .fault (.fault t.resumePc 0x12 0 t.pc 0 none) := by
  obtain ⟨hthreads, ht⟩ := Core.threads_single hx
  obtain ⟨v, hv, hstatus⟩ := State.strike_status ht hsect
  refine ⟨s.strike c k, v, ?_, hv, hstatus⟩
  rw [execUncorrectableCoreStateError_user hl hk, hthreads]
  rfl

/-- R348: what a termination leaves, and what it puts on the agenda. -/
theorem execKernelTermination_next {kern : Nat} (hk : kern = 1 ∨ kern = 2) : ∃ u, execKernelTermination kern s = .next u ∧
    coming u (u.cyc + Config.freeNat (u.free - 1)) (.kernelRestart kern) ∧
    (∀ k, s.io.kernels.find kern = some k → ∃ k', u.io.kernels.find kern = some k' ∧ k'.down = true) ∧
    (∀ o, s.io.kernels.find (3 - kern) = some o → ∃ o', u.io.kernels.find (3 - kern) = some o' ∧
      o'.notices = o.notices ++ [(8, 0, 0, s.cyc)]) ∧
    coming u (s.cyc + noticeTime) (.noticeWrite (3 - kern)) :=
  have hended := State.upKernel_told (f := fun k => { k with down := true }) (ended_told (s := s) kern)
  ⟨_, execKernelTermination_runs hk, State.after_coming _ _ _, fun _ ho => ⟨_, tellOther_changed hk hended ho, rfl⟩,
    fun _ ho => ⟨_, tellOther_notices hk hended ho, rfl⟩, State.after_coming_old _ _ _ (tellOther_coming hended)⟩

/-- R348: a kernel that was down runs at its entry, and the other kernel is told. -/
theorem execKernelRestart_next {kern : Nat} {o : Kernel} (hk : kern = 1 ∨ kern = 2) (ho : s.io.kernels.find kern = some o)
    (hdown : o.down = true) : ∃ u v, execKernelRestart kern s = .next u ∧ u.thread (serviceCore kern) 0 = some v ∧
      v.pc = s.sys.image.entryOf kern ∧ v.lvl = false ∧
      (∃ k', u.io.kernels.find kern = some k' ∧ k'.down = false) ∧
      (∀ o, s.io.kernels.find (3 - kern) = some o → ∃ o', u.io.kernels.find (3 - kern) = some o' ∧
        o'.notices = o.notices ++ [(9, 0, 0, s.cyc)]) ∧
      coming u (s.cyc + noticeTime) (.noticeWrite (3 - kern)) := by
  have hrestarted := restarted_told (s := s) kern
  obtain ⟨ready, hthread⟩ := restarted_thread (s := s) kern
  exact ⟨_, _, execKernelRestart_runs ho hdown, hthread, rfl, rfl, ⟨_, tellOther_changed hk hrestarted ho, rfl⟩,
    fun _ ho' => ⟨_, tellOther_notices hk hrestarted ho', rfl⟩, tellOther_coming hrestarted⟩

/-- R365: a bring-up whose stages all pass starts from the image. -/
theorem execPowerUp_passes (hp : s.sys.powered = false) (hf : Config.failedStage s.free = none) :
    ∃ u, execPowerUp s = .next u ∧ u.sys.ready = (if s.sys.image.attached then 5 else 1) ∧ u.sys.powered = true ∧
      u.mem = {} ∧ u.free = s.free + 1 := by
  simp [execPowerUp, hp, hf, State.boot]

/-- The state in which bring-up has ended at a stage. -/
def failedUp (s : State) (k : Fin 7) : State :=
  { s with
    free := s.free + 1
    sys := { s.sys with powered := true, ready := BitVec.ofNat 64 (256 * (k.val + 1) + 4 * s.sys.image.attached.toNat) } }

/-- R365: a bring-up in which a stage fails starts no core. -/
theorem execPowerUp_fails {k : Fin 7} (hp : s.sys.powered = false) (hf : Config.failedStage s.free = some k) :
    ∃ u, execPowerUp s = .next u ∧ u.sys.powered = true ∧ u.sys.ready.getLsbD 0 = false ∧
      u.sys.ready.toNat / 256 = k.val + 1 ∧ u.cores = s.cores := by
  obtain ⟨hready, hstage⟩ := failedReady k s.sys.image.attached
  refine ⟨failedUp s k, ?_, rfl, hready, hstage, rfl⟩
  simp [execPowerUp, failedUp, hp, hf]

/-- Settles O60: each event is `exec`'s own operation, and what it leaves is said of that operation above. -/
theorem kernelsRestartAndPowerComesAndGoes : Obligations.KernelsRestartAndPowerComesAndGoes := by
  refine ⟨fun s c => ⟨fun hl => ?_, fun hl hk => ?_, fun k t hl hk hx hsect _ => ?_⟩, fun s kern k hk ho hdown => ?_,
    fun _ _ _ => execKernelRestart_up,
    fun _ _ => ⟨execKernelTermination_other, execKernelTermination_next⟩, fun s => ?_, fun s v => ?_, fun s c => ?_,
    fun s => ?_⟩
  · exact if_pos hl
  · exact (if_neg (Bool.eq_false_iff.1 hl)).trans (if_pos hk)
  · obtain ⟨u, v, hu, hv, hstatus⟩ := execUncorrectableCoreStateError_single hl hk hx hsect
    exact ⟨u, v, hu, hv, hstatus.trans
      (congrArg (fun r => Status.parked .fault (.fault r 0x12 0 t.pc 0 none)) (Thread.resumePc_noSect hsect))⟩
  · exact execKernelRestart_next hk ho hdown
  · exact ⟨⟨s.off, rfl, rfl, rfl, rfl⟩, ⟨s.off, rfl, rfl, rfl, rfl, rfl, rfl, rfl, rfl⟩, rfl, execPowerUp_on,
      execPowerUp_passes, fun _ => execPowerUp_fails⟩
  · exact ⟨_, rfl, ptp_disciplined v, rfl, rfl⟩
  · exact ⟨_, rfl, released c⟩
  · obtain ⟨u, hu, hthrottle, hmem, hkeeps⟩ := execThermalThrottle_keeps (s := s)
    exact ⟨u, hu, hthrottle, hmem, hkeeps.regs⟩

end Sys2Proof.Machine
end

section
/-! PROOFS. Inbound requests and flits. A request of one aligned word comes to the ordering point in one part
(`comeIn_one`), and the threads that go on when a far end has completed leave the links alone (`State.poke_links`). -/

namespace Sys2Proof.Machine

variable {s : State} {p : Word} {data : List Byte}

/-! ### The ordering point (R118) -/

/-- The request as which an aligned word comes to the ordering point. -/
def wordIn (s : State) (src : Nat) (p : Word) (data : List Byte) (read : Nat) (ro : Bool) : Inbound :=
  { seq := s.serial, addr := p, data := data, read := read, ro := ro, src := src }

/-- Eight bytes from an aligned address lie in one block of 1 KiB, so that they are one part. -/
theorem partAt_word {a : Nat} (ha : a % 8 = 0) (read : Bool) : partAt a 8 read = 8 := by
  have hroom : 8 ≤ 1024 - a % 1024 := by omega
  cases read with
  | true => exact Nat.min_eq_left hroom
  | false =>
    have hone : min 1 ((1024 - a % 1024) / 8) = 1 := Nat.min_eq_left (by omega)
    simp [partAt, ha, hone]

theorem partsAt_word (hp : p.toNat % 8 = 0) (read : Bool) : partsAt p read 0 9 8 = [(0, 8)] := by
  simp [partsAt, partAt_word hp]

/-- An aligned word comes to the ordering point as one request, with the next serial number. -/
theorem comeIn_word {read : Nat} (hp : p.toNat % 8 = 0) (hdata : data.length ≤ 8)
    (hn : (if read = 0 then data.length else read) = 8) (src : Nat) (ro : Bool) :
    s.comeIn src p data read ro =
      (s.fresh.2.upLinks fun l => { l with inbound := l.inbound ++ [wordIn s src p data read ro] }).after 0 20
        .orderingPointSend := by
  have hread : (if read = 0 then 0 else 8) = read := by grind
  simp only [State.comeIn, hn, partsAt_word hp, List.foldl_cons, List.foldl_nil, hread, List.drop_zero,
    List.take_of_length_le hdata, BitVec.add_zero]
  rfl

theorem comeIn_one {read : Nat} (hp : p.toNat % 8 = 0) (hdata : data.length ≤ 8)
    (hn : (if read = 0 then data.length else read) = 8) (src : Nat) (ro : Bool) :
    let u := s.comeIn src p data read ro
    u.links.inbound = s.links.inbound ++ [wordIn s src p data read ro] ∧ (wordIn s src p data read ro).seq = s.serial ∧
      coming u s.cyc .orderingPointSend ∧ u.mem = s.mem := by
  rw [comeIn_word hp hdata hn]
  exact ⟨rfl, rfl, State.after_coming 0 20 _, rfl⟩

/-- A request that stands alone at the ordering point, with no earlier write under way, is sent. -/
theorem execOrderingPointSend_alone {i : Inbound} (hi : s.links.inbound = [i]) (hs : s.links.sending = []) :
    execOrderingPointSend s = .next (s.sendIn i) := by
  simp [execOrderingPointSend, State.sendAllIn, hi, hs]

/-! ### What comes in before and after bring-up (R352, R358, R365) -/

theorem not_isReady (hr : s.sys.ready.getLsbD 0 = false) : (!s.sys.isReady) = true := by rw [Sys.isReady, hr]; rfl

theorem execPcieInboundWrite_unready (hr : s.sys.ready.getLsbD 0 = false) (addr : Word) (ro : Bool) :
    execPcieInboundWrite addr data ro s = .next (s.emit .unsupported) := if_pos (not_isReady hr)

theorem execPcieInboundRead_unready (hr : s.sys.ready.getLsbD 0 = false) (addr : Word) (n : Nat) :
    execPcieInboundRead addr n s = .next (s.emit .unsupported) := if_pos (.inl (not_isReady hr))

theorem execExrinInboundRequest_unready (hr : s.sys.ready.getLsbD 0 = false) (pkg : Nat) (addr : Word) (write ordered : Bool) :
    execExrinInboundRequest pkg addr data write ordered s = .next (s.emit .unsupported) := if_pos (not_isReady hr)

theorem execPcieConfigurationRequest_answers :
    execPcieConfigurationRequest s = .next (s.emit (if s.sys.ready.getLsbD 0 then .completion [] else .retry)) := rfl

theorem execPcieInboundWrite_ready (hr : s.sys.ready.getLsbD 0 = true) (addr : Word) (ro : Bool) :
    execPcieInboundWrite addr data ro s = .next (s.comeIn 0 addr data 0 ro) := by
  simp [execPcieInboundWrite, Sys.isReady, hr]

theorem execPcieInboundRead_ready {n : Nat} (hr : s.sys.ready.getLsbD 0 = true) (hn : n ≠ 0) (addr : Word) :
    execPcieInboundRead addr n s = .next (s.comeIn 0 addr [] n false) := by
  simp [execPcieInboundRead, Sys.isReady, hr, hn]

/-- The pointer that another package's address becomes: a physical one, in space 4 (log 19). -/
def exrinPtr (addr : Word) : Word := BitVec.ofNat 64 (4 * 2 ^ 57 + addr.toNat % 2 ^ 57)

theorem exrinPtr_toNat (addr : Word) : (exrinPtr addr).toNat = 4 * 2 ^ 57 + addr.toNat % 2 ^ 57 := by
  simp only [exrinPtr, BitVec.toNat_ofNat]
  omega

theorem exrinPtr_space (addr : Word) : spaceOf (exrinPtr addr) = 4 := by
  simp only [spaceOf, BitVec.extractLsb'_toNat, exrinPtr_toNat, Nat.shiftRight_eq_div_pow]
  omega

theorem exrinPtr_offset (addr : Word) : offsetOf (exrinPtr addr) = addr.toNat % 2 ^ 57 := by
  have hbits : offsetBits 4 = 57 := rfl
  rw [offsetOf, exrinPtr_space, hbits, exrinPtr_toNat]
  omega

theorem exrinPtr_aligned {addr : Word} (ha : addr.toNat % 8 = 0) : (exrinPtr addr).toNat % 8 = 0 := by
  rw [exrinPtr_toNat]
  omega

theorem execExrinInboundRequest_write (hr : s.sys.ready.getLsbD 0 = true) (pkg : Nat) (addr : Word) (ordered : Bool) :
    execExrinInboundRequest pkg addr data true ordered s =
      .next (s.comeIn (pkg + 1) (exrinPtr addr) data 0 (!ordered)) := by
  simp [execExrinInboundRequest, Sys.isReady, hr, exrinPtr]

/-! ### Flits (R358) -/

theorem execExrinFlitReceive_authentic {port : Nat} (hd : s.links.downPorts.contains port = false) :
    execExrinFlitReceive port true s = .next (s.upLinks fun l => { l with failures := l.failures.put port 0 }) := by
  rw [execExrinFlitReceive, hd]
  rfl

/-- The state in which a port has counted its `n`-th failure in a row and asked for the flit again. -/
def State.flitFailed (s : State) (port n : Nat) : State :=
  (s.upLinks fun l => { l with failures := l.failures.put port n }).emit .retry

theorem execExrinFlitReceive_failed {port : Nat} (hd : s.links.downPorts.contains port = false) :
    let n := (s.links.failures.find port).getD 0 + 1
    execExrinFlitReceive port false s = .next (if n < 3 then s.flitFailed port n
      else (s.flitFailed port n).upLinks fun l => { l with downPorts := port :: l.downPorts }) := by
  rw [execExrinFlitReceive, hd]
  rfl

/-- A flit that fails authentication is counted and asked for again, and the third in a row takes the port down. -/
theorem execExrinFlitReceive_counts {port : Nat} (hd : s.links.downPorts.contains port = false) :
    let before := (s.links.failures.find port).getD 0
    ∃ u, execExrinFlitReceive port false s = .next u ∧ u.links.failures.find port = some (before + 1) ∧
      u.links.outbox = s.links.outbox ++ [.retry] ∧ (port ∈ u.links.downPorts ↔ 3 ≤ before + 1) := by
  have hup : port ∉ s.links.downPorts := by simpa using hd
  refine ⟨_, execExrinFlitReceive_failed hd, ?_⟩
  split
  · next hlt => exact ⟨Map.find_put_self _ _ _, rfl, iff_of_false hup (Nat.not_le.2 hlt)⟩
  · next hlt => exact ⟨Map.find_put_self _ _ _, rfl, iff_of_true List.mem_cons_self (Nat.not_lt.1 hlt)⟩

/-! ### Far ends (R119) -/

@[simp] theorem State.kick_links (c : Nat) : (s.kick c).links = s.links := by
  unfold State.kick
  repeat' split
  all_goals rfl

@[simp] theorem State.enter_links (c k : Nat) : (s.enter c k).links = s.links := by
  unfold State.enter
  split
  · rfl
  · simp

@[simp] theorem State.wake_links (c k : Nat) : (s.wake c k).links = s.links := by
  unfold State.wake
  repeat' split
  all_goals simp

@[simp] theorem State.poke_links (t : Tid) : (s.poke t).links = s.links := by
  unfold State.poke
  repeat' split
  all_goals simp

theorem execFarEndCompletion_completes (n : Nat) : ∃ u, execFarEndCompletion n s = .next u ∧
    u.links.farWrites = s.links.farWrites.filter (fun w => !(w.2.1 == n)) ∧ u.mem = s.mem :=
  ⟨_, rfl, congrArg Links.farWrites (foldl_same State.links (fun _ _ => State.poke_links _) _),
    foldl_mem _ (fun _ _ => State.poke_mem _) _⟩

/-- Settles O58: each event is `exec`'s own operation, and what it leaves is said of that operation above. -/
theorem inboundRequestsAreOrdered : Obligations.InboundRequestsAreOrdered := by
  refine ⟨fun s addr data n pkg ro => ⟨rfl, fun hr => ?_, fun hr => ?_⟩, fun s addr data ro pkg hr ha hd => ?_,
    fun s port hd => ⟨?_, execExrinFlitReceive_counts hd⟩, fun s hi => ?_, fun _ _ => execOrderingPointSend_alone,
    fun _ => execFarEndCompletion_completes⟩
  · refine ⟨execPcieInboundWrite_unready hr addr ro, execPcieInboundRead_unready hr addr n, ?_,
      execExrinInboundRequest_unready hr pkg addr true ro⟩
    exact execPcieConfigurationRequest_answers.trans (by rw [hr]; rfl)
  · exact execPcieConfigurationRequest_answers.trans (by rw [hr]; rfl)
  · refine ⟨⟨_, _, execPcieInboundWrite_ready hr addr ro, comeIn_one (read := 0) ha hd.le hd 0 ro, rfl, rfl, rfl, rfl, rfl⟩,
      ⟨_, _, execPcieInboundRead_ready hr (by decide) addr, comeIn_one ha (Nat.zero_le _) rfl 0 false, rfl, rfl, rfl⟩,
      ⟨_, _, execExrinInboundRequest_write hr pkg addr true, comeIn_one (read := 0) (exrinPtr_aligned ha) hd.le hd (pkg + 1) false,
        rfl, rfl, rfl, rfl, exrinPtr_offset addr, exrinPtr_space addr⟩⟩
  · exact ⟨_, execExrinFlitReceive_authentic hd, Map.find_put_self _ _ _, rfl⟩
  · change execOrderingPointSend s = _
    rw [execOrderingPointSend, hi]
    rfl

end Sys2Proof.Machine
end

section
/-! PROOFS. FENCE and monitors: each instruction is an issue (`issue_runs`) whose case is read off its checks. What an
instruction does that waits in place is said once of `Cx.again` (`again_parks`). -/

namespace Sys2Proof.Machine

variable {s : State} {h : Hand} {t : Thread}

/-! ### An instruction that waits and goes on later (R59) -/

/-- An instruction that has issued and waits leaves its thread parked at its own address, and memory as it was. -/
theorem again_parks (why : Park) (ht : s.thread h.core h.slot = some t) :
    ∃ u v, (cxAt s h t).again (begun s h) why = .next u ∧ u.thread h.core h.slot = some v ∧
      v.status = .parked why .retry ∧ v.pc = t.pc ∧ u.mem = s.mem :=
  have hthread : ((begun s h).upThread h.core h.slot fun v => { v with restart := t.restart }).thread h.core h.slot =
      some { t.issuing with restart := t.restart } :=
    (State.upThread_thread_self _ _ _ _).trans (congrArg _ (begun_thread_self ht))
  ⟨_, _, rfl, State.park_thread why .retry hthread, rfl, rfl, State.park_mem _ _⟩

/-! ### FENCE (R126) -/

theorem quiet_of_accessesDone {i : Tid} (hd : s.accessesDone i t = true) : s.quiet t = true ∧ s.vecMemory i true = false := by
  rw [State.accessesDone, Bool.and_eq_true, beq_iff_eq, Bool.not_eq_true'] at hd
  obtain ⟨hr, hv⟩ := hd
  exact ⟨by rw [State.quiet, hr]; rfl, hv⟩

/-- An instruction whose accesses and release effects have finished has its effect. -/
theorem releasing_done {m : Mod} (body : State → Out) (hd : (begun s h).accessesDone ((cxOf h t).tid (begun s h)) t = true)
    (hr : m.release = true → (begun s h).releaseDone ((cxOf h t).tid (begun s h)) m.scope = true) :
    (cxAt s h t).releasing (begun s h) m body = body (begun s h) := by
  cases hm : m.release with
  | false => exact Cx.releasing_of_none _ _ hm
  | true =>
    have hd' : (begun s h).accessesDone ((cxAt s h t).tid (begun s h)) (cxAt s h t).th = true := hd
    have hr' : (begun s h).releaseDone ((cxAt s h t).tid (begun s h)) m.scope = true := hr hm
    simp [Cx.releasing, hm, hd', hr']

theorem execFence_passes {m : Mod} (hi : Issues s (lateKind .barred) h t)
    (hd : (begun s h).accessesDone ((cxOf h t).tid (begun s h)) t = true)
    (hdef : t.deferred.find? (dueAt (lateKind .barred)) = none)
    (hr : m.release = true → (begun s h).releaseDone ((cxOf h t).tid (begun s h)) m.scope = true)
    (ha : m.acquire = true →
      ((begun s h).acquire ((cxOf h t).tid (begun s h)) (acqOf m)).acquiring ((cxOf h t).tid (begun s h)) = false) :
    exec (.fence m) s = .next (passes ((begun s h).acquire ((cxOf h t).tid (begun s h)) (acqOf m)) h t) := by
  have hth : (cxAt s h t).th = t := rfl
  have htid : (cxAt s h t).tid (begun s h) = (cxOf h t).tid (begun s h) := rfl
  obtain ⟨hq, hv⟩ := quiet_of_accessesDone hd
  have hnone : (m.acquire && ((begun s h).acquire ((cxOf h t).tid (begun s h)) (acqOf m)).acquiring
      ((cxOf h t).tid (begun s h))) = false := by
    cases hm : m.acquire with
    | false => rfl
    | true => exact ha hm
  change execFence m s = _
  rw [execFence, issue_runs hi]
  simp only [hth, htid, hq, hv, Cx.deliverDue, hdef, releasing_done _ hd hr, hnone]
  rfl

theorem execFence_waits {m : Mod} (hi : Issues s (lateKind .barred) h t)
    (hw : (begun s h).quiet t = false ∨ (begun s h).vecMemory ((cxOf h t).tid (begun s h)) true = true) :
    exec (.fence m) s = (cxAt s h t).again (begun s h) .mem := by
  have hout : (!(begun s h).quiet t || (begun s h).vecMemory ((cxOf h t).tid (begun s h)) true) = true := by
    rcases hw with hw | hw <;> simp [hw]
  change execFence m s = _
  rw [execFence, issue_runs hi]
  exact if_pos hout

/-! ### MON.ARM and MON.CLR (R145, R146) -/

theorem execMonArm_asks {d a : Reg} {mon : BitVec 2} {p : Word} (hi : Issues s (plainKind [d, a]) h t)
    (hp : effective (regOf s h t a) 0 = .ok p)
    (ha : Admits s h t p { op := .arm mon.toNat, use := .reg (rn d), align := 1, bytes := 1, redir := .forbidden }) :
    exec (.monArm d a mon) s = .next (asks s h t p
      { op := .arm mon.toNat, use := .reg (rn d), align := 1, bytes := 1, redir := .forbidden }) := by
  change execMonArm d a mon s = _
  rw [execMonArm, issue_runs hi, begun_regOf]
  exact access_runs hp ha

theorem execMonClr_drops {mon : BitVec 3} (hi : Issues s { bad := decide (4 < mon.toNat) } h t) :
    exec (.monClr mon) s = .next (passes (if mon = 4 then (begun s h).disarmAll h.core h.slot
      else (begun s h).disarm h.core h.slot mon.toNat) h t) := by
  have hfour : mon.toNat = 4 ↔ mon = 4 := ⟨fun e => BitVec.eq_of_toNat_eq e, fun e => e ▸ rfl⟩
  change execMonClr mon s = _
  rw [execMonClr, issue_runs hi]
  simp only [hfour]
  split <;> rfl

/-! ### MWAIT (R148) -/

/-- The state in which an MWAIT that has to wait leaves the machine, but for the step that ends it at its limit. -/
def awaits (s : State) (h : Hand) (t : Thread) (m : Mod) (d : Reg) (limit : Option Nat) : State :=
  (begun s h).park h.core h.slot .mwait (.mwait (rn d) limit (stepPc t.pc h.len) (acqOf m) false)

theorem awaits_thread (m : Mod) (d : Reg) (limit : Option Nat) (ht : s.thread h.core h.slot = some t) :
    ∃ v, (awaits s h t m d limit).thread h.core h.slot = some v ∧
      v.status = .parked .mwait (.mwait (rn d) limit (stepPc t.pc h.len) (acqOf m) false) :=
  ⟨_, State.park_thread _ _ (begun_thread_self ht), rfl⟩

/-- MWAIT has nothing to wait for, finds fired monitors, or parks. -/
theorem execMwait_runs {m : Mod} {d a : Reg} (hi : Issues s (plainKind [d, a]) h t) (hc : isLarge h.core = false) :
    let time := (regOf s h t a).toNat
    let last := s.cyc + Max.max 8 time
    exec (.mwait m d a) s =
      if t.mons.isEmpty ∧ time = 0 then .next (retires s h t d 0x40)
      else if t.fired ≠ 0 then
        .next (ends ((begun s h).upThread h.core h.slot Thread.calm) h t d (BitVec.ofNat 64 t.fired))
      else if time = 0 then .next (awaits s h t m d none)
      else .next ((awaits s h t m d (some last)).post last 40 (.mwaitTimeout (s.tidAt h.core h.slot))) := by
  have hacq (b : State) (i : Tid) (hi : i = s.tidAt h.core h.slot) : b.acquire i (acqOf m) = b :=
    State.acquire_small _ (hi ▸ hc)
  have htid (u : State) : (cxAt s h t).tid u = u.tidAt h.core h.slot := rfl
  change execMwait m d a s = _
  rw [execMwait, issue_runs hi]
  simp only [begun_regOf, htid, State.park_tidAt, begun_tidAt, hacq _ _ rfl]
  refine if_congr Iff.rfl rfl (if_congr Iff.rfl rfl ?_)
  by_cases hz : (regOf s h t a).toNat = 0
  · simp only [if_pos hz]
    rfl
  · simp only [if_neg hz]
    rfl

theorem fired_of_unarmed (hm : t.mons = []) : t.fired = 0 := by rw [Thread.fired, hm]; rfl

/-- Settles O25: FENCE goes on or waits (`execFence_passes`, `execFence_waits`), and each monitor instruction's cases are its
operation's. -/
theorem fencesWaitAndMonitorsAreArmed : Obligations.FencesWaitAndMonitorsAreArmed := by
  refine ⟨fun s h t m hi => ⟨execFence_passes hi, fun hc => State.acquire_small (acqOf m) hc, fun hw => ?_⟩,
    fun s h t d a mon p hi hp ha => execMonArm_asks hi hp ha, fun s h t mon hi => execMonClr_drops hi,
    fun s h t m d a hi hc => ?_⟩
  · rw [execFence_waits hi hw]
    exact again_parks .mem hi.live
  · intro time
    have hruns := execMwait_runs (m := m) hi hc
    refine ⟨fun hm hz => ?_, fun hf => ?_, fun hf hwait => ?_⟩
    · exact hruns.trans (if_pos ⟨List.isEmpty_iff.2 hm, hz⟩)
    · have harmed : ¬ (t.mons.isEmpty ∧ time = 0) := fun he => hf (fired_of_unarmed (List.isEmpty_iff.1 he.1))
      exact hruns.trans ((if_neg harmed).trans (if_pos hf))
    · have hneeds : ¬ (t.mons.isEmpty ∧ time = 0) := fun he =>
        hwait.elim (fun hne => hne (List.isEmpty_iff.1 he.1)) (fun hne => hne he.2)
      have hparks := hruns.trans ((if_neg hneeds).trans (if_neg (not_not.2 hf)))
      by_cases hz : time = 0
      · obtain ⟨v, hv, hstatus⟩ := awaits_thread m d none hi.live
        refine ⟨_, v, hparks.trans (if_pos hz), hv, ?_, fun hne => absurd hz hne⟩
        rw [hstatus, if_pos hz]
      · obtain ⟨v, hv, hstatus⟩ := awaits_thread m d (some (s.cyc + Max.max 8 time)) hi.live
        refine ⟨_, v, hparks.trans (if_neg hz), hv, ?_, fun _ => State.post_coming _ _ _⟩
        rw [hstatus, if_neg hz]

end Sys2Proof.Machine
end

section
/-! PROOFS. Copy commands. What lets threads go on leaves the engines alone (`State.pokeCore_copy`), so that, of the
commands in flight, only the one that leaves is gone (`State.dropCopy_flight`); a command that has met a kernel event at the first part that is
left has nothing to write (`State.pushAll_sent`) and stalls with a record (`State.copyStops_stalls`). -/

namespace Sys2Proof.Machine

variable {s : State} {c id n code p : Nat} {info : Word} {q : CopyCmd} {r : Req}

/-! ### Steps that leave the copy engines alone -/

theorem State.upCore_copy (c : Nat) (f : Core → Core) (hf : (f (s.core c)).copy = (s.core c).copy) (c' : Nat) :
    ((s.upCore c f).core c').copy = (s.core c').copy := by
  rw [State.upCore_core]
  split
  · next hc => rw [hf, hc]
  · rfl

@[simp] theorem State.upThread_copy (c k : Nat) (f : Thread → Thread) (c' : Nat) :
    ((s.upThread c k f).core c').copy = (s.core c').copy := by
  obtain ⟨_, hcore⟩ := s.upThread_core c k f c'
  rw [hcore]

@[simp] theorem State.kick_copy (c c' : Nat) : ((s.kick c).core c').copy = (s.core c').copy := by
  have hat (t : Nat) : ((s.upCore c fun x => { x with issueAt := some t }).core c').copy = (s.core c').copy :=
    State.upCore_copy c _ rfl c'
  unfold State.kick
  split
  · rfl
  · split
    · split
      · rfl
      · exact hat _
    · exact hat _

@[simp] theorem State.enter_copy (c k c' : Nat) : ((s.enter c k).core c').copy = (s.core c').copy := by
  unfold State.enter
  split
  · rfl
  · rw [State.kick_copy, State.upThread_copy]
    exact State.upCore_copy c _ rfl c'

@[simp] theorem State.wake_copy (c k c' : Nat) : ((s.wake c k).core c').copy = (s.core c').copy := by
  unfold State.wake
  split
  · rfl
  · split
    · exact State.enter_copy _ _ _
    · exact State.upThread_copy _ _ _ _

@[simp] theorem State.poke_copy (t : Tid) (c : Nat) : ((s.poke t).core c).copy = (s.core c).copy := by
  unfold State.poke
  split
  · split
    · rfl
    · rfl
    · split
      · rfl
      · exact State.wake_copy _ _ _
    · rfl
  · rfl

@[simp] theorem State.pokeCore_copy (c c' : Nat) : ((s.pokeCore c).core c').copy = (s.core c').copy :=
  foldl_same (fun u => (u.core c').copy) (fun _ _ => State.poke_copy _ _) _

@[simp] theorem State.kickCopy_core (c c' : Nat) : (s.kickCopy c).core c' = s.core c' := by
  unfold State.kickCopy
  dsimp only
  repeat' split
  all_goals rfl

@[simp] theorem State.kickCopy_reqs (c : Nat) : (s.kickCopy c).reqs = s.reqs := by
  unfold State.kickCopy
  dsimp only
  repeat' split
  all_goals rfl

/-! ### The queue's head starts (R155) -/

/-- The state in which the one command of the queue has started, but for its reads. -/
def headStarted (s : State) (c : Nat) (q : CopyCmd) : State :=
  s.upCore c fun x => { x with copy := { x.copy with queue := [], flight := [q], busy := s.cyc + q.beats } }

theorem headStarted_copy : ((headStarted s c q).core c).copy =
    { (s.core c).copy with queue := [], flight := [q], busy := s.cyc + q.beats } := by
  rw [headStarted, State.upCore_core_self]

theorem execCopyCommandStart_starts (hq : (s.core c).copy.queue = [q]) (hf : (s.core c).copy.flight = [])
    (he : q.effect < s.cyc) (hb : (s.core c).copy.busy ≤ s.cyc) :
    exec (.copyCommandStart c) s =
      .next (((if q.parts ≤ q.base then (headStarted s c q).after 0 8 (.engineCommandComplete c q.id)
        else (headStarted s c q).startReads q).grantCopy c).kickCopy c) := by
  have hmay : ¬ (16 ≤ (s.core c).copy.flight.length ∨ s.cyc < (s.core c).copy.busy ∨ s.cyc < q.effect + 1) := by
    rw [hf]
    simp only [List.length_nil]
    omega
  have hhead : (s.upCore c fun x =>
      { x with copy := { x.copy with queue := [], flight := x.copy.flight ++ [q], busy := s.cyc + q.beats } }) =
      headStarted s c q := by
    simp [headStarted, State.upCore, hf]
  change execCopyCommandStart c s = _
  simp only [execCopyCommandStart, hq, if_neg hmay, hhead]

/-- Where no thread waits for an entry, none is granted. -/
theorem State.grantCopy_nobody (hw : (s.core c).copy.wants = []) :
    s.grantCopy c = s.upCore c fun x => { x with copy := { x.copy with wants := [] } } := by
  simp [State.grantCopy, hw]

theorem State.kickCopy_empty (hq : (s.core c).copy.queue = []) : s.kickCopy c = s := by
  simp [State.kickCopy, hq]

/-- An engine whose queue is empty and for whose entries no thread waits grants none, and starts nothing. -/
theorem State.grantCopy_idle (hq : (s.core c).copy.queue = []) (hw : (s.core c).copy.wants = []) :
    (s.grantCopy c).kickCopy c = s.upCore c fun x => { x with copy := { x.copy with wants := [] } } := by
  rw [State.grantCopy_nobody hw, State.kickCopy_empty]
  rwa [State.upCore_core_self]

/-- A command with no part left is in flight, and completes in this cycle. -/
theorem execCopyCommandStart_nothing (hq : (s.core c).copy.queue = [q]) (hf : (s.core c).copy.flight = [])
    (hw : (s.core c).copy.wants = []) (he : q.effect < s.cyc) (hb : (s.core c).copy.busy ≤ s.cyc)
    (hnone : q.parts ≤ q.base) :
    ∃ u, exec (.copyCommandStart c) s = .next u ∧ (u.core c).copy.queue = [] ∧ (u.core c).copy.flight = [q] ∧
      coming u s.cyc (.engineCommandComplete c q.id) ∧ u.mem = s.mem := by
  have hcopy : (((headStarted s c q).after 0 8 (.engineCommandComplete c q.id)).core c).copy =
      { (s.core c).copy with queue := [], flight := [q], busy := s.cyc + q.beats } := headStarted_copy
  have hidle := State.grantCopy_idle (congrArg CopyEngine.queue hcopy) ((congrArg CopyEngine.wants hcopy).trans hw)
  rw [execCopyCommandStart_starts hq hf he hb, if_pos hnone, hidle]
  refine ⟨_, rfl, ?_, ?_, ?_, rfl⟩
  · rw [State.upCore_core_self]
    exact congrArg CopyEngine.queue hcopy
  · rw [State.upCore_core_self]
    exact congrArg CopyEngine.flight hcopy
  · exact State.after_coming (s := headStarted s c q) 0 8 _

/-! ### Acknowledgements (R123, R172) -/

theorem State.touchBar_tbar (c n : Nat) (f : TBar → TBar) :
    ((s.touchBar c n f).core c).tbar n = f ((s.core c).tbar n) := by
  have hput : ((s.upCore c fun x => { x with tbars := x.tbars.put n (f (x.tbar n)) }).core c).tbar n =
      f ((s.core c).tbar n) := by
    rw [State.upCore_core_self, Core.tbar, Map.find_put_self]
    rfl
  unfold State.touchBar
  dsimp only
  split <;> exact hput

theorem State.countBytes_tbar (c n bytes : Nat) (hinit : ((s.core c).tbar n).init = false) :
    ((s.countBytes c n bytes).core c).tbar n =
      { (s.core c).tbar n with c := ((s.core c).tbar n).c - BitVec.ofNat 36 bytes } := by
  rw [State.countBytes, State.touchBar_tbar]
  exact if_neg (Bool.eq_false_iff.1 hinit)

theorem State.countBytes_cyc (c n bytes : Nat) : (s.countBytes c n bytes).cyc = s.cyc := by
  unfold State.countBytes State.touchBar
  dsimp only
  split <;> rfl

/-- The last acknowledgement counts its bytes, and the command completes in this cycle. -/
theorem execEngineWriteAck_last {bytes : Nat} (hq : s.copyCmd c id = some q) (htb : q.tb = some n) (hbytes : 0 < bytes)
    (hmet : q.met = none) (hall : q.acked.length = q.parts - q.base) :
    exec (.engineWriteAck c id bytes) s = .next ((s.countBytes c n bytes).after 0 8 (.engineCommandComplete c id)) := by
  change execEngineWriteAck c id bytes s = _
  simp only [execEngineWriteAck, hq, htb, if_neg hbytes.ne', hmet, hall]
  rfl

/-! ### Completion (R155) -/

theorem execEngineCommandComplete_leaves (hq : s.copyCmd c id = some q) (hall : q.acked.length = q.parts - q.base)
    (hs : q.stalled = false) : exec (.engineCommandComplete c id) s = .next (s.dropCopy c id) := by
  change execEngineCommandComplete c id s = _
  simp [execEngineCommandComplete, hq, hall, hs]

theorem State.retryCfg_nothing (hr : s.reqs = []) : s.retryCfg c = s := by
  rw [State.retryCfg, hr]
  rfl

/-- A command that leaves its engine leaves it with the others, where no request waits for that. -/
theorem State.dropCopy_flight (hr : s.reqs = []) (c id : Nat) :
    ((s.dropCopy c id).core c).copy.flight = (s.core c).copy.flight.filter fun x => x.id != id := by
  unfold State.dropCopy
  extract_lets who s1 s2 s3 s4
  clear_value who
  have h1 : (s1.core c).copy.flight = (s.core c).copy.flight.filter fun x => x.id != id := by
    unfold s1
    rw [State.upCore_core_self]
  have h3 : (s3.core c).copy = (s1.core c).copy := by
    have hreqs : (s2.kickCopy c).reqs = [] := (State.kickCopy_reqs c).trans hr
    rw [State.pokeCore_copy, State.retryCfg_nothing hreqs, State.kickCopy_core]
    rfl
  have h4 : (s4.core c).copy = (s3.core c).copy := by
    unfold s4
    split
    · split
      · rfl
      · exact State.poke_copy _ _
    · rfl
  rw [← h1, ← h3, ← h4]
  split <;> rfl

/-! ### A kernel event at the first part that is left (R166, R192) -/

theorem copyCmd_of_flight (hf : (s.core c).copy.flight = [q]) (hid : q.id = id) : s.copyCmd c id = some q := by
  simp [State.copyCmd, hf, hid]

theorem State.upCopy_flight (c id : Nat) (f : CopyCmd → CopyCmd) :
    ((s.upCopy c id f).core c).copy.flight = (s.core c).copy.flight.map fun q => if q.id = id then f q else q := by
  have hcore (g : Core → Core) (m : Map Cluster) : ({ s.upCore c g with clusters := m } : State).core c = g (s.core c) :=
    State.upCore_core_self s c g
  rw [State.upCopy, hcore]

/-- A change of the one command in flight. -/
theorem State.upCopy_alone {f : CopyCmd → CopyCmd} (hf : (s.core c).copy.flight = [q]) (hid : q.id = id) :
    ((s.upCopy c id f).core c).copy.flight = [f q] := by
  rw [State.upCopy_flight, hf]
  simp [hid]

/-- Where every write has been sent and none waits at the engine, there is none to send. -/
theorem State.pushAll_sent (hq : s.copyCmd c id = some q) (hsent : q.limit ≤ q.sent) (htail : q.tail = []) :
    s.pushAll c id = s := by
  simp only [State.pushAll, hq, State.pushWrites, if_neg (Nat.not_lt.2 hsent), htail]
  exact ite_self _

/-- The record of a command that stalls at a part with a kernel event. -/
def CopyCmd.stallRecord (q : CopyCmd) (p code : Nat) (info : Word) : FRec :=
  { ctx := q.ctx, source := q.source, code := code, tid := Tid.word q.tid, resume := 0, info := info,
    arg := restartVx (q.restart p), asid := q.asid, epc := q.epc, formed := 0 }

/-- A command that has met an event at a part. -/
def CopyCmd.meets (p code : Nat) (info : Word) (q : CopyCmd) : CopyCmd := { q with met := some (p, code, info) }

/-- A command that has stalled. -/
def CopyCmd.stalls (q : CopyCmd) : CopyCmd := { q with stalled := true }

/-- A command that has met a kernel event at the first part that is left stalls, and posts a record. -/
theorem State.copyStops_stalls (hq : s.copyCmd c id = some q) (hmet : q.met = some (q.base, code, info))
    (hs : q.stalled = false) (hk : isKernelEvent code = true) :
    s.copyStops c id =
      (s.upCopy c id CopyCmd.stalls).postRecord c (q.stallRecord q.base code info) := by
  have hready : ¬ (q.stalled ∨ (q.acked.filter fun i => decide (i < q.base)).length < q.base - q.base) := by simp [hs]
  simp only [State.copyStops, hq, hmet, if_neg hready, if_pos hk]
  rfl

/-- The first event that a command meets: with no part acknowledged and no request under way, no bytes are taken back and no
write is given up. -/
theorem State.copyMet_first (hq : s.copyCmd c id = some q) (hmet : q.met = none) (hacked : q.acked = []) (hr : s.reqs = [])
    (part code : Nat) (info : Word) : s.copyMet c id part code info =
      ((s.upCopy c id (CopyCmd.meets part code info)).pushAll c id).copyStops c id := by
  have hnone (p : Nat × Req → Bool) : ({ s with reqs := s.reqs.filter p } : State) = s := by
    cases s
    cases hr
    rfl
  cases htb : q.tb <;> simp only [State.copyMet, hq, hmet, hacked, htb] <;>
    exact congrArg (fun u : State => ((u.upCopy c id (CopyCmd.meets part code info)).pushAll c id).copyStops c id) (hnone _)

/-- The event of the one request under way is its command's. -/
theorem execEngineFaultInFlight_meets {w : Bool} (hr : s.reqs = [(n, r)]) (huse : r.use = .copy id p w)
    (hst : r.stage = .stalled) (hev : r.event = some (code, info)) :
    exec (.engineFaultInFlight c id code info) s = .next ((s.dropReq n).copyMet c id p code info) := by
  change execEngineFaultInFlight c id code info s = _
  simp [execEngineFaultInFlight, hr, Req.engineCmd, huse, hst, hev]

/-- The state in which a command in flight has stalled at the first part that is left. -/
def stalledAt (s : State) (c id code : Nat) (info : Word) (q : CopyCmd) : State :=
  ((s.upCopy c id (CopyCmd.meets q.base code info)).upCopy c id CopyCmd.stalls).postRecord c (q.stallRecord q.base code info)

theorem stalledAt_copyCmd (hf : (s.core c).copy.flight = [q]) (hid : q.id = id) (code : Nat) (info : Word) :
    (stalledAt s c id code info q).copyCmd c id = some (q.meets q.base code info).stalls :=
  copyCmd_of_flight (State.upCopy_alone (State.upCopy_alone hf hid) hid) hid

theorem stalledAt_record (s : State) (c id code : Nat) (info : Word) (q : CopyCmd) :
    (stalledAt s c id code info q).io.recs.find s.serial = some { q.stallRecord q.base code info with met := s.cyc } :=
  Map.find_put_self _ _ _

theorem stalledAt_coming (s : State) (c id code : Nat) (info : Word) (q : CopyCmd) :
    coming (stalledAt s c id code info q) (s.cyc + toFaultUnit c) (.faultEventArrival s.serial) :=
  State.after_coming _ _ _

theorem stalledAt_reqs : (stalledAt s c id code info q).reqs = s.reqs := rfl

theorem stalledAt_mem : (stalledAt s c id code info q).mem = s.mem := rfl

/-- A kernel event at the first part that is left, of the one command in flight, stalls it. -/
theorem State.copyMet_stalls (hf : (s.core c).copy.flight = [q]) (hid : q.id = id) (hmet : q.met = none)
    (hs : q.stalled = false) (hacked : q.acked = []) (hsent : q.base ≤ q.sent) (htail : q.tail = []) (hr : s.reqs = [])
    (hk : isKernelEvent code = true) : s.copyMet c id q.base code info = stalledAt s c id code info q := by
  have hq' : (s.upCopy c id (CopyCmd.meets q.base code info)).copyCmd c id = some (q.meets q.base code info) :=
    copyCmd_of_flight (State.upCopy_alone hf hid) hid
  rw [State.copyMet_first (copyCmd_of_flight hf hid) hmet hacked hr, State.pushAll_sent hq' hsent htail,
    State.copyStops_stalls (q := q.meets q.base code info) hq' rfl hs hk]
  rfl

/-- Settles O42: a command starts (`execCopyCommandStart_starts`), its last acknowledgement completes it
(`execEngineWriteAck_last`), it leaves (`State.dropCopy_flight`), or it stalls (`State.copyMet_stalls`). -/
theorem copyCommandsRunToTheirEnd : Obligations.CopyCommandsRunToTheirEnd := by
  refine ⟨fun s c q hq hf hw he hb => ⟨fun hnone => ?_, fun hsome => ?_⟩, fun s c n id bytes q hq htb hbytes hmet hall hinit => ?_,
    fun s c id q hq hall hs hr => ?_, fun s c id n code info q r hf hid hmet hs hacked hsent htail hr huse hst hev hk => ?_⟩
  · exact execCopyCommandStart_nothing hq hf hw he hb hnone
  · exact (execCopyCommandStart_starts hq hf he hb).trans (by rw [if_neg (Nat.not_le.2 hsome)]; rfl)
  · refine ⟨_, execEngineWriteAck_last hq htb hbytes hmet hall, State.countBytes_tbar c n bytes hinit, ?_,
      State.countBytes_mem c n bytes⟩
    have hcoming := State.after_coming (s := s.countBytes c n bytes) 0 8 (.engineCommandComplete c id)
    rwa [State.countBytes_cyc] at hcoming
  · exact ⟨_, execEngineCommandComplete_leaves hq hall hs, State.dropCopy_flight hr c id, State.dropCopy_mem c id⟩
  · have hgone : (s.dropReq n).reqs = [] := by simp [hr, Map.drop]
    have hstalls := State.copyMet_stalls (info := info) (s := s.dropReq n) hf hid hmet hs hacked hsent htail hgone hk
    rw [execEngineFaultInFlight_meets hr huse hst hev, hstalls]
    exact ⟨_, rfl, stalledAt_reqs.trans hgone, stalledAt_copyCmd (s := s.dropReq n) hf hid code info,
      ⟨_, stalledAt_record (s.dropReq n) c id code info q, rfl, rfl, rfl, rfl, rfl⟩, stalledAt_coming (s.dropReq n) c id code info q,
      stalledAt_mem⟩

end Sys2Proof.Machine
end

section
/-! PROOFS. Atomics, sections and the end of an MWAIT. RSV's answer and MWAIT's causes reach their thread alike: registers are
written, the thread's own record changes, and it goes on (`State.resumeAt_thread`, `State.resumeAt_regW`). -/

namespace Sys2Proof.Machine

variable {s : State} {h : Hand} {t v : Thread} {i : Tid} {c k : Nat}

/-! ### Registers and threads after a change -/

/-- What a register holds depends on the window and the register file alone. -/
theorem Core.regW_congr {x y : Core} (hregs : x.regs = y.regs) (hwin : t.win = v.win) (n : Nat) :
    x.regW t n = y.regW v n := by
  rw [Core.regW, hregs, hwin]
  rfl

theorem State.setW_regW (n : Nat) (w : Word) (ht : s.thread c k = some t) :
    ((s.setW c k n w).core c).regW t n = if n = 0 then 0 else w := by
  split
  · next hn => rw [hn]; rfl
  · next hn => exact State.setW_regW_self w hn ht

theorem State.resumeAt_regW (pc : Word) (n : Nat) (ht : s.thread c k = some t) (hw : warm s c t) :
    ((s.resumeAt c k pc).core c).regW ({ t with pc := pc } : Thread).entered n = (s.core c).regW t n :=
  Core.regW_congr (State.resumeAt_regs pc ht hw) rfl n

theorem State.upThread_threadOf (i : Tid) (f : Thread → Thread) :
    (s.upThread i.core i.slot f).threadOf i = (s.threadOf i).map f := by
  simp only [State.threadOf, State.upThread_core_self, Core.upSlot_slot_self]
  split <;> rfl

@[simp] theorem State.park_reqs (c k : Nat) (why : Park) (till : Wait) : (s.park c k why till).reqs = s.reqs := by
  unfold State.park
  dsimp only
  split <;> rfl

/-! ### Acquires leave the cores (R115, R116) -/

@[simp] theorem State.sendDirty_core (core : Nat) (l : CLine) (ws : List Nat) (acq : Option Tid) (c : Nat) :
    (s.sendDirty core l ws acq).core c = s.core c := by
  unfold State.sendDirty
  split <;> rfl

@[simp] theorem State.acquire_core (i : Tid) (a : Option Scope) (c : Nat) : (s.acquire i a).core c = s.core c := by
  have hdrop : (s.dropStale i).core c = s.core c :=
    foldl_same (fun u => u.core c) (fun _ _ => by split <;> simp) s.cache
  unfold State.acquire
  split
  · split
    · exact hdrop
    · rfl
  · rfl

theorem State.threadOf_congr {u : State} (hcore : u.core i.core = s.core i.core) : u.threadOf i = s.threadOf i := by
  rw [State.threadOf, hcore]
  rfl

theorem State.thread_congr {u : State} (hcore : u.core c = s.core c) : u.thread c k = s.thread c k := by
  rw [State.thread, hcore]
  rfl

/-! ### Atomics (R142) -/

theorem exec_atomForm {i : Instr} {op : AtomOp} {m : Mod} {d a b : Reg} (hf : atomForm i = some (op, m, d, a, b)) :
    exec i s = issueAtomic op m d a b s := by
  unfold atomForm at hf
  split at hf
  all_goals cases hf
  exacts [(rfl : _ = execAadd _ _ _ _ s), (rfl : _ = execAand _ _ _ _ s), (rfl : _ = execAor _ _ _ _ s),
    (rfl : _ = execAxor _ _ _ _ s), (rfl : _ = execAmin _ _ _ _ s), (rfl : _ = execAmax _ _ _ _ s),
    (rfl : _ = execAminZ _ _ _ _ s), (rfl : _ = execAmaxZ _ _ _ _ s), (rfl : _ = execAxchg _ _ _ _ s),
    (rfl : _ = execCas _ _ _ _ s)]

/-- Settles O22: an atomic on a word and CAS2 are each one access of the statement's `Ask`, which `access_runs` follows. -/
theorem atomicsAskTheirWord : Obligations.AtomicsAskTheirWord := by
  refine ⟨?_, ?_⟩
  · intro s h t i op m d a b p q hf hi hp ha
    rw [exec_atomForm hf, issueAtomic, issue_runs hi]
    simp only [begun_regOf]
    exact access_runs hp ha
  · intro s h t m d a b p w q hi hp ha
    change execCas2 m d a b s = _
    rw [execCas2, issue_runs hi, begun_regOf]
    simp only [begun_w]
    exact access_runs hp ha

/-! ### RSV and RSVX ask their word or pair (R136) -/

theorem exec_rsvForm (pair : Bool) (m : Mod) (d a : Reg) :
    exec (if pair then .rsvx m d a else .rsv m d a) s = issueRsv pair m d a s := by
  cases pair <;> rfl

/-! ### RSV's word comes (R136, R137) -/

/-- The section that the answer of an RSV opens. -/
def Req.opened (r : Req) (pair : Bool) : Sect :=
  { ptr := r.ptr, pa := r.first, pair := pair, key := r.key, v0 := r.ans.getD 0 0, v1 := r.ans.getD 1 0, issued := 0,
    pc := r.epc, lat := r.lat, route := r.route }

/-- The words that an RSV or RSVX answers, in the registers from W[d] on. -/
def State.gotWords (s : State) (i : Tid) (d : Nat) (w0 w1 : Word) (pair : Bool) : State :=
  if pair then (s.setW i.core i.slot d w0).setW i.core i.slot (d + 1) w1 else s.setW i.core i.slot d w0

section
variable (d : Nat) (w0 w1 : Word) (pair : Bool)

theorem State.gotWords_threadOf : (s.gotWords i d w0 w1 pair).threadOf i = s.threadOf i := by
  unfold State.gotWords
  split
  · rw [State.setW_threadOf, State.setW_threadOf]
  · exact State.setW_threadOf _ _ _ _ _

@[simp] theorem State.gotWords_mem : (s.gotWords i d w0 w1 pair).mem = s.mem := by
  unfold State.gotWords
  split <;> simp

theorem State.gotWords_warm (hw : warm s c t) : warm (s.gotWords i d w0 w1 pair) c t := by
  unfold State.gotWords
  split
  · exact State.setW_warm (State.setW_warm hw)
  · exact State.setW_warm hw

theorem State.gotWords_first (ht : s.thread i.core i.slot = some t) :
    ((s.gotWords i d w0 w1 pair).core i.core).regW t d = if d = 0 then 0 else w0 := by
  unfold State.gotWords
  split
  · have hlive : (s.setW i.core i.slot d w0).thread i.core i.slot = some t := by rw [State.setW_thread, ht]
    rw [State.setW_regW_other w1 (by omega) hlive, State.setW_regW d w0 ht]
  · exact State.setW_regW d w0 ht

theorem State.gotWords_second (ht : s.thread i.core i.slot = some t) :
    ((s.gotWords i d w0 w1 true).core i.core).regW t (d + 1) = w1 :=
  State.setW_regW_self w1 d.succ_ne_zero ((State.setW_thread d w0 _ _).trans ht)

end

/-- The state in which the answer of an RSV has opened its section, and its thread has still to go on. -/
def State.opens (s : State) (i : Tid) (d : Nat) (r : Req) (pair : Bool) : State :=
  ((s.gotWords i d (r.ans.getD 0 0) (r.ans.getD 1 0) pair).acquire i r.acq).upThread i.core i.slot
    fun th => { th with sect := some (r.opened pair) }

section
variable {r : Req} {d : Nat} {pair : Bool}

theorem State.acquired_threadOf (hth : s.threadOf i = some t) :
    ((s.gotWords i d (r.ans.getD 0 0) (r.ans.getD 1 0) pair).acquire i r.acq).threadOf i = some t := by
  rw [State.threadOf_congr (State.acquire_core i r.acq i.core), State.gotWords_threadOf, hth]

theorem State.rsvGot_opens (hr : r.tid = some i) (hth : s.threadOf i = some t) (hargs : r.args = [BitVec.ofNat 64 d])
    (hd : d < 128) : s.rsvGot r pair = (s.opens i d r pair).resumeAt i.core i.slot r.npc := by
  have hreg : (r.args.getD 0 0).toNat = d := by
    rw [hargs]
    exact (BitVec.toNat_ofNat _ _).trans (Nat.mod_eq_of_lt (by omega))
  simp only [State.rsvGot, hr, Option.bind_some, hth, hreg]
  exact congrArg (fun u => State.resumeAt u i.core i.slot r.npc) (State.upTid_of_live (State.acquired_threadOf hth) _)

theorem State.opens_thread (hth : s.threadOf i = some t) :
    (s.opens i d r pair).thread i.core i.slot = some { t with sect := some (r.opened pair) } := by
  rw [State.opens, State.upThread_thread_self, State.thread_of_threadOf (State.acquired_threadOf hth)]
  rfl

theorem State.opens_warm (hw : warm s i.core t) :
    warm (s.opens i d r pair) i.core { t with sect := some (r.opened pair) } := by
  refine warm_upThread rfl ?_
  rw [warm, State.acquire_core]
  exact State.gotWords_warm d _ _ pair hw

theorem State.opens_regW (n : Nat) :
    ((s.opens i d r pair).core i.core).regW { t with sect := some (r.opened pair) } n =
      ((s.gotWords i d (r.ans.getD 0 0) (r.ans.getD 1 0) pair).core i.core).regW t n :=
  Core.regW_congr (by rw [State.opens, State.upThread_regs, State.acquire_core]) rfl n

theorem State.opens_mem : (s.opens i d r pair).mem = s.mem := by
  rw [State.opens, State.upThread_mem, State.acquire_mem, State.gotWords_mem]

end

/-- The answer of an RSV or RSVX that its thread awaits. -/
theorem execMemReply_opens {n d : Nat} {r : Req} {pair : Bool} (hn : s.reqs.find n = some r) (hst : r.stage = .served)
    (ho : r.orphan = false) (he : r.event = none) (hr : r.tid = some i) (hu : r.use = .stage stRsv) (hop : r.op = .rsv pair)
    (hargs : r.args = [BitVec.ofNat 64 d]) (hd : d < 128) (hth : s.threadOf i = some t) :
    exec (.memReply n) s = .next (((s.dropReq n).opens i d r pair).resumeAt i.core i.slot r.npc) := by
  have hlive : (s.dropReq n).threadOf i = some t := hth
  have hdone : (s.dropReq n).stageDone r stRsv = (s.dropReq n).rsvGot r pair := by
    simp only [State.stageDone, hr, hlive, hop]
    rfl
  change execMemReply n s = _
  simp only [execMemReply, hn, hst, ho, he, hu, hdone, State.rsvGot_opens hr hlive hargs hd]
  rfl

/-! ### REL (R136, R141) -/

theorem handSect_of_issues {kind : Kind} (hi : Issues s kind h t) : s.handSect = t.sect := by
  simp only [State.handSect, hi.hand, hi.live, Option.bind_some]

/-- The write-back of W[d], and of W[d+1] where the section is on a pair, that REL sends. -/
def backOf (s : State) (h : Hand) (t : Thread) (d : Reg) (z : Sect) : Req :=
  { tid := some (s.tidAt h.core h.slot), core := h.core, ctx := s.ctxOf h.core, part := t.part, asid := t.asid.toNat,
    op := .rel z.pair (regOf s h t d) (if z.pair then (s.core h.core).regW t (rn d + 1) else 0), use := .done,
    args := [Tid.word (s.tidAt h.core h.slot)], ptr := z.ptr, pa := z.pa, key := z.key, lat := z.lat, route := z.route,
    epc := t.pc, npc := stepPc t.pc h.len }

/-- The state in which a REL leaves the machine, but for the arrival of its write-back. -/
def relSent (s : State) (h : Hand) (t : Thread) (d : Reg) (z : Sect) : State :=
  (((begun s h).addReq (backOf s h t d z)).2.park h.core h.slot .mem (.reply s.serial)).upThread h.core h.slot
    fun th => { th with sect := none }

theorem execRel_releases {m : Mod} {d : Reg} {z : Sect} (hz : t.sect = some z) (hm : m.release = false)
    (hi : Issues s { names := { w := if z.pair then [rn d, rn d + 1] else [rn d] }, sec := .closes } h t) :
    exec (.rel m d) s =
      .next ((relSent s h t d z).postBack s.serial (backOf s h t d z) (half z.lat)) := by
  have hth : (cxAt s h t).th.sect = some z := hz
  have htid : (cxAt s h t).tid (begun s h) = s.tidAt h.core h.slot := begun_tidAt _ _
  have hctx : (cxAt s h t).ctx (begun s h) = s.ctxOf h.core := begun_ctxOf _
  change execRel m d s = _
  rw [execRel, handSect_of_issues hi, hz]
  dsimp only
  rw [issue_runs hi, Cx.releasing_of_none _ _ hm]
  simp only [hth, htid, hctx, begun_w]
  rfl

theorem relSent_thread (d : Reg) (z : Sect) (ht : s.thread h.core h.slot = some t) :
    ∃ x, (relSent s h t d z).thread h.core h.slot = some x ∧ x.sect = none ∧ x.status = .parked .mem (.reply s.serial) := by
  have hlive : ((begun s h).addReq (backOf s h t d z)).2.thread h.core h.slot = some t.issuing := begun_thread_self ht
  exact ⟨_, (State.upThread_thread_self _ _ _ _).trans (congrArg _ (State.park_thread _ _ hlive)), rfl, rfl⟩

theorem relSent_reqs (d : Reg) (z : Sect) : (relSent s h t d z).reqs = s.reqs.put s.serial (backOf s h t d z) := by
  rw [relSent, State.upThread_reqs, State.park_reqs]
  rfl

theorem relSent_cyc (d : Reg) (z : Sect) : (relSent s h t d z).cyc = s.cyc := by
  rw [relSent, State.upThread_cyc, State.park_cyc]
  rfl

theorem relSent_mem (d : Reg) (z : Sect) : (relSent s h t d z).mem = s.mem := by
  rw [relSent, State.upThread_mem, State.park_mem]
  rfl

theorem State.postBack_coming (n : Nat) (r : Req) (d : Nat) : coming (s.postBack n r d) (s.cyc + d) (.holdWriteBack n) :=
  State.post_coming _ _ _

/-- Settles O24: RSV and RSVX are one access (`exec_rsvForm`), whose answer leaves the state `State.opens`
(`execMemReply_opens`), and REL leaves the state `relSent`. -/
theorem sectionsOpenAndClose : Obligations.SectionsOpenAndClose := by
  refine ⟨?_, ?_, ?_⟩
  · intro s h t m d a p pair q hi hp ha
    rw [exec_rsvForm, issueRsv, issue_runs hi, begun_regOf]
    exact access_runs hp ha
  · intro s n r i t v v1 d pair hn hst ho he hr hu hop hargs hd hans hth _ hw
    have hlive : (s.dropReq n).threadOf i = some t := hth
    have hthread := State.opens_thread (d := d) (r := r) (pair := pair) hlive
    have hwarm := State.opens_warm (s := s.dropReq n) (d := d) (r := r) (pair := pair) hw
    have hregs (m : Nat) := (State.resumeAt_regW r.npc m hthread hwarm).trans (State.opens_regW m)
    have h0 : r.ans.getD 0 0 = v := by cases pair <;> rw [hans] <;> rfl
    have h1 : r.ans.getD 1 0 = if pair then v1 else 0 := by cases pair <;> rw [hans] <;> rfl
    refine ⟨_, _, execMemReply_opens hn hst ho he hr hu hop hargs hd hth, State.resumeAt_thread r.npc hthread hwarm, rfl, rfl,
      ?_, ?_, ?_, ?_⟩
    · rw [← h0, ← h1]
      rfl
    · rw [hregs, State.gotWords_first _ _ _ _ (State.thread_of_threadOf hlive), h0]
    · rintro rfl
      rw [hregs, State.gotWords_second _ _ _ (State.thread_of_threadOf hlive), h1]
      rfl
    · rw [State.resumeAt_mem, State.opens_mem]
      rfl
  · intro s h t m d z hz hm hi w1
    obtain ⟨x, hx, hsect, hstatus⟩ := relSent_thread d z hi.live
    have hcoming := State.postBack_coming (s := relSent s h t d z) s.serial (backOf s h t d z) (half z.lat)
    rw [relSent_cyc] at hcoming
    have hfind : (relSent s h t d z).reqs.find s.serial = some (backOf s h t d z) := by
      rw [relSent_reqs, Map.find_put_self]
    exact ⟨_, x, execRel_releases hz hm hi, hx, hsect, hstatus, hcoming, ⟨_, hfind, rfl, rfl, rfl, rfl⟩, relSent_mem d z⟩

/-! ### Monitors fire, and waits end (R147, R148) -/

@[simp] theorem State.stirMwait_core (i : Tid) (c : Nat) : (s.stirMwait i).core c = s.core c := by
  unfold State.stirMwait
  repeat' split
  all_goals rfl

/-- A thread in an MWAIT looks for its causes at the end of the cycle. -/
theorem State.stirMwait_coming {why : Park} {d : Nat} {l : Option Nat} {npc : Word} {acq : Option Scope} {woken : Bool}
    (ht : s.threadOf i = some t) (hst : t.status = .parked why (.mwait d l npc acq woken)) :
    coming (s.stirMwait i) s.cyc (.mwaitTimeout i) := by
  have hstir : s.stirMwait i = s.after 0 40 (.mwaitTimeout i) := by simp only [State.stirMwait, ht, hst]
  rw [hstir]
  exact State.after_coming 0 40 _

/-- A thread whose monitor has fired. -/
def Thread.firing (t : Thread) (mon : Nat) : Thread := { t with mons := t.mons.adjust mon fun x => { x with fired := true } }

theorem execMonitorFire_fires (mon : Nat) (ht : s.threadOf i = some t) :
    exec (.monitorFire i mon) s = .next ((s.upThread i.core i.slot fun th => th.firing mon).stirMwait i) := by
  rw [← State.upTid_of_live ht]
  rfl

theorem total_zeros (l : List Nat) (hz : ∀ n ∈ l, n = 0) : total l = 0 := by
  rw [List.eq_replicate_of_mem hz, total, ← List.sum_eq_foldl]
  simp

theorem Thread.calm_fired (t : Thread) : t.calm.fired = 0 := by
  refine total_zeros _ fun n hn => ?_
  simp only [Thread.calm, Map.mapVals, List.map_map, List.mem_map] at hn
  obtain ⟨_, -, rfl⟩ := hn
  rfl

/-- Whether the time of an MWAIT has come. -/
def State.pastLimit (s : State) (l : Option Nat) : Bool := match l with | some n => decide (n ≤ s.cyc) | none => false

/-- The causes with which an MWAIT of a thread ends in a cycle: its fired monitors, its time and a wake. -/
def causesOf (s : State) (t : Thread) (l : Option Nat) (woken : Bool) : Nat :=
  t.fired + (if s.pastLimit l then 16 else 0) + (if woken then 32 else 0)

theorem causesOf_eq (l : Option Nat) (woken : Bool) :
    causesOf s t l woken = t.fired + (s.pastLimit l).toNat * 16 + woken.toNat * 32 := by
  unfold causesOf
  cases s.pastLimit l <;> cases woken <;> rfl

/-- The state in which an MWAIT has ended, and its thread has still to go on. -/
def State.waitEnded (s : State) (i : Tid) (d causes : Nat) : State :=
  (s.upThread i.core i.slot Thread.calm).setW i.core i.slot d (BitVec.ofNat 64 causes)

/-- A wait ends as soon as a cause is present, and reports every one. -/
theorem execMwaitTimeout_ends {d : Nat} {l : Option Nat} {npc : Word} {woken : Bool} (ht : s.threadOf i = some t)
    (hst : t.status = .parked .mwait (.mwait d l npc none woken)) (hc : causesOf s t l woken ≠ 0) :
    exec (.mwaitTimeout i) s = .next ((s.waitEnded i d (causesOf s t l woken)).resumeAt i.core i.slot npc) := by
  have hcause : ¬ (t.fired = 0 ∧ (!s.pastLimit l) = true ∧ (!woken) = true) := by
    rintro ⟨hf, hl, hwoken⟩
    rw [Bool.not_eq_true'] at hl hwoken
    exact hc (by rw [causesOf_eq, hf, hl, hwoken]; rfl)
  change execMwaitTimeout i s = _
  simp only [execMwaitTimeout, ht, hst]
  refine (if_neg hcause).trans ?_
  rw [causesOf_eq, State.waitEnded, ← State.upTid_of_live ht]
  rfl

/-- Settles O26: the notice sets the bit and stirs the wait (`State.stirMwait_coming`), and the wait's end is
`execMwaitTimeout_ends`. -/
theorem firedMonitorsEndWaits : Obligations.FiredMonitorsEndWaits := by
  refine ⟨?_, ?_⟩
  · intro s i t mon x ht hx
    have hfired : (s.upThread i.core i.slot fun th => th.firing mon).threadOf i = some (t.firing mon) := by
      rw [State.upThread_threadOf, ht]
      rfl
    have hstir := State.stirMwait_core (s := s.upThread i.core i.slot fun th => th.firing mon) i i.core
    refine ⟨_, t.firing mon, execMonitorFire_fires mon ht, ?_, ?_, rfl, rfl, ?_, ?_, ?_⟩
    · rw [State.thread_congr hstir, State.thread_of_threadOf hfired]
    · rw [Thread.firing, Map.find_adjust_self, hx]
      rfl
    · intro d l npc acq woken hst
      exact State.stirMwait_coming hfired hst
    · rw [State.stirMwait_mem, State.upThread_mem]
    · rw [hstir, State.upThread_regs]
  · intro s i t d l npc woken ht hst hw late causes hc
    have hcalm : (s.upThread i.core i.slot Thread.calm).thread i.core i.slot = some t.calm := by
      rw [State.upThread_thread_self, State.thread_of_threadOf ht]
      rfl
    have hthread : (s.waitEnded i d causes).thread i.core i.slot = some t.calm := (State.setW_thread _ _ _ _).trans hcalm
    have hwarm : warm (s.waitEnded i d causes) i.core t.calm := State.setW_warm (warm_upThread rfl hw)
    refine ⟨_, _, execMwaitTimeout_ends ht hst hc, State.resumeAt_thread npc hthread hwarm, rfl, rfl, t.calm_fired, ?_, ?_⟩
    · exact (State.resumeAt_regW npc d hthread hwarm).trans (State.setW_regW d _ hcalm)
    · rw [State.resumeAt_mem, State.waitEnded, State.setW_mem, State.upThread_mem]

end Sys2Proof.Machine
end

section
/-! PROOFS. Instructions that read a block first, and requests to units: a block is read by one access (`readBlock_runs`), and a
request to a unit has been sent as its `Cx.askUnit` says (`askUnit_begun`). -/

namespace Sys2Proof.Machine

variable {s : State} {h : Hand} {t : Thread}

/-! ### Blocks (R163, R176, R190, R191, R230, R341, R344) -/

/-- What an instruction asks that reads a block of words. -/
def blockAsk (words align stage : Nat) (m : Mod) (why : Park) (i : Option Instr) (args : List Word) (far : Bool) : Ask :=
  { op := .block words, use := .stage stage, align := align, bytes := 8 * words, mod := m, instr := i, args := args,
    why := why, far := far }

theorem readBlock_runs {base p : Word} {words align stage : Nat} {m : Mod} {why : Park} {i : Option Instr} {args : List Word}
    {far : Bool} (hp : effective base 0 = .ok p) (ha : Admits s h t p (blockAsk words align stage m why i args far)) :
    (cxAt s h t).readBlock (begun s h) base words align stage m why i args far =
      .next (asks s h t p (blockAsk words align stage m why i args far)) := access_runs hp ha

/-- What EVICT (operation 0) and RESTORE ask of their save block. -/
def saveAsk (op : Nat) (args : List Word) : Ask :=
  { op := if op = 0 then .write [] true else .block 0, use := .stage stBlock, align := 256, bytes := blockBytes, args := args }

/-- The context of the instruction at issue is that of its core. -/
theorem begun_ctx : (cxAt s h t).ctx (begun s h) = s.ctxOf h.core := begun_ctxOf _

theorem not_kernelCtx {n : Nat} (hk : isKernelCtx n = true) : ¬ (!isKernelCtx n) = true := by rw [hk]; decide

theorem exec_collForm {i : Instr} {m : Mod} {d a b : Reg} (hf : collForm i = some (m, d, a, b)) :
    exec i s = issueColl m d a b s := by
  unfold collForm at hf
  split at hf
  all_goals cases hf
  exacts [(rfl : _ = execCollAllreduce _ _ _ _ s), (rfl : _ = execCollBroadcast _ _ _ _ s),
    (rfl : _ = execCollAllgather _ _ _ _ s)]

theorem exec_drainForm {i : Instr} {d a b : Reg} (hf : drainForm i = some (d, a, b)) : exec i s = issueDrain d a b s := by
  unfold drainForm at hf
  split at hf
  all_goals cases hf
  exacts [(rfl : _ = execDrain _ _ _ s), (rfl : _ = execDrainResume _ _ _ s)]

/-- COLL, with a command and a block address that are well-formed, reads its block. -/
theorem issueColl_reads {m : Mod} {d a b : Reg} (hi : Issues s (smallKind [d, a, b]) h t) (ha : (regOf s h t a).toNat < 2 ^ 7)
    (hb : (regOf s h t b).toNat % 64 = 0) : issueColl m d a b s =
      (cxAt s h t).readBlock (begun s h) (regOf s h t b) 8 64 stColl m .queue none
        [BitVec.ofNat 64 (rn d), regOf s h t a, t.fmt] true := by
  have hok : ¬ ((regOf s h t a).extractLsb' 7 57 ≠ 0 ∨ (regOf s h t b).toNat % 64 ≠ 0) := by
    rw [not_or, not_not, not_not]
    exact ⟨(high_bits_eq_zero_iff _ rfl).2 ha, hb⟩
  rw [issueColl, issue_runs hi]
  simp only [begun_regOf, if_neg hok]
  rfl

/-- EVICT and RESTORE, in a kernel's context, translate their save block. -/
theorem issueBlock_asks {op : Nat} {d a b : Reg} {p : Word} (hi : Issues s (plainKind [d, a, b]) h t)
    (hk : isKernelCtx (s.ctxOf h.core) = true) :
    let q := saveAsk op [BitVec.ofNat 64 (rn d), BitVec.ofNat 64 op, regOf s h t a, regOf s h t b]
    effective (if op = 0 then regOf s h t b else regOf s h t a) 0 = .ok p → Admits s h t p q →
      issueBlock op d a b s = .next (asks s h t p q) := by
  intro q hp ha
  rw [issueBlock, issue_runs hi]
  simp only [begun_ctx, begun_regOf, if_neg (not_kernelCtx hk)]
  exact access_runs hp ha

/-- Settles O44: each instruction's block is one access of the statement's `Ask`, which `readBlock_runs` follows. -/
theorem blocksAreReadFirst : Obligations.BlocksAreReadFirst := by
  refine ⟨?_, ?_, ?_⟩
  · intro s h t n a p hi no q q' hp
    refine ⟨fun ha => ?_, fun ha => ?_⟩
    · change execLcwCfg n a s = _
      rw [execLcwCfg, issue_runs hi, begun_regOf]
      exact readBlock_runs hp ha
    · change execMcfg n a s = _
      rw [execMcfg, issue_runs hi, begun_regOf]
      exact readBlock_runs hp ha
  · intro s h t i m d a b p hf hi q hva hvb hp ha
    rw [exec_collForm hf, issueColl_reads hi hva hvb]
    exact readBlock_runs hp ha
  · intro s h t d a b p hi hk va vb part drain evict restore
    refine ⟨fun hp ha => ?_, fun i hf hp ha => ?_, fun hp ha => ?_, fun hp ha => ?_⟩
    · change execPartset d a b s = _
      rw [execPartset, issue_runs hi]
      simp only [begun_ctx, begun_regOf, if_neg (not_kernelCtx hk)]
      exact readBlock_runs hp ha
    · rw [exec_drainForm hf, issueDrain, issue_runs hi]
      simp only [begun_ctx, begun_regOf, if_neg (not_kernelCtx hk)]
      exact readBlock_runs hp ha
    · exact issueBlock_asks (op := 0) hi hk hp ha
    · exact issueBlock_asks (op := 1) hi hk hp ha

/-! ### Units (R177, R313, R317, R321, R331) -/

/-- An instruction at issue sends its operands to a unit. -/
theorem askUnit_begun (d : Reg) (code : Nat) (ws : List Word) (lat extra : Nat) (ev : Nat → Instr) :
    (cxAt s h t).askUnit (begun s h) d code ws lat extra ev = .next (asksUnit s h t (.stage stUnit)
      ([BitVec.ofNat 64 (rn d), BitVec.ofNat 64 code] ++ ws) t.asid.toNat lat extra ev) := by
  rw [asksUnit, ← begun_ctxOf]
  rfl

theorem issueSeq_asks {code extra : Nat} {d : Reg} {ws : List Reg} {check : State → Cx → Option Nat}
    (hi : Issues s (plainKind ([d] ++ ws)) h t) (hc : check (begun s h) (cxAt s h t) = none)
    (hd : code = uSeqend → (begun s h).accessesDone ((cxOf h t).tid (begun s h)) t = true) :
    issueSeq code extra d ws s check = .next (asksUnit s h t (.stage stUnit)
      ([BitVec.ofNat 64 (rn d), BitVec.ofNat 64 code] ++ ws.map (regOf s h t)) t.asid.toNat
      (if isLarge h.core then 60 else 240) extra .bankRequestArrival) := by
  have hgo : ¬ (code = uSeqend ∧ (!(begun s h).accessesDone ((cxAt s h t).tid (begun s h)) (cxAt s h t).th) = true) := by
    rintro ⟨he, hn⟩
    have hdone : (begun s h).accessesDone ((cxAt s h t).tid (begun s h)) (cxAt s h t).th = true := hd he
    rw [hdone] at hn
    exact Bool.false_ne_true hn
  rw [issueSeq, issue_runs hi]
  simp only [hc, if_neg hgo, begun_regOf]
  exact askUnit_begun _ _ _ _ _ _

/-- A sequence instruction whose context may issue it, SEQEND after its thread's accesses, asks its unit. -/
theorem exec_seqForm {i : Instr} {code extra : Nat} {d : Reg} {ws : List Reg} (hf : seqForm i = some (code, extra, d, ws))
    (hi : Issues s (plainKind ([d] ++ ws)) h t) (hk : code = uSeqmap → isKernelCtx (s.ctxOf h.core) = true)
    (hd : code = uSeqend → (begun s h).accessesDone ((cxOf h t).tid (begun s h)) t = true) :
    exec i s = .next (asksUnit s h t (.stage stUnit)
      ([BitVec.ofNat 64 (rn d), BitVec.ofNat 64 code] ++ ws.map (regOf s h t)) t.asid.toNat
      (if isLarge h.core then 60 else 240) extra .bankRequestArrival) := by
  unfold seqForm at hf
  split at hf
  all_goals cases hf
  · exact (rfl : _ = execSeqnew _ s).trans (issueSeq_asks hi rfl hd)
  · refine (rfl : _ = execSeqmap _ _ _ s).trans (issueSeq_asks hi ?_ hd)
    simp only [begun_ctx, hk rfl, if_true]
  · exact (rfl : _ = execSequnmap _ _ s).trans (issueSeq_asks hi rfl hd)
  · exact (rfl : _ = execSeqend _ _ s).trans (issueSeq_asks hi rfl hd)
  · exact (rfl : _ = execSeqq _ _ s).trans (issueSeq_asks hi rfl hd)

theorem exec_xinvForm {i : Instr} {d a b : Reg} (hf : xinvForm i = some (d, a, b)) : exec i s = issueXinv d a b s := by
  unfold xinvForm at hf
  split at hf
  all_goals cases hf
  exacts [(rfl : _ = execXinvPage _ _ _ s), (rfl : _ = execXinvAsid _ _ _ s), (rfl : _ = execXinvRlb _ _ _ s),
    (rfl : _ = execXinvFrame _ _ _ s)]

theorem exec_ownsetForm {i : Instr} {d a b : Reg} (hf : ownsetForm i = some (d, a, b)) :
    exec i s = issueOwnset d a b s := by
  unfold ownsetForm at hf
  split at hf
  all_goals cases hf
  exacts [(rfl : _ = execOwnsetCreate _ _ _ s), (rfl : _ = execOwnsetDestroy _ _ _ s), (rfl : _ = execOwnsetAssign _ _ _ s),
    (rfl : _ = execOwnsetBindkey _ _ _ s), (rfl : _ = execOwnsetUnbindkey _ _ _ s), (rfl : _ = execOwnsetBindasid _ _ _ s),
    (rfl : _ = execOwnsetUnbindasid _ _ _ s), (rfl : _ = execOwnsetSetring _ _ _ s), (rfl : _ = execOwnsetSetinbox _ _ _ s)]

theorem exec_emsgForm {i : Instr} {m : Mod} {d a b : Reg} (hf : emsgForm i = some (m, d, a, b)) :
    exec i s = issueEmsg m d a b s := by
  unfold emsgForm at hf
  split at hf
  all_goals cases hf
  exacts [(rfl : _ = execEmsgGatherQuery _ _ _ _ s), (rfl : _ = execEmsgCollectiveQuery _ _ _ _ s),
    (rfl : _ = execEmsgAbort _ _ _ _ s)]

/-- A frame instruction's operand beside its frame is at most one register. -/
theorem exec_frameForm {i : Instr} {code : Nat} {releases : Bool} {d a : Reg} {l : List Reg}
    (hf : frameForm i = some (code, releases, d, a, l)) : ∃ b, l = b.toList ∧ exec i s = issueFrame code releases d a b s := by
  unfold frameForm at hf
  split at hf
  all_goals cases hf
  exacts [⟨some _, rfl, (rfl : _ = execFofferOffer _ _ _ s)⟩, ⟨some _, rfl, (rfl : _ = execFofferRelease _ _ _ s)⟩,
    ⟨some _, rfl, (rfl : _ = execFofferWithdraw _ _ _ s)⟩, ⟨none, rfl, (rfl : _ = execFaccept _ _ s)⟩,
    ⟨some _, rfl, (rfl : _ = execFlend _ _ _ s)⟩, ⟨none, rfl, (rfl : _ = execFrecall _ _ s)⟩,
    ⟨none, rfl, (rfl : _ = execFreturn _ _ s)⟩, ⟨none, rfl, (rfl : _ = execFquery _ _ s)⟩,
    ⟨some _, rfl, (rfl : _ = execFstrikeClear _ _ _ s)⟩, ⟨some _, rfl, (rfl : _ = execFstrikeSetLimit _ _ _ s)⟩]

/-- A release whose effects have been had, or an instruction without one, has its effect. -/
theorem releasing_runs {m : Mod} (body : State → Out)
    (hr : m.release = false ∨ ((begun s h).accessesDone ((cxOf h t).tid (begun s h)) t &&
      (begun s h).releaseDone ((cxOf h t).tid (begun s h)) m.scope) = true) :
    (cxAt s h t).releasing (begun s h) m body = body (begun s h) := by
  rcases hr with hm | hr
  · exact Cx.releasing_of_none _ _ hm
  · obtain ⟨hd, hs⟩ := Bool.and_eq_true_iff.1 hr
    exact releasing_done body hd fun _ => hs

theorem issueFrame_asks {code : Nat} {releases : Bool} {d a : Reg} {b : Option Reg} {p : Word}
    (hi : Issues s (plainKind ([d, a] ++ b.toList)) h t) (hk : isKernelCtx (s.ctxOf h.core) = true)
    (hp : effective (regOf s h t a) 0 = .ok p)
    (hr : (releases && isLarge h.core) = false ∨ ((begun s h).accessesDone ((cxOf h t).tid (begun s h)) t &&
      (begun s h).releaseDone ((cxOf h t).tid (begun s h)) .system) = true) :
    issueFrame code releases d a b s = .next (asksUnit s h t (.stage stUnit)
      ([BitVec.ofNat 64 (rn d), BitVec.ofNat 64 code, regOf s h t a] ++ b.toList.map (regOf s h t))
      t.asid.toNat (if isLarge h.core then 120 else 300) 0 .fotPerform) := by
  have hcore : (cxAt s h t).core = h.core := rfl
  have hargs : (b.map fun b => regOf s h t b).toList = b.toList.map (regOf s h t) := by cases b <;> rfl
  rw [issueFrame, issue_runs hi]
  simp only [begun_ctx, begun_regOf, if_neg (not_kernelCtx hk), hp, hcore]
  rw [releasing_runs (m := { release := releases && isLarge h.core, scope := .system }) _ hr]
  simp only [begun_regOf, hargs]
  exact askUnit_begun _ _ _ _ _ _

/-- EMSG to an engine that its core may ask, a gather engine of its own context or the collective engine, asks it. -/
theorem issueEmsg_asks {m : Mod} {d a b : Reg} (hi : Issues s (smallKind [d, a, b]) h t) (hm : m.release = false)
    (ha : (regOf s h t a).toNat < 2 ^ 20)
    (he : (((regOf s h t a).extractLsb' 18 2).toNat = 0 ∧ isSmall ((regOf s h t a).toNat % 2 ^ 18) = true ∧
        s.ctxOf ((regOf s h t a).toNat % 2 ^ 18) = s.ctxOf h.core) ∨
      (((regOf s h t a).extractLsb' 18 2).toNat = 1 ∧ (regOf s h t a).toNat % 2 ^ 18 = 0)) :
    issueEmsg m d a b s = .next (asksUnit s h t (.stage stEmsg) [BitVec.ofNat 64 (rn d), regOf s h t a, regOf s h t b] 0
      (if ((regOf s h t a).extractLsb' 18 2).toNat = 1 then latency h.core .control else 24) 0 .bankRequestArrival) := by
  have hhigh : (regOf s h t a).extractLsb' 20 44 = 0 := (high_bits_eq_zero_iff _ rfl).2 ha
  have hcore : (cxAt s h t).core = h.core := rfl
  rw [issueEmsg, issue_runs hi]
  simp only [begun_regOf, begun_ctx, begun_ctxOf, hhigh, hcore, Cx.releasing_of_none _ _ hm]
  rcases he with ⟨hkind, hsmall, hctx⟩ | ⟨hkind, hzero⟩
  · simp only [hkind, hsmall, hctx]
    rw [if_neg (by simp), if_neg (by simp)]
    rfl
  · simp only [hkind, hzero]
    rw [if_neg (by simp), if_neg (by simp)]
    rfl

/-- Settles O45: each family is one request to its unit (`askUnit_begun`), once its checks let it. -/
theorem unitsAreAsked : Obligations.UnitsAreAsked := by
  refine ⟨?_, ?_, ?_, ?_⟩
  · intro s h t i code extra d ws hf hi hk hd
    exact exec_seqForm hf hi hk hd
  · intro s h t i d a b hi hk va vb
    refine ⟨fun hf => ?_, fun hf => ?_⟩
    · rw [exec_xinvForm hf, issueXinv, issue_runs hi]
      simp only [begun_ctx, begun_regOf, if_neg (not_kernelCtx hk)]
      exact askUnit_begun _ _ _ _ _ _
    · rw [exec_ownsetForm hf, issueOwnset, issue_runs hi]
      simp only [begun_ctx, begun_regOf, if_neg (not_kernelCtx hk)]
      exact askUnit_begun _ _ _ _ _ _
  · intro s h t i code releases d a l p hf hi hk hp hr
    obtain ⟨b, rfl, hexec⟩ := exec_frameForm (s := s) hf
    rw [hexec]
    refine issueFrame_asks hi hk hp ?_
    rcases hr with hr | hr | hr
    · exact .inl (by rw [hr]; rfl)
    · exact .inl (by rw [hr, Bool.and_false])
    · exact .inr hr
  · intro s h t i m d a b hf hi hm va kind c ha he
    rw [exec_emsgForm hf]
    exact issueEmsg_asks hi hm ha he

end Sys2Proof.Machine
end

section
/-! PROOFS. Sequencers and queries: LCW and LCR are one field of the core's engine, FMTSET changes the fields of th.fmt bit by bit
(`fmtSet_bit`), EQRY answers `queryWord` of an engine's occupancy, and EFENCE goes on or waits. -/

namespace Sys2Proof.Machine

variable {s : State} {h : Hand} {t : Thread}

/-! ### Loop registers (R162, R163) -/

theorem begun_core_copy (c : Nat) : ((begun s h).core c).copy = (s.core c).copy := by
  obtain ⟨_, hcore⟩ := begun_core (s := s) (h := h) c
  rw [hcore]

theorem begun_core_vector (c : Nat) : ((begun s h).core c).vector = (s.core c).vector := by
  obtain ⟨_, hcore⟩ := begun_core (s := s) (h := h) c
  rw [hcore]

theorem begun_core_matrix (c : Nat) : ((begun s h).core c).matrix = (s.core c).matrix := by
  obtain ⟨_, hcore⟩ := begun_core (s := s) (h := h) c
  rw [hcore]

/-- An instruction whose one effect is W[d] retires with its value. -/
theorem issueRet_runs {k : Kind} {d : Reg} {f : State → Cx → Word} (hi : Issues s k h t) :
    issueRet k s d f = .next (retires s h t d (f (begun s h) (cxAt s h t))) := by
  rw [issueRet, issue_runs hi]
  rfl

theorem execLcrC_runs {d : Reg} {n : BitVec 3} (hi : Issues s (smallKind [d]) h t) :
    exec (.lcrC d n) s = .next (retires s h t d (((s.core h.core).copy.lc.find n.toNat).getD 0)) := by
  rw [← begun_core_copy (h := h)]
  exact issueRet_runs hi

theorem execLcrV_runs {d : Reg} {n : BitVec 3} (hi : Issues s (smallKind [d]) h t) :
    exec (.lcrV d n) s = .next (retires s h t d (((s.core h.core).vector.lc.find n.toNat).getD 0)) := by
  rw [← begun_core_vector (h := h)]
  exact issueRet_runs hi

theorem execLcrM_runs {d : Reg} {n : BitVec 3} (hi : Issues s (smallKind [d]) h t) :
    exec (.lcrM d n) s = .next (retires s h t d (((s.core h.core).matrix.lc.find n.toNat).getD 0)) := by
  rw [← begun_core_matrix (h := h)]
  exact issueRet_runs hi

/-! ### FMTSET (R213) -/

/-- A field of th.fmt from bit `lo` on, `n` bits long, replaced by that of an immediate. -/
theorem replaced_bit (f m : Word) (v : Imm) (lo n i : Nat) (hm : ∀ j < 64, m.getLsbD j = (decide (lo ≤ j) && decide (j < lo + n)))
    (hi : i < 64) : ((f &&& ~~~m) ||| ((v.extractLsb' lo n).setWidth 64 <<< lo)).getLsbD i =
      if lo ≤ i ∧ i < lo + n then v.getLsbD i else f.getLsbD i := by
  simp only [BitVec.getLsbD_or, BitVec.getLsbD_and, BitVec.getLsbD_not, BitVec.getLsbD_shiftLeft, BitVec.getLsbD_setWidth,
    BitVec.getLsbD_extractLsb', hm i hi]
  by_cases hlo : lo ≤ i
  · by_cases hn : i < lo + n
    · have hsub : i - lo < n := by omega
      have hlt : i - lo < 64 := by omega
      simp [hlo, hn, hi, hsub, hlt]
    · have hsub : ¬ i - lo < n := by omega
      simp [hlo, hn, hi, hsub]
  · have hlt : i < lo := by omega
    simp [hlo, hi, hlt]

/-- FMTSET changes bits 0 to 2, 4 and 5, and 16 of th.fmt, where its immediate enables their field. -/
theorem fmtSet_bit (f : Word) (v : Imm) {i : Nat} (hi : i < 64) : (fmtSet f v).getLsbD i =
    if i < 3 then (if v.getLsbD 6 then v.getLsbD i else f.getLsbD i)
    else if 4 ≤ i ∧ i < 6 then (if v.getLsbD 7 then v.getLsbD i else f.getLsbD i)
    else if i = 16 then !v.getLsbD 8 && f.getLsbD i
    else f.getLsbD i := by
  have htag (g : Word) := replaced_bit g 7 v 0 3 i (by decide) hi
  have hrm (g : Word) := replaced_bit g 0x30 v 4 2 i (by decide) hi
  have hclear (g : Word) : (g &&& ~~~(0x10000 : Word)).getLsbD i = if i = 16 then false else g.getLsbD i := by
    have hm : ∀ j < 64, (0x10000 : Word).getLsbD j = decide (j = 16) := by decide
    simp only [BitVec.getLsbD_and, BitVec.getLsbD_not, hm i hi, hi]
    by_cases h16 : i = 16 <;> simp [h16]
  rw [BitVec.shiftLeft_zero] at htag
  unfold fmtSet
  cases v.getLsbD 6 <;> cases v.getLsbD 7 <;> cases v.getLsbD 8 <;>
    simp only [Bool.false_eq_true, if_false, if_true, htag, hrm, hclear] <;> grind

theorem fmtSet_tag (f : Word) (v : Imm) : (fmtSet f v).extractLsb' 0 3 =
    if v.getLsbD 6 then v.extractLsb' 0 3 else f.extractLsb' 0 3 := by
  refine BitVec.eq_of_getLsbD_eq fun i hi => ?_
  have hbit := fmtSet_bit f v (i := i) (by omega)
  rw [if_pos hi] at hbit
  split <;> simp_all

theorem fmtSet_rounding (f : Word) (v : Imm) : (fmtSet f v).extractLsb' 4 2 =
    if v.getLsbD 7 then v.extractLsb' 4 2 else f.extractLsb' 4 2 := by
  refine BitVec.eq_of_getLsbD_eq fun i hi => ?_
  have hbit := fmtSet_bit f v (i := 4 + i) (by omega)
  rw [if_neg (by omega), if_pos (by omega)] at hbit
  split <;> simp_all

theorem fmtSet_sat (f : Word) (v : Imm) : (fmtSet f v).getLsbD 16 = (!v.getLsbD 8 && f.getLsbD 16) :=
  fmtSet_bit f v (by decide)

theorem fmtSet_others (f : Word) (v : Imm) {i : Nat} (hi : i ∉ [0, 1, 2, 4, 5, 16]) :
    (fmtSet f v).getLsbD i = f.getLsbD i := by
  by_cases hlt : i < 64
  · simp only [List.mem_cons, List.not_mem_nil, or_false] at hi
    rw [fmtSet_bit f v hlt, if_neg (by omega), if_neg (by omega), if_neg (by omega)]
  · rw [BitVec.getLsbD_of_ge _ _ (by omega), BitVec.getLsbD_of_ge _ _ (by omega)]

/-- Two changes of a thread that agree on it. -/
theorem State.upThread_congr {c k : Nat} {u : Thread} {f g : Thread → Thread} (hu : s.thread c k = some u) (hfg : f u = g u) :
    s.upThread c k f = s.upThread c k g := by
  rw [← State.upThread_const f hu, ← State.upThread_const g hu, hfg]

/-- FMTSET without a bit that it forbids. -/
theorem execFmtset_runs {d : Reg} {imm : Imm} (hi : Issues s (smallKind [d]) h t) (hhigh : imm.toNat < 2 ^ 9)
    (h3 : imm.getLsbD 3 = false) (htag : imm.getLsbD 6 = true ∨ imm.extractLsb' 0 3 = 0)
    (hrm : imm.getLsbD 7 = true ∨ imm.extractLsb' 4 2 = 0) :
    exec (.fmtset d imm) s = .next
      (ends ((begun s h).upThread h.core h.slot fun u => { u with fmt := fmtSet t.fmt imm }) h t d t.fmt) := by
  have hzero : imm.extractLsb' 9 25 = 0 := by
    refine BitVec.eq_of_toNat_eq ?_
    rw [BitVec.extractLsb'_toNat, Nat.shiftRight_eq_div_pow, Nat.div_eq_of_lt hhigh]
    rfl
  have hgood : (imm.extractLsb' 9 25 != 0 || imm.getLsbD 3 || (imm.extractLsb' 0 3 != 0 && !imm.getLsbD 6) ||
      (imm.extractLsb' 4 2 != 0 && !imm.getLsbD 7)) = false := by
    rw [hzero, h3]
    rcases htag with htag | htag <;> rcases hrm with hrm | hrm <;> simp [htag, hrm]
  change execFmtset d imm s = _
  rw [execFmtset, hgood, ← State.upThread_congr (f := fun u => { u with fmt := fmtSet u.fmt imm }) (begun_thread_self hi.live) rfl]
  exact issue_runs (k := smallKind [d]) hi _

/-! ### EQRY and EFENCE (R169, R170) -/

theorem queryWord_eq (queued flying : Nat) (stalled deferred : Bool) : queryWord queued flying stalled deferred =
    BitVec.ofNat 64 (queued + 4 * flying + (if stalled then 128 else 0) + if deferred then 256 else 0) := by
  cases stalled <;> cases deferred <;> rfl

/-- What EQRY answers of an engine whose queue and flight have these lengths. -/
def queried (s : State) (h : Hand) (t : Thread) (queued flying : Nat) : Word :=
  queryWord queued flying ((begun s h).stalledOf (s.tidAt h.core h.slot)) (t.deferred.any fun q => q.origin != .relaxed)

/-- The lengths of the queue and of the flight of the engine that EQRY's operand names. -/
def Core.occupancy (x : Core) : Nat → Option (Nat × Nat)
  | 0 => some (x.copy.queue.length, x.copy.flight.length)
  | 1 => some (x.vector.queue.length, x.vector.flight.length)
  | 2 => some (x.matrix.queue.length, x.matrix.flight.length)
  | _ => none

theorem begun_core_occupancy (c n : Nat) : ((begun s h).core c).occupancy n = (s.core c).occupancy n := by
  obtain ⟨_, hcore⟩ := begun_core (s := s) (h := h) c
  rw [hcore]
  rfl

/-- EQRY answers the state of the engine that its operand names, or all ones. -/
theorem execEqry_runs {d a : Reg} (hi : Issues s (smallKind [d, a]) h t) :
    exec (.eqry d a) s = .next (retires s h t d (((s.core h.core).occupancy (regOf s h t a).toNat).elim (BitVec.allOnes 64)
      fun e => queried s h t e.1 e.2)) := by
  have htid : (cxAt s h t).tid (begun s h) = s.tidAt h.core h.slot := begun_tidAt _ _
  change execEqry d a s = _
  rw [execEqry, issueRet_runs hi, ← begun_core_occupancy (h := h)]
  simp only [begun_regOf, htid]
  match (regOf s h t a).toNat with
  | 0 | 1 | 2 | n + 3 => rfl

/-- No deferred event falls due at an instruction that issues. -/
theorem Issues.nothingDue {k : Kind} (hi : Issues s k h t) (hl : k.late = false) : t.deferred.find? (dueAt k) = none := by
  have hq := hi.quiet
  simp only [Cx.due, hl, Bool.false_and, Bool.false_eq_true, if_false] at hq
  change ((t.deferred.find? fun d => d.due).orElse fun _ => t.deferred.find? (dueAt k)) = none at hq
  cases hfind : t.deferred.find? fun d => d.due with
  | none => rwa [hfind] at hq
  | some e => rw [hfind] at hq; cases hq

theorem execEfence_runs (hi : Issues s (reporting []) h t) : exec .efence s =
    if (begun s h).commandsOf (s.tidAt h.core h.slot) then (cxAt s h t).again (begun s h) .mem
    else .next (goesTo s h (stepPc t.pc h.len)) := by
  have hth : (cxAt s h t).th = t := rfl
  change execEfence s = _
  rw [execEfence, issue_runs hi, ← begun_tidAt (h := h)]
  simp only [Cx.deliverDue, hth, hi.nothingDue rfl]
  rfl

/-- Settles O40: loop registers are one field of their engine, th.fmt is read bit by bit (`fmtSet_bit`), and the queries are
`execEqry_runs` and `execEfence_runs`. -/
theorem sequencersAreSetAndQueried : Obligations.SequencersAreSetAndQueried := by
  refine ⟨fun s h t a n hi => ?_, fun s h t d n hi => ?_, fun s h t d imm hi hhigh h3 htag hrm => ?_, fun s h t d a hi => ?_,
    fun s h t hi => ?_⟩
  · refine ⟨?_, ?_, ?_⟩
    · change execLcwC n a s = _
      rw [execLcwC, issue_runs hi]
      simp only [begun_regOf]
      rfl
    · change execLcwV n a s = _
      rw [execLcwV, issue_runs hi]
      simp only [begun_regOf]
      rfl
    · change execLcwM n a s = _
      rw [execLcwM, issue_runs hi]
      simp only [begun_regOf]
      rfl
  · exact ⟨execLcrC_runs hi, execLcrV_runs hi, execLcrM_runs hi⟩
  · exact ⟨_, execFmtset_runs hi hhigh h3 htag hrm, fmtSet_tag _ _, fmtSet_rounding _ _, fmtSet_sat _ _,
      fun i hn => fmtSet_others _ _ hn⟩
  · intro x n id ends
    have hruns := execEqry_runs hi
    have hends {q f : Nat} (ho : (s.core h.core).occupancy n = some (q, f)) : ends q f := by
      rw [ho, Option.elim_some, queried, queryWord_eq] at hruns
      exact hruns
    refine ⟨fun hn => hends (by rw [hn]; rfl), fun hn => hends (by rw [hn]; rfl), fun hn => hends (by rw [hn]; rfl), fun hn => ?_⟩
    have hnone : (s.core h.core).occupancy n = none := by
      obtain ⟨m, hm⟩ := Nat.exists_eq_add_of_le' hn
      rw [hm]
      rfl
    rw [hnone] at hruns
    exact hruns
  · refine ⟨fun hc => ?_, fun hc => ?_⟩
    · rw [execEfence_runs hi, hc]
      rfl
    · rw [execEfence_runs hi, hc]
      exact again_parks .mem hi.live

end Sys2Proof.Machine
end

section
/-! PROOFS. Transaction barriers. A change of a barrier in its cycle is said once (`touchBar_passes`); the instructions are their
checks (`tb_runs`, `tb_traps`) and that change, and TB.PHASE's word is a sum of its fields (`phaseWord_eq`). -/

namespace Sys2Proof.Machine

variable {s : State} {h : Hand} {t : Thread} {n v : Word}

/-! ### A barrier changes (R172) -/

theorem State.touchBar_core (c n : Nat) (f : TBar → TBar) : (s.touchBar c n f).core c =
    { s.core c with tbars := (s.core c).tbars.put n (f ((s.core c).tbar n)) } := by
  have hput : (s.upCore c fun x => { x with tbars := x.tbars.put n (f (x.tbar n)) }).core c =
      { s.core c with tbars := (s.core c).tbars.put n (f ((s.core c).tbar n)) } := State.upCore_core_self _ _ _
  unfold State.touchBar
  dsimp only
  split <;> exact hput

theorem State.mem_touchBar_touched (c n : Nat) (f : TBar → TBar) : (c, n) ∈ (s.touchBar c n f).touched := by
  unfold State.touchBar
  dsimp only
  split
  · next hin => exact List.contains_iff_mem.1 hin
  · exact List.mem_append_right _ (List.mem_singleton_self _)

theorem begun_core_tbars (c : Nat) : ((begun s h).core c).tbars = (s.core c).tbars := by
  obtain ⟨_, hcore⟩ := begun_core (s := s) (h := h) c
  rw [hcore]

theorem begun_core_tbar (c n : Nat) : ((begun s h).core c).tbar n = (s.core c).tbar n := by
  rw [Core.tbar, begun_core_tbars]
  rfl

/-- The state in which an instruction has changed a barrier of its core, and its thread goes on. -/
def barChanged (s : State) (h : Hand) (t : Thread) (n : Nat) (f : TBar → TBar) : State :=
  passes ((begun s h).touchBar h.core n f) h t

theorem barChanged_core (n : Nat) (f : TBar → TBar) : ∃ slots, (barChanged s h t n f).core h.core =
    { s.core h.core with slots := slots, tbars := (s.core h.core).tbars.put n (f ((s.core h.core).tbar n)) } := by
  obtain ⟨slots, hpass⟩ := passes_core (b := (begun s h).touchBar h.core n f) (h := h) (t := t) h.core
  obtain ⟨_, hbegun⟩ := begun_core (s := s) (h := h) h.core
  refine ⟨slots, hpass.trans ?_⟩
  rw [State.touchBar_core, begun_core_tbar, hbegun]

theorem barChanged_tbar (n : Nat) (f : TBar → TBar) :
    ((barChanged s h t n f).core h.core).tbar n = f ((s.core h.core).tbar n) := by
  obtain ⟨_, hcore⟩ := barChanged_core (s := s) (h := h) (t := t) n f
  rw [hcore, Core.tbar, Map.find_put_self]
  rfl

theorem barChanged_others {n k : Nat} (f : TBar → TBar) (hk : k ≠ n) :
    ((barChanged s h t n f).core h.core).tbars.find k = (s.core h.core).tbars.find k := by
  obtain ⟨_, hcore⟩ := barChanged_core (s := s) (h := h) (t := t) n f
  rw [hcore]
  exact Map.find_put_other _ _ hk

theorem barChanged_thread (ht : s.thread h.core h.slot = some t) (n : Nat) (f : TBar → TBar) :
    (barChanged s h t n f).thread h.core h.slot = some { t.issuing with pc := stepPc t.pc h.len } := by
  refine passes_thread ?_
  rw [State.thread, State.touchBar_core]
  exact begun_thread_self ht

theorem barChanged_regs (n : Nat) (f : TBar → TBar) :
    ((barChanged s h t n f).core h.core).regs = (s.core h.core).regs := by
  obtain ⟨_, hcore⟩ := barChanged_core (s := s) (h := h) (t := t) n f
  rw [hcore]

theorem barChanged_mem (n : Nat) (f : TBar → TBar) : (barChanged s h t n f).mem = s.mem := by
  rw [barChanged, passes, State.upThread_mem, State.touchBar_mem, begun_mem]

/-! ### The checks and the instructions (R173) -/

theorem tb_runs (body : Out) (hn : n.toNat < 64) (hv : v.toNat < 2 ^ 35) :
    (cxAt s h t).tb (begun s h) n v body = body :=
  if_neg (by rw [not_or]; exact ⟨by omega, Nat.not_le.2 hv⟩)

theorem tb_traps (body : Out) (hbad : 63 < n.toNat ∨ 2 ^ 35 ≤ v.toNat) :
    (cxAt s h t).tb (begun s h) n v body = .next ((begun s h).trap h.core h.slot 0x09 9 t.pc 0 false) := if_pos hbad

/-- TB.EXP's change of a barrier. -/
def TBar.expects (v : Word) (b : TBar) : TBar := if b.init then b else { b with c := b.c + v.setWidth 36, posted := true }

/-- TB.ARR's change of a barrier. -/
def TBar.arrives (v : Word) (b : TBar) : TBar := if b.init then b else { b with c := b.c - v.setWidth 36 }

theorem execTbInit_runs {d : Reg} (hi : Issues s (smallKind [d]) h t) : exec (.tbInit d) s =
    (cxAt s h t).tb (begun s h) (regOf s h t d) 0 (.next (barChanged s h t (regOf s h t d).toNat fun _ => { init := true })) := by
  change execTbInit d s = _
  rw [execTbInit, issue_runs hi]
  simp only [begun_regOf]
  rfl

theorem execTbExp_runs {d a : Reg} (hi : Issues s (smallKind [d, a]) h t) : exec (.tbExp d a) s =
    (cxAt s h t).tb (begun s h) (regOf s h t d) (regOf s h t a)
      (.next (barChanged s h t (regOf s h t d).toNat (TBar.expects (regOf s h t a)))) := by
  change execTbExp d a s = _
  rw [execTbExp, issue_runs hi]
  simp only [begun_regOf, BitVec.ofNat_toNat]
  rfl

theorem execTbArr_runs {m : Mod} {d a : Reg} (hi : Issues s (smallKind [d, a]) h t) : exec (.tbArr m d a) s =
    (cxAt s h t).tb (begun s h) (regOf s h t d) (regOf s h t a) ((cxAt s h t).releasing (begun s h) m fun u =>
      (cxAt s h t).done (u.countBytes h.core (regOf s h t d).toNat (regOf s h t a).toNat)) := by
  change execTbArr m d a s = _
  rw [execTbArr, issue_runs hi]
  simp only [begun_regOf]
  rfl

theorem execTbArr_counts {m : Mod} {d a : Reg} (hi : Issues s (smallKind [d, a]) h t) (hm : m.release = false)
    (hn : (regOf s h t d).toNat < 64) (hv : (regOf s h t a).toNat < 2 ^ 35) :
    exec (.tbArr m d a) s = .next (barChanged s h t (regOf s h t d).toNat (TBar.arrives (regOf s h t a))) := by
  rw [execTbArr_runs hi, tb_runs _ hn hv, Cx.releasing_of_none _ _ hm, State.countBytes]
  simp only [BitVec.ofNat_toNat]
  rfl

/-- The state in which TB.WAIT leaves a thread whose barrier has the parity that it waits for. -/
def barAwaited (s : State) (h : Hand) (t : Thread) (n : Nat) (q : Bool) : State :=
  (begun s h).park h.core h.slot .barrier (.tbar n q (stepPc t.pc h.len))

theorem execTbWait_runs {m : Mod} {d a : Reg} (hi : Issues s (reporting [d, a]) h t) : exec (.tbWait m d a) s =
    (cxAt s h t).tb (begun s h) (regOf s h t d) 0
      (if ((s.core h.core).tbar (regOf s h t d).toNat).p = (regOf s h t a).getLsbD 0 then
        .next (barAwaited s h t (regOf s h t d).toNat ((regOf s h t a).getLsbD 0))
      else .next (goesTo s h (stepPc t.pc h.len))) := by
  change execTbWait m d a s = _
  rw [execTbWait, issue_runs hi, ← begun_core_tbar (h := h)]
  simp only [begun_regOf]
  rfl

/-- TB.PHASE's word: the count above the posting and the phase. -/
theorem phaseWord_eq (c : BitVec 36) (posted p : Bool) :
    (c.signExtend 64 <<< 2) ||| BitVec.ofNat 64 (2 * posted.toNat + p.toNat) =
      BitVec.ofInt 64 (4 * c.toInt) + BitVec.ofNat 64 ((if posted then 2 else 0) + if p then 1 else 0) := by
  have hshift : c.signExtend 64 <<< 2 = BitVec.ofInt 64 (4 * c.toInt) := by
    rw [BitVec.signExtend, BitVec.shiftLeft_eq_mul_twoPow, mul_comm 4, BitVec.ofInt_mul]
    rfl
  have hdisjoint : (c.signExtend 64 <<< 2) &&& BitVec.ofNat 64 (2 * posted.toNat + p.toNat) = 0#64 := by
    refine BitVec.eq_of_getLsbD_eq fun i _ => ?_
    rw [BitVec.getLsbD_and, BitVec.getLsbD_shiftLeft, BitVec.getLsbD_zero]
    by_cases hi : i < 2
    · simp [hi]
    · have hlow : (BitVec.ofNat 64 (2 * posted.toNat + p.toNat)).getLsbD i = false := by
        have hpow : 2 ^ 2 ≤ 2 ^ i := Nat.pow_le_pow_right (by decide) (Nat.not_lt.1 hi)
        have hposted := posted.toNat_le
        have hp := p.toNat_le
        rw [BitVec.getLsbD_ofNat, Nat.testBit_lt_two_pow (by omega), Bool.and_false]
      rw [hlow, Bool.and_false]
  rw [← BitVec.add_eq_or_of_and_eq_zero _ _ hdisjoint, hshift]
  cases posted <;> cases p <;> rfl

theorem execTbPhase_runs {d a : Reg} (hi : Issues s (smallKind [d, a]) h t) : exec (.tbPhase d a) s =
    (cxAt s h t).tb (begun s h) (regOf s h t a) 0 (.next (retires s h t d
      ((((s.core h.core).tbar (regOf s h t a).toNat).c.signExtend 64 <<< 2) ||| BitVec.ofNat 64
        (2 * ((s.core h.core).tbar (regOf s h t a).toNat).posted.toNat +
          ((s.core h.core).tbar (regOf s h t a).toNat).p.toNat)))) := by
  change execTbPhase d a s = _
  rw [execTbPhase, issue_runs hi, ← begun_core_tbar (h := h)]
  simp only [begun_regOf]
  rfl

/-- Settles O41: each instruction is its checks and a change of its barrier (`barChanged`), a wait or an answer. -/
theorem transactionBarriersCountBytes : Obligations.TransactionBarriersCountBytes := by
  refine ⟨?_, ?_, fun s h t d hi hn => ?_, fun s h t d a m hn => ?_, fun s h t d a hi hn => ?_⟩
  · intro s h t d a m n v old changed hn
    have hzero : (0 : Word).toNat < 2 ^ 35 := by decide
    have hchanged {k : Kind} {i : Instr} {f : TBar → TBar} {b : TBar} (hi : Issues s k h t)
        (he : exec i s = .next (barChanged s h t n f)) (hb : f old = b) : changed i b :=
      ⟨_, _, he, (barChanged_tbar n f).trans hb, fun k hk => barChanged_others f hk, State.mem_touchBar_touched _ _ _,
        barChanged_thread hi.live n f, rfl, rfl, barChanged_regs n f, barChanged_mem n f⟩
    refine ⟨fun hi => ?_, fun hi hv hinit => ?_, fun hi hv hinit => ?_, fun hi hv => ?_, fun hi => ?_⟩
    · exact hchanged hi ((execTbInit_runs hi).trans (tb_runs _ hn hzero)) rfl
    · refine ⟨?_, fun hm => ?_⟩
      · exact hchanged hi ((execTbExp_runs hi).trans (tb_runs _ hn hv)) (if_neg (Bool.eq_false_iff.1 hinit))
      · exact hchanged hi (execTbArr_counts hi hm hn hv) (if_neg (Bool.eq_false_iff.1 hinit))
    · refine ⟨?_, fun hm => ?_⟩
      · exact hchanged hi ((execTbExp_runs hi).trans (tb_runs _ hn hv)) (if_pos hinit)
      · exact hchanged hi (execTbArr_counts hi hm hn hv) (if_pos hinit)
    · exact ⟨(execTbExp_runs hi).trans (tb_traps _ (.inr hv)), (execTbArr_runs hi).trans (tb_traps _ (.inr hv))⟩
    · have hruns := (execTbWait_runs (m := m) hi).trans (tb_runs _ hn hzero)
      refine ⟨fun hp => ?_, fun hp => hruns.trans (if_neg hp)⟩
      exact ⟨_, _, hruns.trans (if_pos hp), State.park_thread _ _ (begun_thread_self hi.live), rfl, State.park_mem _ _⟩
  · intro s h t d a hi n b hn
    rw [← phaseWord_eq]
    exact (execTbPhase_runs hi).trans (tb_runs _ hn (by decide))
  · exact (execTbInit_runs hi).trans (tb_traps _ (.inl hn))
  · refine ⟨fun hi => ⟨?_, ?_⟩, fun hi => ?_⟩
    · exact (execTbExp_runs hi).trans (tb_traps _ (.inl hn))
    · exact (execTbArr_runs hi).trans (tb_traps _ (.inl hn))
    · exact (execTbWait_runs hi).trans (tb_traps _ (.inl hn))
  · exact (execTbPhase_runs hi).trans (tb_traps _ (.inl hn))

end Sys2Proof.Machine
end

section
/-! PROOFS. WAITP and GATH. WAITP's check of its word is one access (`execWaitp_probes`), also of a thread that has slept
(`accessAt_admitted`); a GATH whose checks let it waits in the fabric for its cluster's engine (`execGath_asks`). -/

namespace Sys2Proof.Machine

variable {s u : State} {h : Hand} {t v : Thread}

/-! ### Parks -/

/-- A park changes its core's slots and the agenda alone. -/
theorem State.park_eq (c k : Nat) (why : Park) (till : Wait) :
    ∃ cores agenda, s.park c k why till = { s with cores := cores, agenda := agenda } := by
  unfold State.park
  dsimp only
  split <;> exact ⟨_, _, rfl⟩

theorem queued_eq (n : Nat) : ∃ cores agenda, (cxAt s h t).queued u n = { u with cores := cores, agenda := agenda } := by
  obtain ⟨cores, agenda, hpark⟩ := (u.upThread h.core h.slot fun v => { v with restart := t.restart }).park_eq h.core h.slot
    .queue (.queue n)
  exact ⟨cores, agenda, hpark⟩

/-- A thread that waits for an entry of an engine's queue is parked at its instruction. -/
theorem queued_thread (n : Nat) (hv : u.thread h.core h.slot = some v) : ∃ w,
    ((cxAt s h t).queued u n).thread h.core h.slot = some w ∧ w.status = .parked .queue (.queue n) ∧ w.pc = v.pc := by
  have hthread : (u.upThread h.core h.slot fun v => { v with restart := t.restart }).thread h.core h.slot =
      some { v with restart := t.restart } := by
    rw [State.upThread_thread_self, hv]
    rfl
  exact ⟨_, State.park_thread _ _ hthread, rfl, rfl⟩

/-! ### WAITP (R168) -/

/-- A pointer that the address checks accept is its own effective address. -/
theorem eq_of_effective_zero {p p' : Word} (hp : effective p 0 = .ok p') : p' = p := by
  simp only [effective] at hp
  split at hp
  · cases hp
  · split at hp
    · cases hp
    · split at hp
      · cases hp
      · cases hp
        rw [Int.add_zero, Int.toNat_natCast, offsetOf, Nat.div_add_mod', BitVec.ofNat_toNat, BitVec.setWidth_eq]

/-- The acquire mark alone of an instruction. -/
def acquireMark (m : Mod) : Mod := if m.acquire then { scope := m.scope, acquire := true } else {}

/-- What WAITP asks of the word that it checks. -/
def probeAsk (m : Mod) (p : Word) : Ask :=
  { op := .probe, use := .stage stProbe, align := 8, mod := m, redir := .follows, args := [p] }

theorem probeWord_acqOf (x : Cx) (u : State) (m : Mod) (p : Word) :
    x.probeWord u p (acqOf m) = x.access u p 0 (probeAsk (acquireMark m) p) := by
  unfold Cx.probeWord acqOf acquireMark
  cases m.acquire <;> rfl

theorem execWaitp_probes {m : Mod} {a b : Reg} {p' : Word} (hi : Issues s (reporting [a, b]) h t)
    (htime : (regOf s h t a).toNat ≤ s.cyc) (hp : effective (regOf s h t b) 0 = .ok p') 
    (ha : Admits s h t p' (probeAsk (acquireMark m) p')) :
    exec (.waitp m a b) s = .next (asks s h t p' (probeAsk (acquireMark m) p')) := by
  change execWaitp m a b s = _
  rw [execWaitp, issue_runs hi]
  simp only [begun_regOf, begun_cyc, if_pos htime, probeWord_acqOf]
  rw [← eq_of_effective_zero hp]
  exact access_runs (eq_of_effective_zero hp ▸ hp) ha

/-- The state in which a WAITP whose time has not come leaves the machine, but for the step that ends its sleep. -/
def promised (s : State) (h : Hand) (t : Thread) (m : Mod) (p : Word) (time : Nat) : State :=
  ((begun s h).park h.core h.slot .sleep (.promise p (stepPc t.pc h.len) (acqOf m))).upThread h.core h.slot fun th =>
    { th with wakeAt := some time }

theorem promised_thread (m : Mod) (p : Word) (time : Nat) (ht : s.thread h.core h.slot = some t) :
    ∃ v, (promised s h t m p time).thread h.core h.slot = some v ∧
      v.status = .parked .sleep (.promise p (stepPc t.pc h.len) (acqOf m)) ∧ v.wakeAt = some time := by
  rw [promised, State.upThread_thread_self, State.park_thread _ _ (begun_thread_self ht)]
  exact ⟨_, rfl, rfl, rfl⟩

theorem promised_mem (m : Mod) (p : Word) (time : Nat) : (promised s h t m p time).mem = s.mem := by
  rw [promised, State.upThread_mem, State.park_mem, begun_mem]

theorem promised_tidAt (m : Mod) (p : Word) (time c k : Nat) : (promised s h t m p time).tidAt c k = s.tidAt c k := by
  rw [promised, State.upThread_tidAt, State.park_tidAt, begun_tidAt]

theorem execWaitp_sleeps {m : Mod} {a b : Reg} (hi : Issues s (reporting [a, b]) h t) (htime : s.cyc < (regOf s h t a).toNat) :
    exec (.waitp m a b) s = .next ((promised s h t m (regOf s h t b) (regOf s h t a).toNat).post (regOf s h t a).toNat 20
      (.waitpTimeReached (s.tidAt h.core h.slot))) := by
  rw [← promised_tidAt (h := h) (t := t) m (regOf s h t b) (regOf s h t a).toNat]
  change execWaitp m a b s = _
  rw [execWaitp, issue_runs hi]
  simp only [begun_regOf, begun_cyc, if_neg (Nat.not_le.2 htime)]
  rfl

/-- An instruction that has slept: its thread, with what its engines held at its issue no longer at hand. -/
def sleeper (i : Tid) (th : Thread) (npc : Word) : Cx :=
  { core := i.core, slot := i.slot, th := th, pc := th.pc, npc := npc, base := 0 }

/-- The request of the check of a word by a thread that has slept. -/
def probeReq (s : State) (i : Tid) (th : Thread) (npc p : Word) : Req :=
  { tid := some ((sleeper i th npc).tid s), core := i.core, ctx := s.ctxOf i.core, part := th.part, asid := th.asid.toNat,
    op := .probe, use := .stage stProbe, args := [p], ptr := p, epc := th.pc, npc := npc }

/-- The check of a word by a thread that has slept, where every check of the access lets it. -/
theorem sleeper_probes {i : Tid} {th : Thread} {npc p : Word} (hp : effective p 0 = .ok p)
    (hdue : (sleeper i th npc).dueOn s p (probeAsk {} p) = none) (ho : offsetOf p % 8 = 0) (hlast : lastByte p 8 = none)
    (hspace : s.spaceEvent i.core th.part p = none) (hroams : (sleeper i th npc).roams s p = none)
    (hheld : s.heldBack ((sleeper i th npc).tid s) false = false)
    (hredir : s.redirect i.core th.strand .follows p 8 = (.same, s)) :
    (sleeper i th npc).probeWord s p none = .next
      ((((s.addReq (probeReq s i th npc p)).2).park i.core i.slot .mem (.reply s.serial)).begin s.serial) := by
  have hal : ¬ offsetOf p % 8 ≠ 0 := not_not.2 ho
  have hreach : s.reachEvent i.core th.part p 8 = none := hspace
  have hprobe : (sleeper i th npc).probeWord s p none = (sleeper i th npc).accessAt s p (probeAsk {} p) := by
    change (sleeper i th npc).access s p 0 (probeAsk {} p) = _
    rw [Cx.access, hp]
  rw [hprobe, Cx.accessAt, hdue]
  simp only [probeAsk, sleeper] at hal hreach hroams hheld hredir ⊢
  simp only [if_neg hal, hlast, hreach, hroams, hheld]
  rw [Cx.releasing_of_none _ _ rfl]
  simp only [hredir]
  rfl

/-- A thread whose time has come checks its word. -/
theorem execWaitpTimeReached_probes {i : Tid} {th : Thread} {why : Park} {p npc : Word} {acq : Option Scope}
    (hth : s.threadOf i = some th) (hst : th.status = .parked why (.promise p npc acq)) (hw : th.wakeAt = some s.cyc) :
    exec (.waitpTimeReached i) s = (sleeper i th npc).probeWord s p acq := by
  change execWaitpTimeReached i s = _
  simp only [execWaitpTimeReached, hth, hst, hw]
  exact if_neg (not_not.2 rfl)

/-! ### GATH (R174) -/

/-- A command as an instruction captures it of its thread, its core and its registers (R157). -/
structure CopyCmd.Captures (q : CopyCmd) (s : State) (h : Hand) (t : Thread) (kind : CopyKind) (d : Reg) (dst src : Word)
    (tb : Option Nat) : Prop where
  kind : q.kind = kind
  tid : q.tid = s.tidAt h.core h.slot
  core : q.core = h.core
  asid : q.asid = t.asid.toNat
  epc : q.epc = t.pc
  dreg : q.dreg = rn d
  dst : q.dst = dst
  src : q.src = src
  tb : q.tb = tb
  tlb : q.tlb = (s.core h.core).tlb

theorem capture_captures (kind : CopyKind) (d : Reg) (dst src : Word) (tb : Option Nat) :
    ((cxAt s h t).capture (begun s h) kind d dst src tb).Captures s h t kind d dst src tb :=
  ⟨rfl, begun_tidAt _ _, rfl, rfl, rfl, rfl, rfl, rfl, rfl, rfl⟩

/-- The gather command as which GATH captures its request, from the start of its list. -/
def gathCmd (s : State) (h : Hand) (t : Thread) (d : Reg) (dst src : Word) (tb : Option Nat) (len : Nat) : CopyCmd :=
  { (cxAt s h t).capture (begun s h) .gath d dst src tb with
    parts := len, beats := (len + 7) / 8, chained := true, list := List.replicate len 0,
    oneHome := (begun s h).oneBank ((cxAt s h t).capture (begun s h) .gath d dst src tb) 0 (8 * len - 1) }

/-- A gather request as it waits in the fabric (R174). -/
def CopyCmd.onItsWay (q : CopyCmd) (s : State) : CopyCmd := { q with id := s.serial, effect := s.cyc + 12 }

/-- The state in which a request waits for its cluster's engine, and its thread has still to park. -/
def gathPending (s : State) (h : Hand) (q : CopyCmd) : State :=
  (begun s h).fresh.2.upCluster (clusterOf h.core) fun c => { c with wants := c.wants ++ [q.onItsWay s] }

/-- The state in which a GATH has sent its request to its cluster's engine, but for the request's arrival. -/
def gathSent (s : State) (h : Hand) (t : Thread) (q : CopyCmd) : State :=
  (cxAt s h t).queued (gathPending s h q) s.serial

theorem execGath_asks {m : Mod} {d a b : Reg} {tb : Option Nat} {len : Nat} {dst : Word} (hi : Issues s (smallKind [d, a, b]) h t)
    (hres : t.restart = none) (hm : m.release = false) (hlen : ((regOf s h t d).extractLsb' 0 20).toNat = len)
    (hdst : regOf s h t a = dst) (htb : descBar (regOf s h t d) = some tb) (hpos : 0 < len) (hmax : len ≤ 4096)
    (hown : ownVault h.core dst = true) (hrange : sideRange dst 0 (8 * len - 1 : Int) = none) (hal : dst.toNat % 8 = 0)
    (hspace : (begun s h).sideSpace h.core t.part dst 0 (8 * len - 1 : Int) = none) :
    exec (.gath m d a b) s = .next ((gathSent s h t (gathCmd s h t d dst (regOf s h t b) tb len)).after 12 20
      (.gatherRequestAccept (clusterOf h.core))) := by
  subst hdst hlen
  have hth : (cxAt s h t).th.restart = none := hres
  have hcore : (cxAt s h t).core = h.core := rfl
  have hpart : (cxAt s h t).th.part = t.part := rfl
  have hbad : ¬ (((regOf s h t d).extractLsb' 0 20).toNat = 0 ∨ 4096 < ((regOf s h t d).extractLsb' 0 20).toNat ∨
      (!(spaceOf (regOf s h t a) == 1 || (spaceOf (regOf s h t a) == 2 && ptrCore (regOf s h t a) == h.core))) = true) := by
    rw [ownVault] at hown
    rw [hown]
    simp only [Bool.not_true, Bool.false_eq_true, or_false]
    omega
  change execGath m d a b s = _
  rw [execGath, issue_runs hi]
  simp only [begun_regOf, htb, hcore, if_neg hbad, Cx.restartPart, hth, Nat.zero_min, Nat.mul_zero, Int.ofNat_zero, hrange, hal,
    hpart, hspace]
  rw [if_neg (not_not.2 rfl), Cx.releasing_of_none _ _ hm]
  rfl

theorem State.upCluster_find (s : State) (cl : Nat) (g : Cluster → Cluster) :
    ((s.upCluster cl g).clusters.find cl).getD {} = g ((s.clusters.find cl).getD {}) := by
  rw [State.upCluster_clusters, Map.find_put_self, Option.getD_some]

theorem gathSent_wants (q : CopyCmd) : (((gathSent s h t q).clusters.find (clusterOf h.core)).getD {}).wants =
    ((s.clusters.find (clusterOf h.core)).getD {}).wants ++ [q.onItsWay s] := by
  obtain ⟨_, _, hqueued⟩ := queued_eq (s := s) (h := h) (t := t) (u := gathPending s h q) s.serial
  have hpending : (((gathPending s h q).clusters.find (clusterOf h.core)).getD {}).wants =
      ((s.clusters.find (clusterOf h.core)).getD {}).wants ++ [q.onItsWay s] := by
    rw [gathPending, State.upCluster_find]
    rfl
  rw [gathSent, hqueued]
  exact hpending

theorem gathSent_thread (q : CopyCmd) (ht : s.thread h.core h.slot = some t) : ∃ w,
    (gathSent s h t q).thread h.core h.slot = some w ∧ w.status = .parked .queue (.queue s.serial) := by
  obtain ⟨w, hw, hstatus, -⟩ := queued_thread (s := s) (t := t) (u := gathPending s h q) s.serial (begun_thread_self ht)
  exact ⟨w, hw, hstatus⟩

theorem gathSent_cyc (q : CopyCmd) : (gathSent s h t q).cyc = s.cyc := by
  obtain ⟨_, _, hqueued⟩ := queued_eq (s := s) (h := h) (t := t) (u := gathPending s h q) s.serial
  rw [gathSent, hqueued]
  rfl

theorem gathSent_mem (q : CopyCmd) : (gathSent s h t q).mem = s.mem := by
  rw [gathSent, Cx.queued_mem]
  rfl

/-- A gather engine with a free entry accepts the first request, which has arrived and whose thread still waits. -/
theorem execGatherRequestAccept_accepts {cl : Nat} {q : CopyCmd} {rest : List CopyCmd}
    (hw : ((s.clusters.find cl).getD {}).wants = q :: rest) (hwaits : s.stillWaits q = true)
    (hroom : ((s.clusters.find cl).getD {}).gather.length < 8) (hcame : q.effect ≤ s.cyc) :
    exec (.gatherRequestAccept cl) s =
      .next ((s.upCluster cl fun c => { c with gather := c.gather ++ [q], wants := rest }).readList q q.base s.cyc (q.parts + 1)
        |>.listNext q.core q.id) := by
  have hfirst : (q :: rest).dropWhile (fun q => !s.stillWaits q) = q :: rest := by
    rw [List.dropWhile_cons_of_neg]
    rw [hwaits]
    decide
  have hfree : ¬ (8 ≤ ((s.clusters.find cl).getD {}).gather.length ∨ s.cyc < q.effect) := by omega
  change execGatherRequestAccept cl s = _
  simp only [execGatherRequestAccept, hw, hfirst, if_neg hfree]
  rfl

/-- Settles O43: WAITP checks its word by one access or sleeps (`promised`), and then checks it (`sleeper_probes`); GATH sends its
request (`gathSent`), which its engine accepts (`execGatherRequestAccept_accepts`). -/
theorem promisesAreAwaitedAndGathersAsked : Obligations.PromisesAreAwaitedAndGathersAsked := by
  refine ⟨?_, ?_, ?_, fun s cl q rest => execGatherRequestAccept_accepts⟩
  · intro s h t m a b hi time p mark q
    refine ⟨fun p' htime hp ha => execWaitp_probes hi htime hp ha, fun htime => ?_⟩
    obtain ⟨v, hv, hstatus, hwake⟩ := promised_thread m p time hi.live
    exact ⟨_, v, execWaitp_sleeps hi htime, hv, hstatus, hwake, State.post_coming _ _ _, promised_mem m p time⟩
  · intro s i th p p' npc hth hst hw x hp hdue ho hlast hspace hroams hheld hredir
    have heq := eq_of_effective_zero hp
    subst heq
    exact (execWaitpTimeReached_probes hth hst hw).trans (sleeper_probes hp hdue ho hlast hspace hroams hheld hredir)
  · intro s h t m d a b tb hi hres hm len dst htb hpos hmax hown hrange hal hspace
    have hcap := capture_captures (s := s) (h := h) (t := t) .gath d dst (regOf s h t b) tb
    obtain ⟨v, hv, hstatus⟩ := gathSent_thread (gathCmd s h t d dst (regOf s h t b) tb len) hi.live
    refine ⟨_, v, _, execGath_asks hi hres hm rfl rfl htb hpos hmax hown hrange hal hspace, gathSent_wants _, rfl, hcap.kind, rfl,
      hcap.dst, hcap.src, hcap.tb, rfl, hv, hstatus, ?_, gathSent_mem _⟩
    have hcoming := State.after_coming (s := gathSent s h t (gathCmd s h t d dst (regOf s h t b) tb len)) 12 20
      (.gatherRequestAccept (clusterOf h.core))
    rwa [gathSent_cyc] at hcoming

end Sys2Proof.Machine
end

section
/-! PROOFS. CPY and TCPY. An instruction whose checks let it submits the command that it captured (`execCpy_submits`,
`execTcpy_submits`); a submitted command enters its engine's queue (`submitCopy_enters`, and what `State.enterCopy` leaves) or its
thread waits for an entry (`submitCopy_waits`). -/

namespace Sys2Proof.Machine

variable {s u : State} {h : Hand} {t v : Thread} {q : CopyCmd}

/-! ### A command enters the queue (R155, R156) -/

/-- When a command that takes effect now has its promise, and when the read stage is free after it. -/
def CopyCmd.promised (q : CopyCmd) (u : State) : Nat × Nat :=
  u.promiseOf q (u.core q.core).copy.readFree (u.core q.core).copy.flight q.beats (u.placeFrom q.tlb q.core q.asid (q.srcOf q.base))

/-- A command as it stands in the queue. -/
def CopyCmd.entered (q : CopyCmd) (u : State) : CopyCmd :=
  { q with promise := (q.promised u).1, effect := u.cyc, tlb := [], granted := true }

/-- The state in which a command has joined the end of its queue. -/
def State.joinedCopy (u : State) (q : CopyCmd) : State :=
  u.upCore q.core fun x =>
    { x with copy := { x.copy with queue := x.copy.queue ++ [q.entered u], readFree := (q.promised u).2 } }

theorem State.enterCopy_eq : u.enterCopy q =
    ((u.joinedCopy q).setW q.core q.tid.slot q.dreg (BitVec.ofNat 64 (q.promised u).1)).kickCopy q.core := rfl

theorem State.joinedCopy_copy : ((u.joinedCopy q).core q.core).copy =
    { (u.core q.core).copy with queue := (u.core q.core).copy.queue ++ [q.entered u], readFree := (q.promised u).2 } := by
  rw [State.joinedCopy, State.upCore_core_self]

theorem State.joinedCopy_thread (c k : Nat) : (u.joinedCopy q).thread c k = u.thread c k := by
  rw [State.joinedCopy, State.upCore_thread]
  exact fun _ => rfl

theorem State.setW_copy (c k n : Nat) (w : Word) (c' : Nat) : ((u.setW c k n w).core c').copy = (u.core c').copy := by
  obtain ⟨_, hcore⟩ := u.setW_core c k n w c'
  rw [hcore]

theorem State.enterCopy_copy : ((u.enterCopy q).core q.core).copy =
    { (u.core q.core).copy with queue := (u.core q.core).copy.queue ++ [q.entered u], readFree := (q.promised u).2 } := by
  rw [State.enterCopy_eq, State.kickCopy_core, State.setW_copy, State.joinedCopy_copy]

theorem State.enterCopy_thread (c k : Nat) : (u.enterCopy q).thread c k = u.thread c k := by
  rw [State.enterCopy_eq, State.thread_congr (State.kickCopy_core _ _), State.setW_thread, State.joinedCopy_thread]

/-- W[d] of the command's thread receives the promise, and no other register of its core changes. -/
theorem State.enterCopy_find (hv : u.thread q.core q.tid.slot = some v) (n : Nat) :
    ((u.enterCopy q).core q.core).regs.find n = if q.dreg ≠ 0 ∧ n = 8 * wBase v.win + q.dreg then
      some (BitVec.ofNat 64 (q.entered u).promise) else (u.core q.core).regs.find n := by
  have hregs : ((u.joinedCopy q).core q.core).regs = (u.core q.core).regs := by rw [State.joinedCopy, State.upCore_core_self]
  rw [State.enterCopy_eq, State.kickCopy_core, State.setW_find _ ((State.joinedCopy_thread _ _).trans hv), hregs]
  rfl

/-- The head of a queue with room in flight starts in the cycle after it took effect, or when the read stage is free. -/
theorem State.kickCopy_coming {c : Nat} {rest : List CopyCmd} (hq : (u.core c).copy.queue = q :: rest)
    (hf : (u.core c).copy.flight.length < 16) :
    coming (u.kickCopy c) (max (q.effect + 1) (max u.cyc (u.core c).copy.busy)) (.copyCommandStart c) := by
  have hkick : u.kickCopy c = u.post (max (q.effect + 1) (max u.cyc (u.core c).copy.busy)) 8 (.copyCommandStart c) := by
    simp only [State.kickCopy, hq, if_neg (Nat.not_le.2 hf)]
  rw [hkick]
  exact State.post_coming _ _ _

/-- A command that enters an empty queue starts in the next cycle, or when the read stage is free. -/
theorem State.enterCopy_coming (hq : (u.core q.core).copy.queue = []) (hf : (u.core q.core).copy.flight.length < 16) :
    coming (u.enterCopy q) (max (u.cyc + 1) (u.core q.core).copy.busy) (.copyCommandStart q.core) := by
  have hcopy := State.setW_copy (u := u.joinedCopy q) q.core q.tid.slot q.dreg (BitVec.ofNat 64 (q.promised u).1) q.core
  rw [State.joinedCopy_copy, hq] at hcopy
  have hcoming := State.kickCopy_coming (q := q.entered u) (congrArg CopyEngine.queue hcopy)
    ((congrArg (fun e => e.flight.length) hcopy).trans_lt hf)
  have htime : max ((q.entered u).effect + 1) (max ((u.joinedCopy q).setW q.core q.tid.slot q.dreg
      (BitVec.ofNat 64 (q.promised u).1)).cyc (((u.joinedCopy q).setW q.core q.tid.slot q.dreg
      (BitVec.ofNat 64 (q.promised u).1)).core q.core).copy.busy) = max (u.cyc + 1) (u.core q.core).copy.busy := by
    rw [State.setW_cyc, congrArg CopyEngine.busy hcopy]
    change max (u.cyc + 1) (max u.cyc (u.core q.core).copy.busy) = _
    omega
  rw [htime] at hcoming
  exact hcoming

/-! ### A command is submitted (R155) -/

/-- A command as its instruction submits it. -/
def CopyCmd.submitted (q : CopyCmd) (s : State) : CopyCmd := { q with id := s.serial, effect := s.cyc }

/-- The state in which a command waits for an entry of the queue, and its thread has still to park. -/
def copyPending (s : State) (h : Hand) (q : CopyCmd) : State :=
  (begun s h).fresh.2.upCore h.core fun y => { y with copy := { y.copy with
    wants := insertWant (fun e => (e.effect, e.tid.slot)) (q.submitted s) y.copy.wants } }

theorem submitCopy_enters (hq : (s.core h.core).copy.queue.length < 2) (hw : (s.core h.core).copy.wants = []) :
    (cxAt s h t).submitCopy (begun s h) q =
      .next (passes ((begun s h).fresh.2.enterCopy (q.submitted s)) h t) := by
  rw [← begun_core_copy (h := h)] at hq hw
  exact if_pos ⟨hq, hw⟩

theorem submitCopy_waits (hfull : 2 ≤ (s.core h.core).copy.queue.length ∨ (s.core h.core).copy.wants ≠ []) :
    (cxAt s h t).submitCopy (begun s h) q = .next ((cxAt s h t).queued (copyPending s h q) s.serial) := by
  rw [← begun_core_copy (h := h)] at hfull
  refine if_neg fun hroom => ?_
  exact hfull.elim (Nat.not_le.2 hroom.1) fun hw => hw hroom.2

theorem copyPending_copy : ((copyPending s h q).core h.core).copy = { (s.core h.core).copy with
    wants := insertWant (fun e => (e.effect, e.tid.slot)) (q.submitted s) (s.core h.core).copy.wants } := by
  rw [copyPending, State.upCore_core_self, ← begun_core_copy (s := s) (h := h)]
  rfl

theorem copyPending_thread (c k : Nat) : (copyPending s h q).thread c k = (begun s h).thread c k := by
  rw [copyPending, State.upCore_thread]
  · rfl
  · exact fun _ => rfl

theorem copyPending_regs : ((copyPending s h q).core h.core).regs = (s.core h.core).regs := by
  rw [copyPending, State.upCore_core_self]
  exact begun_core_regs _

theorem queued_core (n : Nat) : ∃ slots, ((cxAt s h t).queued u n).core h.core = { u.core h.core with slots := slots } := by
  obtain ⟨_, hpark⟩ := (u.upThread h.core h.slot fun v => { v with restart := t.restart }).park_slots .queue (.queue n)
    (c := h.core) (k := h.slot) h.core
  obtain ⟨_, hup⟩ := u.upThread_core h.core h.slot (fun v => { v with restart := t.restart }) h.core
  rw [hup] at hpark
  exact ⟨_, hpark⟩

/-- Without room a command's thread parks, and the command waits behind those of the threads that parked before it. -/
theorem submitCopy_parks (hi : s.thread h.core h.slot = some t)
    (hfull : 2 ≤ (s.core h.core).copy.queue.length ∨ (s.core h.core).copy.wants ≠ []) :
    ∃ u v, (cxAt s h t).submitCopy (begun s h) q = .next u ∧ (u.core h.core).copy.wants =
        insertWant (fun e => (e.effect, e.tid.slot)) (q.submitted s) (s.core h.core).copy.wants ∧
      (u.core h.core).copy.queue = (s.core h.core).copy.queue ∧
      u.thread h.core h.slot = some v ∧ v.status = .parked .queue (.queue s.serial) ∧ v.pc = t.pc ∧
      (u.core h.core).regs = (s.core h.core).regs ∧ u.mem = s.mem := by
  have hpending : (copyPending s h q).thread h.core h.slot = some t.issuing :=
    (copyPending_thread _ _).trans (begun_thread_self hi)
  obtain ⟨v, hv, hstatus, hpc⟩ := queued_thread (s := s) (t := t) s.serial hpending
  obtain ⟨_, hcore⟩ := queued_core (s := s) (h := h) (t := t) (u := copyPending s h q) s.serial
  have hcopy := (congrArg Core.copy hcore).trans copyPending_copy
  refine ⟨_, v, submitCopy_waits hfull, ?_, ?_, hv, hstatus, hpc, ?_, ?_⟩
  · rw [hcopy]
  · rw [hcopy]
  · exact (congrArg Core.regs hcore).trans copyPending_regs
  · rw [Cx.queued_mem]
    rfl

/-- With room a command joins the end of the queue, W[d] receives its promise, and the thread goes on. -/
theorem submitCopy_joins (hi : s.thread h.core h.slot = some t) (hslot : q.tid.slot = h.slot) (hcore : q.core = h.core)
    (hq : (s.core h.core).copy.queue.length < 2) (hw : (s.core h.core).copy.wants = []) :
    ∃ u v, (cxAt s h t).submitCopy (begun s h) q = .next u ∧
      (u.core h.core).copy.queue = (s.core h.core).copy.queue ++ [(q.submitted s).entered (begun s h)] ∧
      (∀ n, (u.core h.core).regs.find n = if q.dreg ≠ 0 ∧ n = 8 * wBase t.win + q.dreg then
        some (BitVec.ofNat 64 ((q.submitted s).entered (begun s h)).promise) else (s.core h.core).regs.find n) ∧
      u.thread h.core h.slot = some v ∧ v.pc = stepPc t.pc h.len ∧ v.status = t.status ∧ u.mem = s.mem ∧
      ((s.core h.core).copy.queue = [] → (s.core h.core).copy.flight.length < 16 →
        coming u (max (s.cyc + 1) (s.core h.core).copy.busy) (.copyCommandStart h.core)) := by
  have hlive : (begun s h).fresh.2.thread h.core h.slot = some t.issuing := begun_thread_self hi
  have hthread : ((begun s h).fresh.2.enterCopy (q.submitted s)).thread h.core h.slot = some t.issuing :=
    (State.enterCopy_thread _ _).trans hlive
  have hcopy : ((begun s h).fresh.2.core h.core).copy = (s.core h.core).copy := begun_core_copy _
  have henter := State.enterCopy_copy (u := (begun s h).fresh.2) (q := q.submitted s)
  have hfind := State.enterCopy_find (u := (begun s h).fresh.2) (q := q.submitted s) (v := t.issuing)
  have hcoming := State.enterCopy_coming (u := (begun s h).fresh.2) (q := q.submitted s)
  obtain ⟨_, hpass⟩ := passes_core (b := (begun s h).fresh.2.enterCopy (q.submitted s)) (h := h) (t := t) h.core
  have hcore' : (q.submitted s).core = h.core := hcore
  have hslot' : (q.submitted s).tid.slot = h.slot := hslot
  rw [hcore'] at henter hfind hcoming
  rw [hslot'] at hfind
  rw [hcopy] at henter hcoming
  refine ⟨_, _, submitCopy_enters hq hw, ?_, fun n => ?_, passes_thread hthread, rfl, rfl, ?_, hcoming⟩
  · exact (congrArg (fun x : Core => x.copy.queue) hpass).trans (congrArg CopyEngine.queue henter)
  · refine (congrArg (fun x : Core => x.regs.find n) hpass).trans ((hfind hlive n).trans ?_)
    rw [← begun_core_regs (s := s) (h := h)]
    rfl
  · rw [passes, State.upThread_mem, State.enterCopy_mem]
    rfl

/-! ### The checks, and what is captured (R157, R158, R161, R164) -/

/-- Operands that every check of R161 lets: their ranges, their alignment and their spaces. -/
structure CopyLets (s : State) (h : Hand) (t : Thread) (dst src : Word) (slo shi dlo dhi : Int) (align : Nat) : Prop where
  srcRange : sideRange src slo shi = none
  dstRange : sideRange dst dlo dhi = none
  srcAligned : src.toNat % align = 0
  dstAligned : dst.toNat % align = 0
  srcSpace : (begun s h).sideSpace h.core t.part src slo shi = none
  dstSpace : (begun s h).sideSpace h.core t.part dst dlo dhi = none

theorem copyChecks_runs {slo shi dlo dhi : Int} {align : Nat} (body : Out)
    (hc : CopyLets s h t q.dst q.src slo shi dlo dhi align) :
    (cxAt s h t).copyChecks (begun s h) q slo shi dlo dhi align body = body := by
  have hcore : (cxAt s h t).core = h.core := rfl
  have hpart : (cxAt s h t).th.part = t.part := rfl
  simp only [Cx.copyChecks, hc.srcRange, hc.dstRange, hc.srcAligned, hc.dstAligned, hcore, hpart, hc.srcSpace, hc.dstSpace,
    ne_eq, not_true_eq_false, if_false]

/-- The command as which CPY captures `len` bytes, from the first on. -/
def cpyCmd (s : State) (h : Hand) (t : Thread) (d : Reg) (dst src : Word) (tb : Option Nat) (len : Nat) : CopyCmd :=
  let q := (cxAt s h t).capture (begun s h) .cpy d dst src tb
  { q with parts := len / 8, beats := (8 * (len / 8) + 63) / 64,
           chained := (cxAt s h t).overlap q 0 ((len : Int) - 1) 0 ((len : Int) - 1),
           oneHome := (begun s h).oneBank q 0 ((len : Int) - 1) }

theorem cpyCmd_captures (d : Reg) (dst src : Word) (tb : Option Nat) (len : Nat) :
    (cpyCmd s h t d dst src tb len).Captures s h t .cpy d dst src tb :=
  have hc := capture_captures (s := s) (h := h) (t := t) .cpy d dst src tb
  ⟨hc.kind, hc.tid, hc.core, hc.asid, hc.epc, hc.dreg, hc.dst, hc.src, hc.tb, hc.tlb⟩

/-- A CPY whose checks let it submits its command. -/
theorem execCpy_submits {m : Mod} {d a b : Reg} {tb : Option Nat} {len : Nat} (hi : Issues s (smallKind [d, a, b]) h t)
    (hres : t.restart = none) (hm : m.release = false) (hlen : ((regOf s h t d).extractLsb' 0 20).toNat = len)
    (htb : descBar (regOf s h t d) = some tb) (h8 : len % 8 = 0) (hpos : 0 < len)
    (hc : CopyLets s h t (regOf s h t a) (regOf s h t b) 0 ((len : Int) - 1) 0 ((len : Int) - 1) 8) :
    exec (.cpy m d a b) s =
      (cxAt s h t).submitCopy (begun s h) (cpyCmd s h t d (regOf s h t a) (regOf s h t b) tb len) := by
  have hth : (cxAt s h t).th.restart = none := hres
  have hhi : max 0 ((len : Int) - 1) = (len : Int) - 1 := max_eq_right (by omega)
  have h8' : ¬ len % 8 ≠ 0 := not_not.2 h8
  change execCpy m d a b s = _
  rw [execCpy, issue_runs hi]
  simp only [begun_regOf, hlen, htb, if_neg h8', if_neg hpos.ne', Cx.restartPart, hth, Nat.zero_min, Nat.cast_zero, mul_zero, hhi]
  exact (copyChecks_runs _ hc).trans (Cx.releasing_of_none _ _ hm)

theorem cpy_srcOf (hk : q.kind = .cpy) : q.srcOf 0 = q.src := by
  simp [CopyCmd.srcOf, CopyCmd.srcOff, shiftPtr, hk]

theorem cpy_dstOf_last {len : Nat} (hk : q.kind = .cpy) (h8 : len % 8 = 0) (hpos : 0 < len) :
    q.dstOf (len / 8 - 1) = q.dst + BitVec.ofNat 64 (len - 8) := by
  have hoff : (8 : Int) * ((len / 8 - 1 : Nat) : Int) = ((len - 8 : Nat) : Int) := by omega
  simp only [CopyCmd.dstOf, CopyCmd.dstOff, shiftPtr, hk, reduceCtorEq, if_false, hoff]
  rw [BitVec.ofInt_natCast]

/-- R156: a CPY's promise is the start of its reads, both places' latencies and its beats. -/
theorem cpy_promised {d : Reg} {dst src : Word} {tb : Option Nat} {len : Nat} (hc : q.Captures s h t .cpy d dst src tb)
    (hparts : q.parts = len / 8) (hbase : q.base = 0) (hbeats : q.beats = (len + 63) / 64) (h8 : len % 8 = 0) (hpos : 0 < len)
    (hf : (s.core h.core).copy.flight.length < 16) :
    (q.promised (begun s h)).1 =
      max (s.cyc + 1) (s.core h.core).copy.readFree + (begun s h).placeLatency h.core t.asid.toNat src + (len + 63) / 64 +
        (begun s h).placeLatency h.core t.asid.toNat (dst + BitVec.ofNat 64 (len - 8)) := by
  have hlast : q.dstOf (q.parts - 1) = dst + BitVec.ofNat 64 (len - 8) := by
    rw [hparts, cpy_dstOf_last hc.kind h8 hpos, hc.dst]
  have hfirst : q.srcOf q.base = src := by rw [hbase, cpy_srcOf hc.kind, hc.src]
  have hsome : q.parts ≠ 0 := by omega
  have htlb : ((begun s h).core h.core).tlb = (s.core h.core).tlb := by
    obtain ⟨_, hcore⟩ := begun_core (s := s) (h := h) h.core
    rw [hcore]
  simp only [CopyCmd.promised, State.promiseOf, State.placeLatency, hlast, hfirst, if_neg hsome, hc.core, hc.asid, hc.tlb, htlb,
    hbeats, begun_core_copy, if_neg (Nat.not_le.2 hf), begun_cyc]

/-- The configuration that TCPY names in th.fmt. -/
def tcpyCfg (s : State) (h : Hand) (t : Thread) : List Word := ((s.core h.core).copy.cfg.find (fmtTag t.fmt)).getD []

/-- The dimensions of a TCPY. -/
def tcpyDims (s : State) (h : Hand) (t : Thread) : List (Nat × Int × Int) := dimsOf (tcpyCfg s h t) (s.core h.core).copy.lc

/-- The bytes of an element of a TCPY. -/
def tcpySize (s : State) (h : Hand) (t : Thread) : Nat := 2 ^ fieldOf (tcpyCfg s h t) 0 4 2

/-- The lowest and the highest byte of a side of a TCPY, whose strides `f` gives. -/
def tcpySpan (s : State) (h : Hand) (t : Thread) (f : Nat × Int × Int → Int) : Int × Int :=
  let r := (spanFrom f (tcpyDims s h t) 0).getD (0, 0)
  (tcpySize s h t * r.1, tcpySize s h t * r.2 + tcpySize s h t - 1)

/-- The command as which TCPY captures its elements, from the first on. -/
def tcpyCmd (s : State) (h : Hand) (t : Thread) (d : Reg) (dst src : Word) (tb : Option Nat) : CopyCmd :=
  let q := (cxAt s h t).capture (begun s h) .tcpy d dst src tb
  let ss := tcpySpan s h t fun e => e.2.1
  let sd := tcpySpan s h t fun e => e.2.2
  { q with parts := elementsOf (tcpyDims s h t), esize := tcpySize s h t, dims := tcpyDims s h t, cfg := some (fmtTag t.fmt),
           beats := tensorBeats (tcpyDims s h t) (tcpySize s h t), chained := (cxAt s h t).overlap q ss.1 ss.2 sd.1 sd.2,
           oneHome := (begun s h).oneBank q sd.1 sd.2 }

theorem tcpyCmd_captures (d : Reg) (dst src : Word) (tb : Option Nat) :
    (tcpyCmd s h t d dst src tb).Captures s h t .tcpy d dst src tb :=
  have hc := capture_captures (s := s) (h := h) (t := t) .tcpy d dst src tb
  ⟨hc.kind, hc.tid, hc.core, hc.asid, hc.epc, hc.dreg, hc.dst, hc.src, hc.tb, hc.tlb⟩

/-- A TCPY whose checks let it submits its command. -/
theorem execTcpy_submits {m : Mod} {d a b : Reg} {tb : Option Nat} (hi : Issues s (smallKind [d, a, b]) h t)
    (hres : t.restart = none) (hm : m.release = false) (hzero : (regOf s h t d).extractLsb' 0 20 = 0)
    (htb : descBar (regOf s h t d) = some tb)
    (hc : CopyLets s h t (regOf s h t a) (regOf s h t b) (tcpySpan s h t fun e => e.2.1).1 (tcpySpan s h t fun e => e.2.1).2
      (tcpySpan s h t fun e => e.2.2).1 (tcpySpan s h t fun e => e.2.2).2 (tcpySize s h t)) :
    exec (.tcpy m d a b) s =
      (cxAt s h t).submitCopy (begun s h) (tcpyCmd s h t d (regOf s h t a) (regOf s h t b) tb) := by
  have hth : (cxAt s h t).th.restart = none := hres
  have hzero' : ¬ (regOf s h t d).extractLsb' 0 20 ≠ 0 := not_not.2 hzero
  change execTcpy m d a b s = _
  rw [execTcpy, issue_runs hi]
  simp only [begun_regOf, htb, if_neg hzero', Cx.restartPart, hth]
  exact (copyChecks_runs _ hc).trans (Cx.releasing_of_none _ _ hm)

theorem CopyCmd.Captures.submitted {kind : CopyKind} {d : Reg} {dst src : Word} {tb : Option Nat}
    (hc : q.Captures s h t kind d dst src tb) : (q.submitted s).Captures s h t kind d dst src tb :=
  ⟨hc.kind, hc.tid, hc.core, hc.asid, hc.epc, hc.dreg, hc.dst, hc.src, hc.tb, hc.tlb⟩

theorem CopyCmd.Captures.slot {kind : CopyKind} {d : Reg} {dst src : Word} {tb : Option Nat}
    (hc : q.Captures s h t kind d dst src tb) : q.tid.slot = h.slot := by rw [hc.tid]; rfl

/-- Settles O39: the checks let the command be submitted (`execCpy_submits`, `execTcpy_submits`), and it joins its queue
(`submitCopy_joins`) or waits for an entry (`submitCopy_parks`). -/
theorem copiesJoinTheirQueue : Obligations.CopiesJoinTheirQueue := by
  refine ⟨?_, ?_⟩
  · intro s h t m d a b tb hi hres hm e len dst src w htb h8 hpos hsr hdr hsa hda hss hds
    have hexec := execCpy_submits hi hres hm rfl htb h8 hpos ⟨hsr, hdr, hsa, hda, hss, hds⟩
    have hcap := cpyCmd_captures (s := s) (h := h) (t := t) d dst src tb len
    refine ⟨fun hq hw hf => ?_, fun hfull => ?_⟩
    · obtain ⟨u, v, hu, hqueue, hregs, hv, hpc, hstatus, hmem, hcoming⟩ :=
        submitCopy_joins (q := cpyCmd s h t d dst src tb len) hi.live hcap.slot hcap.core hq hw
      have hbeats : (8 * (len / 8) + 63) / 64 = (len + 63) / 64 := by omega
      have hpromise := cpy_promised hcap.submitted rfl rfl hbeats h8 hpos hf
      rw [hcap.dreg] at hregs
      exact ⟨u, _, v, hexec.trans hu, hqueue, hcap.kind, hcap.src, hcap.dst, rfl, hcap.tb, hcap.tid, hcap.epc, hcap.asid, hpromise,
        fun hd => (hregs _).trans (if_pos ⟨hd, rfl⟩), fun n hn => (hregs n).trans (if_neg fun hp => hn hp.2), hv, hpc, hstatus,
        hmem, fun he => hcoming he hf⟩
    · obtain ⟨u, v, hu, hwants, hqueue, hv, hstatus, hpc, -, hmem⟩ :=
        submitCopy_parks (q := cpyCmd s h t d dst src tb len) hi.live hfull
      exact ⟨u, _, v, hexec.trans hu, hwants, rfl, hcap.tid, hcap.src, hcap.dst, rfl, hcap.tb, rfl,
        hqueue, hv, hstatus, hpc, hmem⟩
  · intro s h t m d a b tb hi hres hm e dst src w slot cfg dims es span lo hi' ss sd htb hzero hsr hdr hsa hda hss hds captured
    have hes : ((tcpySize s h t : Nat) : Int) = es := Nat.cast_pow 2 _
    have hlo (f : Nat × Int × Int → Int) : lo f = (tcpySpan s h t f).1 := congrArg (· * _) hes.symm
    have hhi (f : Nat × Int × Int → Int) : hi' f = (tcpySpan s h t f).2 := congrArg (fun e : Int => e * _ + e - 1) hes.symm
    rw [hlo, hhi] at hsr hdr hss hds
    rw [← hes] at hsa hda
    have hsa := Int.natCast_eq_zero.1 ((Int.natCast_mod _ _).trans hsa)
    have hda := Int.natCast_eq_zero.1 ((Int.natCast_mod _ _).trans hda)
    have hexec := execTcpy_submits hi hres hm hzero htb ⟨hsr, hdr, hsa, hda, hss, hds⟩
    have hcap := tcpyCmd_captures (s := s) (h := h) (t := t) d dst src tb
    refine ⟨fun hq hw => ?_, fun hfull => ?_⟩
    · obtain ⟨u, v, hu, hqueue, hregs, hv, hpc, hstatus, hmem, -⟩ :=
        submitCopy_joins (q := tcpyCmd s h t d dst src tb) hi.live hcap.slot hcap.core hq hw
      rw [hcap.dreg] at hregs
      exact ⟨u, _, v, hexec.trans hu, hqueue, ⟨hcap.kind, hcap.src, hcap.dst, rfl, hes, rfl, rfl, hcap.tb, hcap.tid⟩,
        fun hd => (hregs _).trans (if_pos ⟨hd, rfl⟩), hv, hpc, hstatus, hmem⟩
    · obtain ⟨u, v, hu, hwants, hqueue, hv, hstatus, hpc, hregs, hmem⟩ :=
        submitCopy_parks (q := tcpyCmd s h t d dst src tb) hi.live hfull
      exact ⟨u, _, v, hexec.trans hu, hwants, rfl, rfl,
        ⟨hcap.kind, hcap.src, hcap.dst, rfl, hes, rfl, rfl, hcap.tb, hcap.tid⟩, hqueue, hv, hstatus, hpc,
        hregs, hmem⟩

end Sys2Proof.Machine
end

section
/-! PROOFS. Shared engines and collectives. A unit's request is answered by one reply (`answered_reply`); a pending ticket
ends by `State.abortTicket` (`abortTicket_find`) or goes on by a contribution (`contributed_data`); a change of the view ends
every pending ticket (`viewed_ends`), and its members are the accepted ones in the order of their ids
(`mem_acceptedMembers`, `acceptedMembers_rise`). -/

namespace Sys2Proof.Machine

variable {s u : State} {n k rank : Nat} {r : Req} {t : Ticket}

/-! ### Translation leaves the requests alone -/

@[simp] theorem State.countRead_reqs (a n : Nat) : (s.countRead a n).reqs = s.reqs := by
  unfold State.countRead State.countFixed
  repeat' split
  all_goals rfl

@[simp] theorem State.tellPoison_reqs (pa : Nat) : (s.tellPoison pa).reqs = s.reqs := by
  unfold State.tellPoison
  split <;> rfl

@[simp] theorem State.walked_reqs (w : Walk) : (s.walked w).reqs = s.reqs := by
  have hcount (l : List (Nat × Nat)) : (l.foldl (fun u e => u.countRead e.1 e.2) s).reqs = s.reqs :=
    foldl_same State.reqs (fun _ _ => State.countRead_reqs _ _) l
  unfold State.walked
  dsimp only
  split
  · rw [State.tellPoison_reqs, hcount]
  · exact hcount _

@[simp] theorem State.tagFrame_reqs (n : Nat) (g : Tag) : (s.tagFrame n g).reqs = s.reqs := by
  unfold State.tagFrame
  dsimp only
  split <;> rfl

@[simp] theorem State.fill_reqs (c ctx asid : Nat) (w : Walk) (l : Leaf) : (s.fill c ctx asid w l).reqs = s.reqs := by
  have htag (v : State) (fs : List Nat) : (fs.foldl (fun v f => v.tagFrame f (.id l.kid ctx)) v).reqs = v.reqs :=
    foldl_same State.reqs (fun _ _ => State.tagFrame_reqs _ _) fs
  unfold State.fill
  dsimp only
  split <;> split
  · rfl
  · rfl
  · exact htag _ _
  · exact htag _ _

@[simp] theorem State.refill_reqs (core ctx asid : Nat) (w : Want) (p : Word) :
    (s.refill core ctx asid w p).2.reqs = s.reqs := by
  unfold State.refill
  dsimp only
  split
  · split
    · rfl
    · split <;> rfl
  · split
    · exact State.walked_reqs _
    · split
      · exact State.walked_reqs _
      · split <;> exact (State.fill_reqs _ _ _ _ _).trans (State.walked_reqs _)

@[simp] theorem State.locate_reqs (core ctx asid : Nat) (w : Want) (p : Word) :
    (s.locate core ctx asid w p).2.reqs = s.reqs := by
  unfold State.locate
  split
  · rfl
  · exact State.refill_reqs _ _ _ _ _

theorem State.wordAs_reqs (core ctx part asid : Nat) (p : Word) : (s.wordAs core ctx part asid p).2.reqs = s.reqs := by
  have hloc := State.locate_reqs (s := s) core ctx asid { r := true } p
  unfold State.wordAs
  split
  · rfl
  · split
    · rfl
    · split
      · rfl
      · split
        · next heq =>
          rw [heq] at hloc
          dsimp only
          split
          · exact hloc
          · split
            · exact hloc
            · split
              · exact (State.tellPoison_reqs _).trans hloc
              · exact (State.countRead_reqs _ _).trans hloc
        · next heq =>
          rw [heq] at hloc
          exact hloc

theorem State.wordsAs_reqs (core ctx part asid : Nat) (p : Word) (n : Nat) :
    (s.wordsAs core ctx part asid p n).2.reqs = s.reqs := by
  induction n generalizing s p with
  | zero => rfl
  | succ n ih =>
    have hword := State.wordAs_reqs (s := s) core ctx part asid p
    unfold State.wordsAs
    split
    · rfl
    · next heq => rw [heq] at hword; exact hword
    · next s' heq =>
      rw [heq] at hword
      have hrest := ih (s := s') (p := p + 8)
      split
      · rfl
      · next heq' => rw [heq'] at hrest; exact hrest.trans hword
      · next heq' => rw [heq'] at hrest; exact hrest.trans hword

/-! ### A unit answers (R177) -/

/-- From `s` to `u` the request has been answered, and its reply is on the way. -/
structure Answered (s u : State) (n : Nat) (r : Req) (ans : List Word) : Prop where
  request : u.reqs.find n = some { r with stage := .served, ans := ans }
  reply : coming u (s.cyc + (r.lat + 1) / 2) (.memReply n)
  mem : u.mem = s.mem
  links : u.links = s.links
  clusters : u.clusters = s.clusters

theorem answered_reply {ans : List Word} (hn : s.reqs.find n = some r) (hop : r.op = .unit) (huse : r.use ≠ .fetch) :
    Answered s (s.reply n ans) n r ans := by
  have hdirty : ∀ ws, r.op ≠ .dirty ws := fun ws he => by rw [hop] at he; cases he
  rw [State.reply_found hn huse hdirty]
  exact ⟨upReq_post_find hn, State.after_coming _ _ _, rfl, rfl, rfl⟩

theorem execBankRequestArrival_unit (hn : s.reqs.find n = some r) (hst : r.stage = .sent) (hop : r.op = .unit) :
    exec (.bankRequestArrival n) s = .next (s.unitArrives n r) := by
  change execBankRequestArrival n s = _
  simp [execBankRequestArrival, hn, hst, hop]

theorem unitArrives_emsg (hu : r.use = .stage stEmsg) : s.unitArrives n r = s.emsgArrives n r := if_pos hu

theorem unitArrives_coll (hu : r.use = .stage stCollAck) : s.unitArrives n r = s.collArrives n r := by
  have hne : ¬ r.use = .stage stEmsg := by rw [hu]; decide
  rw [State.unitArrives, if_neg hne, if_pos hu]

/-- What an EMSG asks: whose engine it names, its operation, and the operation's argument. -/
def Req.engineKind (r : Req) : Nat := ((r.args.getD 1 0).extractLsb' 18 2).toNat

def Req.engineOp (r : Req) : Nat := (r.args.getD 2 0).toNat % 256

def Req.engineArg (r : Req) : Nat := (r.args.getD 2 0).toNat / 256

/-- The cluster whose gather engine an EMSG names. -/
def Req.engineCluster (r : Req) : Nat := clusterOf ((r.args.getD 1 0).toNat % 2 ^ 18)

/-- The word that QUERY answers of a gather engine. -/
def gatherWord (s : State) (c : Cluster) : Word :=
  BitVec.ofNat 64 (c.gather.length + (c.wants.filter fun q => decide (q.effect ≤ s.cyc) && s.stillWaits q).length + 65536 * c.merged)

theorem emsgArrives_gather {c : Cluster} (hk : r.engineKind = 0) (hop : r.engineOp = 1)
    (hc : s.clusters.find r.engineCluster = some c) : s.emsgArrives n r =
      (s.upCluster r.engineCluster fun c => { c with merged := 0 }).reply n [gatherWord s c] := by
  have hget : ((s.clusters.find r.engineCluster).getD {}) = c := by rw [hc]; rfl
  rw [← hget]
  exact (if_pos hk).trans (if_pos hop)

theorem emsgArrives_ticket (hk : r.engineKind = 1) (hop : r.engineOp = 1) :
    s.emsgArrives n r = s.reply n [ticketWord s.links r.engineArg] := by
  have hk' : ¬ r.engineKind = 0 := by omega
  exact (if_neg hk').trans (if_pos hop)

/-- ABORT answers −3 of a ticket that has ended or is another context's, and ends one that is pending. -/
theorem emsgArrives_abort (hk : r.engineKind = 1) (hop : r.engineOp = 2) (ht : s.links.tickets.find r.engineArg = some t) :
    s.emsgArrives n r =
      if t.state ≠ 0 then s.reply n [BitVec.ofInt 64 (-3)]
      else if t.ctx ≠ r.ctx then s.reply n [BitVec.ofInt 64 (-3)]
      else ((s.upLinks fun l =>
        { l with tickets := l.tickets.adjust r.engineArg fun t => { t with state := 4, parts := [] } }).emit
          (.abort r.engineArg)).reply n [0] := by
  have hk' : ¬ r.engineKind = 0 := by omega
  have hop' : ¬ r.engineOp = 1 := by omega
  have ht' : s.links.tickets.find ((r.args.getD 2 0).toNat / 256) = some t := ht
  refine (if_neg hk').trans ((if_neg hop').trans ((if_pos hop).trans ?_))
  simp only [ht']
  rfl

/-! ### Tickets (R359, R360) -/

/-- A pending ticket ended in a state, for a rank. -/
def Ticket.aborted (t : Ticket) (state rank : Nat) : Ticket := { t with state := state, failed := rank, parts := [] }

theorem abortTicket_find {state : Nat} (k' : Nat) : (s.abortTicket k state rank).links.tickets.find k' =
    if k' = k then (s.links.tickets.find k).map fun t => if t.state = 0 then t.aborted state rank else t
    else s.links.tickets.find k' := by
  change (s.links.tickets.adjust k fun t => if t.state = 0 then t.aborted state rank else t).find k' = _
  split
  · next heq => rw [heq, Map.find_adjust_self]
  · next hne => exact Map.find_adjust_other _ _ hne

theorem abortTicket_pending {state : Nat} (ht : s.links.tickets.find k = some t) (hp : t.state = 0) :
    (s.abortTicket k state rank).links.tickets.find k = some (t.aborted state rank) := by
  rw [abortTicket_find, if_pos rfl, ht, Option.map_some, if_pos hp]

theorem abortTicket_over {state : Nat} (ht : s.links.tickets.find k = some t) (hp : t.state ≠ 0) :
    (s.abortTicket k state rank).links.tickets.find k = some t := by
  rw [abortTicket_find, if_pos rfl, ht, Option.map_some, if_neg hp]

theorem abortTicket_other {k' state : Nat} (hne : k' ≠ k) :
    (s.abortTicket k state rank).links.tickets.find k' = s.links.tickets.find k' := by
  rw [abortTicket_find, if_neg hne]

/-! ### A COLL comes (R176, R359) -/

theorem roomFor_some (hroom : s.links.tickets.length < 256) : s.roomFor = some s.links := if_pos hroom

/-- The command block that a COLL brings. -/
def Req.block (r : Req) : List Word := r.args.drop 3

theorem collArrives_stale (hroom : s.links.tickets.length < 256) (hv : (wordOf r.block 5).toNat ≠ s.links.viewNo) :
    s.collArrives n r = s.reply n [BitVec.ofInt 64 (-2)] := by
  simp only [State.collArrives, roomFor_some hroom]
  exact if_pos hv

theorem collArrives_barred (hroom : s.links.tickets.length < 256) (hv : (wordOf r.block 5).toNat = s.links.viewNo)
    (hbad : s.links.members.contains s.sys.image.package = false ∨ s.links.permits (fieldOf r.block 4 0 16) r.ctx = false) :
    s.collArrives n r = s.reply n [BitVec.ofInt 64 (-3)] := by
  have hbad' : (!s.links.members.contains s.sys.image.package || !s.links.permits (fieldOf r.block 4 0 16) r.ctx) = true := by
    rcases hbad with hbad | hbad <;> simp only [hbad, Bool.not_false, Bool.true_or, Bool.or_true]
  simp only [State.collArrives, roomFor_some hroom]
  exact (if_neg (not_not.2 hv)).trans (if_pos hbad')

/-- The ticket of a COLL as it begins. -/
def Req.newTicket (r : Req) (l : Links) : Ticket :=
  { ctx := r.ctx, part := r.part, tid := r.tid.getD { core := 0, slot := 0, gen := 0 }, core := r.core, ws := r.block,
    tb := if (r.args.getD 1 0).getLsbD 6 then some ((r.args.getD 1 0).toNat % 64) else none, rm := fmtRm (r.args.getD 2 0),
    asid := r.asid, view := l.viewNo }

/-- What the engine reads of a COLL's source. -/
def collSource (s : State) (r : Req) : Except (Option Nat) (List (Word × Nat × Nat)) × State :=
  s.wordsAs r.core r.ctx r.part r.asid (wordOf r.block 1) ((wordOf r.block 3).toNat / 8)

/-- The links in which a COLL has received the next ticket. -/
def Links.ticketed (l : Links) (r : Req) : Links :=
  { l with nextTicket := (l.nextTicket + 1) % 2 ^ 32, tickets := l.tickets.put l.nextTicket (r.newTicket l) }

theorem collArrives_begins (hroom : s.links.tickets.length < 256) (hv : (wordOf r.block 5).toNat = s.links.viewNo)
    (hm : s.links.members.contains s.sys.image.package = true) (hp : s.links.permits (fieldOf r.block 4 0 16) r.ctx = true)
    (hsrc : ∀ a, (collSource s r).1 ≠ .error (some a)) : s.collArrives n r =
      (((((collSource s r).2.upLinks fun _ => s.links.ticketed r).reply n [BitVec.ofNat 64 s.links.nextTicket]).contribute
        s.links.nextTicket (r.newTicket s.links) (collSource s r).1.toOption).takeEarly s.links.nextTicket) := by
  have hgood : ¬ (!s.links.members.contains s.sys.image.package || !s.links.permits (fieldOf r.block 4 0 16) r.ctx) = true := by
    rw [hm, hp]
    decide
  simp only [State.collArrives, roomFor_some hroom]
  refine (if_neg (not_not.2 hv)).trans ((if_neg hgood).trans ?_)
  split
  · next heq => exact absurd heq (hsrc _)
  · rfl

/-- A member's contribution leaves requests and early contributions as they are, and every ticket with its block, context, view
and rounding mode. -/
theorem contribute_keeps (k : Nat) (t : Ticket) (ws : Option (List (Word × Nat × Nat))) :
    (s.contribute k t ws).reqs = s.reqs ∧ (s.contribute k t ws).links.nextTicket = s.links.nextTicket ∧
      (s.contribute k t ws).links.early = s.links.early ∧ ∀ x, s.links.tickets.find k = some x →
        ∃ y, (s.contribute k t ws).links.tickets.find k = some y ∧ y.ws = x.ws ∧ y.ctx = x.ctx ∧ y.view = x.view ∧ y.rm = x.rm := by
  unfold State.contribute
  dsimp only
  split
  · exact ⟨rfl, rfl, rfl, fun x hx => ⟨x, hx, rfl, rfl, rfl, rfl⟩⟩
  · refine ⟨rfl, rfl, rfl, fun x hx => ?_⟩
    by_cases hp : x.state = 0
    · exact ⟨_, abortTicket_pending hx hp, rfl, rfl, rfl, rfl⟩
    · exact ⟨_, abortTicket_over hx hp, rfl, rfl, rfl, rfl⟩

/-- With no contribution that came early, none is taken. -/
theorem takeEarly_nothing (he : s.links.early.all (fun e => e.1 != k) = true) :
    s.takeEarly k = s.upLinks fun l => { l with early := l.early.filter fun e => e.1 != k } := by
  have hmine : s.links.early.filter (fun e => e.1 == k) = [] := by
    rw [List.filter_eq_nil_iff]
    intro e hin heq
    have hne := List.all_eq_true.1 he e hin
    rw [beq_iff_eq.1 heq] at hne
    simp at hne
  rw [State.takeEarly, hmine]
  rfl

/-! ### EMSG's and COLL's arrivals -/

theorem emsg_steps (hn : s.reqs.find n = some r) (hst : r.stage = .sent) (hop : r.op = .unit) (hu : r.use = .stage stEmsg)
    (harrives : s.emsgArrives n r = u) : exec (.bankRequestArrival n) s = .next u := by
  rw [execBankRequestArrival_unit hn hst hop, unitArrives_emsg hu, harrives]

theorem coll_steps (hn : s.reqs.find n = some r) (hst : r.stage = .sent) (hop : r.op = .unit) (hu : r.use = .stage stCollAck)
    (harrives : s.collArrives n r = u) : exec (.bankRequestArrival n) s = .next u := by
  rw [execBankRequestArrival_unit hn hst hop, unitArrives_coll hu, harrives]

theorem gather_query {c : Cluster} (hn : s.reqs.find n = some r) (hst : r.stage = .sent) (hop : r.op = .unit)
    (hu : r.use = .stage stEmsg) (hk : r.engineKind = 0) (hq : r.engineOp = 1) (hc : s.clusters.find r.engineCluster = some c) :
    ∃ u c', exec (.bankRequestArrival n) s = .next u ∧ Answered s { u with clusters := s.clusters } n r [gatherWord s c] ∧
      u.clusters.find r.engineCluster = some c' ∧ c'.merged = 0 ∧ c'.gather = c.gather := by
  have hmerged : (s.upCluster r.engineCluster fun c => { c with merged := 0 }).clusters.find r.engineCluster =
      some { c with merged := 0 } := (Map.find_put_self _ _ _).trans (by rw [hc]; rfl)
  have h := answered_reply (s := s.upCluster r.engineCluster fun c => { c with merged := 0 }) (ans := [gatherWord s c]) hn hop
    (by rw [hu]; exact Use.noConfusion)
  refine ⟨_, { c with merged := 0 }, emsg_steps hn hst hop hu (emsgArrives_gather hk hq hc),
    ⟨h.request, h.reply, h.mem, h.links, rfl⟩, (congrArg (fun m => Map.find m r.engineCluster) h.clusters).trans hmerged, rfl, rfl⟩

theorem ticket_query (hn : s.reqs.find n = some r) (hst : r.stage = .sent) (hop : r.op = .unit)
    (hu : r.use = .stage stEmsg) (hk : r.engineKind = 1) (hq : r.engineOp = 1) :
    ∃ u, exec (.bankRequestArrival n) s = .next u ∧ Answered s u n r [ticketWord s.links r.engineArg] :=
  ⟨_, emsg_steps hn hst hop hu (emsgArrives_ticket hk hq),
    answered_reply hn hop (by rw [hu]; exact Use.noConfusion)⟩

/-- The links of which a pending ticket has been aborted by an EMSG. -/
def Links.aborted (l : Links) (k : Nat) : Links :=
  { l with tickets := l.tickets.adjust k fun t => { t with state := 4, parts := [] }, outbox := l.outbox ++ [.abort k] }

theorem Links.aborted_find {l : Links} (ht : l.tickets.find k = some t) :
    (l.aborted k).tickets.find k = some { t with state := 4, parts := [] } := by
  rw [Links.aborted, Map.find_adjust_self, ht, Option.map_some]

theorem abort_own (hn : s.reqs.find n = some r) (hst : r.stage = .sent) (hop : r.op = .unit)
    (hu : r.use = .stage stEmsg) (hk : r.engineKind = 1) (hq : r.engineOp = 2) (ht : s.links.tickets.find r.engineArg = some t)
    (hp : t.state = 0) (hctx : t.ctx = r.ctx) :
    ∃ u, exec (.bankRequestArrival n) s = .next u ∧ Answered { s with links := s.links.aborted r.engineArg } u n r [0] := by
  refine ⟨_, emsg_steps hn hst hop hu ((emsgArrives_abort hk hq ht).trans
    ((if_neg (not_not.2 hp)).trans (if_neg (not_not.2 hctx)))), ?_⟩
  exact answered_reply (s := { s with links := s.links.aborted r.engineArg }) hn hop (by rw [hu]; exact Use.noConfusion)

theorem abort_refused (hn : s.reqs.find n = some r) (hst : r.stage = .sent) (hop : r.op = .unit)
    (hu : r.use = .stage stEmsg) (hk : r.engineKind = 1) (hq : r.engineOp = 2) (ht : s.links.tickets.find r.engineArg = some t)
    (hbad : t.state ≠ 0 ∨ t.ctx ≠ r.ctx) :
    ∃ u, exec (.bankRequestArrival n) s = .next u ∧ Answered s u n r [BitVec.ofInt 64 (-3)] := by
  have habort : s.emsgArrives n r = s.reply n [BitVec.ofInt 64 (-3)] := by
    refine (emsgArrives_abort hk hq ht).trans ?_
    rcases hbad with hover | hctx
    · exact if_pos hover
    · rw [if_pos hctx, ite_self]
  exact ⟨_, emsg_steps hn hst hop hu habort,
    answered_reply hn hop (by rw [hu]; exact Use.noConfusion)⟩

theorem coll_refused {v : Word} (hn : s.reqs.find n = some r) (hst : r.stage = .sent) (hop : r.op = .unit)
    (hu : r.use = .stage stCollAck) (hsays : s.collArrives n r = s.reply n [v]) :
    ∃ u, exec (.bankRequestArrival n) s = .next u ∧ Answered s u n r [v] :=
  ⟨_, coll_steps hn hst hop hu hsays,
    answered_reply hn hop (by rw [hu]; exact Use.noConfusion)⟩

theorem coll_begins (hn : s.reqs.find n = some r) (hst : r.stage = .sent) (hop : r.op = .unit) (hu : r.use = .stage stCollAck)
    (hroom : s.links.tickets.length < 256) (hv : (wordOf r.block 5).toNat = s.links.viewNo)
    (hm : s.links.members.contains s.sys.image.package = true) (hp : s.links.permits (fieldOf r.block 4 0 16) r.ctx = true)
    (hsrc : ∀ a, (collSource s r).1 ≠ .error (some a))
    (hearly : s.links.early.all (fun e => e.1 != s.links.nextTicket) = true) :
    ∃ u x, exec (.bankRequestArrival n) s = .next u ∧
      u.reqs.find n = some { r with stage := .served, ans := [BitVec.ofNat 64 s.links.nextTicket] } ∧
      u.links.nextTicket = (s.links.nextTicket + 1) % 2 ^ 32 ∧ u.links.tickets.find s.links.nextTicket = some x ∧
      x.ws = r.block ∧ x.ctx = r.ctx ∧ x.view = s.links.viewNo ∧ x.rm = fmtRm (r.args.getD 2 0) := by
  have hread : (collSource s r).2.reqs = s.reqs := State.wordsAs_reqs _ _ _ _ _ _
  have hrep := answered_reply (s := (collSource s r).2.upLinks fun _ => s.links.ticketed r)
    (ans := [BitVec.ofNat 64 s.links.nextTicket]) ((congrArg (fun m => Map.find m n) hread).trans hn) hop
    (by rw [hu]; exact Use.noConfusion)
  obtain ⟨hreqs, hnext, hearly', hticket⟩ := contribute_keeps
    (s := ((collSource s r).2.upLinks fun _ => s.links.ticketed r).reply n [BitVec.ofNat 64 s.links.nextTicket])
    s.links.nextTicket (r.newTicket s.links) (collSource s r).1.toOption
  rw [hrep.links] at hnext hearly' hticket
  obtain ⟨x, hx, hws, hctx, hview, hrm⟩ := hticket _ (Map.find_put_self _ _ _)
  have hexec := coll_steps hn hst hop hu (collArrives_begins hroom hv hm hp hsrc)
  rw [takeEarly_nothing (by rw [hearly']; exact hearly)] at hexec
  exact ⟨_, x, hexec, (congrArg (fun m => Map.find m n) hreqs).trans hrep.request, hnext, hx, hws, hctx, hview, hrm⟩

/-! ### Contributions and the limit (R360) -/

/-- A ticket that a rank's contribution has joined, in a cycle. -/
def Ticket.joined (t : Ticket) (rank cyc : Nat) (data : List Word) : Ticket :=
  { t with parts := t.parts.put rank data, started := some (t.started.getD cyc) }

/-- The state in which a ticket's limit is set, where its first contribution has come. -/
def State.limited (s : State) (k : Nat) (t : Ticket) : State :=
  if t.started.isSome then s else s.after (1600 * fieldOf t.ws 6 32 32) 20 (.collectiveTimeout k)

@[simp] theorem State.limited_links : (s.limited k t).links = s.links := by unfold State.limited; split <;> rfl

@[simp] theorem State.limited_mem : (s.limited k t).mem = s.mem := by unfold State.limited; split <;> rfl

theorem State.limited_coming (hstart : t.started = none) :
    coming (s.limited k t) (s.cyc + 1600 * fieldOf t.ws 6 32 32) (.collectiveTimeout k) := by
  rw [State.limited, hstart]
  exact State.after_coming _ _ _

/-- A contribution to a ticket that this package has begun. -/
theorem contribution_known (data : List Word) (ht : s.links.tickets.find k = some t) :
    exec (.collectiveContribution k rank data) s = .next (s.contributed k rank s.cyc data) :=
  if_pos (by rw [Map.has, ht]; rfl)

theorem contributed_failure {cyc : Nat} (ht : s.links.tickets.find k = some t) (hp : t.state = 0)
    (hrank : rank < s.links.members.length) : s.contributed k rank cyc [] = s.abortTicket k 2 rank := by
  have hgo : ¬ (t.state ≠ 0 ∨ s.links.members.length ≤ rank) := by omega
  simp only [State.contributed, State.ticket, ht]
  exact if_neg hgo

theorem contributed_abort {cyc : Nat} (w : Word) (ht : s.links.tickets.find k = some t) (hp : t.state = 0)
    (hrank : rank < s.links.members.length) : s.contributed k rank cyc [w] = s.abortTicket k 4 0 := by
  have hgo : ¬ (t.state ≠ 0 ∨ s.links.members.length ≤ rank) := by omega
  simp only [State.contributed, State.ticket, ht]
  exact if_neg hgo

/-- What a contribution of the present cycle does: the last one commits the collective, and the first one sets its limit. -/
theorem contributed_data {data : List Word} (ht : s.links.tickets.find k = some t) (hp : t.state = 0)
    (hrank : rank < s.links.members.length) (hnew : t.parts.has rank = false) (hdata : 2 ≤ data.length) :
    s.contributed k rank s.cyc data =
      if (t.parts.put rank data).length = s.links.members.length then
        ((s.limited k t).upTicket k fun _ => { t.joined rank s.cyc data with state := 1, parts := [] }).writeResult k
          (t.joined rank s.cyc data) (wordOf t.ws 2) ((t.joined rank s.cyc data).result s.links.members.length)
      else (s.limited k t).upTicket k fun _ => t.joined rank s.cyc data := by
  obtain ⟨v, w, vs, rfl⟩ : ∃ v w vs, data = v :: w :: vs := by
    match data, hdata with
    | v :: w :: vs, _ => exact ⟨v, w, vs, rfl⟩
  have hgo : ¬ (t.state ≠ 0 ∨ s.links.members.length ≤ rank) := by omega
  have hnew' : ¬ t.parts.has rank = true := by rw [hnew]; decide
  have hlimit : (if t.started.isSome then s else
      s.after (s.cyc + 1600 * fieldOf t.ws 6 32 32 - s.cyc) 20 (.collectiveTimeout k)) = s.limited k t := by
    rw [Nat.add_sub_cancel_left, State.limited]
  simp only [State.contributed, State.ticket, ht]
  refine (if_neg hgo).trans ((if_neg hnew').trans ?_)
  rw [hlimit]
  rfl

theorem upTicket_find (x : Ticket) (ht : s.links.tickets.find k = some t) :
    (s.upTicket k fun _ => x).links.tickets.find k = some x :=
  (Map.find_adjust_self s.links.tickets k fun _ => x).trans (congrArg _ ht)

theorem contribution_counts {data : List Word} (ht : s.links.tickets.find k = some t) (hp : t.state = 0)
    (hrank : rank < s.links.members.length) (hnew : t.parts.has rank = false) (hdata : 2 ≤ data.length)
    (hmore : (t.parts.put rank data).length ≠ s.links.members.length) :
    ∃ u, exec (.collectiveContribution k rank data) s = .next u ∧
      u.links.tickets.find k = some (t.joined rank s.cyc data) ∧
      (t.started = none → coming u (s.cyc + 1600 * fieldOf t.ws 6 32 32) (.collectiveTimeout k)) ∧ u.mem = s.mem := by
  have hstep : s.contributed k rank s.cyc data = (s.limited k t).upTicket k fun _ => t.joined rank s.cyc data :=
    (contributed_data ht hp hrank hnew hdata).trans (if_neg hmore)
  refine ⟨_, (contribution_known data ht).trans (by rw [hstep]), upTicket_find _ (t := t) (by rw [State.limited_links, ht]), ?_,
    (State.upTicket_mem _ _).trans State.limited_mem⟩
  exact fun hstart => State.limited_coming hstart

theorem contribution_commits {data : List Word} (ht : s.links.tickets.find k = some t) (hp : t.state = 0)
    (hrank : rank < s.links.members.length) (hnew : t.parts.has rank = false) (hdata : 2 ≤ data.length)
    (hall : (t.parts.put rank data).length = s.links.members.length) :
    exec (.collectiveContribution k rank data) s =
      .next (((s.limited k t).upTicket k fun _ => { t.joined rank s.cyc data with state := 1, parts := [] }).writeResult k
        (t.joined rank s.cyc data) (wordOf t.ws 2) ((t.joined rank s.cyc data).result s.links.members.length)) := by
  rw [contribution_known data ht, contributed_data ht hp hrank hnew hdata, if_pos hall]

/-- A contribution of a collective that this package has not begun is kept for it. -/
theorem contribution_early {data : List Word} (hk : s.links.tickets.has k = false)
    (hahead : (k + 2 ^ 32 - s.links.nextTicket) % 2 ^ 32 < 2 ^ 31)
    (hnew : s.links.early.any (fun e => e.1 == k && e.2.1 == rank && e.2.2.2 == data) = false) :
    exec (.collectiveContribution k rank data) s =
      .next (s.upLinks fun l => { l with early := l.early ++ [(k, rank, s.cyc, data)] }) := by
  have hk' : ¬ s.links.tickets.has k = true := by rw [hk]; decide
  refine (if_neg hk').trans (if_neg ?_)
  rintro (hpast | hknown)
  · omega
  · rw [hnew] at hknown
    cases hknown

/-! `firstFrom` finds the lowest number that passes. -/

theorem firstFrom_some {p : Nat → Bool} {lo m i : Nat} (hlo : lo ≤ i) (hi : i < lo + m) (hp : p i = true) :
    ∃ j, firstFrom p lo m = some j ∧ j ≤ i ∧ ∀ i', lo ≤ i' → i' < j → p i' = false := by
  induction m generalizing lo with
  | zero => omega
  | succ m ih =>
    rw [firstFrom]
    split
    · exact ⟨lo, rfl, hlo, fun i' h h' => by omega⟩
    · next hno =>
      have hne : lo ≠ i := by rintro rfl; exact hno hp
      obtain ⟨j, hj, hji, hbelow⟩ := ih (lo := lo + 1) (by omega) (by omega)
      refine ⟨j, hj, hji, fun i' h h' => ?_⟩
      by_cases heq : i' = lo
      · rw [heq]
        exact Bool.eq_false_iff.2 hno
      · exact hbelow i' (by omega) h'

/-- The limit of a pending collective of which a contribution is missing: the lowest rank that is missing is named. -/
theorem timeout_aborts (ht : s.links.tickets.find k = some t) (hp : t.state = 0)
    (hmiss : ∃ i < s.links.members.length, t.parts.has i = false) :
    ∃ i < s.links.members.length, exec (.collectiveTimeout k) s = .next (s.abortTicket k 2 i) ∧ t.parts.has i = false ∧
      ∀ j < i, t.parts.has j = true := by
  obtain ⟨i, hi, hmissing⟩ := hmiss
  obtain ⟨j, hj, hji, hbelow⟩ := firstFrom_some (p := fun i => !t.parts.has i) (lo := 0) (m := s.links.members.length)
    (Nat.zero_le i) (by omega) (by rw [hmissing]; rfl)
  refine ⟨j, by omega, ?_, ?_, fun j' hj' => ?_⟩
  · change execCollectiveTimeout k s = _
    simp only [execCollectiveTimeout, State.ticket, ht]
    refine (if_neg (not_not.2 hp)).trans ?_
    rw [hj]
  · have := firstFrom_accepts hj
    simpa using this
  · simpa using hbelow j' (Nat.zero_le _) hj'

/-! ### A change of the view (R360, R363) -/

/-- Ends one of the tickets that were pending as the view changes: it names a lost member that had still to contribute, where
there is one. -/
def State.abortLost (old new : List Nat) (s : State) (e : Nat × Ticket) : State :=
  match lostMember old new e.2 with
  | some i => s.abortTicket e.1 2 i
  | none => s.abortTicket e.1 3 0

/-- A ticket that a change of the view has ended. -/
def Ticket.Lost (t : Ticket) : Prop := (t.state = 2 ∨ t.state = 3) ∧ t.parts = []

variable {old new : List Nat} {e : Nat × Ticket}

theorem abortLost_eq (old new : List Nat) (s : State) (e : Nat × Ticket) :
    ∃ state rank, (state = 2 ∨ state = 3) ∧ s.abortLost old new e = s.abortTicket e.1 state rank := by
  unfold State.abortLost
  split
  · exact ⟨2, _, .inl rfl, rfl⟩
  · exact ⟨3, 0, .inr rfl, rfl⟩

theorem abortLost_self (ht : s.links.tickets.find e.1 = some t) (h : t.state = 0 ∨ t.Lost) :
    ∃ x, (s.abortLost old new e).links.tickets.find e.1 = some x ∧ x.Lost := by
  obtain ⟨state, rank, hstate, heq⟩ := abortLost_eq old new s e
  rw [heq]
  by_cases hp : t.state = 0
  · exact ⟨_, abortTicket_pending ht hp, hstate, rfl⟩
  · exact ⟨t, abortTicket_over ht hp, h.resolve_left hp⟩

theorem abortLost_keeps (hl : ∃ x, s.links.tickets.find k = some x ∧ x.Lost) :
    ∃ x, (s.abortLost old new e).links.tickets.find k = some x ∧ x.Lost := by
  obtain ⟨x, hx, hlost⟩ := hl
  by_cases heq : k = e.1
  · subst heq
    exact abortLost_self hx (.inr hlost)
  · obtain ⟨state, rank, -, habort⟩ := abortLost_eq old new s e
    exact ⟨x, by rw [habort, abortTicket_other heq, hx], hlost⟩

theorem abortLost_all_keeps (l : List (Nat × Ticket)) (hl : ∃ x, s.links.tickets.find k = some x ∧ x.Lost) :
    ∃ x, (l.foldl (State.abortLost old new) s).links.tickets.find k = some x ∧ x.Lost := by
  induction l generalizing s with
  | nil => exact hl
  | cons e l ih => exact ih (abortLost_keeps hl)

/-- Every pending ticket of the list has ended once the list is through. -/
theorem abortLost_all_ends (l : List (Nat × Ticket)) (hin : (k, t) ∈ l)
    (ht : ∃ x, s.links.tickets.find k = some x ∧ (x.state = 0 ∨ x.Lost)) :
    ∃ x, (l.foldl (State.abortLost old new) s).links.tickets.find k = some x ∧ x.Lost := by
  induction l generalizing s with
  | nil => cases hin
  | cons e l ih =>
    obtain ⟨x, hx, hopen⟩ := ht
    by_cases heq : k = e.1
    · subst heq
      exact abortLost_all_keeps l (abortLost_self hx hopen)
    · have hin' : (k, t) ∈ l := (List.mem_cons.1 hin).resolve_left fun h => heq (congrArg Prod.fst h)
      obtain ⟨state, rank, -, habort⟩ := abortLost_eq old new s e
      exact ih hin' ⟨x, by rw [habort, abortTicket_other heq, hx], hopen⟩

theorem abortLost_all_same {β : Type} (g : State → β) (hg : ∀ s k st rank, g (State.abortTicket s k st rank) = g s)
    (l : List (Nat × Ticket)) (s : State) : g (l.foldl (State.abortLost old new) s) = g s := by
  refine foldl_same g (fun u e => ?_) l
  obtain ⟨state, rank, -, habort⟩ := abortLost_eq old new u e
  rw [habort, hg]

/-! The accepted members of a view, in the order of their ids. -/

/-- Takes one member's evidence, where it is accepted. -/
def acceptMember (m : Map (BitVec 512)) (e : Nat × Option (BitVec 512)) : Map (BitVec 512) :=
  match e.2 with
  | some d => m.put e.1 d
  | none => m

theorem acceptedMembers_eq (l : List (Nat × Option (BitVec 512))) : acceptedMembers l = l.foldl acceptMember [] := rfl

theorem Map.mem_keys_put {α : Type} (m : Map α) (n p : Nat) (v : α) :
    p ∈ (m.put n v).map Prod.fst ↔ p = n ∨ p ∈ m.map Prod.fst := by
  induction m with
  | nil => simp [Map.put]
  | cons e m ih =>
    rw [Map.put]
    split
    · simp
    · split
      · next heq => simp [heq]
      · simp only [List.map_cons, List.mem_cons, ih]
        tauto

theorem Map.keys_put_rise {α : Type} (m : Map α) (n : Nat) (v : α) (hm : (m.map Prod.fst).Pairwise (· < ·)) :
    ((m.put n v).map Prod.fst).Pairwise (· < ·) := by
  induction m with
  | nil => exact List.pairwise_singleton _ _
  | cons e m ih =>
    obtain ⟨habove, hrest⟩ := List.pairwise_cons.1 hm
    rw [Map.put]
    split
    · next hlt =>
      refine List.pairwise_cons.2 ⟨fun p hp => ?_, hm⟩
      rcases List.mem_cons.1 hp with rfl | hp
      · exact hlt
      · exact hlt.trans (habove p hp)
    · split
      · next heq => rw [heq]; exact hm
      · next hnlt hne =>
        refine List.pairwise_cons.2 ⟨fun p hp => ?_, ih hrest⟩
        rcases (Map.mem_keys_put m n p v).1 hp with rfl | hp
        · exact lt_of_le_of_ne (not_lt.1 hnlt) (Ne.symm hne)
        · exact habove p hp

theorem acceptMember_rise {m : Map (BitVec 512)} (e : Nat × Option (BitVec 512)) (hm : (m.map Prod.fst).Pairwise (· < ·)) :
    ((acceptMember m e).map Prod.fst).Pairwise (· < ·) := by
  unfold acceptMember
  split
  · exact Map.keys_put_rise _ _ _ hm
  · exact hm

theorem mem_acceptMember {m : Map (BitVec 512)} (e : Nat × Option (BitVec 512)) (p : Nat) :
    p ∈ (acceptMember m e).map Prod.fst ↔ p ∈ m.map Prod.fst ∨ ∃ d, e = (p, some d) := by
  obtain ⟨p', d'⟩ := e
  cases d' with
  | none => simp [acceptMember]
  | some d => simp [acceptMember, Map.mem_keys_put, or_comm, eq_comm]

theorem acceptMembers_rise (l : List (Nat × Option (BitVec 512))) {m : Map (BitVec 512)} (hm : (m.map Prod.fst).Pairwise (· < ·)) :
    ((l.foldl acceptMember m).map Prod.fst).Pairwise (· < ·) := by
  induction l generalizing m with
  | nil => exact hm
  | cons e l ih => exact ih (acceptMember_rise e hm)

theorem mem_acceptMembers (l : List (Nat × Option (BitVec 512))) (m : Map (BitVec 512)) (p : Nat) :
    p ∈ (l.foldl acceptMember m).map Prod.fst ↔ p ∈ m.map Prod.fst ∨ ∃ d, (p, some d) ∈ l := by
  induction l generalizing m with
  | nil => simp
  | cons e l ih =>
    rw [List.foldl_cons, ih, mem_acceptMember, or_assoc]
    refine or_congr_right ?_
    simp only [List.mem_cons, eq_comm, exists_or]

theorem acceptedMembers_rise (l : List (Nat × Option (BitVec 512))) : ((acceptedMembers l).map Prod.fst).Pairwise (· < ·) :=
  acceptMembers_rise l List.Pairwise.nil

theorem mem_acceptedMembers (l : List (Nat × Option (BitVec 512))) (p : Nat) :
    p ∈ (acceptedMembers l).map Prod.fst ↔ ∃ d, (p, some d) ∈ l := by
  rw [acceptedMembers_eq, mem_acceptMembers]
  simp

/-! The leader's root. -/

/-- The state in which every pending collective has ended and the view has changed, before its root is published. -/
def State.viewed (s : State) (members : List (Nat × Option (BitVec 512))) : State :=
  let new := (acceptedMembers members).map Prod.fst
  let v := (s.links.tickets.filter fun e => e.2.state == 0).foldl (State.abortLost s.links.members new) s
  v.draw.2.upLinks fun l =>
    { l with members := new, viewNo := (v.draw.2.links.viewNo + 1) % 2 ^ 64, linkKey := some v.draw.1, early := [] }

theorem viewChange_eq (members : List (Nat × Option (BitVec 512))) :
    exec (.membershipViewChange members) s =
      .next ((s.viewed members).publishRoot (BitVec.ofNat 64 (s.viewed members).links.viewNo) (acceptedMembers members)) := rfl

theorem viewed_links (members : List (Nat × Option (BitVec 512))) :
    (s.viewed members).links.viewNo = (s.links.viewNo + 1) % 2 ^ 64 ∧ (s.viewed members).links.linkKey = some s.io.draws ∧
      (s.viewed members).io.draws = s.io.draws + 1 ∧
      (s.viewed members).links.members = (acceptedMembers members).map Prod.fst ∧
      (s.viewed members).sys = s.sys ∧ (s.viewed members).mem = s.mem := by
  have hsame {β : Type} (g : State → β) (hg : ∀ s k st rank, g (State.abortTicket s k st rank) = g s) :=
    abortLost_all_same (old := s.links.members) (new := (acceptedMembers members).map Prod.fst) g hg
      (s.links.tickets.filter fun e => e.2.state == 0) s
  have hview := hsame (fun s => s.links.viewNo) fun _ _ _ _ => rfl
  have hdraws := hsame (fun s => s.io.draws) fun _ _ _ _ => rfl
  exact ⟨congrArg (fun n => (n + 1) % 2 ^ 64) hview, congrArg some hdraws, congrArg (· + 1) hdraws, rfl,
    hsame State.sys fun _ _ _ _ => rfl, hsame State.mem fun _ _ _ _ => rfl⟩

theorem viewed_ends (members : List (Nat × Option (BitVec 512))) (ht : s.links.tickets.find k = some t) (hp : t.state = 0) :
    ∃ x, (s.viewed members).links.tickets.find k = some x ∧ x.Lost :=
  abortLost_all_ends _ (List.mem_filter.2 ⟨Map.mem_of_find ht, beq_iff_eq.2 hp⟩) ⟨t, ht, .inl hp⟩

/-- Publishing changes nothing but what is sent. -/
theorem publishRoot_eq (view : Word) (m : Map (BitVec 512)) :
    ∃ sent, s.publishRoot view m = s.upLinks fun l => { l with outbox := l.outbox ++ sent } := by
  have hnone : s = s.upLinks fun l => { l with outbox := l.outbox ++ [] } := by simp [State.upLinks]
  unfold State.publishRoot
  split
  · split
    · exact ⟨_, rfl⟩
    · exact ⟨[], hnone⟩
  · exact ⟨[], hnone⟩

/-- The leader publishes the signed root. -/
theorem publishRoot_leader {view : Word} {m : Map (BitVec 512)} (hlead : (m.map Prod.fst).head? = some s.sys.image.package) :
    (s.publishRoot view m).links.outbox.getLast? =
      some (.root view (treeRoot view.toNat m) (Config.signature (wordBytes view ++ treeRoot view.toNat m))) := by
  match m, hlead with
  | (p, d) :: m, hlead =>
    have hp : p = s.sys.image.package := by simpa using hlead
    rw [State.publishRoot, if_pos hp]
    exact List.getLast?_concat

/-- Settles O46: every answer is one reply of its unit (`answered_reply`); a contribution, a failure, a limit and a change of
the view each end or change a ticket as their lemmas say. -/
theorem sharedEnginesAnswerAndCollectivesEnd : Obligations.SharedEnginesAnswerAndCollectivesEnd := by
  unfold Obligations.SharedEnginesAnswerAndCollectivesEnd
  refine ⟨⟨fun s n r hn hst hop hu => ⟨fun c hk hq hc => ?_, fun hk hq => ?_, fun t hk hq ht => ⟨fun hp hctx => ?_, fun hbad => ?_⟩⟩,
    fun s n r hn hst hop hu hroom => ⟨fun hv => ?_, fun hv hbad => ?_, fun hv hm hp hsrc hearly =>
      coll_begins hn hst hop hu hroom hv hm hp hsrc hearly⟩⟩,
    fun s k rank data t ht hp hrank hnew hdata => ⟨fun hmore => ?_, fun hall => contribution_commits ht hp hrank hnew hdata hall⟩,
    fun s k rank t ht hp hrank => ⟨?_, fun w => ?_⟩, fun s k rank data hk hahead hnew => contribution_early hk hahead hnew,
    fun s k t ht hp hmiss => ?_, fun s members => ?_⟩
  · obtain ⟨u, c', hexec, h, hc', hmerged, hgather⟩ := gather_query hn hst hop hu hk hq hc
    exact ⟨u, c', hexec, ⟨h.request, h.reply, h.mem⟩, hc', hmerged, hgather⟩
  · obtain ⟨u, hexec, h⟩ := ticket_query hn hst hop hu hk hq
    exact ⟨u, hexec, ⟨h.request, h.reply, h.mem⟩, h.links⟩
  · obtain ⟨u, hexec, h⟩ := abort_own hn hst hop hu hk hq ht hp hctx
    exact ⟨u, hexec, ⟨h.request, h.reply, h.mem⟩, h.links ▸ Links.aborted_find ht, h.links ▸ rfl⟩
  · obtain ⟨u, hexec, h⟩ := abort_refused hn hst hop hu hk hq ht hbad
    exact ⟨u, hexec, ⟨h.request, h.reply, h.mem⟩, h.links⟩
  · obtain ⟨u, hexec, h⟩ := coll_refused hn hst hop hu (collArrives_stale hroom hv)
    exact ⟨u, hexec, h.request, h.links⟩
  · obtain ⟨u, hexec, h⟩ := coll_refused hn hst hop hu (collArrives_barred hroom hv hbad)
    exact ⟨u, hexec, h.request, h.links⟩
  · obtain ⟨u, hexec, hticket, hlimit, hmem⟩ := contribution_counts ht hp hrank hnew hdata hmore
    exact ⟨u, _, hexec, hticket, rfl, hp, rfl, hlimit, hmem⟩
  · exact ⟨_, (contribution_known [] ht).trans (by rw [contributed_failure ht hp hrank]), abortTicket_pending ht hp, rfl⟩
  · exact ⟨_, (contribution_known [w] ht).trans (by rw [contributed_abort w ht hp hrank]), abortTicket_pending ht hp, rfl⟩
  · obtain ⟨i, hi, hexec, hmissing, hbelow⟩ := timeout_aborts ht hp hmiss
    exact ⟨_, _, hexec, abortTicket_pending ht hp, rfl, rfl, hi, hmissing, hbelow, rfl, rfl⟩
  · obtain ⟨hview, hkey, hdraws, hmembers, hsys, hmem⟩ := viewed_links (s := s) members
    obtain ⟨sent, hpub⟩ := publishRoot_eq (s := s.viewed members) (BitVec.ofNat 64 (s.viewed members).links.viewNo)
      (acceptedMembers members)
    have hlead := publishRoot_leader (s := s.viewed members) (view := BitVec.ofNat 64 (s.viewed members).links.viewNo)
      (m := acceptedMembers members)
    have hnum : (BitVec.ofNat 64 (s.viewed members).links.viewNo).toNat = (s.viewed members).links.viewNo := by
      rw [BitVec.toNat_ofNat, hview, Nat.mod_mod]
    rw [hnum, hsys, ← hmembers, hpub] at hlead
    refine ⟨_, (viewChange_eq members).trans (congrArg _ hpub), hview, hkey, hdraws, fun p => ?_, ?_, hlead, fun k t ht hp => ?_, hmem⟩
    · rw [← mem_acceptedMembers, ← hmembers]
      rfl
    · exact hmembers ▸ acceptedMembers_rise members
    · obtain ⟨x, hx, hstate, hparts⟩ := viewed_ends members ht hp
      exact ⟨x, hx, hstate, hparts⟩

end Sys2Proof.Machine
end

section
/-! PROOFS. Traps. A thread trap is one change of its thread (`State.trap_enters`); TRAP, BREAK and ERET are each an issue
(`issue_runs`) whose body raises its event, holds its core or returns. -/

namespace Sys2Proof.Machine

variable {s : State} {h : Hand} {t : Thread}

/-! ### A trap is taken (R181) -/

/-- A thread that has entered its handler: what R181 saves, the level and the pc. -/
def Thread.trapped (t : Thread) (code : Nat) (info epc vx : Word) (late : Bool) : Thread :=
  { t with epc := epc, cause := BitVec.ofNat 64 (code + if late then 256 else 0), info := info, vx := vx, lvl := true,
           pc := t.vec, restart := none }

theorem Thread.not_aborts (hlvl : t.lvl = false) (hvec : t.vec ≠ 0) : t.aborts = false := by
  rw [Thread.aborts, hlvl, Bool.false_or]
  exact beq_false_of_ne hvec

theorem State.trap_enters {c k : Nat} (code : Nat) (info epc vx : Word) (late : Bool) (ht : s.thread c k = some t)
    (hlvl : t.lvl = false) (hvec : t.vec ≠ 0) (hsect : t.sect = none) (hready : t.status = .ready) :
    s.trap c k code info epc vx late = s.upThread c k fun u => u.trapped code info epc vx late := by
  have hcause : late.toNat * 256 = if late then 256 else 0 := by cases late <;> rfl
  rw [State.trap, State.abandon_noSect ht hsect, ht]
  simp only [Thread.not_aborts hlvl hvec, Bool.false_eq_true, if_false, hready, hcause]
  rfl

/-- Settles O14: the trap is one change of the thread (`State.trap_enters`), and a change of a thread leaves the rest. -/
theorem takingATrapSavesAndEnters : Obligations.TakingATrapSavesAndEnters := by
  unfold Obligations.TakingATrapSavesAndEnters
  intro s c k code info epc vx late t ht hlvl hvec hsect hready u
  have hu : u = s.upThread c k fun v => v.trapped code info epc vx late := State.trap_enters _ _ _ _ _ ht hlvl hvec hsect hready
  obtain ⟨slots, hcore⟩ := s.upThread_core c k (fun v => v.trapped code info epc vx late) c
  rw [hu, hcore]
  refine ⟨?_, fun k' hk => State.upThread_thread_slot _ _ _ hk, fun c' hc => State.upThread_core_other _ _ _ hc,
    rfl, rfl, rfl, rfl, rfl, rfl⟩
  rw [State.upThread_thread_self, ht]
  rfl

/-! ### TRAP (R184, R186) -/

theorem execTrap_runs {a : Reg} (n : BitVec 12) (hi : Issues s (plainKind [a]) h t) : exec (.trap a n) s =
    .next ((begun s h).kernelFault h.core h.slot 0 0x0C (n.setWidth 64) (regOf s h t a) (stepPc t.pc h.len) t.pc 0 none) := by
  rw [show exec (.trap a n) s = execTrap a n s from rfl, execTrap, issue_runs hi, begun_regOf]
  rfl

/-- The record of a kernel fault stands under the next number, met in this cycle (R186). -/
theorem State.kernelFault_record {c k : Nat} (src code : Nat) (info arg resume epc vx : Word) (held : Option Nat)
    (ht : s.thread c k = some t) :
    (s.kernelFault c k src code info arg resume epc vx held).io.recs.find s.serial =
      some { ctx := s.ctxOf c, source := src, code := code, tid := Tid.word (s.tidAt c k), resume := resume, info := info,
             arg := arg, asid := t.asid.toNat, epc := epc, formed := 0, met := s.cyc } := by
  obtain ⟨cores, agenda, hpark⟩ := s.park_eq c k .fault (.fault resume code info epc vx held)
  obtain ⟨slots, hcore⟩ := State.park_slots (s := s) (k := k) .fault (.fault resume code info epc vx held) c
  have hctx : (s.park c k .fault (.fault resume code info epc vx held)).ctxOf c = s.ctxOf c := by
    rw [State.ctxOf, hcore]
    rfl
  simp only [State.kernelFault, ht, State.park_tidAt, hctx]
  rw [hpark]
  exact Map.find_put_self _ _ _

/-! ### BREAK (R185) -/

theorem execBrk_runs (n : BitVec 8) (hi : Issues s {} h t) : exec (.brk n) s =
    if (s.core h.core).claimed then .next ((begun s h).upCore h.core fun c => { c with held := true })
    else .next ((begun s h).trap h.core h.slot 0x0B (n.setWidth 64) t.pc 0 false) := by
  obtain ⟨slots, hcore⟩ := begun_core (s := s) (h := h) h.core
  have hclaimed : ((begun s h).core h.core).claimed = (s.core h.core).claimed := by rw [hcore]
  rw [show exec (.brk n) s = execBrk n s from rfl, execBrk, issue_runs hi, ← hclaimed]
  rfl

/-- Settles O15: TRAP is a kernel fault, whose thread parks (`State.kernelFault_thread`) and whose record is kept
(`State.kernelFault_record`); BREAK's case is the core's claim. -/
theorem trapAndBreakRaiseTheirEvents : Obligations.TrapAndBreakRaiseTheirEvents := by
  unfold Obligations.TrapAndBreakRaiseTheirEvents
  refine ⟨fun s h t a n hi => ?_, fun s h t n hi => ⟨fun hc => ?_, fun hc => ?_⟩⟩
  · have hbegun := begun_thread_self hi.live
    refine ⟨_, execTrap_runs n hi, rfl, ⟨_, State.kernelFault_thread _ _ _ _ _ _ _ _ hbegun, rfl, rfl⟩, ?_⟩
    have hrec := State.kernelFault_record 0 0x0C (n.setWidth 64) (regOf s h t a) (stepPc t.pc h.len) t.pc 0 none hbegun
    rw [begun_ctxOf, begun_tidAt] at hrec
    exact hrec
  · rw [execBrk_runs n hi, hc]
    rfl
  · rw [execBrk_runs n hi, hc]
    rfl

/-! ### ERET (R183) -/

theorem execEret_runs (hi : Issues s {} h t) : exec .eret s =
    if t.lvl then .next ((begun s h).eret h.core h.slot)
    else .next ((begun s h).trap h.core h.slot 0x01 (BitVec.ofNat 64 (0x0A + 256 * (h.len - 1))) t.pc 0 false) := by
  rw [show exec .eret s = execEret s from rfl, execEret, issue_runs hi]
  rfl

/-- A return, written with what the thread was before its issue: an issue changes none of what a return reads. -/
theorem begun_eret (ht : s.thread h.core h.slot = some t) : (begun s h).eret h.core h.slot =
    (begun s h).upThread h.core h.slot fun u =>
      { u with pc := t.epc, lvl := false, vx := 0,
               restart := if t.vx.extractLsb' 62 2 = 1 then some (t.vx.extractLsb' 0 40) else none } :=
  State.upThread_congr (begun_thread_self ht) rfl

/-- Settles O16, by the level of the thread at issue. -/
theorem eretReturnsFromTheHandler : Obligations.EretReturnsFromTheHandler := by
  unfold Obligations.EretReturnsFromTheHandler
  refine fun s h t hi => ⟨fun hlvl => ?_, fun hlvl => ?_⟩
  · rw [execEret_runs hi, hlvl, ← begun_eret hi.live]
    rfl
  · rw [execEret_runs hi, hlvl]
    rfl

end Sys2Proof.Machine
end

section
/-! PROOFS. Fault records and WAKE. The fault unit's two steps are read off their cases, the second with the one request that a
record writer makes (`ringAsk_asks`); WAKE is an issue (`issue_runs`) whose action decides. -/

namespace Sys2Proof.Machine

variable {s : State} {h : Hand} {t : Thread}

/-! ### Records (R186, R188) -/

theorem State.upCtx_find {ctx : Nat} {x : Context} (f : Context → Context) (hx : s.io.ctxs.find ctx = some x) :
    (s.upCtx ctx f).io.ctxs.find ctx = some (f x) := (Map.find_adjust_self _ _ _).trans (congrArg _ hx)

/-- A context's records and the agenda, as a record that arrives leaves them (R186). -/
def State.recorded (s : State) (n : Nat) (f : FRec) : State :=
  ((s.upIo fun io => { io with recs := io.recs.put n { f with formed := s.cyc } }).upCtx f.ctx
    fun x => { x with records := x.records ++ [n] }).after 0 30 (.faultRecordWrite f.ctx)

theorem FRec.not_engine {f : FRec} (hsrc : f.source < 2 ∨ 4 < f.source) (formed : Nat) :
    FRec.engine { f with formed := formed } = false := by
  simp only [FRec.engine, Bool.and_eq_false_iff, decide_eq_false_iff_not]
  omega

theorem execFaultEventArrival_forms {n : Nat} {f : FRec} (hf : s.io.recs.find n = some f) (hsrc : f.source < 2 ∨ 4 < f.source) :
    exec (.faultEventArrival n) s = .next (s.recorded n f) := by
  change execFaultEventArrival n s = _
  simp only [execFaultEventArrival, hf, FRec.not_engine hsrc, Bool.false_eq_true, if_false]
  rfl

/-- A record writer's request stands under the next number and arrives in this cycle (log 26). -/
theorem ringAsk_asks (kern key pa : Nat) (op : MemOp) (use : Use) (args : List Word) :
    (∃ r, (s.ringAsk kern key pa op use args).reqs.find s.serial = some r ∧ r.op = op ∧ r.pa = pa) ∧
      coming (s.ringAsk kern key pa op use args) s.cyc (.bankRequestArrival s.serial) :=
  ⟨⟨_, Map.find_put_self _ _ _, rfl, rfl⟩, State.post_coming (s := (s.addReq _).2) _ _ _⟩

theorem State.context_of_find {ctx : Nat} {x : Context} (hx : s.io.ctxs.find ctx = some x) : s.context ctx = x := by
  rw [State.context, hx, Option.getD_some]

theorem execFaultRecordWrite_asks {ctx n : Nat} {x : Context} {g : RingRef} {rest : List Nat} (hx : s.io.ctxs.find ctx = some x)
    (hring : x.ring = some g) (hrec : x.records = n :: rest) (hw : x.writing = false) : exec (.faultRecordWrite ctx) s =
      .next ((s.upCtx ctx fun x => { x with writing := true }).ringAsk x.kern g.key (g.next 64) .waitEmpty (faultWait ctx) []) := by
  change execFaultRecordWrite ctx s = _
  simp only [execFaultRecordWrite, State.context_of_find hx, hring, hrec, hw, Bool.false_eq_true, if_false]

theorem execFaultRecordWrite_idle {ctx : Nat} {x : Context} (hx : s.io.ctxs.find ctx = some x)
    (hidle : x.ring = none ∨ x.records = [] ∨ x.writing = true) : exec (.faultRecordWrite ctx) s = .next s := by
  change execFaultRecordWrite ctx s = _
  simp only [execFaultRecordWrite, State.context_of_find hx]
  split
  · next hring hrec =>
    have hw : x.writing = true := by simpa [hring, hrec] using hidle
    exact if_pos hw
  · rfl

/-! ### WAKE (R189) -/

/-- The thread that WAKE's W[a] names, by its low 32 bits. -/
def wakeTarget (s : State) (h : Hand) (t : Thread) (a : Reg) : Word := BitVec.ofNat 64 ((regOf s h t a).toNat % 2 ^ 32)

/-- WAKE's message is on its way. -/
def wakeSent (s : State) (h : Hand) (t : Thread) (a b : Reg) : State :=
  (begun s h).sendMsg h.core (tidOf (wakeTarget s h t a)).core
    (.wake (wakeTarget s h t a) (regOf s h t b == 1) (s.ctxOf h.core)) .wakeArrival

/-- WAKE's case is its action's: PERM for one above 1, PERM for action 1 outside the kernels, else the message. -/
theorem issueWake_runs {a b : Reg} (hi : Issues s (plainKind [a, b]) h t) : issueWake a b s =
    if 1 < (regOf s h t b).toNat then .next ((begun s h).trap h.core h.slot 0x09 9 t.pc 0 false)
    else if regOf s h t b = 1 ∧ isKernelCtx (s.ctxOf h.core) = false then
      .next ((begun s h).trap h.core h.slot 0x09 0x0B t.pc 0 false)
    else .next (passes (if isCore (tidOf (wakeTarget s h t a)).core then wakeSent s h t a b else (begun s h).drop h.core)
      h t) := by
  have hhigh : (regOf s h t b).extractLsb' 1 63 ≠ 0 ↔ 1 < (regOf s h t b).toNat := by
    rw [Ne, high_bits_eq_zero_iff _ rfl]
    omega
  rw [issueWake, issue_runs hi]
  simp only [begun_regOf, begun_ctx, hhigh, Bool.not_eq_true']
  rfl

theorem wakeSent_find {a b : Reg} : (passes (wakeSent s h t a b) h t).msgs.find s.serial =
    some (.wake (wakeTarget s h t a) (regOf s h t b == 1) (s.ctxOf h.core)) :=
  State.sendMsg_find (s := begun s h) h.core (tidOf (wakeTarget s h t a)).core _ .wakeArrival

theorem wakeSent_coming {a b : Reg} : coming (passes (wakeSent s h t a b) h t)
    (s.cyc + messageTime h.core (tidOf (wakeTarget s h t a)).core) (.wakeArrival s.serial) :=
  State.sendMsg_coming (s := begun s h) h.core _ _ .wakeArrival

theorem exec_wake {i : Instr} {a b : Reg} (hw : i = .wakeResume a b ∨ i = .wakeTrap a b) : exec i s = issueWake a b s := by
  rcases hw with rfl | rfl <;> rfl

/-- Settles O55: a record that arrives is `State.recorded`, a writer's request is `ringAsk_asks`'s, and WAKE's case is
`issueWake_runs`'s. -/
theorem recordsAreFormedAndWakesSent : Obligations.RecordsAreFormedAndWakesSent := by
  unfold Obligations.RecordsAreFormedAndWakesSent
  refine ⟨fun s n f x hf hsrc hx => ?_, fun s ctx x g n rest hx hring hrec hw => ?_,
    fun s ctx x hx hidle => execFaultRecordWrite_idle hx hidle, fun s h t i a b hi hiss => ?_⟩
  · exact ⟨_, execFaultEventArrival_forms hf hsrc, Map.find_put_self _ _ _,
      State.upCtx_find (s := s.upIo _) (fun x => { x with records := x.records ++ [n] }) hx, State.post_coming _ _ _, rfl⟩
  · obtain ⟨⟨r, hr, hop, hpa⟩, hcoming⟩ := ringAsk_asks (s := s.upCtx ctx fun x => { x with writing := true }) x.kern g.key
      (g.next 64) .waitEmpty (faultWait ctx) []
    exact ⟨_, r, execFaultRecordWrite_asks hx hring hrec hw, hr, hop, hpa, hcoming,
      State.upCtx_find (fun x => { x with writing := true }) hx, rfl⟩
  · rw [exec_wake hi, issueWake_runs hiss]
    refine ⟨fun hact => if_pos hact, fun hact hk => ?_, fun hact hcore => ?_⟩
    · rw [hact, if_neg (by decide), if_pos ⟨rfl, hk⟩]
      rfl
    · have hsmall : ¬ 1 < (regOf s h t b).toNat := by rcases hact with hact | ⟨hact, -⟩ <;> rw [hact] <;> decide
      have hmay : ¬ (regOf s h t b = 1 ∧ isKernelCtx (s.ctxOf h.core) = false) := by
        rintro ⟨hone, hk⟩
        rcases hact with hact | ⟨-, hact⟩
        · exact absurd (hact.symm.trans hone) (by decide)
        · exact absurd (hact.symm.trans hk) (by decide)
      have hsent : isCore (tidOf (wakeTarget s h t a)).core = true := hcore
      have hthread : (wakeSent s h t a b).thread h.core h.slot = some t.issuing := begun_thread_self hiss.live
      rw [if_neg hsmall, if_neg hmay, if_pos hsent]
      exact ⟨_, _, rfl, wakeSent_find, wakeSent_coming, passes_thread hthread, rfl, rfl, rfl⟩

end Sys2Proof.Machine
end

section
/-! PROOFS. PARTSET and OWNSET at their units, and DRAIN, EVICT and RESTORE where they end or refuse. An answer is one reply
(`unitSays_says`), before which the I/O die may have changed; each case of the two units is an equation of theirs. -/

namespace Sys2Proof.Machine

variable {s w u : State} {n : Nat} {r : Req}

/-! ### Answers -/

/-- A change that leaves the requests, the time and memory alone, such as the I/O die's before an answer. -/
structure Aside (s w : State) : Prop where
  reqs : w.reqs = s.reqs
  cyc : w.cyc = s.cyc
  mem : w.mem = s.mem

theorem Aside.refl : Aside s s := ⟨rfl, rfl, rfl⟩

/-- The request `n` of `s` has been answered with a number in a state `w`, which the answer has made `u`. -/
structure Says (s w u : State) (n : Nat) (r : Req) (v : Int) : Prop where
  request : ∃ r', u.reqs.find n = some r' ∧ r'.stage = .served ∧ r'.ans = [BitVec.ofInt 64 v]
  reply : coming u (s.cyc + (r.lat + 1) / 2) (.memReply n)
  mem : u.mem = s.mem
  io : u.io = w.io
  cores : u.cores = w.cores
  agenda : ∀ time i, coming w time i → coming u time i

/-- An answer is one reply. -/
theorem unitSays_says (hn : s.reqs.find n = some r) (huse : r.use ≠ .fetch) (hop : ∀ ws, r.op ≠ .dirty ws) (ha : Aside s w)
    (v : Int) : Says s w (w.unitSays n v) n r v := by
  have hw : w.reqs.find n = some r := by rw [ha.reqs, hn]
  rw [State.unitSays, State.reply_found hw huse hop]
  exact ⟨⟨_, upReq_post_find hw, rfl, rfl⟩, ha.cyc ▸ State.after_coming _ _ _, ha.mem, rfl, rfl,
    fun _ _ hc => State.after_coming_old (s := w.upReq n _) _ _ _ hc⟩

/-- A request that reaches the unit of PARTSET or OWNSET. -/
structure AtUnit (s : State) (n : Nat) (r : Req) : Prop where
  found : s.reqs.find n = some r
  sent : r.stage = .sent
  unit : r.op = .unit
  use : r.use = .stage stUnit

theorem AtUnit.says (hr : AtUnit s n r) (ha : Aside s w) (v : Int) : Says s w (w.unitSays n v) n r v :=
  unitSays_says hr.found (hr.use ▸ Use.noConfusion) (fun _ hd => MemOp.noConfusion (hr.unit.symm.trans hd)) ha v

/-- The request's code is its unit's. -/
theorem AtUnit.runs (hr : AtUnit s n r) (hc : (r.args.getD 1 0).toNat = uPartset ∨ (r.args.getD 1 0).toNat = uOwnset) :
    exec (.bankRequestArrival n) s =
      .next (if (r.args.getD 1 0).toNat = uPartset then s.partset n r else s.ownset n r) := by
  rw [execBankRequestArrival_unit hr.found hr.sent hr.unit, State.unitArrives, if_neg (by rw [hr.use]; decide),
    if_neg (by rw [hr.use]; decide)]
  rcases hc with hc | hc <;> simp only [hc] <;> rfl

/-! ### Measurements (R361, log 68) -/

/-- The state as an answer to PARTSET or OWNSET measures it. -/
def State.measured (w : State) (r : Req) (ctx op : Nat) (v : Int) : State :=
  if w.ownCtx r.ctx ctx && [3, 4, 6, uPartset].contains op then w.measure ctx r.opA r.opB v else w

theorem State.measured_aside (ha : Aside s w) (ctx op : Nat) (v : Int) : Aside s (w.measured r ctx op v) := by
  unfold State.measured
  split
  · exact ⟨ha.reqs, ha.cyc, ha.mem⟩
  · exact ha

/-- A measurement changes contexts alone. -/
theorem State.measured_io (ctx op : Nat) (v : Int) : ∃ ctxs, (w.measured r ctx op v).io = { w.io with ctxs := ctxs } := by
  unfold State.measured
  split <;> exact ⟨_, rfl⟩

/-- A measurement changes its context's measurement alone. -/
theorem State.measured_find {ctx : Nat} {x : Context} (op : Nat) (v : Int) (hx : w.io.ctxs.find ctx = some x) :
    ∃ m, (w.measured r ctx op v).io.ctxs.find ctx = some { x with measured := m } := by
  unfold State.measured
  split
  · exact ⟨_, State.upCtx_find (fun x => { x with measured := x.measured ++ [(r.opA, r.opB, BitVec.ofInt 64 v)] }) hx⟩
  · exact ⟨_, hx⟩

theorem AtUnit.judged (hr : AtUnit s n r) (ha : Aside s w) (ctx op : Nat) (v : Int) :
    Says s (w.measured r ctx op v) (w.judged n r ctx op v) n r v := hr.says (State.measured_aside ha ctx op v) v

/-! ### PARTSET (R341, log 67) -/

theorem AtUnit.partset (hr : AtUnit s n r) (hc : (r.args.getD 1 0).toNat = uPartset) (hu : s.partset n r = u) :
    exec (.bankRequestArrival n) s = .next u := by
  rw [hr.runs (.inl hc), if_pos hc, hu]

/-- The context and the partition that PARTSET names, and its record's mask and second word. -/
def Req.partCtx (r : Req) : Nat := r.opA.toNat % 65536

def Req.partNum (r : Req) : Nat := r.opA.toNat / 65536 % 8

def Req.partMask (r : Req) : Nat := (r.args.getD 4 0).toNat

def Req.partWord (r : Req) : Word := r.args.getD 5 0

theorem partset_malformed (hbad : r.opA.extractLsb' 19 45 ≠ 0 ∨ r.partWord.extractLsb' 16 48 ≠ 0) :
    s.partset n r = s.judged n r r.partCtx uPartset (-4) := if_pos hbad

/-- Whether a partition of PARTSET's cannot be set beside those that there are (R341). -/
def partBarred (s : State) (r : Req) (parts : Map Part) : Bool :=
  (parts.any fun e => e.1 != r.partNum && (r.partMask &&& e.2.slots) != 0) ||
    (r.partWord.toNat / 256 % 256 != 0 && (r.partMask == 0 || r.partWord.toNat % 256 == 0)) ||
    (r.partWord.toNat / 256 % 256 == 0 && s.partLives r.partCtx r.partNum)

/-- The partition that PARTSET sets. -/
def Req.partSet (r : Req) : Part :=
  { slots := r.partMask, banks := r.partWord.toNat % 256, weight := r.partWord.toNat / 256 % 256 }

/-- The state with PARTSET's partition set. -/
def State.partitioned (s : State) (r : Req) : State :=
  s.upCtx r.partCtx fun x => { x with parts := x.parts.put r.partNum r.partSet }

/-- A well-formed PARTSET: operands that leave their reserved bits zero. -/
structure PartOk (r : Req) : Prop where
  names : r.opA.extractLsb' 19 45 = 0
  record : r.partWord.extractLsb' 16 48 = 0

theorem PartOk.not_malformed (hr : PartOk r) : ¬ (r.opA.extractLsb' 19 45 ≠ 0 ∨ r.partWord.extractLsb' 16 48 ≠ 0) := by
  simp [hr.names, hr.record]

theorem partset_foreign (hr : PartOk r) (hown : s.ownCtx r.ctx r.partCtx = false) : s.partset n r = s.unitSays n (-1) :=
  (if_neg hr.not_malformed).trans (if_pos (show (!s.ownCtx r.ctx r.partCtx) = true by rw [hown]; rfl))

theorem partset_own (hr : PartOk r) (hown : s.ownCtx r.ctx r.partCtx = true) : s.partset n r =
    if partBarred s r (s.context r.partCtx).parts then s.judged n r r.partCtx uPartset (-3)
    else ((s.partitioned r).retryCtx r.partCtx).judged n r r.partCtx uPartset 0 :=
  (if_neg hr.not_malformed).trans (if_neg (show ¬ (!s.ownCtx r.ctx r.partCtx) = true by rw [hown]; decide))

theorem partBarred_of {parts : Map Part} (hbar : (∃ e ∈ parts, e.1 ≠ r.partNum ∧ r.partMask &&& e.2.slots ≠ 0) ∨
    r.partWord.toNat / 256 % 256 ≠ 0 ∧ (r.partMask = 0 ∨ r.partWord.toNat % 256 = 0) ∨
    r.partWord.toNat / 256 % 256 = 0 ∧ s.partLives r.partCtx r.partNum = true) : partBarred s r parts = true := by
  simp only [partBarred, Bool.or_eq_true, Bool.and_eq_true, List.any_eq_true, bne_iff_ne, beq_iff_eq]
  exact or_assoc.2 hbar

theorem not_partBarred {parts : Map Part}
    (hapart : (parts.any fun e => e.1 != r.partNum && (r.partMask &&& e.2.slots) != 0) = false)
    (hweight : r.partWord.toNat / 256 % 256 ≠ 0) (hmask : r.partMask ≠ 0) (hbanks : r.partWord.toNat % 256 ≠ 0) :
    partBarred s r parts = false := by
  simp only [partBarred, hapart, beq_false_of_ne hweight, beq_false_of_ne hmask, beq_false_of_ne hbanks, Bool.false_or,
    Bool.and_false, Bool.false_and]

/-- With nothing that waits for a place in a context, nothing tries again. -/
theorem State.retryCtx_idle {ctx : Nat} (hdies : s.dies = []) (hcores : s.coresOf ctx = []) : s.retryCtx ctx = s := by
  simp only [State.retryCtx, hdies, List.foldl_nil, hcores]

/-- A weight fits its field where the record's reserved bits are zero. -/
theorem PartOk.weight (hr : PartOk r) (hpos : 0 < r.partWord.toNat / 256) : r.partWord.toNat / 256 % 256 ≠ 0 := by
  have hlt := (high_bits_eq_zero_iff (n := 16) (m := 48) _ rfl).1 hr.record
  omega

/-! ### OWNSET (R331, log 69) -/

theorem AtUnit.ownset (hr : AtUnit s n r) (hc : (r.args.getD 1 0).toNat = uOwnset) (hu : s.ownset n r = u) :
    exec (.bankRequestArrival n) s = .next u := by
  rw [hr.runs (.inr hc), if_neg (by rw [hc]; decide), hu]

/-- The context that OWNSET names, and its operation. -/
def Req.ownsetCtx (r : Req) : Nat := r.opA.toNat / 256 % 65536

def Req.ownsetOp (r : Req) : Nat := r.opA.toNat % 256

theorem ownset_malformed (hbad : ownsetOk r.opA r.opB = false) : s.ownset n r =
    if r.ownsetOp = uPartset then s.unitSays n (-4) else s.judged n r r.ownsetCtx r.ownsetOp (-4) :=
  if_pos (show (!ownsetOk r.opA r.opB) = true by rw [hbad]; rfl)

/-- An operation of OWNSET, but CREATE, on an own context. -/
def State.ownsetOwn (s : State) (n : Nat) (r : Req) : Nat → State
  | 2 => s.destroyCtx n r.ownsetCtx
  | 3 => s.assign n r r.ownsetCtx
  | 4 => s.bindKey n r r.ownsetCtx
  | 5 => s.unbindKey n r r.ownsetCtx
  | 6 => s.bindAsid n r r.ownsetCtx
  | 7 => s.unbindAsid n r r.ownsetCtx
  | 8 => s.setRing n r r.ownsetCtx
  | _ => s.setInbox n r r.ownsetCtx

section
variable (hok : ownsetOk r.opA r.opB = true)
include hok

theorem ownset_wellFormed : ¬ (!ownsetOk r.opA r.opB) = true := by rw [hok]; decide

theorem ownset_create (hop : r.ownsetOp = 1) : s.ownset n r = s.createCtx n r :=
  (if_neg (ownset_wellFormed hok)).trans (if_pos hop)

theorem ownset_foreign (hop : r.ownsetOp ≠ 1) (hown : s.ownCtx r.ctx r.ownsetCtx = false) : s.ownset n r = s.unitSays n (-1) :=
  (if_neg (ownset_wellFormed hok)).trans ((if_neg hop).trans
    (if_pos (show (!s.ownCtx r.ctx r.ownsetCtx) = true by rw [hown]; rfl)))

theorem ownset_own (hop : r.ownsetOp ≠ 1) (hown : s.ownCtx r.ctx r.ownsetCtx = true) :
    s.ownset n r = s.ownsetOwn n r r.ownsetOp :=
  (if_neg (ownset_wellFormed hok)).trans ((if_neg hop).trans
    (if_neg (show ¬ (!s.ownCtx r.ctx r.ownsetCtx) = true by rw [hown]; decide)))

theorem ringOf_of_ok (hop : r.ownsetOp = 8 ∨ r.ownsetOp = 9) : (ringOf r.opB 0).isSome = true := by
  have hop' : r.opA.toNat % 256 = 8 ∨ r.opA.toNat % 256 = 9 := hop
  rcases hop' with hop' | hop' <;> simp only [ownsetOk, hop', Bool.and_eq_true] at hok <;> exact hok.2

end

/-- The ring that OWNSET's W[b] names, under a key. -/
def Req.ring (r : Req) (key : Nat) : RingRef :=
  { base := offsetOf r.opB / 64 * 64, log2 := r.opB.toNat % 32, key := key, prod := 0 }

theorem ringOf_some (hring : (ringOf r.opB 0).isSome = true) (key : Nat) : ringOf r.opB key = some (r.ring key) := by
  simp only [ringOf] at hring ⊢
  split at hring
  · next hok => exact if_pos hok
  · cases hring

/-! #### CREATE -/

/-- The state in which CREATE has made a context, whose measurement is not yet begun. -/
def State.created (s : State) (r : Req) (c : Nat) : State :=
  s.upIo fun io => { io with draws := io.draws + 1,
                             ctxs := io.ctxs.put c { kern := s.kernOf r.ctx, conf := r.opB.getLsbD 0, key := io.draws } }

theorem createCtx_eq {c k : Nat} (hgrant : r.opB.getLsbD 1 = false) (hc : s.freeCtx = some c) (hk : s.freeKid = some k)
    (hrng : s.io.rngFails = false) : s.createCtx n r = ((s.created r c).measure c r.opA r.opB c).unitSays n c := by
  simp only [State.createCtx, hgrant, Bool.and_false, hc, hk, State.createWith, hrng, Bool.false_eq_true, if_false]
  rfl

/-! #### BINDKEY and BINDASID -/

/-- The state in which BINDKEY has bound a fresh key. -/
def State.keyBound (s : State) (ctx k : Nat) : State :=
  s.upIo fun io => { io with draws := io.draws + 1, kids := io.kids.put k (ctx, io.draws) }

theorem bindKey_eq {ctx k : Nat} (hk : s.freeKid = some k) (hrng : s.io.rngFails = false) :
    s.bindKey n r ctx = (s.keyBound ctx k).judged n r ctx 4 k := by
  simp only [State.bindKey, hk, hrng, Bool.false_eq_true, if_false]
  rfl

/-- The state in which BINDASID has written word 0 of a descriptor. -/
def State.asidBoundTo (s : State) (r : Req) (ctx : Nat) : State :=
  s.upIo fun io =>
    { io with asids := io.asids.put (r.opB.toNat * 8) (BitVec.ofNat 64 (2 ^ 63 + (s.kernOf ctx - 1) * 65536 + ctx)) }

theorem bindAsid_eq {ctx : Nat} (hfree : (s.desc r.opB.toNat 0).getLsbD 63 = false) :
    s.bindAsid n r ctx = (s.asidBoundTo r ctx).judged n r ctx 6 0 := by
  simp only [State.bindAsid, hfree, Bool.false_eq_true, if_false]
  rfl

/-! #### SETRING and SETINBOX -/

/-- A writer that waits for nothing gives up nothing. -/
theorem stopWriter_alone {v : Use} (hreqs : s.reqs = [(n, r)]) (hv : r.use ≠ v) : s.stopWriter v = s := by
  simp only [State.stopWriter, hreqs, List.foldl_cons, List.foldl_nil, beq_false_of_ne hv, Bool.false_eq_true, if_false]

theorem nobody_writes {v : Use} (hreqs : s.reqs = [(n, r)]) (hv : r.use ≠ v) : (s.reqs.any fun e => e.2.use == v) = false := by
  simp only [hreqs, List.any_cons, List.any_nil, beq_false_of_ne hv, Bool.or_false]

/-- The state in which SETRING has named a fault ring. -/
def State.ringSet (s : State) (r : Req) (ctx : Nat) : State :=
  (s.upCtx ctx fun x => { x with ring := some (r.ring (s.context r.ctx).key), writing := false }).after 0 30
    (.faultRecordWrite ctx)

theorem setRing_eq {ctx : Nat} (hr : AtUnit s n r) (hreqs : s.reqs = [(n, r)]) (hring : (ringOf r.opB 0).isSome = true) :
    s.setRing n r ctx = (s.ringSet r ctx).unitSays n 0 := by
  have huse (v : Nat) : r.use ≠ .record v := hr.use ▸ Use.noConfusion
  have hstop : s.stopWriter (faultWait ctx) = s := stopWriter_alone hreqs (huse _)
  have hnobody : (s.reqs.any fun e => e.2.use == faultPut ctx) = false := nobody_writes hreqs (huse _)
  simp only [State.setRing, ringOf_some hring, hstop, hnobody]
  rfl

/-- The state in which SETINBOX has named the inbox of the issuer's kernel. -/
def State.inboxSet (s : State) (r : Req) : State :=
  (s.upKernel (s.kernOf r.ctx) fun x => { x with inbox := some (r.ring (s.context r.ctx).key), writing := false }).after 0 30
    (.noticeWrite (s.kernOf r.ctx))

theorem setInbox_eq (hr : AtUnit s n r) (hreqs : s.reqs = [(n, r)]) (hring : (ringOf r.opB 0).isSome = true) :
    s.setInbox n r r.ctx = (s.inboxSet r).unitSays n 0 := by
  have huse (v : Nat) : r.use ≠ .record v := hr.use ▸ Use.noConfusion
  have hstop : s.stopWriter (noticeWait (s.kernOf r.ctx)) = s := stopWriter_alone hreqs (huse _)
  have hnobody : (s.reqs.any fun e => e.2.use == noticePutting (s.kernOf r.ctx)) = false := nobody_writes hreqs (huse _)
  simp only [State.setInbox, ringOf_some hring, hstop, hnobody, ne_eq, not_true_eq_false, if_false]
  rfl

theorem setInbox_other {ctx : Nat} (hctx : ctx ≠ r.ctx) (hring : (ringOf r.opB 0).isSome = true) :
    s.setInbox n r ctx = s.unitSays n (-4) := by
  simp only [State.setInbox, ringOf_some hring, if_pos hctx]

/-! ### DRAIN (R344, R345) -/

theorem execDrainLimitExpiry_runs {d : Drain} (hd : s.io.drains.find n = some d) (hn : s.reqs.find n = some r) :
    exec (.drainLimitExpiry n) s =
      if s.heldIn d.dpa 1 then .next (s.drainWaits n d d.dpa)
      else if s.drained d then .next (s.drainEnd n d d.saved)
      else if d.area = 0 ∨ s.cyc < d.limit then .next s
      else .next (s.drainSave n r d (s.itemCount d + 1)) := by
  change execDrainLimitExpiry n s = _
  simp only [execDrainLimitExpiry, hd, hn]

/-! ### EVICT and RESTORE (R190, R191, log 65) -/

/-- A request of EVICT or RESTORE that reaches its block: the block lies in one page, and no hold stands on it. -/
structure AtBlock (s : State) (n : Nat) (r : Req) : Prop where
  found : s.reqs.find n = some r
  sent : r.stage = .sent
  op : r.op = .write [] true ∨ r.op = .block 0
  use : r.use = .stage stBlock
  there : s.lostAt r.pa = false
  admitted : s.admitEvent r = none
  whole : headWords r.ptr = 928
  unheld : s.heldIn r.pa 928 = false

theorem AtBlock.says (hb : AtBlock s n r) (v : Int) : Says s s (s.unitSays n v) n r v :=
  unitSays_says hb.found (hb.use ▸ Use.noConfusion)
    (fun _ hd => by rcases hb.op with hop | hop <;> rw [hop] at hd <;> cases hd) Aside.refl v

/-- The request acts on its block: the second page has none of its words. -/
theorem AtBlock.reaches (hb : AtBlock s n r) : exec (.bankRequestArrival n) s =
    .next (s.blockKnown n r r.pa (r.pa + 8 * 928) 928) := by
  have hunit : r.op ≠ .unit := by rcases hb.op with hop | hop <;> rw [hop] <;> exact MemOp.noConfusion
  have hwhole : (928 : Nat) = blockBytes / 8 := by decide
  change execBankRequestArrival n s = _
  simp only [execBankRequestArrival, hb.found, hb.sent, ne_eq, not_true_eq_false, hunit, hb.there, hb.use, State.blockArrives,
    hb.admitted, State.blockReached, hb.whole, ← hwhole, true_or, if_true, if_false, Bool.false_eq_true]

/-- No hold stands on a word of the block, nor of its second page, which has none. -/
theorem AtBlock.heldWord (hb : AtBlock s n r) (pb : Nat) : s.heldWord [(r.pa, 928), (pb, 0)] = none := by
  have hnone : s.heldIn pb 0 = false := rfl
  simp [State.heldWord, hb.unheld, hnone]

theorem AtBlock.evicts (hb : AtBlock s n r) (hop : r.args.getD 1 0 = 0) : exec (.bankRequestArrival n) s =
    .next (s.evict n r r.pa (r.pa + 8 * 928) 928) := by
  rw [hb.reaches, State.blockKnown, show blockBytes / 8 - 928 = 0 from rfl, hb.heldWord]
  simp only [hop, if_true]

/-- RESTORE of a sound block to a core that it may not name (log 65). -/
theorem AtBlock.restore_refuses (hb : AtBlock s n r) (hop : r.args.getD 1 0 = 1) (hpoison : s.poisoned r.pa 928 = false)
    (hfixed : s.fixedIn r.pa 928 = 0)
    (hcore : 2 ^ 18 ≤ (r.args.getD 3 0).toNat ∨ isCore (r.args.getD 3 0).toNat = false ∨
      s.kernOf (s.ctxOf (r.args.getD 3 0).toNat) ≠ s.kernOf r.ctx) :
    exec (.bankRequestArrival n) s = .next (s.unitSays n (-3)) := by
  have hrest : blockBytes / 8 - 928 = 0 := rfl
  have hone : ¬ r.args.getD 1 0 = 0 := by rw [hop]; decide
  have hsound : s.poisoned (r.pa + 8 * 928) 0 = false := rfl
  have hread : s.countRead r.pa 928 = s := if_pos hfixed
  have hread' : s.countRead (r.pa + 8 * 928) 0 = s := rfl
  rw [hb.reaches, State.blockKnown, hrest, hb.heldWord]
  simp only [hone, if_false, hpoison, hsound, Bool.false_eq_true, State.restore, Bool.not_eq_true', hcore, if_true, hread, hrest,
    hread']

/-- EVICT's target, by the low 32 bits of W[a]. -/
def Req.target (r : Req) : Tid := tidOf (BitVec.ofNat 64 (r.opA.toNat % 2 ^ 32))

theorem evict_nobody {pa pb head : Nat} (hnone : s.threadOf r.target = none) :
    s.evict n r pa pb head = s.unitSays n (-2) := by
  have hnone' : s.threadOf (tidOf (BitVec.ofNat 64 ((r.args.getD 2 0).toNat % 2 ^ 32))) = none := hnone
  simp only [State.evict, hnone']

theorem evict_refuses {pa pb head : Nat} {th : Thread} (hth : s.threadOf r.target = some th) (hlow : r.opA.toNat < 2 ^ 32)
    (hkern : s.kernOf (s.ctxOf r.target.core) = s.kernOf r.ctx)
    (hfault : ∀ why resume code info epc vx held, th.status ≠ .parked why (.fault resume code info epc vx held))
    (hmatrix : s.inMatrix r.target.core th = false) : s.evict n r pa pb head = s.unitSays n (-1) := by
  have hsame : ¬ (r.opA.toNat ≠ (BitVec.ofNat 64 (r.opA.toNat % 2 ^ 32)).toNat ∨
      s.kernOf (s.ctxOf r.target.core) ≠ s.kernOf r.ctx) := by
    rw [BitVec.toNat_ofNat]
    simp only [hkern, ne_eq, not_true_eq_false, or_false]
    omega
  simp only [Req.target, Req.opA] at hth hsame hmatrix
  simp only [State.evict, hth, if_neg hsame, hmatrix, Bool.false_eq_true, if_false]

/-! ### What the units answer and set -/

theorem Says.answers {v : Int} (hs : Says s w u n r v) : (∃ r', u.reqs.find n = some r' ∧ r'.stage = .served ∧
    r'.ans = [BitVec.ofInt 64 v]) ∧ coming u (s.cyc + (r.lat + 1) / 2) (.memReply n) ∧ u.mem = s.mem :=
  ⟨hs.request, hs.reply, hs.mem⟩

section
variable (hr : AtUnit s n r)
include hr

theorem AtUnit.partset_refuses {x : Context} (hc : (r.args.getD 1 0).toNat = uPartset) (hok : PartOk r)
    (hown : s.ownCtx r.ctx r.partCtx = true) (hx : s.io.ctxs.find r.partCtx = some x) (hbar : partBarred s r x.parts = true) :
    exec (.bankRequestArrival n) s = .next (s.judged n r r.partCtx uPartset (-3)) := by
  rw [← State.context_of_find hx] at hbar
  exact hr.partset hc ((partset_own hok hown).trans (if_pos hbar))

theorem AtUnit.partset_sets {x : Context} (hc : (r.args.getD 1 0).toNat = uPartset) (hok : PartOk r)
    (hown : s.ownCtx r.ctx r.partCtx = true) (hx : s.io.ctxs.find r.partCtx = some x) (hfree : partBarred s r x.parts = false)
    (hdies : s.dies = []) (hcores : s.coresOf r.partCtx = []) : ∃ u m, exec (.bankRequestArrival n) s = .next u ∧
      Says s ((s.partitioned r).measured r r.partCtx uPartset 0) u n r 0 ∧
      u.io.ctxs.find r.partCtx = some { x with parts := x.parts.put r.partNum r.partSet, measured := m } := by
  have hidle : (s.partitioned r).retryCtx r.partCtx = s.partitioned r := State.retryCtx_idle hdies hcores
  have hset : s.partset n r = (s.partitioned r).judged n r r.partCtx uPartset 0 := by
    rw [partset_own hok hown, State.context_of_find hx, hfree, hidle]
    rfl
  have hs := hr.judged (w := s.partitioned r) ⟨rfl, rfl, rfl⟩ r.partCtx uPartset 0
  obtain ⟨m, hm⟩ := State.measured_find (r := r) uPartset 0
    (State.upCtx_find (fun x => { x with parts := x.parts.put r.partNum r.partSet }) hx)
  exact ⟨_, m, hr.partset hc hset, hs, (congrArg (fun io => io.ctxs.find r.partCtx) hs.io).trans hm⟩

section
variable (hc : (r.args.getD 1 0).toNat = uOwnset) (hok : ownsetOk r.opA r.opB = true)
include hc hok

theorem AtUnit.create_makes {c k : Nat} (hop : r.ownsetOp = 1) (hgrant : r.opB.getLsbD 1 = false) (hfree : s.freeCtx = some c)
    (hkid : s.freeKid = some k) (hrng : s.io.rngFails = false) : ∃ u m, exec (.bankRequestArrival n) s = .next u ∧
      Says s ((s.created r c).measure c r.opA r.opB c) u n r c ∧
      u.io.ctxs.find c = some { kern := s.kernOf r.ctx, conf := r.opB.getLsbD 0, key := s.io.draws, measured := m } := by
  have hs := hr.says (w := (s.created r c).measure c r.opA r.opB c) ⟨rfl, rfl, rfl⟩ c
  have hctx : (s.created r c).io.ctxs.find c = some { kern := s.kernOf r.ctx, conf := r.opB.getLsbD 0, key := s.io.draws } :=
    Map.find_put_self _ _ _
  exact ⟨_, _, hr.ownset hc ((ownset_create hok hop).trans (createCtx_eq hgrant hfree hkid hrng)), hs,
    (congrArg (fun io => io.ctxs.find c) hs.io).trans
      (State.upCtx_find (fun x => { x with measured := x.measured ++ [(r.opA, r.opB, BitVec.ofInt 64 c)] }) hctx)⟩

section
variable (hown : s.ownCtx r.ctx r.ownsetCtx = true)
include hown

theorem AtUnit.ownset_runs {op : Nat} (hop : r.ownsetOp = op) (hne : op ≠ 1) :
    exec (.bankRequestArrival n) s = .next (s.ownsetOwn n r op) :=
  hr.ownset hc (by rw [ownset_own hok (hop ▸ hne) hown, hop])

theorem AtUnit.bindKey_binds {k : Nat} (hop : r.ownsetOp = 4) (hkid : s.freeKid = some k) (hrng : s.io.rngFails = false) :
    ∃ u, exec (.bankRequestArrival n) s = .next u ∧
      Says s ((s.keyBound r.ownsetCtx k).measured r r.ownsetCtx 4 k) u n r k ∧
      u.io.kids.find k = some (r.ownsetCtx, s.io.draws) ∧ u.io.draws = s.io.draws + 1 := by
  have hs := hr.judged (w := s.keyBound r.ownsetCtx k) ⟨rfl, rfl, rfl⟩ r.ownsetCtx 4 k
  obtain ⟨ctxs, hio⟩ := State.measured_io (w := s.keyBound r.ownsetCtx k) (r := r) r.ownsetCtx 4 k
  have hu := hs.io.trans hio
  exact ⟨_, (hr.ownset_runs hc hok hown hop (by decide)).trans (congrArg _ (bindKey_eq hkid hrng)), hs,
    (congrArg (fun io => io.kids.find k) hu).trans (Map.find_put_self _ _ _), congrArg IoDie.draws hu⟩

theorem AtUnit.bindAsid_binds (hop : r.ownsetOp = 6) (hfree : (s.desc r.opB.toNat 0).getLsbD 63 = false) :
    ∃ u, exec (.bankRequestArrival n) s = .next u ∧
      Says s ((s.asidBoundTo r r.ownsetCtx).measured r r.ownsetCtx 6 0) u n r 0 ∧
      u.desc r.opB.toNat 0 = BitVec.ofNat 64 (2 ^ 63 + (s.kernOf r.ownsetCtx - 1) * 65536 + r.ownsetCtx) := by
  have hs := hr.judged (w := s.asidBoundTo r r.ownsetCtx) ⟨rfl, rfl, rfl⟩ r.ownsetCtx 6 0
  obtain ⟨ctxs, hio⟩ := State.measured_io (w := s.asidBoundTo r r.ownsetCtx) (r := r) r.ownsetCtx 6 0
  refine ⟨_, (hr.ownset_runs hc hok hown hop (by decide)).trans (congrArg _ (bindAsid_eq hfree)), hs, ?_⟩
  rw [State.desc, hs.io, hio]
  exact congrArg (Option.getD · 0) (Map.find_put_self _ _ _)

theorem AtUnit.setRing_sets {x : Context} (hop : r.ownsetOp = 8) (hx : s.io.ctxs.find r.ownsetCtx = some x)
    (hreqs : s.reqs = [(n, r)]) : ∃ u, exec (.bankRequestArrival n) s = .next u ∧ Says s (s.ringSet r r.ownsetCtx) u n r 0 ∧
      u.io.ctxs.find r.ownsetCtx = some { x with writing := false, ring := some (r.ring (s.context r.ctx).key) } ∧
      coming u s.cyc (.faultRecordWrite r.ownsetCtx) := by
  have hs := hr.says (w := s.ringSet r r.ownsetCtx) ⟨rfl, rfl, rfl⟩ 0
  have hsets : s.ownsetOwn n r 8 = _ := setRing_eq hr hreqs (ringOf_of_ok hok (.inl hop))
  exact ⟨_, (hr.ownset_runs hc hok hown hop (by decide)).trans (congrArg _ hsets), hs,
    (congrArg (fun io => io.ctxs.find r.ownsetCtx) hs.io).trans
      (State.upCtx_find (fun x => { x with ring := some (r.ring (s.context r.ctx).key), writing := false }) hx),
    hs.agenda _ _ (State.post_coming _ _ _)⟩

theorem AtUnit.setInbox_sets {k : Kernel} (hop : r.ownsetOp = 9) (hctx : r.ownsetCtx = r.ctx)
    (hk : s.io.kernels.find (s.kernOf r.ctx) = some k) (hreqs : s.reqs = [(n, r)]) :
    ∃ u, exec (.bankRequestArrival n) s = .next u ∧ Says s (s.inboxSet r) u n r 0 ∧
      u.io.kernels.find (s.kernOf r.ctx) = some { k with writing := false, inbox := some (r.ring (s.context r.ctx).key) } ∧
      coming u s.cyc (.noticeWrite (s.kernOf r.ctx)) := by
  have hs := hr.says (w := s.inboxSet r) ⟨rfl, rfl, rfl⟩ 0
  have hsets : s.ownsetOwn n r 9 = (s.inboxSet r).unitSays n 0 := by
    rw [← setInbox_eq hr hreqs (ringOf_of_ok hok (.inr hop)), ← hctx]
    rfl
  exact ⟨_, (hr.ownset_runs hc hok hown hop (by decide)).trans (congrArg _ hsets), hs,
    (congrArg (fun io => io.kernels.find (s.kernOf r.ctx)) hs.io).trans ((Map.find_adjust_self _ _ _).trans
      (congrArg (Option.map fun x : Kernel => { x with inbox := some (r.ring (s.context r.ctx).key), writing := false }) hk)),
    hs.agenda _ _ (State.post_coming _ _ _)⟩

theorem AtUnit.setInbox_refuses (hop : r.ownsetOp = 9) (hctx : r.ownsetCtx ≠ r.ctx) :
    exec (.bankRequestArrival n) s = .next (s.unitSays n (-4)) :=
  (hr.ownset_runs hc hok hown hop (by decide)).trans (congrArg _ (setInbox_other hctx (ringOf_of_ok hok (.inr hop))))

end
end
end

theorem AtBlock.answers (hb : AtBlock s n r) {v : Int} (hexec : exec (.bankRequestArrival n) s = .next (s.unitSays n v)) :
    ∃ u r', exec (.bankRequestArrival n) s = .next u ∧ u.reqs.find n = some r' ∧ r'.stage = .served ∧
      r'.ans = [BitVec.ofInt 64 v] ∧ u.mem = s.mem ∧ u.cores = s.cores := by
  obtain ⟨r', hfind, hst, hans⟩ := (hb.says v).request
  exact ⟨_, r', hexec, hfind, hst, hans, (hb.says v).mem, (hb.says v).cores⟩

/-- Settles O56: PARTSET's and OWNSET's cases each end in an answer (`AtUnit.says`, `AtUnit.judged`); DRAIN's are
`execDrainLimitExpiry_runs`'s, and EVICT and RESTORE act on their block (`AtBlock`). -/
theorem partitionsAreSetAndDrainsEnd : Obligations.PartitionsAreSetAndDrainsEnd := by
  unfold Obligations.PartitionsAreSetAndDrainsEnd
  refine ⟨fun s n r hn hst hop hu => ?_, fun s n d q hd hq => ?_, fun s n r hn hst hop hu hthere hadm hwhole hheld => ?_⟩
  · have hr : AtUnit s n r := ⟨hn, hst, hop, hu⟩
    have hsays (v : Int) := hr.says .refl v
    have hjudged (c o : Nat) (v : Int) := hr.judged .refl c o v
    refine ⟨fun hc hbad => ?_, fun x hc ha hw hown hx hbar => ?_, fun hc ha hw hown => ?_,
      fun x hc ha hw hown hx hapart hpos hmask hbanks hdies hcores => ?_, fun hc hbad hne => ?_, fun hc hbad heq => ?_,
      fun hc hok hne hown => ?_, fun c k hc hop1 hok hgrant hfree hkid hrng => ?_, fun k hc hop4 hok hown hkid hrng => ?_,
      fun hc hop6 hok hown hfree => ?_, fun x hc hop8 hok hown hx hreqs => ?_,
      fun k hc hop9 hok hown hctx hk hreqs => ?_, fun hc hop9 hok hown hctx => ?_⟩
    · exact ⟨_, hr.partset hc (partset_malformed hbad), (hjudged _ _ _).answers, (hjudged _ _ _).io⟩
    · exact ⟨_, hr.partset_refuses hc ⟨ha, hw⟩ hown hx (partBarred_of hbar), (hjudged _ _ _).answers, (hjudged _ _ _).io⟩
    · exact ⟨_, hr.partset hc (partset_foreign ⟨ha, hw⟩ hown), (hsays _).answers, (hsays _).io⟩
    · have hfree : partBarred s r x.parts = false :=
        not_partBarred hapart (PartOk.weight ⟨ha, hw⟩ hpos) (fun h0 => hmask (BitVec.eq_of_toNat_eq h0)) hbanks
      obtain ⟨u, m, hexec, hs, hfind⟩ := hr.partset_sets hc ⟨ha, hw⟩ hown hx hfree hdies hcores
      exact ⟨u, _, hexec, hs.answers, hfind, Map.find_put_self _ _ _, rfl, rfl⟩
    · exact ⟨_, hr.ownset hc ((ownset_malformed hbad).trans (if_neg hne)), (hjudged _ _ _).answers, (hjudged _ _ _).io⟩
    · exact ⟨_, hr.ownset hc ((ownset_malformed hbad).trans (if_pos heq)), (hsays _).answers, (hsays _).io⟩
    · exact ⟨_, hr.ownset hc (ownset_foreign hok hne hown), (hsays _).answers, (hsays _).io⟩
    · obtain ⟨u, m, hexec, hs, hfind⟩ := hr.create_makes hc hok hop1 hgrant hfree hkid hrng
      exact ⟨u, _, hexec, hs.answers, hfind, rfl, rfl, rfl, congrArg IoDie.draws hs.io, hs.io ▸ rfl⟩
    · obtain ⟨u, hexec, hs, hkids, hdraws⟩ := hr.bindKey_binds hc hok hown hop4 hkid hrng
      exact ⟨u, hexec, hs.answers, hkids, hdraws⟩
    · obtain ⟨u, hexec, hs, hdesc⟩ := hr.bindAsid_binds hc hok hown hop6 hfree
      exact ⟨u, hexec, hs.answers, hdesc⟩
    · obtain ⟨u, hexec, hs, hfind, hcoming⟩ := hr.setRing_sets hc hok hown hop8 hx hreqs
      exact ⟨u, hexec, hs.answers, hfind, hcoming⟩
    · obtain ⟨u, hexec, hs, hfind, hcoming⟩ := hr.setInbox_sets hc hok hown hop9 hctx hk hreqs
      exact ⟨u, hexec, hs.answers, hfind, hcoming⟩
    · exact ⟨_, hr.setInbox_refuses hc hok hown hop9 hctx, (hsays _).answers, (hsays _).io⟩
  · rw [execDrainLimitExpiry_runs hd hq]
    refine ⟨fun hheld hdone => ?_, fun hheld hleft hwaits => ?_, fun hheld => if_pos hheld⟩
    · rw [hheld, hdone]
      rfl
    · rw [hheld, hleft]
      exact if_pos hwaits
  · have hb : AtBlock s n r := ⟨hn, hst, hop, hu, hthere, hadm, hwhole, hheld⟩
    refine ⟨fun hevict hnone => ?_, fun th hevict hth hlow hkern hfault hmatrix => ?_,
      fun hrestore hpoison hfixed hcore => hb.answers (hb.restore_refuses hrestore hpoison hfixed hcore)⟩
    · exact hb.answers ((hb.evicts hevict).trans (congrArg _ (evict_nobody hnone)))
    · have hnot (why : Park) (resume : Word) (code : Nat) (info epc vx : Word) (held : Option Nat) :
          th.status ≠ .parked why (.fault resume code info epc vx held) := fun hst => by rw [hst] at hfault; exact hfault
      exact hb.answers ((hb.evicts hevict).trans (congrArg _ (evict_refuses hth hlow hkern hnot hmatrix)))

end Sys2Proof.Machine
end

section
/-! PROOFS. A cancel notice in a state that has two requests of one number: the first is withdrawn, which uncovers the second, a
relaxed access that still runs, so that the cancelled thread waits and does not end (`cancelNotice_parks`). -/

namespace Sys2Proof.Machine

/-- A thread of a region, with a relaxed access under number 0. -/
def cancelledThread : Thread := { region := { chain := [0] }, relaxed := [0] }

/-- A load of the thread's own that is withdrawn with it, and the relaxed load, which is not. -/
def awaitedLoad : Req := { tid := some { core := 0, slot := 0, gen := 0 }, op := .load 8 false, use := .reg 1, stage := .translating }

def runningLoad : Req := { op := .load 8 false, use := .relaxed none }

/-- The machine in which `cancelledThread` stands in core 0's first slot, and both loads under number 0. -/
def doubledState : State :=
  { cores := [(0, { owner := 0, slots := [(0, { thread := some cancelledThread })] })]
    reqs := [(0, awaitedLoad), (0, runningLoad)] }

/-- The number of the relaxed access finds the other load, which runs on for no thread. -/
theorem doubledState_quiet : doubledState.quiet cancelledThread = true := rfl

/-- The cancelled thread waits for its relaxed access (R62). -/
theorem cancelNotice_parks : ∃ u, exec (.cancelNotice 0 0) doubledState = .next u ∧
    u.thread 0 0 = some { cancelledThread with status := .parked .mem .ending, outSince := some 0 } := ⟨_, rfl, rfl⟩

/-- Refutes O36: its clause of the cancel notices allows two requests of one number. Where `State.quiet` looks the first up, the
withdrawal of R195 takes it away (`Map.drop`), and the second, a relaxed access that still runs, keeps the thread in its slot. -/
theorem not_viewSlotsStealsAndCancelNotices : ¬ Obligations.ViewSlotsStealsAndCancelNotices := by
  intro h
  obtain ⟨-, -, hcancel⟩ := h
  obtain ⟨u, hexec, hends, -⟩ := hcancel doubledState 0 0
  obtain ⟨u', hexec', hparks⟩ := cancelNotice_parks
  obtain rfl : u' = u := Host.Outcome.next.inj (hexec'.symm.trans hexec)
  have hnone : u'.thread 0 0 = none := hends 0 cancelledThread rfl rfl (by decide) rfl rfl doubledState_quiet
  rw [hparks] at hnone
  cases hnone

end Sys2Proof.Machine
end

section
/-! PROOFS. SPAWN, BLEND and JOIN. A SPAWN that opens no frame comes to `State.spawnRest`, which pushes the continuation and starts
the child (`State.spawnRest_begins`), and a BLEND of a child with nothing to merge to `State.blendRest`, which ends the thread
(`State.blendRest_ends`) or resumes what it last pushed (`State.resumeCont_resumes`). -/

namespace Sys2Proof.Machine

variable {s u : State} {h : Hand} {t : Thread} {i : Tid} {c k : Nat} {r : Req} {d a : Reg} {e : Cont}

/-! ### The thread at hand, by its identifier -/

theorem State.threadOf_tidAt (c k : Nat) : s.threadOf (s.tidAt c k) = s.thread c k := if_pos rfl

theorem begun_threadOf (ht : s.thread h.core h.slot = some t) :
    (begun s h).threadOf (s.tidAt h.core h.slot) = some t.issuing := by
  rw [← begun_tidAt (h := h), State.threadOf_tidAt]
  exact begun_thread_self ht

theorem begun_tid : (cxAt s h t).tid (begun s h) = s.tidAt h.core h.slot := begun_tidAt _ _

theorem begun_warm (hw : warm s h.core t) : warm (begun s h) h.core t.issuing := warm_upThread (s := { s with hand := none }) rfl hw

theorem begun_caddy : ((begun s h).core h.core).caddy = (s.core h.core).caddy := by rw [begun_core_self, Core.upSlot_caddy]

/-- Whether a region's cancel notice has been received depends on the core's context, the notices, the cycle and the memory
alone. -/
theorem State.regionCancelled_congr (howner : (u.core c).owner = (s.core c).owner) (hnotices : u.cancels = s.cancels)
    (hcyc : u.cyc = s.cyc) (hmem : u.mem = s.mem) (g : Region) : u.regionCancelled c g = s.regionCancelled c g := by
  simp only [State.regionCancelled, State.noticed, State.ctxOf, howner, hnotices, hcyc, hmem]

/-! ### The child of a SPAWN (R200, R272) -/

/-- The child of a thread whose task has no frame of its own. -/
def Thread.asChild (t : Thread) : Thread := { t with ended := false, child := true, frames := [], strand := none }

theorem State.beginChild_frameless (f : Nat) (entry : Word) (ht : s.threadOf i = some t) (hown : t.own = none) :
    s.beginChild i f entry = (s.upThread i.core i.slot Thread.asChild).resumeAt i.core i.slot entry := by
  rw [State.beginChild, State.upTid_of_live ht, State.upThread_congr (State.thread_of_threadOf ht) (g := Thread.asChild)]
  simp only [hown]
  rfl

/-- Starting the steal units changes whether they probe, and the agenda, alone. -/
theorem State.startProbes_core (g : Region) (ctx c : Nat) :
    ∃ probing, (s.startProbes g ctx).core c = { s.core c with probing := probing } := by
  unfold State.startProbes
  induction s.coresIn g.cores ctx generalizing s with
  | nil => exact ⟨_, rfl⟩
  | cons c' l ih =>
    rw [List.foldl_cons]
    split
    · exact ih
    · obtain ⟨_, hrest⟩ := ih (s := (s.upCore c' fun x => { x with probing := true }).after 32 20 (.stealProbe c'))
      rw [hrest, State.after, State.post_core, State.upCore_core]
      split
      · next hc => rw [hc]; exact ⟨_, rfl⟩
      · exact ⟨_, rfl⟩

/-- The continuations of a caddy, but for what a thread has there that is not written. -/
def Core.standing (x : Core) (i : Tid) : List Cont := x.caddy.filter fun e => e.written || e.pusher != i

/-- A thread pushes a continuation (R200). -/
def State.pushes (s : State) (i : Tid) (e : Cont) : State :=
  (s.upCore i.core fun x => { x with caddy := x.standing i }).upCore i.core fun x => { x with caddy := x.caddy ++ [e] }

theorem State.pushes_core (i : Tid) (e : Cont) :
    (s.pushes i e).core i.core = { s.core i.core with caddy := (s.core i.core).standing i ++ [e] } := by
  rw [State.pushes, State.upCore_core_self, State.upCore_core_self]

/-- The continuation that SPAWN's request names, of a thread without frames. -/
def pushedBy (s : State) (r : Req) (i : Tid) (t : Thread) : Cont :=
  contOf t i r.npc (r.args.getD 3 0) (r.args.getD 4 0).toNat (s.accessIds i) none

/-- The state in which SPAWN has pushed the continuation, and the steal units of its region probe. -/
def State.offers (s : State) (r : Req) (i : Tid) (t : Thread) : State :=
  (s.pushes i (pushedBy s r i t)).startProbes t.region ((s.pushes i (pushedBy s r i t)).ctxOf i.core)

theorem State.offers_core : ∃ probing, (s.offers r i t).core i.core =
    { s.core i.core with caddy := (s.core i.core).standing i ++ [pushedBy s r i t], probing := probing } := by
  obtain ⟨probing, hprobes⟩ := (s.pushes i (pushedBy s r i t)).startProbes_core t.region
    ((s.pushes i (pushedBy s r i t)).ctxOf i.core) i.core
  rw [State.pushes_core] at hprobes
  exact ⟨probing, hprobes⟩

theorem State.spawnRest_pushes (ht : s.threadOf i = some t)
    (hroom : (((s.core i.core).standing i).filter fun e => e.inlined.isNone).length < 64) :
    s.spawnRest r i = (s.offers r i t).beginChild i (r.args.getD 1 0).toNat (r.args.getD 2 0) := by
  have hroom' : (((s.upCore i.core fun x => { x with caddy := x.standing i }).core i.core).caddy.filter fun e =>
      e.inlined.isNone).length < 64 := by
    rw [State.upCore_core_self]
    exact hroom
  simp only [State.spawnRest, ht]
  exact if_pos hroom'

/-- With room in the caddy the continuation is pushed, and the thread goes on at the entry as the child. -/
theorem State.spawnRest_begins (ht : s.threadOf i = some t) (hown : t.own = none) (hw : warm s i.core t)
    (hroom : (((s.core i.core).standing i).filter fun e => e.inlined.isNone).length < 64) :
    (s.spawnRest r i).thread i.core i.slot = some ({ t.asChild with pc := r.args.getD 2 0 } : Thread).entered ∧
    ((s.spawnRest r i).core i.core).regs = (s.core i.core).regs ∧
    ((s.spawnRest r i).core i.core).caddy = (s.core i.core).standing i ++ [pushedBy s r i t] := by
  obtain ⟨_, hoffers⟩ := State.offers_core (s := s) (r := r) (i := i) (t := t)
  have hlive : (s.offers r i t).threadOf i = some t := by
    rw [← ht, State.threadOf, hoffers]
    rfl
  have hchild : ((s.offers r i t).upThread i.core i.slot Thread.asChild).thread i.core i.slot = some t.asChild := by
    rw [State.upThread_thread_self, State.thread_of_threadOf hlive]
    rfl
  have hwarm : warm ((s.offers r i t).upThread i.core i.slot Thread.asChild) i.core t.asChild := by
    refine warm_upThread (t := t) rfl ?_
    rw [warm, hoffers]
    exact hw
  obtain ⟨_, _, _, hcore⟩ := State.resumeAt_core (r.args.getD 2 0) hchild hwarm
  rw [State.spawnRest_pushes ht hroom, State.beginChild_frameless _ _ hlive hown, hcore, State.upThread_core_self, hoffers]
  exact ⟨State.resumeAt_thread _ hchild hwarm, rfl, rfl⟩

/-! ### SPAWN (R272) -/

/-- SPAWN's operands, as its request carries them. -/
def spawnArgs (s : State) (h : Hand) (t : Thread) (d a : Reg) : List Word :=
  [regOf s h t a, regOf s h t d, BitVec.ofNat 64 (rn d)]

theorem execSpawn_traps (hi : Issues s (smallKind [d, a]) h t) (hodd : (regOf s h t a).getLsbD 0 = true) :
    exec (.spawn d a) s = .next ((begun s h).trap h.core h.slot 0x02 (regOf s h t a) t.pc 0 false) := by
  change execSpawn d a s = _
  rw [execSpawn, issue_runs hi]
  simp only [begun_regOf, hodd]
  rfl

theorem execSpawn_cancelled (hi : Issues s (smallKind [d, a]) h t) (heven : (regOf s h t a).getLsbD 0 = false)
    (hcut : (begun s h).regionCancelled h.core t.region = true) :
    exec (.spawn d a) s = .next ((begun s h).cancelThread h.core h.slot) := by
  have hcut : (begun s h).regionCancelled (cxAt s h t).core (cxAt s h t).th.region = true := hcut
  change execSpawn d a s = _
  rw [execSpawn, issue_runs hi]
  simp only [begun_regOf, heven, hcut]
  rfl

section
variable (hi : Issues s (smallKind [d, a]) h t) (heven : (regOf s h t a).getLsbD 0 = false)
  (hlive : (begun s h).regionCancelled h.core t.region = false) (hended : t.ended = false)
include hi heven hlive hended

theorem execSpawn_frameless (hown : t.own = none) (hstrand : t.strand = none) :
    exec (.spawn d a) s = .next ((begun s h).spawnRest
      ((cxOf h t).jobReq (begun s h) .spawn 0 (spawnArgs s h t d a)) (s.tidAt h.core h.slot)) := by
  have hlive : (begun s h).regionCancelled (cxAt s h t).core (cxAt s h t).th.region = false := hlive
  have hended : (cxAt s h t).th.ended = false := hended
  have hsees : (begun s h).seesSlot (cxAt s h t).th = false := by
    rw [State.seesSlot, show (cxAt s h t).th.strand = none from hstrand]
  have hthread : (begun s h).thread (cxAt s h t).core (cxAt s h t).slot = some t.issuing := begun_thread_self hi.live
  have hown' : t.issuing.own = none := hown
  change execSpawn d a s = _
  rw [execSpawn, issue_runs hi]
  simp only [begun_regOf, heven, hlive, hended, hsees, Bool.and_false, Bool.false_eq_true, if_false, hthread, hown', begun_tid]
  rfl

theorem execSpawn_merges {f n : Nat} (hown : t.own = some f) (hstrand : t.strand = some (f, n)) :
    exec (.spawn d a) s =
      let b := ((begun s h).addStrands f n).endStrand h.core h.slot
      .next (b.merges ((cxOf h t).jobReq b .spawn f (spawnArgs s h t d a)) ((cxOf h t).tid b) f) := by
  have hlive : (begun s h).regionCancelled (cxAt s h t).core (cxAt s h t).th.region = false := hlive
  have hended : (cxAt s h t).th.ended = false := hended
  have hown0 : (cxAt s h t).th.own.isNone = false := by rw [show (cxAt s h t).th.own = some f from hown]; rfl
  have hthread : (begun s h).thread (cxAt s h t).core (cxAt s h t).slot = some t.issuing := begun_thread_self hi.live
  have hown' : t.issuing.own = some f := hown
  have hstrand' : t.issuing.strand = some (f, n) := hstrand
  change execSpawn d a s = _
  rw [execSpawn, issue_runs hi]
  simp only [begun_regOf, heven, hlive, hended, hown0, Bool.false_and, Bool.false_eq_true, if_false, hthread, hown', hstrand']
  rfl

end

/-! ### BLEND (R200, R275) -/

/-- A thread whose strand has ended. -/
def Thread.past (t : Thread) : Thread := { t with ended := true }

/-- The state in which a BLEND has ended the strand of a child that has none. -/
def blending (s : State) (h : Hand) : State := (begun s h).upThread h.core h.slot Thread.past

theorem blending_threadOf (ht : s.thread h.core h.slot = some t) :
    (blending s h).threadOf (s.tidAt h.core h.slot) = some t.issuing.past :=
  (State.upThread_threadOf (s.tidAt h.core h.slot) _).trans (congrArg _ (begun_threadOf ht))

theorem blending_caddy : ((blending s h).core h.core).caddy = (s.core h.core).caddy := by
  rw [blending, State.upThread_core_self, Core.upSlot_caddy, begun_caddy]

theorem blending_doors : ((blending s h).core h.core).doors = (s.core h.core).doors := by
  rw [blending, State.upThread_doors, begun_core_self, Core.upSlot_doors]

theorem blending_regionCancelled {g : Region} :
    (blending s h).regionCancelled h.core g = (begun s h).regionCancelled h.core g := by
  refine State.regionCancelled_congr (u := blending s h) (s := begun s h) ?_ rfl rfl rfl g
  rw [blending, State.upThread_core_self, Core.upSlot_owner]

theorem blending_tidAt (c k : Nat) : (blending s h).tidAt c k = s.tidAt c k := by
  rw [blending, State.upThread_tidAt, begun_tidAt]

theorem blending_warm (hw : warm s h.core t) : warm (blending s h) h.core t.issuing.past :=
  warm_upThread rfl (begun_warm hw)

theorem State.closeFrame_frameless (ht : s.thread c k = some t) (hown : t.own = none) : s.closeFrame c k = s := by
  simp only [State.closeFrame, ht, Option.bind_some, hown]

theorem State.endStrand_strandless (ht : s.thread c k = some t) (hstrand : t.strand = none) :
    s.endStrand c k = s.upThread c k Thread.past := by
  simp only [State.endStrand, ht, hstrand]
  rfl

theorem State.spawnedIn_none : s.spawnedIn none = false := rfl

/-- BLEND of a child without frames, whose accesses have completed. -/
theorem execBlend_runs (hi : Issues s { big := false } h t) (hchild : t.child = true) (hended : t.ended = false)
    (hown : t.own = none) (hstrand : t.strand = none) (hlive : (begun s h).regionCancelled h.core t.region = false)
    (hdone : (begun s h).accessesDone (s.tidAt h.core h.slot) t = true) :
    exec .blend s = .next ((blending s h).blendRest ((cxOf h t).jobReq (blending s h) .blend 0 []) (s.tidAt h.core h.slot)) := by
  have hlive : (begun s h).regionCancelled (cxAt s h t).core (cxAt s h t).th.region = false := hlive
  have hbegun := begun_thread_self hi.live
  have hthread : (blending s h).thread (cxAt s h t).core (cxAt s h t).slot = some t.issuing.past :=
    State.thread_of_threadOf (blending_threadOf hi.live)
  have hstate : ((begun s h).closeFrame (cxAt s h t).core (cxAt s h t).slot).endStrand (cxAt s h t).core (cxAt s h t).slot =
      blending s h := by
    change ((begun s h).closeFrame h.core h.slot).endStrand h.core h.slot = _
    rw [State.closeFrame_frameless hbegun hown, State.endStrand_strandless hbegun hstrand]
    rfl
  have htid : (cxAt s h t).tid (blending s h) = s.tidAt h.core h.slot := blending_tidAt _ _
  have hpast : t.issuing.past.strand = none := hstrand
  have hth : (cxAt s h t).th = t := rfl
  change execBlend s = _
  rw [execBlend, issue_runs hi]
  simp only [hth] at hlive ⊢
  simp only [hchild, hended, hown, State.spawnedIn_none, hlive, begun_tid, hdone, Bool.not_true, Bool.not_false, Bool.and_false,
    Bool.false_eq_true, if_false, hstate, hthread, Option.bind_some, hpast, htid]
  rfl

theorem State.endThread_of_live (ht : s.thread c k = some t) : s.endThread c k = (s.dropFrames t.frames).leave c k := by
  simp only [State.endThread, ht]

theorem State.endThread_gen (ht : s.thread c k = some t) :
    ((s.endThread c k).tidAt c k).gen = ((s.tidAt c k).gen + 1) % 256 := by
  rw [State.endThread_of_live ht]
  exact State.leave_gen (s := s.dropFrames t.frames) ht

theorem State.endThread_thread (ht : s.thread c k = some t) (hd : (s.core c).doors = []) :
    (s.endThread c k).thread c k = none := by
  rw [State.endThread_of_live ht]
  exact State.leave_thread (s := s.dropFrames t.frames) ht hd

/-- With no continuation of its own in the caddy, and nothing to report, the child ends (R275). -/
theorem State.blendRest_ends (ht : s.threadOf i = some t) (hlast : (s.core i.core).lastPushed i = none)
    (hdue : t.deferred.find? (dueAt (lateKind .ends)) = none) :
    ((s.core i.core).doors = [] → (s.blendRest r i).thread i.core i.slot = none) ∧
    ((s.blendRest r i).tidAt i.core i.slot).gen = ((s.tidAt i.core i.slot).gen + 1) % 256 := by
  have hends : s.blendRest r i = (s.upThread i.core i.slot fun th => { th with child := false }).endThread i.core i.slot := by
    simp only [State.blendRest, hlast, ht, Option.bind_some, hdue]
  have hthread : (s.upThread i.core i.slot fun th => { th with child := false }).thread i.core i.slot =
      some { t with child := false } := by
    rw [State.upThread_thread_self, State.thread_of_threadOf ht]
    rfl
  rw [hends]
  refine ⟨fun hd => State.endThread_thread hthread ?_, (State.endThread_gen hthread).trans ?_⟩
  · rw [State.upThread_doors, hd]
  · rw [State.upThread_tidAt]

/-- A thread that goes on with a continuation (R200). -/
def Thread.continuing (t : Thread) (e : Cont) : Thread :=
  { t with vec := e.vec, epc := 0, cause := 0, info := 0, lvl := false, vx := 0, fmt := e.fmt, sa := e.sa, sb := e.sb,
           band := e.band, rcb := e.rcb, asid := e.asid, strand := e.strand, frames := e.frames, child := e.child,
           ended := false, lastArr := none, restart := none }

/-- The state in which a thread's slot has been given to a continuation: its windows are zeroed, and the recorded registers
hold. -/
def State.hands (s : State) (c k : Nat) (t : Thread) (e : Cont) : State :=
  (s.upCore c fun x => x.zeroWin t.win).upThread c k fun t => t.continuing e

theorem State.hands_core : ∃ slots, (s.hands c k t e).core c = { (s.core c).zeroWin t.win with slots := slots } := by
  obtain ⟨slots, hcore⟩ := (s.upCore c fun x => x.zeroWin t.win).upThread_core c k (fun t => t.continuing e) c
  rw [State.upCore_core_self] at hcore
  exact ⟨slots, hcore⟩

theorem State.hands_thread (ht : s.thread c k = some t) : (s.hands c k t e).thread c k = some (t.continuing e) := by
  rw [State.hands, State.upThread_thread_self, State.upCore_thread (f := fun x => x.zeroWin t.win) fun _ => rfl, ht]
  rfl

theorem State.resumeCont_eq (ht : s.thread c k = some t) (hlive : s.regionCancelled c e.region = false) :
    s.resumeCont c k e = ((s.hands c k t e).setW c k e.reg e.word).resumeAt c k e.pc := by
  simp only [State.resumeCont, ht, hlive]
  rfl

theorem Core.zeroWin_regW (x : Core) (t : Thread) {n : Nat} (hn : n < 8 * wSize t.win) : (x.zeroWin t.win).regW t n = 0 := by
  have habsent : (x.zeroWin t.win).regs.find (8 * wBase t.win + n) = none :=
    Map.find_dropRange _ (Nat.le_add_right _ n) (Nat.add_lt_add_left hn _)
  rw [Core.regW, habsent]
  exact ite_self 0

/-- A continuation that is resumed in a warm thread's slot finds the window zeroed but for its word. -/
theorem State.resumeCont_resumes (ht : s.thread c k = some t) (hlive : s.regionCancelled c e.region = false) (hw : warm s c t) :
    (s.resumeCont c k e).thread c k = some ({ t.continuing e with pc := e.pc } : Thread).entered ∧
    (∀ n, n < 8 * wSize t.win → ((s.resumeCont c k e).core c).regW ({ t.continuing e with pc := e.pc } : Thread).entered n =
      if n ≠ 0 ∧ n = e.reg then e.word else 0) ∧
    ((s.resumeCont c k e).core c).caddy = (s.core c).caddy := by
  obtain ⟨_, hhands⟩ := State.hands_core (s := s) (c := c) (k := k) (t := t) (e := e)
  have hgiven := State.hands_thread (e := e) ht
  have hthread : ((s.hands c k t e).setW c k e.reg e.word).thread c k = some (t.continuing e) := by
    rw [State.setW_thread, hgiven]
  have hwarm : warm ((s.hands c k t e).setW c k e.reg e.word) c (t.continuing e) := by
    refine State.setW_warm ?_
    rw [warm, hhands]
    exact hw
  rw [State.resumeCont_eq ht hlive]
  refine ⟨State.resumeAt_thread _ hthread hwarm, fun n hn => ?_, ?_⟩
  · rw [State.resumeAt_regW _ _ hthread hwarm]
    have hold : ((s.hands c k t e).core c).regW (t.continuing e) n = 0 := by
      rw [← (s.core c).zeroWin_regW t hn, hhands]
      rfl
    by_cases hreg : n = e.reg
    · rw [hreg, State.setW_regW _ _ hgiven]
      by_cases h0 : e.reg = 0 <;> simp [h0]
    · rw [State.setW_regW_other _ hreg hgiven, hold, if_neg fun hboth => hreg hboth.2]
  · obtain ⟨_, _, _, hcore⟩ := State.resumeAt_core e.pc hthread hwarm
    obtain ⟨_, hset⟩ := (s.hands c k t e).setW_core c k e.reg e.word c
    rw [hcore, hset, hhands]
    rfl

/-- The last continuation that the child's thread pushed is taken from the caddy and resumed (R275). -/
theorem State.blendRest_resumes (ht : s.threadOf i = some t) (hlast : (s.core i.core).lastPushed i = some e)
    (hplain : e.inlined = none) (hlive : s.regionCancelled i.core e.region = false) (hw : warm s i.core t) :
    (s.blendRest r i).thread i.core i.slot = some ({ t.continuing e with pc := e.pc } : Thread).entered ∧
    (∀ n, n < 8 * wSize t.win → ((s.blendRest r i).core i.core).regW ({ t.continuing e with pc := e.pc } : Thread).entered n =
      if n ≠ 0 ∧ n = e.reg then e.word else 0) ∧
    ((s.blendRest r i).core i.core).caddy = (s.core i.core).caddy.erase e := by
  have hresumes : s.blendRest r i = (s.dropCont i.core e).resumeCont i.core i.slot e := by
    simp only [State.blendRest, hlast, hplain]
  have hcore : (s.dropCont i.core e).core i.core = { s.core i.core with caddy := (s.core i.core).caddy.erase e } :=
    State.upCore_core_self _ _ _
  have hthread : (s.dropCont i.core e).thread i.core i.slot = some t := by
    rw [← State.thread_of_threadOf ht, State.thread, hcore]
    rfl
  have hlive' : (s.dropCont i.core e).regionCancelled i.core e.region = false := by
    have howner : ((s.dropCont i.core e).core i.core).owner = (s.core i.core).owner := by rw [hcore]
    rw [State.regionCancelled_congr (u := s.dropCont i.core e) howner rfl rfl rfl, hlive]
  have hwarm : warm (s.dropCont i.core e) i.core t := by
    rw [warm, hcore]
    exact hw
  obtain ⟨hgoes, hwindow, hcaddy⟩ := State.resumeCont_resumes hthread hlive' hwarm
  rw [hresumes]
  exact ⟨hgoes, hwindow, hcaddy.trans (congrArg Core.caddy hcore)⟩

theorem Core.lastPushed_congr {x y : Core} (hcaddy : x.caddy = y.caddy) (i : Tid) : x.lastPushed i = y.lastPushed i := by
  rw [Core.lastPushed, hcaddy]
  rfl

/-! ### JOIN (R276) -/

theorem execJoin_childless (hi : Issues s { big := false } h t) (hlive : (begun s h).regionCancelled h.core t.region = false)
    (hnone : t.own = none ∨ (begun s h).spawnedIn t.own = false) :
    exec .join s = .next (goesTo s h (stepPc t.pc h.len)) := by
  have hlive : (begun s h).regionCancelled (cxAt s h t).core (cxAt s h t).th.region = false := hlive
  change execJoin s = _
  rw [execJoin, issue_runs hi]
  cases hown : (cxAt s h t).th.own with
  | none =>
    simp only [hlive]
    rfl
  | some f =>
    have hsome : t.own = some f := hown
    have hspawned : (begun s h).spawnedIn (some f) = false := by
      rw [← hsome]
      exact hnone.resolve_left (by rw [hsome]; exact Option.some_ne_none f)
    simp only [hlive, hspawned]
    rfl

/-! ### The obligation -/

/-- Settles O35: SPAWN's cases are read off its checks, and its push is `State.spawnRest_begins`; BLEND's two ends are
`State.blendRest_ends` and `State.blendRest_resumes`; JOIN without children goes on at once. -/
theorem spawnedTasksBlendAndJoin : Obligations.SpawnedTasksBlendAndJoin := by
  unfold Obligations.SpawnedTasksBlendAndJoin
  refine ⟨⟨fun s h t d a hi => ⟨execSpawn_traps hi, execSpawn_cancelled hi, ?_⟩, fun s h t d a f n hi => ?_⟩,
    fun s h t hi => ?_, fun s h t hi => execJoin_childless hi⟩
  · intro heven hlive hended hframes hstrand hw old hroom
    have htid : (cxOf h t).tid (begun s h) = s.tidAt h.core h.slot := begun_tidAt _ _
    have hown : t.own = none := congrArg List.head? hframes
    have hold : ((begun s h).core h.core).standing (s.tidAt h.core h.slot) = old := by
      rw [← htid, Core.standing, begun_caddy]
    rw [← hold] at hroom
    obtain ⟨hthread, hregs, hcaddy⟩ := State.spawnRest_begins
      (r := (cxOf h t).jobReq (begun s h) .spawn 0 (spawnArgs s h t d a)) (begun_threadOf hi.live) hown (begun_warm hw) hroom
    refine ⟨_, _, _, execSpawn_frameless hi heven hlive hended hown hstrand, hthread, rfl, rfl, rfl, rfl,
      hregs.trans (begun_core_regs _), hcaddy.trans (congrArg (· ++ _) hold), rfl, ?_, rfl, rfl, rfl, rfl, rfl, rfl, rfl, rfl,
      rfl, rfl, State.spawnRest_mem _ _⟩
    exact (BitVec.toNat_ofNat ..).trans (Nat.mod_eq_of_lt (Nat.lt_trans d.isLt (by decide)))
  · intro b heven hlive hended hown hstrand
    exact execSpawn_merges hi heven hlive hended hown hstrand
  · intro b hchild hended hframes hstrand hlive hdone hw
    have htid : (cxOf h t).tid b = s.tidAt h.core h.slot := begun_tidAt _ _
    rw [htid] at hdone ⊢
    have hruns := execBlend_runs hi hchild hended (congrArg List.head? hframes) hstrand hlive hdone
    have hlast := Core.lastPushed_congr (blending_caddy (s := s) (h := h)) (s.tidAt h.core h.slot)
    refine ⟨fun hnone hdue => ?_, fun e hsome hplain helive => ?_⟩
    · obtain ⟨hthread, hgen⟩ := State.blendRest_ends (r := (cxOf h t).jobReq (blending s h) .blend 0 [])
        (blending_threadOf hi.live) (hlast.trans hnone) hdue
      rw [blending_tidAt] at hgen
      exact ⟨_, hruns, fun hd => hthread (blending_doors.trans hd), hgen⟩
    · obtain ⟨hthread, hwindow, hcaddy⟩ := State.blendRest_resumes (r := (cxOf h t).jobReq (blending s h) .blend 0 [])
        (blending_threadOf hi.live) (hlast.trans hsome) hplain (blending_regionCancelled.trans helive) (blending_warm hw)
      exact ⟨_, _, hruns, hthread, rfl, rfl, rfl, rfl, rfl, rfl, rfl, hwindow,
        hcaddy.trans (congrArg (·.erase e) blending_caddy)⟩

end Sys2Proof.Machine
end

section
/-! PROOFS. The agenda. Every event of the machine answers a next state (`exec_completes`): an event's meaning is a tree of
cases whose leaves answer one, but for the check of a promise, which is an access (`Cx.access_completes`). A step without a slot at
hand runs the agenda's first event. -/

namespace Sys2Proof.Machine

/-! ### Outcomes that go on -/

/-- An outcome that goes on to a next state. -/
def Completes (o : Out) : Prop := ∃ u, o = .next u

theorem completes_next (u : State) : Completes (.next u) := ⟨u, rfl⟩

theorem completes_ite {p : Prop} [Decidable p] {o o' : Out} (h : Completes o) (h' : Completes o') :
    Completes (if p then o else o') := by
  split
  · exact h
  · exact h'

theorem Cx.deliver_completes (x : Cx) (s : State) (d : Deferred) : Completes (x.deliver s d) := by
  unfold Cx.deliver
  dsimp only
  split <;> exact completes_next _

theorem Cx.meets_completes (x : Cx) (s : State) (code : Nat) (info : Word) : Completes (x.meets s code info) := by
  unfold Cx.meets
  split <;> exact completes_next _

theorem Cx.releasing_completes (x : Cx) (s : State) (m : Mod) {body : State → Out} (hb : ∀ u, Completes (body u)) (far : Bool) :
    Completes (x.releasing s m body far) := by
  unfold Cx.releasing
  dsimp only
  split
  · exact hb _
  · split
    · exact hb _
    · exact completes_next _

/-- An access is sent, or raises an event, or waits. -/
theorem Cx.accessAt_completes (x : Cx) (s : State) (p : Word) (q : Ask) : Completes (x.accessAt s p q) := by
  unfold Cx.accessAt
  split
  · exact x.deliver_completes _ _
  split
  · exact completes_next _
  split
  · exact completes_next _
  split
  · exact completes_next _
  extract_lets t go
  split
  · exact completes_next _
  split
  · exact completes_next _
  refine x.releasing_completes _ _ (fun u => ?_) _
  split
  · exact completes_next _
  split
  case h_5 => exact x.meets_completes _ _ _
  all_goals exact completes_next _

theorem Cx.access_completes (x : Cx) (s : State) (base : Word) (delta : Int) (q : Ask) : Completes (x.access s base delta q) := by
  unfold Cx.access
  split
  · exact completes_next _
  · exact x.accessAt_completes _ _ _

/-! ### Every event completes (spec/95) -/

theorem execWaitpTimeReached_completes (t : Tid) (s : State) : Completes (execWaitpTimeReached t s) := by
  unfold execWaitpTimeReached
  split
  · split
    · split
      · exact completes_next _
      · exact Cx.access_completes _ _ _ _ _
    · exact completes_next _
  · exact completes_next _

theorem execHoldWriteBack_completes (r : Nat) (s : State) : Completes (execHoldWriteBack r s) := by
  unfold execHoldWriteBack
  split
  · exact completes_next _
  · rename_i q _
    cases q.op
    case rel | giveBack | turn => exact completes_next _
    all_goals
      refine completes_ite (completes_next _) (completes_ite (completes_next _) (completes_next _))

/-- An event goes on; the other rows of the table come from an issue. -/
theorem exec_completes_or (i : Instr) (s : State) : Completes (exec i s) ∨ isEvent i = false := by
  cases i with
  | waitpTimeReached t => exact .inl (execWaitpTimeReached_completes t s)
  | holdWriteBack r => exact .inl (execHoldWriteBack_completes r s)
  | bankRetention | channelAdmission | ibufLineFill | vectorCommandStart | monitorFire | cancelNotice | launchTableStore
      | controlCounterStore | asidDescriptorStore | controlWindowWrite | orderingPointSend | pcieInboundAtomicop | hotReset
      | ringControlStore | ringEntryLaunch | ringEntryFill | ringEntryUnknownKind | apertureStore | membershipViewChange | getVersion
      | getCapabilities | negotiateAlgorithms | getDigests | getCertificate | challenge | getMeasurements | keyExchange | endSession
      | vendorUnknownOpcode | rngHealthFailure | cxlDeviceLost | thermalThrottle | thermalShutdown | farEndCompletion
      | startUpTestsPassed | powerRemoved | pcieConfigurationRequest | ieee1588TimingMessage | heldCoreRelease =>
    exact .inl (completes_next _)
  | dispatch | threadReady | issueRotation | bankRequestArrival | refusedRequestResend | memReply | sleepExpiry
      | mwaitTimeout | yieldExpiry | iflushExpiry | teamBarrierCompletion | barWaitReturn | registerWriteArrival | nputLinkArrival
      | amsgArrival | wakeArrival | migrationArrival | copyCommandStart | engineWriteAck | engineCommandComplete
      | engineFaultInFlight | gatherRequestAccept | vectorResultWrite | matrixArithmeticStart | matrixCommandComplete | ringForward
      | faultEventArrival | faultRecordWrite | stealProbe | launchTableEvaluation | translationFill | keyFill | shootDownArrival
      | shootDownComplete | fotPerform | revocation | noticeWrite | pcieInboundWrite | pcieInboundRead | exrinFlitReceive
      | exrinInboundRequest | collectiveContribution | collectiveTimeout | finish | bind | ringkey | kernelTermination
      | kernelRestart | drainLimitExpiry | powerUp | uncorrectableCoreStateError =>
    left
    dsimp only [exec, execDispatch, execThreadReady, execIssueRotation, execBankRequestArrival, execRefusedRequestResend,
      execMemReply, execSleepExpiry, execMwaitTimeout, execYieldExpiry, execIflushExpiry, execTeamBarrierCompletion,
      execBarWaitReturn, execRegisterWriteArrival, execNputLinkArrival, execAmsgArrival, execWakeArrival, execMigrationArrival,
      execCopyCommandStart, execEngineWriteAck, execEngineCommandComplete, execEngineFaultInFlight, execGatherRequestAccept,
      execVectorResultWrite, execMatrixArithmeticStart, execMatrixCommandComplete, execRingForward, execFaultEventArrival,
      execFaultRecordWrite, execStealProbe, execLaunchTableEvaluation, execTranslationFill, execKeyFill, execShootDownArrival,
      execShootDownComplete, execFotPerform, execRevocation, execNoticeWrite, execPcieInboundWrite, execPcieInboundRead,
      execExrinFlitReceive, execExrinInboundRequest, execCollectiveContribution, execCollectiveTimeout, execFinish, execBind,
      execRingkey, execKernelTermination, execKernelRestart, execDrainLimitExpiry, execPowerUp, execUncorrectableCoreStateError]
    repeat' split
    all_goals exact completes_next _
  | _ => exact .inr rfl

theorem exec_completes (i : Instr) (s : State) (hi : isEvent i = true) : Completes (exec i s) :=
  (exec_completes_or i s).resolve_right (by simp [hi])

/-! ### A step without a slot at hand -/

section
variable {s : State} {e : Due} {rest : List Due}

theorem step_event_due (hh : s.hand = none) (ha : s.agenda = e :: rest) (ht : e.time ≤ s.cyc) :
    step s = exec e.ev { s with agenda := rest } := by
  simp only [step, State.turn, hh, State.eventTurn, ha, if_pos ht]

theorem step_event_passes (hh : s.hand = none) (ha : s.agenda = e :: rest) (ht : s.cyc < e.time) (hq : s.touched = []) :
    step s = exec e.ev { s with agenda := rest, cyc := e.time } := by
  simp only [step, State.turn, hh, State.eventTurn, ha, if_neg (Nat.not_le.2 ht), if_pos hq]

/-- A step takes the first event of the agenda at its cycle, or now where that has passed. -/
theorem step_event (hh : s.hand = none) (ha : s.agenda = e :: rest) (hq : s.cyc < e.time → s.touched = []) :
    step s = exec e.ev { s with agenda := rest, cyc := max s.cyc e.time } := by
  rcases Nat.lt_or_ge s.cyc e.time with ht | ht
  · rw [step_event_passes hh ha ht (hq ht), max_eq_right ht.le]
  · rw [step_event_due hh ha ht, max_eq_left ht]

end

/-- Settles O5: an event's meaning completes in every state (`exec_completes`), and the idle step is `State.eventTurn`. -/
theorem aStepTakesTheFirstComingEvent : Obligations.AStepTakesTheFirstComingEvent := by
  unfold Obligations.AStepTakesTheFirstComingEvent
  refine ⟨fun s i hi => exec_completes i s hi, fun s e rest hh ha =>
    ⟨step_event_due hh ha, step_event_passes hh ha, fun hi hq => ?_⟩⟩
  obtain ⟨u, hu⟩ := exec_completes e.ev { s with agenda := rest, cyc := max s.cyc e.time } hi
  exact ⟨u, (step_event hh ha hq).trans hu, hu⟩

/-! ### Reset (R365) -/

/-- Settles O6: bring-up names both kernels' first threads, and leaves memory and the I/O die's tables empty. -/
theorem resetLeavesTheKernelsReadyAndMemoryCanonical : Obligations.ResetLeavesTheKernelsReadyAndMemoryCanonical := by
  unfold Obligations.ResetLeavesTheKernelsReadyAndMemoryCanonical
  refine ⟨⟨rfl, rfl, fun a => ⟨rfl, ?_⟩, rfl, rfl, rfl, ⟨_, rfl, rfl, rfl, rfl, rfl⟩, ⟨_, rfl, rfl, rfl, rfl, rfl⟩, ?_, ?_⟩,
    State.boot_ok _ _ _⟩
  · exact Bool.or_true _
  · decide
  · decide

end Sys2Proof.Machine
end

section
/-! PROOFS. An answer whose request is marked as the fetch of a line goes to the instruction buffer, and no MEM_REPLY follows it: so it
is with a store to a table and with an XINV where their statements leave the request's use open. -/

namespace Sys2Proof.Machine

/-- A store of zero to the first aperture entry, whose answer is marked as a line of the instruction buffer. -/
def fetchingStore : Req := { op := .store 0, use := .fetch, pa := 0x300001300000 }

/-- The machine whose only request is `fetchingStore`. -/
def storingState : State := { reqs := [(0, fetchingStore)] }

/-- The store of `fetchingStore` is answered by IBUF_LINE_FILL alone. -/
theorem storingState_agenda : (storingState.tableStore 0).agenda = [{ time := 0, rank := 7, ev := .ibufLineFill 0 0 }] := rfl

/-- Refutes O38: the clauses of the stores say nothing about the use of the answer, and where it is `.fetch` the answer goes to the
instruction buffer and no MEM_REPLY follows (`State.reply`). -/
theorem not_tablesAreEvaluatedAndStored : ¬ Obligations.TablesAreEvaluatedAndStored := by
  intro h
  obtain ⟨-, hstores⟩ := h
  obtain ⟨-, -, -, -, -, haperture, -⟩ := hstores storingState 0 fetchingStore 0 rfl rfl
  obtain ⟨u, hexec, -, -, ⟨rank, hdue⟩, -⟩ := haperture 0 (by decide)
  have hu : exec (.apertureStore 0) storingState = .next (storingState.tableStore 0) := rfl
  obtain rfl : storingState.tableStore 0 = u := Host.Outcome.next.inj (hu.symm.trans hexec)
  rw [storingState_agenda] at hdue
  simp at hdue

/-- An XINV's request, whose answer is marked as a line of the instruction buffer. -/
def fetchingXinv : Req := { op := .unit, use := .fetch }

/-- The machine in which the shoot-down of `fetchingXinv` awaits no access. -/
def invalidatingState : State :=
  { reqs := [(0, fetchingXinv)], io := { shoots := [(0, { req := some 0, kind := .xinvPage })] } }

/-- The shoot-down of `fetchingXinv` ends, and is answered by IBUF_LINE_FILL alone. -/
theorem invalidatingState_completes : ∃ u, exec (.shootDownComplete 0) invalidatingState = .next u ∧
    u.agenda = [{ time := 0, rank := 7, ev := .ibufLineFill 0 0 }] := ⟨_, rfl, rfl⟩

/-- Refutes O52: the clause of a shoot-down's end says nothing about the use of the answer, and where it is `.fetch` the answer goes to
the instruction buffer and no MEM_REPLY follows (`State.reply`). -/
theorem not_shootDownsDropTranslations : ¬ Obligations.ShootDownsDropTranslations := by
  intro h
  obtain ⟨-, -, hends⟩ := h
  obtain ⟨hdone, -, -⟩ := hends invalidatingState 0 0 { req := some 0, kind := .xinvPage } fetchingXinv rfl rfl rfl (.inl rfl)
  obtain ⟨u, hexec, -, ⟨rank, hdue⟩, -⟩ := hdone rfl
  obtain ⟨u', hexec', hagenda⟩ := invalidatingState_completes
  obtain rfl : u' = u := Host.Outcome.next.inj (hexec'.symm.trans hexec)
  rw [hagenda] at hdue
  simp at hdue

end Sys2Proof.Machine
end

section
/-! PROOFS. Command rings. An entry is judged by `State.ringJudge`, whose cases are an equation each; a hot reset without requests
under way changes the links and tells the host kernel alone (`State.resetLinks_quiet`), and every ring that ran has
halted (`State.haltRings_state`). -/

namespace Sys2Proof.Machine

variable {s : State} {n : Nat} {perform : State → State}

/-! ### Rings -/

@[simp] theorem State.upRing_ring_self (n : Nat) (f : Ring → Ring) : (s.upRing n f).ring n = f (s.ring n) := by
  simp [State.ring]

@[simp] theorem State.upRing_ring_other {m n : Nat} (f : Ring → Ring) (h : m ≠ n) : (s.upRing n f).ring m = s.ring m := by
  simp [State.ring, h]

@[simp] theorem Ring.word_put_self (g : Ring) (i : Nat) (v : Word) : ({ g with ws := g.ws.put i v } : Ring).word i = v := by
  simp [Ring.word]

/-! ### Entries (R355) -/

theorem State.ringJudge_drops (he : (s.ring n).entry ≠ []) (hd : (s.ring n).due = false)
    (hbad : ((s.ring n).tagOk && (s.ring n).zerosOk) = false) :
    s.ringJudge n perform = ((s.emptySlot n).ringCount n 4 32).ringDone n := by
  have hbad : (!(s.ring n).tagOk || !(s.ring n).zerosOk) = true := by rw [← Bool.not_and, hbad]; rfl
  simp only [State.ringJudge, if_neg he, hd, if_neg Bool.false_ne_true, if_pos hbad]

theorem State.ringJudge_due (he : (s.ring n).entry ≠ []) (hd : (s.ring n).due = true) : s.ringJudge n perform = perform s := by
  simp only [State.ringJudge, if_neg he, if_pos hd]

section
variable (he : (s.ring n).entry ≠ []) (hd : (s.ring n).due = false) (htag : (s.ring n).tagOk = true)
  (hzeros : (s.ring n).zerosOk = true)
include he hd htag hzeros

/-- An entry of a right tag and zero fields is judged by its number. -/
theorem State.ringJudge_numbered : s.ringJudge n perform =
    if (wordOf (s.ring n).entry 0).toNat < ((s.ring n).word 2).toNat then ((s.emptySlot n).ringCount n 4 0).ringDone n
    else if ((s.ring n).word 2).toNat < (wordOf (s.ring n).entry 0).toNat then
      s.upRing n fun g => { g with ws := (g.ws.put 3 2).put 5 (wordOf (s.ring n).entry 0), entry := [] }
    else perform ((s.emptySlot n).upRing n fun g => { g with ws := g.ws.put 2 ((s.ring n).word 2 + 1) }) := by
  have hgood : ¬ (!(s.ring n).tagOk || !(s.ring n).zerosOk) = true := by simp [htag, hzeros]
  simp only [State.ringJudge, if_neg he, hd, if_neg Bool.false_ne_true, if_neg hgood]

theorem State.ringJudge_below (hq : (wordOf (s.ring n).entry 0).toNat < ((s.ring n).word 2).toNat) :
    s.ringJudge n perform = ((s.emptySlot n).ringCount n 4 0).ringDone n := by
  rw [State.ringJudge_numbered he hd htag hzeros, if_pos hq]

theorem State.ringJudge_above (hq : ((s.ring n).word 2).toNat < (wordOf (s.ring n).entry 0).toNat) : s.ringJudge n perform =
    s.upRing n fun g => { g with ws := (g.ws.put 3 2).put 5 (wordOf (s.ring n).entry 0), entry := [] } := by
  rw [State.ringJudge_numbered he hd htag hzeros, if_neg (Nat.lt_asymm hq), if_pos hq]

theorem State.ringJudge_next (hq : wordOf (s.ring n).entry 0 = (s.ring n).word 2) : s.ringJudge n perform =
    perform ((s.emptySlot n).upRing n fun g => { g with ws := g.ws.put 2 (wordOf (s.ring n).entry 0 + 1) }) := by
  rw [State.ringJudge_numbered he hd htag hzeros, hq, if_neg (Nat.lt_irrefl _), if_neg (Nat.lt_irrefl _)]

end

/-- The steps that judge a ring's entry differ in what they make of one that is accepted. -/
theorem exec_ringEntry {i : Instr} (hi : i = .ringEntryLaunch n ∨ i = .ringEntryFill n ∨ i = .ringEntryUnknownKind n) (s : State) :
    ∃ perform, exec i s = .next (s.ringJudge n perform) := by
  rcases hi with rfl | rfl | rfl <;> exact ⟨_, rfl⟩

/-! ### Hot reset (R356) -/

/-- A running ring halts in a hot reset. -/
def State.haltRing (s : State) (n : Nat) : State := (s.ringStop n).upRing n fun g => { g with ws := g.ws.put 3 2 }

/-- The rings of some numbers halt, one after the other. -/
def State.haltRings (s : State) (l : List Nat) : State := l.foldl State.haltRing s

/-- With no request under way a ring that stops gives up its entry alone. -/
theorem State.ringStop_quiet (hr : s.reqs = []) (n : Nat) :
    s.ringStop n = s.upRing n fun g => if g.due then g else { g with entry := [] } := by
  simp only [State.ringStop, State.upRing_reqs, hr, List.foldl_nil]

/-- What a state without requests under way keeps when rings halt. -/
theorem State.haltRings_eq (hr : s.reqs = []) (l : List Nat) :
    ∃ rings, s.haltRings l = { s with links := { s.links with rings := rings } } := by
  induction l generalizing s with
  | nil => exact ⟨_, rfl⟩
  | cons n l ih =>
    have hstep : (s.haltRing n).reqs = [] := by rw [State.haltRing, State.ringStop_quiet hr]; exact hr
    obtain ⟨rings, hrings⟩ := ih hstep
    refine ⟨rings, hrings.trans ?_⟩
    rw [State.haltRing, State.ringStop_quiet hr]
    rfl

theorem State.haltRing_state (hr : s.reqs = []) (m n : Nat) :
    ((s.haltRing m).ring n).state = if n = m then 2 else (s.ring n).state := by
  rw [State.haltRing, State.ringStop_quiet hr]
  split
  · next h =>
    subst h
    rw [State.upRing_ring_self, Ring.state, Ring.word_put_self]
    rfl
  · next h => rw [State.upRing_ring_other _ h, State.upRing_ring_other _ h]

theorem State.haltRings_state (hr : s.reqs = []) {l : List Nat} (hn : n ∈ l ∨ (s.ring n).state = 2) :
    ((s.haltRings l).ring n).state = 2 := by
  induction l generalizing s with
  | nil => exact hn.resolve_left List.not_mem_nil
  | cons m l ih =>
    have hstep : (s.haltRing m).reqs = [] := by rw [State.haltRing, State.ringStop_quiet hr]; exact hr
    refine ih hstep ?_
    rw [State.haltRing_state hr]
    by_cases hm : n = m
    · exact .inr (if_pos hm)
    · exact hn.imp (fun h => (List.mem_cons.1 h).resolve_left hm) fun h => (if_neg hm).trans h

theorem Map.find_mapVals {α β : Type} (m : Map α) (f : α → β) (n : Nat) : (m.mapVals f).find n = (m.find n).map f := by
  induction m with
  | nil => rfl
  | cons e m ih =>
    simp only [Map.mapVals, List.map_cons, Map.find] at ih ⊢
    split
    · rfl
    · exact ih

/-- The links after a hot reset: no ring has a key, the inbound writes that were not sent are gone, and so are the sessions of the
endpoint's mailbox. -/
def Links.hotReset (l : Links) : Links :=
  { l with rings := l.rings.mapVals (fun g => { g with key := none })
           inbound := l.inbound.filter (fun i => !(i.src == 0 && i.read == 0))
           sessions := l.sessions.filter fun e => decide (doeSessions ≤ e.1) }

/-- Discarding inbound writes leaves a state without requests as it is. -/
theorem foldl_discard (hr : s.reqs = []) (l : List Inbound) :
    l.foldl (fun s i => match i.req with | some n => s.dropReq n | none => s) s = s := by
  induction l with
  | nil => rfl
  | cons i l ih =>
    rw [List.foldl_cons]
    cases i.req with
    | none => exact ih
    | some n =>
      have hdrop : s.dropReq n = s := by rw [State.dropReq, hr, ← hr]; cases s; cases hr; rfl
      exact (congrArg (l.foldl _) hdrop).trans ih

/-- What a hot reset does once the running rings have halted. -/
def State.resetLinks (s : State) : State :=
  let s := (s.links.inbound.filter fun i => i.src == 0 && i.read == 0).foldl
    (fun s i => match i.req with | some n => s.dropReq n | none => s) s
  let s := s.upLinks Links.hotReset
  let s := (s.reqs.filter fun e => decide (tierOf e.2.pa = 2) && (e.2.stage == .sent || e.2.stage == .served)).foldl
    (fun s e => s.failFar e.1 e.2) s
  let s := (s.links.farWrites.filter fun w => w.2.2).foldl (fun s w => s.after 0 7 (.farEndCompletion w.2.1)) s
  s.notice 1 10 0 0

theorem execHotReset_eq (s : State) :
    execHotReset s = .next (s.haltRings ((List.range 64).filter fun n => (s.ring n).state = 1)).resetLinks := rfl

/-- With nothing under way only the links change, and the host kernel is told. -/
theorem State.resetLinks_quiet (hr : s.reqs = []) (hf : s.links.farWrites = []) :
    s.resetLinks = ({ s with links := s.links.hotReset } : State).notice 1 10 0 0 := by
  have hfar : (s.upLinks Links.hotReset).links.farWrites = [] := hf
  have hreqs : (s.upLinks Links.hotReset).reqs = [] := hr
  simp only [State.resetLinks, foldl_discard hr, hreqs, hfar, List.filter_nil, List.foldl_nil]
  rfl

theorem State.resetLinks_ring (hr : s.reqs = []) (hf : s.links.farWrites = []) (n : Nat) :
    s.resetLinks.ring n = { s.ring n with key := none } := by
  rw [State.resetLinks_quiet hr hf]
  simp only [State.ring, State.notice, State.after_links, State.upIo_links, Links.hotReset, Map.find_mapVals]
  cases s.links.rings.find n <;> rfl

/-! ### The obligation -/

/-- Settles O57: an entry's cases are those of `State.ringJudge`; a hot reset is `State.resetLinks_quiet` after `State.haltRings_eq`. -/
theorem ringEntriesAreJudged : Obligations.RingEntriesAreJudged := by
  unfold Obligations.RingEntriesAreJudged
  refine ⟨fun s n i hi => ?_, fun s n he hd => ?_, fun s hr hf => ?_⟩
  · intro g q he hd
    obtain ⟨perform, hexec⟩ := exec_ringEntry hi s
    refine ⟨fun hbad => ?_, fun htag hzeros hq => ?_, fun htag hzeros hq => ?_, fun htag hzeros hq => ?_⟩
    · rw [hexec, State.ringJudge_drops he hd hbad]
    · rw [hexec, State.ringJudge_below he hd htag hzeros hq]
    · refine ⟨_, hexec.trans (congrArg _ (State.ringJudge_above he hd htag hzeros hq)), ?_⟩
      rw [State.upRing_ring_self]
      refine ⟨?_, ?_, ?_, rfl, fun k hk => State.upRing_ring_other _ hk, rfl⟩
      · simp [Ring.state, Ring.word]
      · simp [Ring.word, q, g]
      · simp [Ring.word, g]
    · intro b
      refine ⟨?_, ?_, ?_⟩ <;> rintro rfl
      · exact congrArg _ (State.ringJudge_next he hd htag hzeros hq)
      · exact congrArg _ (State.ringJudge_next he hd htag hzeros hq)
      · exact congrArg _ (State.ringJudge_next he hd htag hzeros hq)
  · exact congrArg _ (State.ringJudge_due he hd)
  · obtain ⟨rings, heq⟩ := s.haltRings_eq hr ((List.range 64).filter fun n => (s.ring n).state = 1)
    have hreqs : (s.haltRings ((List.range 64).filter fun n => (s.ring n).state = 1)).reqs = [] := by rw [heq]; exact hr
    have hfar : (s.haltRings ((List.range 64).filter fun n => (s.ring n).state = 1)).links.farWrites = [] := by
      rw [heq]; exact hf
    refine ⟨_, execHotReset_eq s, fun n => ?_, fun n hn hrun => ?_, ?_⟩
    · rw [State.resetLinks_ring hreqs hfar]
    · have hmem : n ∈ (List.range 64).filter fun n => (s.ring n).state = 1 :=
        List.mem_filter.2 ⟨List.mem_range.2 hn, decide_eq_true hrun⟩
      rw [State.resetLinks_ring hreqs hfar]
      exact State.haltRings_state hr (.inl hmem)
    · rw [State.resetLinks_quiet hreqs hfar, heq]
      refine ⟨fun e he => of_decide_eq_true (List.mem_filter.1 he).2, fun k hk => ?_, rfl⟩
      rw [State.notice_kernels, Map.find_adjust_self, hk]
      exact ⟨_, rfl, rfl⟩

end Sys2Proof.Machine
end

section
/-! PROOFS. The security core. A response leaves by `State.spdm`, which adds it to what the module has sent and does nothing else; a
vendor-defined request in a session that has finished is answered by the cases of BIND and RINGKEY. -/

namespace Sys2Proof.Machine

variable {s : State} {n : Nat} {e : Session}

/-! ### Sessions and rings -/

theorem State.upSession_find (f : Session → Session) (he : s.links.sessions.find n = some e) :
    (s.upSession n f).links.sessions.find n = some (f e) := by
  simp [State.upSession, he]

theorem State.withdraw_links (s : State) (m : Nat) : (s.withdraw m).links = s.links := by
  unfold State.withdraw
  repeat' split
  all_goals rfl

/-- A ring that stops gives up its entry, and withdraws requests, which are none of the links'. -/
theorem State.ringStop_links (s : State) (n : Nat) :
    (s.ringStop n).links = (s.upRing n fun g => if g.due then g else { g with entry := [] }).links :=
  foldl_same State.links (fun _ _ => by split <;> [exact State.withdraw_links _ _; rfl]) _

theorem State.ringStop_ring_self (s : State) (n : Nat) : ∃ entry, (s.ringStop n).ring n = { s.ring n with entry := entry } := by
  rw [State.ring, State.ringStop_links, ← State.ring, State.upRing_ring_self]
  split <;> exact ⟨_, rfl⟩

theorem State.ringStop_ring_other (s : State) {m n : Nat} (h : m ≠ n) : (s.ringStop n).ring m = s.ring m := by
  rw [State.ring, State.ringStop_links, ← State.ring, State.upRing_ring_other _ h]

/-- A ring's key is installed, and a ring that runs halts to rekey (R361). -/
def State.rekey (s : State) (n : Nat) (k : BitVec 256) : State :=
  let t := s.upRing n fun g => { g with key := some k }
  if (s.ring n).state = 1 then (t.upRing n fun g => { g with ws := g.ws.put 3 3 }).ringStop n else t

theorem State.rekey_outbox (s : State) (n : Nat) (k : BitVec 256) : (s.rekey n k).links.outbox = s.links.outbox := by
  unfold State.rekey
  dsimp only
  split
  · rw [State.ringStop_links]
    rfl
  · rfl

theorem State.rekey_mem (s : State) (n : Nat) (k : BitVec 256) : (s.rekey n k).mem = s.mem := by
  unfold State.rekey
  dsimp only
  split
  · exact State.ringStop_mem _
  · rfl

theorem State.rekey_rings (s : State) (n : Nat) (k : BitVec 256) : ((s.rekey n k).ring n).key = some k ∧
    (∀ m, m ≠ n → (s.rekey n k).ring m = s.ring m) ∧
    ((s.ring n).state ≠ 1 → ((s.rekey n k).ring n).state = (s.ring n).state) ∧
    ((s.ring n).state = 1 → ((s.rekey n k).ring n).state = 3) := by
  unfold State.rekey
  dsimp only
  split
  · next hrun =>
    obtain ⟨entry, hself⟩ := ((s.upRing n fun g => { g with key := some k }).upRing n fun g =>
      { g with ws := g.ws.put 3 3 }).ringStop_ring_self n
    rw [State.upRing_ring_self, State.upRing_ring_self] at hself
    refine ⟨by rw [hself], fun m hm => ?_, fun h => absurd hrun h, fun _ => ?_⟩
    · rw [State.ringStop_ring_other _ hm, State.upRing_ring_other _ hm, State.upRing_ring_other _ hm]
    · rw [hself]
      simp [Ring.state, Ring.word]
  · next hidle =>
    refine ⟨?_, fun m hm => State.upRing_ring_other _ hm, fun _ => ?_, fun h => absurd h hidle⟩
    · rw [State.upRing_ring_self]
    · rw [State.upRing_ring_self]
      rfl

/-! ### Lost devices (R357) -/

/-- What a lost device leaves of the requests at its port, and of those that a combining node has merged with them. -/
def State.losePort (s : State) (port : Nat) : State :=
  let b := (Home.port port).num
  let waiting := (s.bank b).arrived.map (fun w => w.req) ++ (s.bank b).queue ++ (s.bank b).waiters
  let s := s.upLinks fun l => { l with lost := if l.lost.contains port then l.lost else port :: l.lost }
  let s := s.upBank b fun x => { x with arrived := [], queue := [], waiters := [] }
  let lost := s.reqs.filter fun e => waiting.contains e.1 || (match e.2.lead with | some m => waiting.contains m | none => false)
  lost.foldl (fun s e => ((s.upReq e.1 fun r => { r with lead := none }).unwait e.2).refuse e.1 cPOISON e.2.ptr) s

/-- A port at which no request waits completes none. -/
theorem State.losePort_quiet {port : Nat} (h : (s.bank (Home.port port).num).arrived.map (fun w => w.req) ++
      (s.bank (Home.port port).num).queue ++ (s.bank (Home.port port).num).waiters = []) :
    port ∈ (s.losePort port).links.lost ∧ (s.losePort port).reqs = s.reqs ∧ (s.losePort port).mem = s.mem := by
  have hnone (l : Map Req) : l.filter (fun e => ([] : List Nat).contains e.1 ||
      (match e.2.lead with | some m => ([] : List Nat).contains m | none => false)) = [] :=
    List.filter_eq_nil_iff.2 fun e _ => by cases e.2.lead <;> exact Bool.false_ne_true
  simp only [State.losePort, h, hnone, List.foldl_nil]
  refine ⟨?_, rfl, rfl⟩
  change port ∈ if s.links.lost.contains port then s.links.lost else port :: s.links.lost
  split
  · next hc => exact List.contains_iff_mem.1 hc
  · exact List.mem_cons_self

theorem numberOf_one (r : Byte) : numberOf [r] = r.toNat := rfl

/-! ### SPDM (R361) -/

/-- A session that is bound to no context has the measurements of the image alone. -/
theorem State.measurements_unbound (h : s.links.sessions.find n = none ∨ ∃ e, s.links.sessions.find n = some e ∧ e.bound = none) :
    s.measurements n = [1, 2, 3, 4].map fun i => .measurement i (s.sys.image.digest i) := by
  obtain h | ⟨e, he, hb⟩ := h <;> simp [State.measurements, *]

theorem State.measurements_bound {c : Nat} (he : s.links.sessions.find n = some e) (hb : e.bound = some c) :
    s.measurements n = ([1, 2, 3, 4].map fun i => .measurement i (s.sys.image.digest i)) ++
      [.measurement 5 (measurementChain (s.context c).measured)] := by
  simp [State.measurements, he, hb]

theorem execFinish_finishes (he : s.links.sessions.find n = some e) (hst : e.stage = 1) :
    execFinish n s = .next ((s.upSession n fun e => { e with stage := 2 }).spdm rFinish n 0 []) := by
  simp only [execFinish, he, if_pos hst]

/-! ### Vendor-defined requests (R362) -/

section
variable (he : s.links.sessions.find n = some e) (hst : e.stage = 2)
include he hst

/-- BIND with a payload of another length. -/
theorem execBind_malformed {p : List Byte} (hp : p.length ≠ 2) :
    execBind n p s = .next ((s.upSession n fun e => { e with asked := true }).vendor n 1 4) := by
  have hfin : ¬ e.stage ≠ 2 := not_not_intro hst
  simp only [execBind, he, if_neg hfin, if_pos hp]

/-- BIND after another vendor-defined request. -/
theorem execBind_late {p : List Byte} (hp : p.length = 2) (ha : e.asked = true) : execBind n p s = .next (s.vendor n 1 2) := by
  have hfin : ¬ e.stage ≠ 2 := not_not_intro hst
  simp only [execBind, he, if_neg hfin, if_neg (not_not_intro hp), if_pos ha]

/-- BIND as the first vendor-defined request, of a context that exists or not. -/
theorem execBind_first {p : List Byte} (hp : p.length = 2) (ha : e.asked = false) : execBind n p s =
    if s.io.ctxs.has (numberOf p) then
      .next (((s.upSession n fun e => { e with asked := true }).upSession n fun e => { e with bound := some (numberOf p) }).vendor n 1 0)
    else .next ((s.upSession n fun e => { e with asked := true }).vendor n 1 1) := by
  have hfin : ¬ e.stage ≠ 2 := not_not_intro hst
  simp only [execBind, he, if_neg hfin, if_neg (not_not_intro hp), ha, if_neg Bool.false_ne_true]
  rfl

/-- RINGKEY with a payload of another length. -/
theorem execRingkey_malformed {p : List Byte} (hp : p.length ≠ 1) :
    execRingkey n p s = .next ((s.upSession n fun e => { e with asked := true }).vendor n 2 4) := by
  have hfin : ¬ e.stage ≠ 2 := not_not_intro hst
  simp only [execRingkey, he, if_neg hfin, if_pos hp]

theorem execRingkey_unbound (r : Byte) (hb : e.bound = none) :
    execRingkey n [r] s = .next ((s.upSession n fun e => { e with asked := true }).vendor n 2 3) := by
  have hfin : ¬ e.stage ≠ 2 := not_not_intro hst
  simp [execRingkey, he, hfin, hb]

/-- RINGKEY in a bound session. -/
theorem execRingkey_bound (r : Byte) {c : Nat} (hb : e.bound = some c) : execRingkey n [r] s =
    if 64 ≤ r.toNat then .next ((s.upSession n fun e => { e with asked := true }).vendor n 2 4)
    else if (s.ring r.toNat).ctx ≠ c then .next ((s.upSession n fun e => { e with asked := true }).vendor n 2 1)
    else .next (((s.upSession n fun e => { e with asked := true }).rekey r.toNat (ringKeyOf e.secret r.toNat)).vendor n 2 0) := by
  have hfin : ¬ e.stage ≠ 2 := not_not_intro hst
  have hlen : ¬ [r].length ≠ 1 := not_not_intro rfl
  simp only [execRingkey, he, if_neg hfin, if_neg hlen, hb, numberOf_one]
  rfl

end

/-! ### The obligation -/

/-- Settles O59: each response is one of `State.spdm`, after what its request does to its session or ring. -/
theorem theSecurityCoreAnswers : Obligations.TheSecurityCoreAnswers := by
  unfold Obligations.TheSecurityCoreAnswers
  refine ⟨fun s n => ?_, fun s n e he hst => ?_, fun s => ⟨rfl, rfl⟩, fun s port harrived hqueue hwaiters => ?_⟩
  · intro answers digest chain stage signed tells
    refine ⟨⟨_, rfl, ⟨rfl, rfl, rfl⟩, rfl⟩, ⟨_, rfl, ⟨rfl, rfl, rfl⟩, rfl⟩, ⟨_, rfl, ⟨rfl, rfl, rfl⟩, rfl⟩,
      ⟨_, rfl, ⟨rfl, rfl, rfl⟩, rfl⟩, ⟨_, rfl, ⟨rfl, rfl, rfl⟩, rfl⟩, ⟨_, rfl, ⟨rfl, rfl, rfl⟩, rfl⟩, fun hb => ?_, fun e c he hb => ?_,
      ⟨_, { stage := 1, secret := Config.exportSecret s.free }, rfl, ⟨rfl, rfl, rfl⟩, rfl, Map.find_put_self _ _ _, rfl, rfl, rfl⟩,
      fun e he hst => ?_, ⟨_, rfl, ⟨rfl, rfl, rfl⟩, rfl⟩⟩
    · exact ⟨_, congrArg (fun m => Host.Outcome.next (s.spdm rGetMeasurements n 0 m)) (State.measurements_unbound hb),
        ⟨rfl, rfl, rfl⟩, rfl⟩
    · exact ⟨_, congrArg (fun m => Host.Outcome.next (s.spdm rGetMeasurements n 0 m)) (State.measurements_bound he hb),
        ⟨rfl, rfl, rfl⟩, rfl⟩
    · exact ⟨_, execFinish_finishes he hst, ⟨rfl, rfl, rfl⟩, State.upSession_find (fun e => { e with stage := 2 }) he⟩
  · intro answers two
    have hasked : (s.upSession n fun e => { e with asked := true }).links.sessions.find n = some { e with asked := true } :=
      State.upSession_find _ he
    refine ⟨fun x y ha hctx => ?_, fun x y ha hctx => ?_, fun p hp ha => ?_, fun p hp => ?_, fun p hp => ?_, fun r hb => ?_,
      fun r c hb hr => ?_, fun r c hb hr hc => ?_, fun r c hb hr hc => ?_, fun op => ?_⟩
    · exact ⟨_, (execBind_first he hst (p := [x, y]) rfl ha).trans (if_pos hctx), ⟨rfl, rfl⟩,
        State.upSession_find (fun e => { e with bound := some (two x y) }) hasked⟩
    · exact ⟨_, (execBind_first he hst (p := [x, y]) rfl ha).trans (if_neg (Bool.eq_false_iff.1 hctx)), ⟨rfl, rfl⟩, hasked⟩
    · exact ⟨_, execBind_late he hst hp ha, ⟨rfl, rfl⟩, he⟩
    · exact ⟨_, execBind_malformed he hst hp, ⟨rfl, rfl⟩, hasked⟩
    · exact ⟨_, execRingkey_malformed he hst hp, ⟨rfl, rfl⟩, rfl⟩
    · exact ⟨_, execRingkey_unbound he hst r hb, ⟨rfl, rfl⟩, rfl⟩
    · exact ⟨_, (execRingkey_bound he hst r hb).trans (if_pos hr), ⟨rfl, rfl⟩, rfl⟩
    · exact ⟨_, ((execRingkey_bound he hst r hb).trans (if_neg (Nat.not_le.2 hr))).trans (if_pos hc), ⟨rfl, rfl⟩, rfl⟩
    · refine ⟨_, ((execRingkey_bound he hst r hb).trans (if_neg (Nat.not_le.2 hr))).trans (if_neg (not_not_intro hc)), ⟨?_, ?_⟩, ?_⟩
      · exact congrArg (· ++ _) (State.rekey_outbox _ _ _)
      · exact State.rekey_mem _ _ _
      · obtain ⟨hkey, hother, hidle, hruns⟩ := State.rekey_rings (s.upSession n fun e => { e with asked := true }) r.toNat
          (ringKeyOf e.secret r.toNat)
        exact ⟨hkey, hother, hidle, hruns⟩
    · have hother : (e.asked || e.stage == 2) = true := by simp [hst]
      refine ⟨_, rfl, ⟨rfl, rfl⟩, (State.upSession_find (fun e => { e with asked := e.asked || e.stage == 2 }) he).trans ?_⟩
      rw [hother]
  · have hwaiting : (s.bank (Home.port port).num).arrived.map (fun w => w.req) ++ (s.bank (Home.port port).num).queue ++
        (s.bank (Home.port port).num).waiters = [] := by rw [harrived, hqueue, hwaiters]; rfl
    obtain ⟨hlost, hreqs, hmem⟩ := State.losePort_quiet hwaiting
    exact ⟨_, rfl, hlost, hreqs, hmem⟩

end Sys2Proof.Machine
end

section
/-! PROOFS. Sequences at the I/O die. A request of a sequence instruction reaches `State.seqnew`, `State.seqmap`, `State.sequnmap`,
`State.seqend` or `State.seqq` by its code (`AtUnit.seqnew` and the like); what they answer is one reply (`AtUnit.answers`, `AtUnit.late`)
or a shoot-down (`State.shootDown_starts`). -/

namespace Sys2Proof.Machine

variable {s w : State} {n : Nat} {r : Req} {e : Seq}

/-! ### Answers and shoot-downs -/

/-- The answer is the request's own, and the reply is on its way. -/
theorem AtUnit.answers (hr : AtUnit s n r) (ha : Aside s w) (v : Int) :
    (w.unitSays n v).reqs.find n = some { r with stage := .served, ans := [BitVec.ofInt 64 v] } ∧
      coming (w.unitSays n v) (s.cyc + (r.lat + 1) / 2) (.memReply n) ∧ (w.unitSays n v).mem = s.mem := by
  have hw : w.reqs.find n = some r := ha.reqs ▸ hr.found
  obtain ⟨hreq, hreply, hmem, -, -⟩ := answered_reply (ans := [BitVec.ofInt 64 v]) hw hr.unit (hr.use ▸ Use.noConfusion)
  exact ⟨hreq, ha.cyc ▸ hreply, hmem.trans ha.mem⟩

theorem AtUnit.unitSays_io (hr : AtUnit s n r) (ha : Aside s w) (v : Int) : (w.unitSays n v).io = w.io := (hr.says ha v).io

/-- An answer that shoots nothing down comes some cycles later. -/
theorem AtUnit.late (hr : AtUnit s n r) (v : Int) (d : Nat) :
    (s.unitLate n v d).reqs.find n = some { r with stage := .served, ans := [BitVec.ofInt 64 v], lat := r.lat + 2 * d } ∧
      (s.unitLate n v d).io = s.io := by
  have hfind : (s.upReq n fun r => { r with lat := r.lat + 2 * d }).reqs.find n = some { r with lat := r.lat + 2 * d } := by
    rw [State.upReq_find_self, hr.found]
    rfl
  have huse : ({ r with lat := r.lat + 2 * d } : Req).use ≠ .fetch := hr.use ▸ Use.noConfusion
  refine ⟨(answered_reply hfind hr.unit huse).request, ?_⟩
  rw [State.unitLate, State.unitSays, State.reply_found hfind huse (fun ws hd => MemOp.noConfusion (hr.unit.symm.trans hd))]
  rfl

/-- A shoot-down stands under the next number, due at its time, and its arrival is on the agenda. -/
theorem State.shootDown_starts (s : State) (h : Shoot) (reach done : Nat) :
    (s.shootDown h reach done).io.shoots.find s.serial = some { h with due := s.cyc + done } ∧
      coming (s.shootDown h reach done) (s.cyc + reach) (.shootDownArrival s.serial) :=
  ⟨Map.find_put_self _ _ _, State.after_coming _ _ _⟩

/-! ### The unit that a request's code names -/

theorem AtUnit.arrives (hr : AtUnit s n r) : exec (.bankRequestArrival n) s = .next (s.unitArrives n r) :=
  execBankRequestArrival_unit hr.found hr.sent hr.unit

/-- A request's code chooses its unit. -/
theorem AtUnit.chooses (hr : AtUnit s n r) : s.unitArrives n r =
    let code := (r.args.getD 1 0).toNat
    if code = uXinv then s.xinv n r
    else if code = uSeqnew then s.seqnew n r
    else if code = uSeqmap then s.seqmap n r
    else if code = uSequnmap then s.sequnmap n r
    else if code = uSeqend then s.seqend n r
    else if code = uSeqq then s.seqq n r
    else if code = uPartset then s.partset n r
    else s.ownset n r := by
  rw [State.unitArrives, if_neg (by rw [hr.use]; decide), if_neg (by rw [hr.use]; decide)]

section
variable (hr : AtUnit s n r)
include hr

theorem AtUnit.seqnew (hc : (r.args.getD 1 0).toNat = uSeqnew) : exec (.bankRequestArrival n) s = .next (s.seqnew n r) := by
  rw [hr.arrives, hr.chooses, hc]
  rfl

theorem AtUnit.seqmap (hc : (r.args.getD 1 0).toNat = uSeqmap) : exec (.bankRequestArrival n) s = .next (s.seqmap n r) := by
  rw [hr.arrives, hr.chooses, hc]
  rfl

theorem AtUnit.sequnmap (hc : (r.args.getD 1 0).toNat = uSequnmap) : exec (.bankRequestArrival n) s = .next (s.sequnmap n r) := by
  rw [hr.arrives, hr.chooses, hc]
  rfl

theorem AtUnit.seqend (hc : (r.args.getD 1 0).toNat = uSeqend) : exec (.bankRequestArrival n) s = .next (s.seqend n r) := by
  rw [hr.arrives, hr.chooses, hc]
  rfl

theorem AtUnit.seqq (hc : (r.args.getD 1 0).toNat = uSeqq) : exec (.bankRequestArrival n) s = .next (s.seqq n r) := by
  rw [hr.arrives, hr.chooses, hc]
  rfl

end

/-! ### SEQNEW (R313, R315, R316) -/

theorem firstFrom_first {p : Nat → Bool} {lo n q : Nat} (hlo : lo ≤ q) (hq : q < lo + n) (hp : p q = true)
    (hbelow : ∀ k, lo ≤ k → k < q → p k = false) : firstFrom p lo n = some q := by
  induction n generalizing lo with
  | zero => omega
  | succ n ih =>
    rw [firstFrom]
    rcases Nat.eq_or_lt_of_le hlo with rfl | hlt
    · rw [if_pos hp]
    · rw [if_neg (by rw [hbelow lo (Nat.le_refl _) hlt]; exact Bool.false_ne_true)]
      exact ih hlt (by omega) fun k hk => hbelow k (by omega)

/-- The lowest free id is the next (R315). -/
theorem State.nextSeq_lowest {q : Nat} (hq : q < 65536) (hfree : s.io.seqs.has q = false) (hbelow : ∀ k < q, s.io.seqs.has k = true) :
    s.nextSeq = some q := by
  have hfirst : firstFrom (fun q => !s.io.seqs.has q) 0 65536 = some q :=
    firstFrom_first (Nat.zero_le _) (by omega) (by rw [hfree]; rfl) fun k _ hk => by rw [hbelow k hk]; rfl
  simp only [State.nextSeq, hfirst]

/-- The I/O die with a new sequence, whose key has been drawn. -/
def State.withSeq (s : State) (r : Req) (q : Nat) : State :=
  s.draw.2.upIo fun io =>
    { io with seqs := io.seqs.put q { owner := r.ctx, live := true, key := s.io.draws, made := s.cyc, gone := 0, pages := [] } }

theorem State.seqnew_makes {q : Nat} (hg : s.io.rngFails = false) (hq : s.nextSeq = some q) :
    s.seqnew n r = (s.withSeq r q).unitSays n q := by
  simp only [State.seqnew, hg, if_neg Bool.false_ne_true, hq]
  rfl

theorem State.seqnew_fails (hg : s.io.rngFails = true) : s.seqnew n r = s.unitSays n (-2) := if_pos hg

/-! ### SEQQ (R292) -/

/-- SEQQ's answer for an owned sequence: its pages as far as the field holds their number, in a state that differs by the free values
drawn alone. -/
theorem State.seqq_owned (he : s.io.seqs.find r.opA.toNat = some e) (hown : s.ownsSeq r.ctx e = true) :
    ∃ (w : State) (p : Nat), p < 65536 ∧ (e.pages.length < 65536 → p = e.pages.length) ∧ Aside s w ∧ w.io = s.io ∧
      s.seqq n r = w.unitSays n (if e.live then 65536 * (p : Nat) + 5 else 2) := by
  have hseq : s.seq r.opA.toNat = some e := he
  simp only [State.seqq, hseq, if_pos hown]
  cases hl : e.live with
  | false =>
    by_cases hlen : e.pages.length < 65536
    · exact ⟨s, _, hlen, fun _ => rfl, .refl, rfl, rfl⟩
    · exact ⟨s, 0, by decide, fun h => absurd h hlen, .refl, rfl, rfl⟩
  | true =>
    by_cases hlen : e.pages.length < 65536
    · exact ⟨s, _, hlen, fun _ => rfl, .refl, rfl, by simp [hlen]⟩
    · refine ⟨s.freeWord.2, _, Nat.mod_lt s.freeWord.1.toNat (by decide), fun h => absurd h hlen, ⟨rfl, rfl, rfl⟩, rfl, ?_⟩
      simp [hlen]

theorem State.seqq_unknown (he : s.io.seqs.find r.opA.toNat = none) : s.seqq n r = s.unitSays n (-1) := by
  have hseq : s.seq r.opA.toNat = none := he
  simp only [State.seqq, hseq]

/-! ### SEQMAP (R313) -/

/-- A sequence that is not there is no live one. -/
theorem State.liveSeq_none {ctx q : Nat} (he : s.io.seqs.find q = none) : s.liveSeq ctx q = none := by
  have hseq : s.seq q = none := he
  simp only [State.liveSeq, hseq]

theorem State.liveSeq_find {ctx q : Nat} (he : s.liveSeq ctx q = some e) : s.io.seqs.find q = some e := by
  unfold State.liveSeq State.seq at he
  split at he
  · next e' hfind =>
    split at he
    · cases he; exact hfind
    · cases he
  · cases he

def Seq.putPage (e : Seq) (i : Nat) (g : SPage) : Seq := { e with pages := e.pages.put i g }

/-- The state with a page of a sequence mapped, and its translation and its key at the core that asked. -/
def State.mapped (s : State) (r : Req) (q pa : Nat) (g : SPage) : State :=
  (((s.setFrame (frameOf pa) { s.frame (frameOf pa) with tag := some (.seq q) }).upSeq q fun e =>
    e.putPage (offsetOf r.opA / 65536) g).addEntry r.core (seqEntry q r.opA g)).useKey r.core (.seq q)

theorem State.mapped_aside (s : State) (r : Req) (q pa : Nat) (g : SPage) : Aside s (s.mapped r q pa g) := ⟨rfl, rfl, rfl⟩

/-- With its bits from 2 to 15 zero, SEQMAP's second operand gives the two bits of a page's rights alone. -/
theorem seqmap_rights {b : Word} (hz : b.extractLsb' 2 14 = 0) : b.extractLsb' 3 13 = 0 ∧ b.getLsbD 2 = false ∧
    (b.extractLsb' 1 2).toNat = if b.getLsbD 1 then 1 else 0 := by
  have hbit (i : Nat) (hi : i < 14) : b.getLsbD (2 + i) = false := by
    have := congrArg (·.getLsbD i) hz
    simpa [hi] using this
  refine ⟨BitVec.eq_of_getLsbD_eq fun i hi => ?_, hbit 0 (by decide), ?_⟩
  · have := hbit (i + 1) (by omega)
    rw [BitVec.getLsbD_extractLsb', show 3 + i = 2 + (i + 1) by omega, this, Bool.and_false]
    exact BitVec.getLsbD_zero.symm
  · have htwo : b.extractLsb' 1 2 = if b.getLsbD 1 then 1 else 0 := by
      refine BitVec.eq_of_getLsbD_eq fun i hi => ?_
      rw [BitVec.getLsbD_extractLsb']
      obtain rfl | rfl : i = 0 ∨ i = 1 := by omega
      · cases b.getLsbD 1 <;> rfl
      · rw [hbit 0 (by decide)]
        cases b.getLsbD 1 <;> rfl
    rw [htwo]
    split <;> rfl

theorem State.seqmap_unknown (he : s.liveSeq r.ctx (ptrSeq r.opA) = none) : s.seqmap n r = s.unitSays n (-1) := by
  simp only [State.seqmap, he]

section
variable {b : Word} {pa : Nat} {g : SPage}

/-- SEQMAP of a page that the sequence does not hold onto a frame that is free of tags and the kernel's own. -/
theorem State.seqmap_maps (he : s.liveSeq r.ctx (ptrSeq r.opA) = some e) (hptr : isPagePtr r.opA = true)
    (hnew : e.pages.has (offsetOf r.opA / 65536) = false)
    (hpa : pa = offsetOf (BitVec.ofNat 64 (r.opB.toNat / 65536 * 65536)))
    (hspace : spaceOf (BitVec.ofNat 64 (r.opB.toNat / 65536 * 65536)) = 4) (htier : tierOf pa < 2) (hz : r.opB.extractLsb' 2 14 = 0)
    (hbusy : s.frameBusy (frameOf pa) = false) (howner : (s.frame (frameOf pa)).owner = ownerOf (s.kernOf r.ctx))
    (hstate : (s.frame (frameOf pa)).state = .owned) (htag : (s.frame (frameOf pa)).tag = none)
    (hroom : total (s.io.seqs.map fun e => e.2.pages.length) < 1048576)
    (hg : g = { pa := pa, w := r.opB.getLsbD 0, atom := (if r.opB.getLsbD 1 then 1 else 0), kern := s.kernOf r.ctx }) :
    s.seqmap n r = (s.mapped r (ptrSeq r.opA) pa g).unitSays n 0 := by
  obtain ⟨hhigh, hatom2, hatom⟩ := seqmap_rights hz
  subst hpa
  rw [← hatom] at hg
  have hform : (!isPagePtr r.opA || spaceOf (BitVec.ofNat 64 (r.opB.toNat / 65536 * 65536)) != 4 ||
      decide (2 ≤ tierOf (offsetOf (BitVec.ofNat 64 (r.opB.toNat / 65536 * 65536)))) || r.opB.extractLsb' 3 13 != 0 ||
      r.opB.getLsbD 2) = false := by
    rw [hptr, hspace, hhigh, hatom2, decide_eq_false (Nat.not_le.2 htier)]
    rfl
  have hmine : ¬ ((s.frame (frameOf (offsetOf (BitVec.ofNat 64 (r.opB.toNat / 65536 * 65536))))).owner ≠ ownerOf (s.kernOf r.ctx) ∨
      (s.frame (frameOf (offsetOf (BitVec.ofNat 64 (r.opB.toNat / 65536 * 65536))))).state ≠ .owned ∨
      (s.frame (frameOf (offsetOf (BitVec.ofNat 64 (r.opB.toNat / 65536 * 65536))))).tag.isSome = true) := by
    simp [howner, hstate, htag]
  simp only [State.seqmap, he, hform, hnew, hbusy, if_neg Bool.false_ne_true, if_neg hmine, if_neg (Nat.not_le.2 hroom)]
  rw [hg]
  rfl

theorem State.frame_of_find {f : Nat} {x : Frame} (h : s.io.frames.find f = some x) : s.frame f = x := by
  rw [State.frame, h]
  rfl

/-- The sequence holds the page, and its frame the sequence's tag. -/
theorem State.mapped_page (he : s.io.seqs.find (ptrSeq r.opA) = some e) :
    (∃ e', (s.mapped r (ptrSeq r.opA) pa g).io.seqs.find (ptrSeq r.opA) = some e' ∧
      e'.pages.find (offsetOf r.opA / 65536) = some g) ∧
    ((s.mapped r (ptrSeq r.opA) pa g).io.frames.find (frameOf pa)).map Frame.tag = some (some (.seq (ptrSeq r.opA))) := by
  have hput : (s.mapped r (ptrSeq r.opA) pa g).io.seqs.find (ptrSeq r.opA) = some (e.putPage (offsetOf r.opA / 65536) g) :=
    (Map.find_adjust_self s.io.seqs (ptrSeq r.opA) fun e => e.putPage (offsetOf r.opA / 65536) g).trans (by rw [he]; rfl)
  refine ⟨⟨_, hput, Map.find_put_self _ _ _⟩, ?_⟩
  exact congrArg (Option.map Frame.tag) (Map.find_put_self s.io.frames _ _)

end

/-! ### SEQUNMAP and SEQEND (R291, R313) -/

theorem State.sequnmap_unknown (he : s.liveSeq r.ctx (ptrSeq r.opA) = none) : s.sequnmap n r = s.unitLate n (-1) 60 := by
  simp only [State.sequnmap, he]

theorem State.sequnmap_shoots (he : s.liveSeq r.ctx (ptrSeq r.opA) = some e) (hptr : isPagePtr r.opA = true)
    (hpage : e.pages.has (offsetOf r.opA / 65536) = true) (hgoing : s.pageGoing (ptrSeq r.opA) (offsetOf r.opA / 65536) = false) :
    s.sequnmap n r =
      s.shootDown { req := some n, kind := .seqPage, seq := ptrSeq r.opA, pages := [offsetOf r.opA / 65536] } 30 60 := by
  simp [State.sequnmap, he, hptr, hpage, hgoing]

theorem State.seqend_unknown (he : s.liveSeq r.ctx r.opA.toNat = none) : s.seqend n r = s.unitLate n (-1) 60 := by
  simp only [State.seqend, he]

theorem State.seqend_shoots (he : s.liveSeq r.ctx r.opA.toNat = some e) :
    s.seqend n r = s.shootDown { req := some n, kind := .seqAll, seq := r.opA.toNat } 30 60 := by
  simp only [State.seqend, he]

/-! ### The obligation -/

/-- Settles O51: each clause is one case of its unit's operation, and its answer is one reply or a shoot-down. -/
theorem sequencesAreKeptAtTheIoDie : Obligations.SequencesAreKeptAtTheIoDie := by
  unfold Obligations.SequencesAreKeptAtTheIoDie
  intro s n r hn hst hop huse answers late asks a
  have hr : AtUnit s n r := ⟨hn, hst, hop, huse⟩
  refine ⟨fun q hc hg hq hfree hbelow => ?_, fun hc hg => ?_, fun e hc he hown => ?_, fun hc he => ?_, fun hc he => ?_,
    fun hc he => ?_, fun hc he => ?_, fun e hc he => ?_, fun e hc he hptr hpage hgoing => ?_, fun e g hc he hptr hnew => ?_⟩
  · have ha : Aside s (s.withSeq r q) := ⟨rfl, rfl, rfl⟩
    refine ⟨_, (hr.seqnew hc).trans (congrArg _ (State.seqnew_makes hg (State.nextSeq_lowest hq hfree hbelow))), hr.answers ha q, ?_⟩
    rw [hr.unitSays_io ha]
    exact ⟨rfl, Map.find_put_self _ _ _, fun k hk => Map.find_put_other _ _ hk⟩
  · exact ⟨_, (hr.seqnew hc).trans (congrArg _ (State.seqnew_fails hg)), hr.answers .refl (-2), hr.unitSays_io .refl _⟩
  · have howns : s.ownsSeq r.ctx e = true := by simp [State.ownsSeq, hown]
    obtain ⟨w, p, hp, hlen, ha, hio, heq⟩ := State.seqq_owned he howns
    exact ⟨_, p, (hr.seqq hc).trans (congrArg _ heq), hp, hlen, hr.answers ha _, (hr.unitSays_io ha _).trans hio⟩
  · exact ⟨_, (hr.seqq hc).trans (congrArg _ (State.seqq_unknown he)), hr.answers .refl (-1), hr.unitSays_io .refl _⟩
  · exact ⟨_, (hr.seqend hc).trans (congrArg _ (State.seqend_unknown (State.liveSeq_none he))), hr.late (-1) 60⟩
  · exact ⟨_, (hr.sequnmap hc).trans (congrArg _ (State.sequnmap_unknown (State.liveSeq_none he))), hr.late (-1) 60⟩
  · exact ⟨_, (hr.seqmap hc).trans (congrArg _ (State.seqmap_unknown (State.liveSeq_none he))), hr.answers .refl (-1),
      hr.unitSays_io .refl _⟩
  · obtain ⟨hfind, hcoming⟩ := s.shootDown_starts { req := some n, kind := .seqAll, seq := a.toNat } 30 60
    exact ⟨_, _, (hr.seqend hc).trans (congrArg _ (State.seqend_shoots he)), hfind, rfl, rfl, rfl, rfl, hcoming⟩
  · obtain ⟨hfind, hcoming⟩ := s.shootDown_starts
      { req := some n, kind := .seqPage, seq := ptrSeq a, pages := [offsetOf a / 65536] } 30 60
    exact ⟨_, _, (hr.sequnmap hc).trans (congrArg _ (State.sequnmap_shoots he hptr hpage hgoing)), hfind, rfl, rfl, rfl, rfl, hcoming⟩
  · intro b f pa fr hspace htier hz hbusy howner hstate htag hroom hg
    have ha : Aside s (s.mapped r (ptrSeq a) pa g) := s.mapped_aside r _ pa g
    obtain ⟨⟨e', he', hpage⟩, htagged⟩ := State.mapped_page (pa := pa) (g := g) (State.liveSeq_find he)
    refine ⟨_, e', (hr.seqmap hc).trans (congrArg _ (State.seqmap_maps he hptr hnew rfl hspace htier hz hbusy howner hstate htag hroom hg)),
      hr.answers ha 0, ?_, hpage, ?_⟩
    · exact (congrArg (fun io : IoDie => io.seqs.find (ptrSeq a)) (hr.unitSays_io ha 0)).trans he'
    · obtain ⟨x, hx, htag⟩ := Option.map_eq_some_iff.1 htagged
      have hframe := (congrArg (fun io : IoDie => io.frames.find (frameOf pa)) (hr.unitSays_io ha 0)).trans hx
      exact (congrArg Frame.tag (State.frame_of_find hframe)).trans htag

end Sys2Proof.Machine
end

section
/-! PROOFS. Frames change hands (R321, R323, R336) and are revoked (R324, R325). Each operation of the unit leaves a state `w` of which
the frame's entry is known, and answers it (`State.Says`); that the unit then goes on to the next instruction changes neither. -/

namespace Sys2Proof.Machine

variable {s u w : State} {n f mine : Nat} {r : Req} {v : Int}

/-! ### The unit's answer -/

/-- A state in which request `n` has been answered and that has the I/O die, the image and the memory of another. -/
structure State.Says (w u : State) (n : Nat) (v : Int) : Prop where
  frames : u.io.frames = w.io.frames
  sys : u.sys = w.sys
  mem : u.mem = w.mem
  request : ∃ r, u.reqs.find n = some r ∧ r.stage = .served ∧ r.ans = [BitVec.ofInt 64 v]

theorem State.Says.agenda (h : w.Says u n v) (time rank : Nat) (ev : Instr) : w.Says (u.post time rank ev) n v :=
  ⟨h.frames, h.sys, h.mem, h.request⟩

/-- A change that leaves a request's stage and answer leaves it answered. -/
theorem State.Says.upReq (h : w.Says u n v) {m : Nat} {g : Req → Req} (hstage : ∀ r, (g r).stage = r.stage)
    (hans : ∀ r, (g r).ans = r.ans) : w.Says (u.upReq m g) n v := by
  obtain ⟨hframes, hsys, hmem, r, hr, hst, ha⟩ := h
  refine ⟨hframes, hsys, hmem, ?_⟩
  rcases eq_or_ne n m with rfl | hne
  · exact ⟨g r, by rw [State.upReq_find_self, hr]; rfl, (hstage r).trans hst, (hans r).trans ha⟩
  · exact ⟨r, (State.upReq_find_other g hne).trans hr, hst, ha⟩

theorem State.Says.foldl {α : Type} {g : State → α → State} (hg : ∀ u a, w.Says u n v → w.Says (g u a) n v) (l : List α)
    (h : w.Says u n v) : w.Says (l.foldl g u) n v := by
  induction l generalizing u with
  | nil => exact h
  | cons a l ih => exact ih (hg u a h)

theorem State.Says.unblock (h : w.Says u n v) (m : Nat) : w.Says (u.unblock m) n v := by
  refine h.foldl (fun u e hu => ?_) _
  have hafter : w.Says (u.upReq e.1 fun r => { r with after := without m e.2.after }) n v := hu.upReq (fun _ => rfl) fun _ => rfl
  dsimp only
  split
  · exact hafter.agenda _ _ _
  · exact hafter

theorem State.unitSays_says (hn : w.reqs.find n = some r) (v : Int) : w.Says (w.unitSays n v) n v := by
  have hfind : (w.upReq n fun r => { r with stage := .served, ans := [BitVec.ofInt 64 v] }).reqs.find n =
      some { r with stage := .served, ans := [BitVec.ofInt 64 v] } := by
    rw [State.upReq_find_self, hn]
    rfl
  have hserved (ev : Instr) :
      w.Says ((w.upReq n fun r => { r with stage := .served, ans := [BitVec.ofInt 64 v] }).after (halfUp r.lat) 7 ev) n v :=
    ⟨rfl, rfl, rfl, _, hfind, rfl, rfl⟩
  simp only [State.unitSays, State.reply, hn]
  split
  · exact (hserved _).unblock n
  · exact hserved _

theorem State.unitLate_says (hn : w.reqs.find n = some r) (v : Int) (d : Nat) : w.Says (w.unitLate n v d) n v := by
  have hfind : (w.upReq n fun r => { r with lat := r.lat + 2 * d }).reqs.find n = some { r with lat := r.lat + 2 * d } := by
    rw [State.upReq_find_self, hn]
    rfl
  obtain ⟨hframes, hsys, hmem, hreq⟩ := State.unitSays_says hfind v
  exact ⟨hframes, hsys, hmem, hreq⟩

theorem State.Says.fotNext (h : w.Says u n v) (m : Nat) : w.Says (u.fotNext m) n v := by
  have hwaits : w.Says (u.upIo fun io => { io with fotWaits := without m io.fotWaits }) n v := ⟨h.frames, h.sys, h.mem, h.request⟩
  unfold State.fotNext
  dsimp only
  split
  · exact hwaits.agenda _ _ _
  · exact hwaits

/-! ### The unit performs an instruction (R321) -/

/-- A frame instruction at the head of the waiting ones, of a frame that no shoot-down keeps busy, is performed. -/
theorem execFotPerform_performs (hn : s.reqs.find n = some r) (hturn : s.io.fotWaits = [] ∨ s.io.fotWaits.head? = some n)
    (hbusy : s.frameBusy (frameOf (offsetOf r.opA)) = false) :
    exec (.fotPerform n) s = .next (s.fotDo n r) ∨ exec (.fotPerform n) s = .next ((s.fotDo n r).fotNext n) := by
  have hheld : s.fotHeld r = false := by rw [State.fotHeld, hbusy, Bool.and_false]
  have hfirst : (s.io.fotWaits.head? == some n || s.io.fotWaits.isEmpty) = true := by
    rcases hturn with h | h <;> simp [h]
  change execFotPerform n s = _ ∨ execFotPerform n s = _
  simp only [execFotPerform, hn, hfirst, hheld, if_true, Bool.false_eq_true, if_false]
  cases s.io.fotWaits.contains n
  · exact .inl rfl
  · exact .inr rfl

/-- What a frame instruction makes of its frame: `becomes` of the obligation. -/
def Becomes (s : State) (n f : Nat) (e : Frame) (v : Int) : Prop :=
  ∃ u r', exec (.fotPerform n) s = .next u ∧ u.frame f = e ∧
    u.reqs.find n = some r' ∧ r'.stage = .served ∧ r'.ans = [BitVec.ofInt 64 v] ∧ u.mem = s.mem ∧
    (∀ g, g ≠ f → u.frame g = s.frame g)

/-- A state in which frame `f` alone has another entry. -/
structure FrameSet (s w : State) (f : Nat) (e : Frame) : Prop where
  entry : w.frame f = e
  others : ∀ g, g ≠ f → w.frame g = s.frame g
  reqs : w.reqs = s.reqs
  mem : w.mem = s.mem

theorem FrameSet.same : FrameSet s s f (s.frame f) := ⟨rfl, fun _ _ => rfl, rfl, rfl⟩

theorem State.setFrame_frameSet (s : State) (f : Nat) (e : Frame) : FrameSet s (s.setFrame f e) f e := by
  refine ⟨State.frame_of_find (Map.find_put_self s.io.frames f e), fun g hg => ?_, rfl, rfl⟩
  rw [State.frame, State.frame, show (s.setFrame f e).io.frames.find g = s.io.frames.find g from Map.find_put_other s.io.frames e hg]
  rfl

/-- A notice or an event of the agenda changes no frame. -/
theorem FrameSet.notice {e : Frame} (h : FrameSet s w f e) (kern kind : Nat) (w1 w2 : Word) :
    FrameSet s (w.notice kern kind w1 w2) f e := ⟨h.entry, h.others, h.reqs, h.mem⟩

theorem FrameSet.post {e : Frame} (h : FrameSet s w f e) (time rank : Nat) (ev : Instr) :
    FrameSet s (w.post time rank ev) f e := ⟨h.entry, h.others, h.reqs, h.mem⟩

theorem State.Says.frame (h : w.Says u n v) (g : Nat) : u.frame g = w.frame g := by
  rw [State.frame, State.frame, h.frames, h.sys]

/-- A frame instruction that leaves a frame's entry and is answered. -/
theorem FrameSet.becomes {e : Frame} (hset : FrameSet s w f e) (hsays : w.Says (s.fotDo n r) n v)
    (hn : s.reqs.find n = some r) (hturn : s.io.fotWaits = [] ∨ s.io.fotWaits.head? = some n)
    (hbusy : s.frameBusy (frameOf (offsetOf r.opA)) = false) : Becomes s n f e v := by
  have hleaves {u : State} (hu : w.Says u n v) (hexec : exec (.fotPerform n) s = .next u) : Becomes s n f e v := by
    obtain ⟨r', hr, hst, ha⟩ := hu.request
    exact ⟨u, r', hexec, (hu.frame f).trans hset.entry, hr, hst, ha, hu.mem.trans hset.mem,
      fun g hg => (hu.frame g).trans (hset.others g hg)⟩
  rcases execFotPerform_performs hn hturn hbusy with h | h
  · exact hleaves hsays h
  · exact hleaves (hsays.fotNext n) h

/-- A frame instruction other than FQUERY is performed by its code. -/
theorem State.fotDo_chooses (hptr : framePtrOk s.sys.image r.opA = true) (hf : f = frameOf (offsetOf r.opA))
    (hq : r.unitCode ≠ uFquery) : s.fotDo n r =
      if r.unitCode = uFoffer then s.foffer n r f (s.kernOf r.ctx)
      else if r.unitCode = uFaccept then s.faccept n f (s.kernOf r.ctx)
      else if r.unitCode = uFlend then s.flend n r f (s.kernOf r.ctx)
      else if r.unitCode = uFrecall then s.frecall n f (s.kernOf r.ctx)
      else if r.unitCode = uFreturn then s.freturn n f (s.kernOf r.ctx)
      else s.fstrike n r f (s.kernOf r.ctx) := by
  subst hf
  simp only [State.fotDo, hptr, Bool.not_true, Bool.false_eq_true, if_false, if_neg hq]

section
variable (hptr : framePtrOk s.sys.image r.opA = true) (hf : f = frameOf (offsetOf r.opA))
include hptr hf

theorem State.fotDo_foffer (hc : r.unitCode = uFoffer) : s.fotDo n r = s.foffer n r f (s.kernOf r.ctx) := by
  rw [State.fotDo_chooses hptr hf (by rw [hc]; decide), hc]
  rfl

theorem State.fotDo_faccept (hc : r.unitCode = uFaccept) : s.fotDo n r = s.faccept n f (s.kernOf r.ctx) := by
  rw [State.fotDo_chooses hptr hf (by rw [hc]; decide), hc]
  rfl

theorem State.fotDo_flend (hc : r.unitCode = uFlend) : s.fotDo n r = s.flend n r f (s.kernOf r.ctx) := by
  rw [State.fotDo_chooses hptr hf (by rw [hc]; decide), hc]
  rfl

theorem State.fotDo_frecall (hc : r.unitCode = uFrecall) : s.fotDo n r = s.frecall n f (s.kernOf r.ctx) := by
  rw [State.fotDo_chooses hptr hf (by rw [hc]; decide), hc]
  rfl

theorem State.fotDo_fstrike (hc : r.unitCode = uFstrike) : s.fotDo n r = s.fstrike n r f (s.kernOf r.ctx) := by
  rw [State.fotDo_chooses hptr hf (by rw [hc]; decide), hc]
  rfl

end

/-! ### The operations (R323, R336) -/

section
variable (hn : s.reqs.find n = some r)
include hn

/-- An answer that leaves every frame as it is. -/
theorem State.unchanged_says (v : Int) : FrameSet s s f (s.frame f) ∧ s.Says (s.unitSays n v) n v :=
  ⟨.same, State.unitSays_says hn v⟩

theorem FrameSet.says {e : Frame} (h : FrameSet s w f e) (v : Int) : FrameSet s w f e ∧ w.Says (w.unitSays n v) n v :=
  ⟨h, State.unitSays_says (h.reqs ▸ hn) v⟩

theorem State.faccept_takes (hown : (s.frame f).owner = .free)
    (hno : ¬ ((s.frame f).state = .offered ∧ (s.frame f).borrower = ownerOf mine)) :
    ∃ w, FrameSet s w f ({ s.frame f with owner := ownerOf mine }.setRevoked mine false) ∧ w.Says (s.faccept n f mine) n 0 := by
  simp only [State.faccept, if_neg hno, if_pos hown]
  exact ⟨_, (s.setFrame_frameSet f _).says hn 0⟩

theorem State.faccept_accepts (hst : (s.frame f).state = .offered) (hb : (s.frame f).borrower = ownerOf mine) :
    ∃ w, FrameSet s w f ({ s.frame f with owner := ownerOf mine, borrower := .free, state := .owned }.setRevoked mine false) ∧
      w.Says (s.faccept n f mine) n 0 := by
  simp only [State.faccept, if_pos (And.intro hst hb)]
  exact ⟨_, ((s.setFrame_frameSet f _).notice _ 5 (framePtr f) 0).says hn 0⟩

theorem State.faccept_refuses (hown : (s.frame f).owner ≠ .free)
    (hno : ¬ ((s.frame f).state = .offered ∧ (s.frame f).borrower = ownerOf mine)) :
    ∃ w, FrameSet s w f (s.frame f) ∧ w.Says (s.faccept n f mine) n (-1) := by
  simp only [State.faccept, if_neg hno, if_neg hown]
  exact ⟨_, State.unchanged_says hn (-1)⟩

section
variable (hform : ¬ (r.opB.extractLsb' 28 36 ≠ 0 ∨ r.opB.extractLsb' 4 12 ≠ 0))
  (hmine : ¬ ((s.frame f).owner ≠ ownerOf mine ∨ (s.frame f).state ≠ .owned))
include hform hmine

theorem State.flend_lends (hlimit : ¬ (s.kernel mine).limit ≤ (s.frame f).strikes (3 - mine))
    (hkid : (r.opB.extractLsb' 16 12).toNat ≠ 0) (hbound : s.kidBound (r.opB.extractLsb' 16 12).toNat r.ctx = true) :
    ∃ w, FrameSet s w f ({ s.frame f with
        state := .lent, borrower := ownerOf (3 - mine), lkey := (r.opB.extractLsb' 16 12).toNat, cls := r.opB.toNat % 16,
        tag := (s.frame f).kept }.setRevoked (3 - mine) false) ∧ w.Says (s.flend n r f mine) n 0 := by
  have hkey : ¬ ((r.opB.extractLsb' 16 12).toNat = 0 ∨ (!s.kidBound (r.opB.extractLsb' 16 12).toNat r.ctx) = true) := by
    simp only [hbound, Bool.not_true, Bool.false_eq_true, or_false]
    exact hkid
  simp only [State.flend, if_neg hform, if_neg hmine, if_neg hlimit, if_neg hkey]
  exact ⟨_, (s.setFrame_frameSet f _).says hn 0⟩

theorem State.flend_limited (hlimit : (s.kernel mine).limit ≤ (s.frame f).strikes (3 - mine)) :
    ∃ w, FrameSet s w f (s.frame f) ∧ w.Says (s.flend n r f mine) n (-2) := by
  simp only [State.flend, if_neg hform, if_neg hmine, if_pos hlimit]
  exact ⟨_, State.unchanged_says hn (-2)⟩

end

theorem State.frecall_recalls (hmine : ¬ ((s.frame f).owner ≠ ownerOf mine ∨ (s.frame f).state ≠ .lent)) :
    ∃ w, FrameSet s w f { s.frame f with
        state := .recalling, deadline := s.cyc + 2 ^ (8 + (s.frame f).cls), tag := (s.frame f).kept } ∧
      w.Says (s.frecall n f mine) n 0 := by
  simp only [State.frecall, if_neg hmine]
  exact ⟨_, (((s.setFrame_frameSet f _).post _ 90 (.revocation f)).notice _ 1 (framePtr f) _).says hn 0⟩

theorem State.frecall_refuses (hmine : (s.frame f).owner ≠ ownerOf mine ∨ (s.frame f).state ≠ .lent) :
    ∃ w, FrameSet s w f (s.frame f) ∧ w.Says (s.frecall n f mine) n (-1) := by
  simp only [State.frecall, if_pos hmine]
  exact ⟨_, State.unchanged_says hn (-1)⟩

theorem State.foffer_withdraws (hop : r.opB.toNat = 2) (hmine : ¬ ((s.frame f).owner ≠ ownerOf mine ∨ (s.frame f).state ≠ .offered)) :
    ∃ w, FrameSet s w f { s.frame f with state := .owned, borrower := .free } ∧ w.Says (s.foffer n r f mine) n 0 := by
  simp only [State.foffer, hop, if_neg (show ¬ 3 ≤ 2 by decide), if_true, if_neg hmine]
  have hset := (s.setFrame_frameSet f { s.frame f with state := .owned, borrower := .free }).notice (3 - mine) 6 (framePtr f) 0
  exact ⟨_, hset, State.unitLate_says (hset.reqs ▸ hn) 0 400⟩

theorem State.fstrike_clears (hv : r.opB = 0) (hmine : (s.frame f).owner = ownerOf mine) :
    ∃ w, FrameSet s w f ((s.frame f).setStrikes (3 - mine) 0) ∧
      w.Says (s.fstrike n r f mine) n ((s.frame f).strikes (3 - mine) : Nat) := by
  have heq : s.fstrike n r f mine = (s.setFrame f ((s.frame f).setStrikes (3 - mine) 0)).unitSays n ((s.frame f).strikes (3 - mine)) := by
    simp [State.fstrike, hv, hmine]
  rw [heq]
  exact ⟨_, (s.setFrame_frameSet f _).says hn _⟩

theorem State.fstrike_limits (hodd : r.opB.toNat % 16 = 1) (hlow : r.opB.toNat < 256) (hlim : 16 ≤ r.opB.toNat) :
    ∃ w, FrameSet s w f (s.frame f) ∧ w.Says (s.fstrike n r f mine) n ((s.kernel mine).limit : Nat) := by
  have hbit : r.opB.getLsbD 0 = true := by
    rw [BitVec.getLsbD, Nat.testBit_zero, decide_eq_true_eq]
    omega
  have hthree : r.opB.extractLsb' 1 3 = 0 := by
    apply BitVec.eq_of_toNat_eq
    rw [BitVec.extractLsb'_toNat, Nat.shiftRight_eq_div_pow]
    change _ % 8 = 0
    omega
  have hhigh : r.opB.extractLsb' 8 56 = 0 := by
    apply BitVec.eq_of_toNat_eq
    rw [BitVec.extractLsb'_toNat, Nat.shiftRight_eq_div_pow]
    change _ % _ = 0
    omega
  have hfour : (r.opB.extractLsb' 4 4).toNat ≠ 0 := by
    rw [BitVec.extractLsb'_toNat, Nat.shiftRight_eq_div_pow]
    omega
  have heq : s.fstrike n r f mine =
      (s.upKernel mine fun k => { k with limit := (r.opB.extractLsb' 4 4).toNat }).unitSays n (s.kernel mine).limit := by
    have hform : ¬ (r.opB.extractLsb' 1 3 ≠ 0 ∨ r.opB.extractLsb' 8 56 ≠ 0 ∨
        ((!r.opB.getLsbD 0) = true ∧ (r.opB.extractLsb' 4 4).toNat ≠ 0) ∨
        (r.opB.getLsbD 0 = true ∧ (r.opB.extractLsb' 4 4).toNat = 0)) := by
      simp only [hthree, hhigh, hbit, hfour, ne_eq, not_true, Bool.not_true, Bool.false_eq_true, false_and, and_false, or_false,
        not_false_eq_true]
    exact (if_neg hform).trans (if_pos hbit)
  rw [heq]
  have hset : FrameSet s (s.upKernel mine fun k => { k with limit := (r.opB.extractLsb' 4 4).toNat }) f (s.frame f) :=
    ⟨rfl, fun _ _ => rfl, rfl, rfl⟩
  exact ⟨_, hset.says hn _⟩

end

/-! ### Revocation and notices (R324, R325, R340) -/

/-- With no bank in sight there is no section to end. -/
theorem State.endSections_noBanks {kern : Nat} (hb : s.banks = []) : s.endSections f kern = s := by
  rw [State.endSections, hb]
  rfl

/-- A frame after its revocation. -/
def Frame.revokedFrom (e : Frame) (kern : Nat) : Frame :=
  ({ e with state := .owned, borrower := .free, lkey := 0, cls := 0, deadline := 0, tag := e.kept }.setStrikes kern
    (min 15 (e.strikes kern + 1))).setRevoked kern true

/-- The state that a revocation leaves before its shoot-down: the frame's entry is changed and both kernels are told. -/
def State.revoked (s : State) (f kern : Nat) : State :=
  ((s.setFrame f ((s.frame f).revokedFrom kern)).notice (s.frame f).owner.kern 2 (framePtr f) 0).notice kern 2 (framePtr f) 0

theorem State.revoked_frameSet (s : State) (f kern : Nat) : FrameSet s (s.revoked f kern) f ((s.frame f).revokedFrom kern) :=
  ((s.setFrame_frameSet f _).notice _ 2 _ 0).notice _ 2 _ 0

theorem ownerOf_kern {kern : Nat} (hk : kern = 1 ∨ kern = 2) : (if kern = 1 then Owner.host else .array).kern = kern := by
  rcases hk with rfl | rfl <;> rfl

theorem execRevocation_revokes {kern : Nat} (hst : (s.frame f).state = .recalling) (hb : (s.frame f).borrower.kern = kern)
    (hd : (s.frame f).deadline = s.cyc) (hbanks : s.banks = []) (hrun : (s.frame f).stopped = false) : exec (.revocation f) s =
      .next ((s.revoked f kern).shootDown { req := none, kind := .revoke, frame := f, kern := kern } 0 0) := by
  have hdue : ¬ ((s.frame f).state ≠ .recalling ∨ (s.frame f).deadline ≠ s.cyc ∨ (s.frame f).stopped = true) := by
    simp [hst, hd, hrun]
  subst hb
  change execRevocation f s = _
  simp only [execRevocation, if_neg hdue]
  rw [State.endSections_noBanks (s := s.setFrame f _) hbanks]
  rfl

theorem execRevocation_stopped (hstop : (s.frame f).stopped = true) : exec (.revocation f) s = .next s :=
  if_pos (.inr (.inr hstop))

theorem execNoticeWrite_asks {kern : Nat} {g : RingRef} {k : Kernel} {e : Nat × Word × Word × Nat}
    {rest : List (Nat × Word × Word × Nat)} (hk : s.io.kernels.find kern = some k) (hg : k.inbox = some g)
    (hnotices : k.notices = e :: rest) (hw : k.writing = false) (htime : e.2.2.2 + noticeTime ≤ s.cyc) :
    exec (.noticeWrite kern) s =
      .next ((s.upKernel kern fun k => { k with writing := true }).ringAsk kern g.key (g.next 32) .waitEmpty (noticeWait kern) []) := by
  have hkernel : s.kernel kern = k := by rw [State.kernel, hk]; rfl
  change execNoticeWrite kern s = _
  simp only [execNoticeWrite, hkernel, hg, hnotices, hw, Bool.false_eq_true, if_false, if_neg (Nat.not_lt.2 htime)]

/-! ### The obligation -/

/-- Settles O53: each operation's case leaves one entry and one answer; a revocation leaves one entry and a shoot-down. -/
theorem framesChangeHandsAndAreRevoked : Obligations.FramesChangeHandsAndAreRevoked := by
  unfold Obligations.FramesChangeHandsAndAreRevoked
  refine ⟨fun s n r mine hn hmine hk hptr => ?_, fun s f kern hk => ?_, fun s kern g k e rest hkern hg hnotices hw htime => ?_⟩
  · intro f e v me other asks becomes accepted lent kept strikes limit hbusy hturn
    have hme : me = ownerOf mine := by rcases hk with h | h <;> simp only [me, h] <;> rfl
    have hother : other = ownerOf (3 - mine) := by rcases hk with h | h <;> simp only [other, h] <;> rfl
    have hstrikes : strikes = e.strikes (3 - mine) := by rcases hk with h | h <;> simp only [strikes, h] <;> rfl
    have haccepted (x : Frame) : accepted x = x.setRevoked mine false := by
      rcases hk with h | h <;> simp only [accepted, h] <;> rfl
    have hlent (x : Frame) : lent x = x.setRevoked (3 - mine) false := by
      rcases hk with h | h <;> simp only [lent, h] <;> rfl
    have hdone {e' : Frame} {v : Int} {t : State} (hdo : s.fotDo n r = t) (h : ∃ w, FrameSet s w f e' ∧ w.Says t n v) :
        becomes e' v := by
      obtain ⟨w, hset, hsays⟩ := h
      exact hset.becomes (hdo ▸ hsays) hn hturn hbusy
    rw [hme, hstrikes]
    refine ⟨fun hc hown hno => ?_, fun hc hst hb => ?_, fun hc hown hno => ?_, fun hc h36 h12 hown hst hlim hkid hbound => ?_,
      fun hc h36 h12 hown hst hlim => ?_, fun hc hown hst => ?_, fun hc hno => ?_, fun hc hv hown hst => ?_, fun hc hv hown => ?_,
      fun hc hodd hlow hlim => ?_⟩
    · rw [haccepted]
      exact hdone (State.fotDo_faccept hptr rfl hc) (hmine ▸ State.faccept_takes hn hown hno)
    · rw [haccepted]
      exact hdone (State.fotDo_faccept hptr rfl hc) (hmine ▸ State.faccept_accepts hn hst hb)
    · exact hdone (State.fotDo_faccept hptr rfl hc) (hmine ▸ State.faccept_refuses hn hown hno)
    · rw [hlent, hother]
      exact hdone (State.fotDo_flend hptr rfl hc) (hmine ▸ State.flend_lends hn (fun h => h.elim (absurd h36) (absurd h12))
        (fun h => h.elim (absurd hown) (absurd hst)) (Nat.not_le.2 hlim) hkid hbound)
    · exact hdone (State.fotDo_flend hptr rfl hc) (hmine ▸ State.flend_limited hn (fun h => h.elim (absurd h36) (absurd h12))
        (fun h => h.elim (absurd hown) (absurd hst)) hlim)
    · exact hdone (State.fotDo_frecall hptr rfl hc) (hmine ▸ State.frecall_recalls hn fun h => h.elim (absurd hown) (absurd hst))
    · exact hdone (State.fotDo_frecall hptr rfl hc) (hmine ▸ State.frecall_refuses hn hno)
    · exact hdone (State.fotDo_foffer hptr rfl hc) (hmine ▸ State.foffer_withdraws hn (congrArg BitVec.toNat hv)
        fun h => h.elim (absurd hown) (absurd hst))
    · have hcleared : (if mine = 1 then { e with sarr := 0 } else { e with shost := 0 }) = e.setStrikes (3 - mine) 0 := by
        rcases hk with h | h <;> simp only [h] <;> rfl
      rw [hcleared]
      exact hdone (State.fotDo_fstrike hptr rfl hc) (hmine ▸ State.fstrike_clears hn hv hown)
    · exact hdone (State.fotDo_fstrike hptr rfl hc) (hmine ▸ State.fstrike_limits hn hodd hlow hlim)
  · intro e kept hst hb hd hbanks
    have hborrower : e.borrower.kern = kern := by rw [hb, ownerOf_kern hk]
    refine ⟨fun hrun => ?_, execRevocation_stopped⟩
    obtain ⟨hfind, hcoming⟩ := (s.revoked f kern).shootDown_starts { req := none, kind := .revoke, frame := f, kern := kern } 0 0
    refine ⟨_, _, execRevocation_revokes hst hborrower hd hbanks hrun, ((s.revoked_frameSet f kern).entry.trans ?_), hfind, rfl, rfl, rfl, rfl,
      hcoming, rfl⟩
    rcases hk with rfl | rfl <;> rfl
  · have hasks := ringAsk_asks (s := s.upKernel kern fun k => { k with writing := true }) kern g.key (g.next 32) .waitEmpty (noticeWait kern) []
    obtain ⟨⟨r, hr, hop, hpa⟩, hcoming⟩ := hasks
    have hwriting : (s.upKernel kern fun k => { k with writing := true }).io.kernels.find kern = some { k with writing := true } :=
      (Map.find_adjust_self s.io.kernels kern fun k => { k with writing := true }).trans (by rw [hkern]; rfl)
    exact ⟨_, r, execNoticeWrite_asks hkern hg hnotices hw htime, hr, hop, hpa, hcoming, ⟨_, hwriting, rfl, rfl⟩, rfl⟩

end Sys2Proof.Machine
end

section
/-! PROOFS. Elements and numbers. What `packed`, `elemOf`, `bitsOf`, `signedOf` and `barrett` compute, for every width that they are used
at. -/

namespace Sys2Proof.Machine

/-! ### Elements of a register's bits (R247) -/

theorem elemOf_lt (w v j : Nat) : elemOf w v j < 2 ^ w := Nat.mod_lt _ (Nat.two_pow_pos w)

theorem elemOf_mod (w v j : Nat) : elemOf w v j % 2 ^ w = elemOf w v j := Nat.mod_eq_of_lt (elemOf_lt w v j)

theorem elemOf_zero (w v : Nat) : elemOf w v 0 = v % 2 ^ w := by rw [elemOf, Nat.mul_zero, pow_zero, Nat.div_one]

/-- An element behind the first is one of the bits behind it. -/
theorem elemOf_succ (w v j : Nat) : elemOf w v (j + 1) = elemOf w (v / 2 ^ w) j := by
  rw [elemOf, elemOf, Nat.mul_succ, Nat.add_comm, pow_add, Nat.div_div_eq_div_mul]

theorem elemOf_packed (w : Nat) (l : List Nat) (j : Nat) : elemOf w (packed w l) j = l.getD j 0 % 2 ^ w := by
  induction l generalizing j with
  | nil => simp [packed, elemOf]
  | cons x l ih =>
    cases j with
    | zero => rw [elemOf_zero, packed, Nat.add_mul_mod_self_left, Nat.mod_mod]; rfl
    | succ j =>
      have htail : packed w (x :: l) / 2 ^ w = packed w l := by
        rw [packed, Nat.add_mul_div_left _ _ (Nat.two_pow_pos w), Nat.div_eq_of_lt (Nat.mod_lt _ (Nat.two_pow_pos w)), Nat.zero_add]
      rw [elemOf_succ, htail, ih]
      rfl

theorem packed_lt (w : Nat) (l : List Nat) : packed w l < 2 ^ (w * l.length) := by
  induction l with
  | nil => exact Nat.one_pos
  | cons x l ih =>
    have hx : x % 2 ^ w < 2 ^ w := Nat.mod_lt _ (Nat.two_pow_pos w)
    have hmul := Nat.mul_le_mul_left (2 ^ w) (Nat.succ_le_of_lt ih)
    rw [packed, List.length_cons, Nat.mul_succ, Nat.add_comm (w * l.length), pow_add]
    rw [Nat.succ_eq_add_one, Nat.mul_add, Nat.mul_one] at hmul
    omega

/-- An element of a list of `n` elements that a function gives. -/
theorem elemOf_packed_range (w : Nat) {n j : Nat} (f : Nat → Nat) (hj : j < n) :
    elemOf w (packed w ((List.range n).map f)) j = f j % 2 ^ w := by
  rw [elemOf_packed, List.getD_eq_getElem _ _ (by simpa using hj)]
  simp

/-- Bits above an element do not change it. -/
theorem elemOf_mod_two_pow {w v j n : Nat} (hn : w * (j + 1) ≤ n) : elemOf w (v % 2 ^ n) j = elemOf w v j := by
  obtain ⟨k, rfl⟩ := Nat.exists_eq_add_of_le hn
  rw [elemOf, elemOf, show w * (j + 1) + k = w * j + (w + k) by ring, pow_add, Nat.mod_mul_right_div_self, pow_add, Nat.mod_mul_right_mod]

/-- An element of a register is that of its bits. -/
theorem extract_elemOf {N : Nat} (v : BitVec N) (w j : Nat) : (v.extractLsb' (w * j) w).toNat = elemOf w v.toNat j := by
  rw [BitVec.extractLsb'_toNat, Nat.shiftRight_eq_div_pow, elemOf]

/-- An element of bits written to a register that holds it. -/
theorem extract_ofNat {N w j : Nat} (v : Nat) (hj : w * (j + 1) ≤ N) :
    ((BitVec.ofNat N v).extractLsb' (w * j) w).toNat = elemOf w v j := by
  rw [extract_elemOf, BitVec.toNat_ofNat, elemOf_mod_two_pow hj]

/-! ### Signed numbers (R221) -/

theorem signedOf_eq_toInt {w : Nat} (hw : 0 < w) (n : Nat) : signedOf w n = (BitVec.ofNat w n).toInt := by
  obtain ⟨w, rfl⟩ := Nat.exists_eq_succ_of_ne_zero hw.ne'
  rw [signedOf, BitVec.toInt_eq_toNat_cond, BitVec.toNat_ofNat, Nat.succ_eq_add_one, Nat.add_sub_cancel, pow_succ]
  congr 1
  rw [Nat.mul_comm 2, Nat.mul_lt_mul_right (by decide)]

theorem toInt_signedOf {w : Nat} (hw : 0 < w) (v : BitVec w) : signedOf w v.toNat = v.toInt := by
  rw [signedOf_eq_toInt hw, BitVec.ofNat_toNat, BitVec.setWidth_eq]

theorem bitsOf_lt (w : Nat) (z : Int) : bitsOf w z < 2 ^ w := by
  have hpos : (0 : Int) < 2 ^ w := by positivity
  have hlt := Int.emod_lt_of_pos z hpos
  have hnn := Int.emod_nonneg z hpos.ne'
  rw [bitsOf]
  zify
  rwa [Int.toNat_of_nonneg hnn]

/-- The bits of a number in range are those of that number. -/
theorem signedOf_bitsOf {w : Nat} {z : Int} (hlo : -2 ^ w ≤ z) (hhi : z < 2 ^ w) : signedOf (w + 1) (bitsOf (w + 1) z) = z := by
  have hpow : (2 : Int) ^ (w + 1) = 2 * 2 ^ w := by rw [pow_succ]; ring
  have hmod : bitsOf (w + 1) z % 2 ^ (w + 1) = bitsOf (w + 1) z := Nat.mod_eq_of_lt (bitsOf_lt _ _)
  have hbits : ((bitsOf (w + 1) z : Nat) : Int) = z % (2 * 2 ^ w) := by
    rw [bitsOf, Int.toNat_of_nonneg (Int.emod_nonneg z (by positivity)), hpow]
  have hiff : bitsOf (w + 1) z < 2 ^ (w + 1 - 1) ↔ z % (2 * 2 ^ w) < 2 ^ w := by
    rw [← hbits, Nat.add_sub_cancel]
    exact_mod_cast Iff.rfl
  rw [signedOf, hmod, hbits, hpow]
  simp only [hiff]
  generalize (2 : Int) ^ w = p at *
  by_cases hneg : z < 0
  · have hz : z % (2 * p) = z + 2 * p := by
      rw [← Int.add_emod_right]
      exact Int.emod_eq_of_lt (by omega) (by omega)
    rw [hz, if_neg (by omega)]
    omega
  · rw [Int.emod_eq_of_lt (by omega) (by omega), if_pos (by omega)]

/-- A clamp to `w + 1` bits lies within them. -/
theorem clampInt_eq (w : Nat) (z : Int) : (clampInt (w + 1) z).1 = max (-2 ^ w) (min (2 ^ w - 1) z) := by
  have hpos : (0 : Int) < 2 ^ w := by positivity
  simp only [clampInt, Nat.add_sub_cancel]
  generalize (2 : Int) ^ w = p at *
  split
  · simp only; omega
  · split <;> (simp only; omega)

theorem signedOf_clamped (w : Nat) (z : Int) :
    signedOf (w + 1) (bitsOf (w + 1) (clampInt (w + 1) z).1) = max (-2 ^ w) (min (2 ^ w - 1) z) := by
  have hpos : (0 : Int) < 2 ^ w := by positivity
  have hclamp := clampInt_eq w z
  rw [signedOf_bitsOf, hclamp] <;> rw [hclamp] <;> omega

/-! ### Modular reduction (R239) -/

/-- The reduction of R239 is exact: its quotient is at most one too small. -/
theorem barrett_eq {q x : Nat} (hq : 0 < q) (hx : x < 2 ^ 128) : barrett q (2 ^ 128 / q) x = x % q := by
  have hM : 0 < 2 ^ 128 := Nat.two_pow_pos 128
  unfold barrett
  generalize 2 ^ 128 = M at *
  have hmu := Nat.div_mul_le_self M q
  have hmu' := Nat.lt_div_mul_add (a := M) hq
  have ht := Nat.div_mul_le_self (x * (M / q)) M
  have ht' := Nat.lt_div_mul_add (a := x * (M / q)) hM
  generalize x * (M / q) / M = t at *
  generalize M / q = mu at *
  have hlow : t * q ≤ x := by
    refine Nat.le_of_mul_le_mul_right (c := M) ?_ hM
    calc t * q * M = t * M * q := by ring
      _ ≤ x * mu * q := Nat.mul_le_mul_right q ht
      _ = x * (mu * q) := by ring
      _ ≤ x * M := Nat.mul_le_mul_left x hmu
  have hhigh : x < t * q + 2 * q := by
    refine Nat.lt_of_mul_lt_mul_right (a := M) ?_
    calc x * M ≤ x * (mu * q + q) := Nat.mul_le_mul_left x hmu'.le
      _ = x * mu * q + x * q := by ring
      _ < (t * M + M) * q + M * q := Nat.add_lt_add (Nat.mul_lt_mul_of_pos_right ht' hq) (Nat.mul_lt_mul_of_pos_right hx hq)
      _ = (t * q + 2 * q) * M := by ring
  obtain ⟨r, rfl⟩ := Nat.exists_eq_add_of_le hlow
  simp only [Nat.add_sub_cancel_left, Nat.mul_add_mod_self_right]
  have hr : r < 2 * q := by omega
  split
  · next hge =>
    rw [Nat.mod_eq_sub_mod hge, Nat.mod_eq_of_lt (by omega), if_neg (by omega)]
  · next hlt => rw [Nat.mod_eq_of_lt (Nat.lt_of_not_le hlt)]

/-! ### Codes of a format (R204 to R208) -/

/-- The codes of a format's largest magnitude, its infinity and its NaN fit its width. -/
structure Fmt.Fits (f : Fmt) : Prop where
  big : f.big < 2 ^ (f.width - 1)
  inf : ∀ i, f.inf = some i → i < 2 ^ (f.width - 1)
  nan : f.nan < 2 ^ f.width
  pos : 0 < f.width

theorem fp32_fits : fp32.Fits := ⟨by decide, by decide, by decide, by decide⟩

theorem bf16_fits : bf16.Fits := ⟨by decide, by decide, by decide, by decide⟩

theorem e4m3_fits : e4m3.Fits := ⟨by decide, by decide, by decide, by decide⟩

theorem e5m2_fits : e5m2.Fits := ⟨by decide, by decide, by decide, by decide⟩

theorem fp4_fits : fp4.Fits := ⟨by decide, by decide, by decide, by decide⟩

variable {f : Fmt}

theorem Fmt.Fits.signed (hf : f.Fits) (neg : Bool) {c : Nat} (hc : c < 2 ^ (f.width - 1)) : f.signed neg c < 2 ^ f.width := by
  have hpow : 2 ^ f.width = 2 ^ (f.width - 1) + 2 ^ (f.width - 1) := by
    rw [← Nat.mul_two, ← pow_succ, Nat.sub_add_cancel hf.pos]
  rw [Fmt.signed]
  split <;> omega

/-- A rounded code that is too large gives an infinity, or the largest magnitude. -/
theorem Fmt.roundMag_delivers (f : Fmt) (rm : Nat) (neg : Bool) (m : Nat) (e : Int) : ∃ c, f.roundMag rm neg m e =
    if c ≤ f.big then (c, false)
    else match f.inf with
      | none => (f.big, true)
      | some i => (if rm = 0 ∨ (rm = 2 ∧ !neg) ∨ (rm = 3 ∧ neg) then i else f.big, false) := ⟨_, rfl⟩

theorem Fmt.Fits.roundMag (hf : f.Fits) (rm : Nat) (neg : Bool) (m : Nat) (e : Int) : (f.roundMag rm neg m e).1 < 2 ^ (f.width - 1) := by
  have hbig := hf.big
  obtain ⟨c, hround⟩ := f.roundMag_delivers rm neg m e
  rw [hround]
  split
  · next hle => exact Nat.lt_of_le_of_lt hle hbig
  · split
    · exact hbig
    · next i hi =>
      have hinf := hf.inf i hi
      dsimp only
      split <;> assumption

/-- A code fits its format's width. -/
theorem Fmt.Fits.code (hf : f.Fits) (rm : Nat) (x : Fp) : (f.code rm x).1 < 2 ^ f.width := by
  unfold Fmt.code
  split
  · exact hf.nan
  · split
    · next i hi => exact hf.signed _ (hf.inf i hi)
    · exact hf.signed _ hf.big
  · exact hf.signed _ (Nat.two_pow_pos _)
  · exact hf.signed _ (hf.roundMag _ _ _ _)

end Sys2Proof.Machine
end

section
/-! PROOFS. The matrix engine's sums (R223, R224, R239). An element of a computed tile is its operation's fold (`MatCmd.compute_int` and
the like with `cell_elem`), whose steps are the groups of a product. -/

namespace Sys2Proof.Machine

variable {q : MatCmd} {o : Operands} {old : Nat → Tile} {i c : Nat}

/-! ### Cells of a tile -/

/-- The cells of a tile: row, column and number. -/
def tileCells : List (Nat × Nat × Nat) := (List.range 64).map fun n => (n / 8, n % 8, n)

/-- The element at a row and a column. -/
theorem cell_elem (w : Nat) (g : Nat × Nat × Nat → Nat) (hi : i < 8) (hc : c < 8) :
    elemOf w (packed w (tileCells.map g)) (8 * i + c) = g (i, c, 8 * i + c) % 2 ^ w := by
  rw [tileCells, List.map_map, elemOf_packed_range w _ (show 8 * i + c < 64 by omega), Function.comp_apply,
    show (8 * i + c) / 8 = i by omega, show (8 * i + c) % 8 = c by omega]

theorem foldl_range_succ {α : Type} (f : α → Nat → α) (a : α) (n : Nat) :
    (List.range (n + 1)).foldl f a = f ((List.range n).foldl f a) n := by
  rw [List.range_succ, List.foldl_append]
  rfl

/-! ### INT8 (R224) -/

/-- The sum of a group's products. -/
def Operands.intGroup (o : Operands) (k i c g : Nat) : Int :=
  ((List.range 8).map fun j => signedOf 8 (elemOf 8 o.a (i * k + 8 * g + j)) * signedOf 8 (elemOf 8 o.b (c * k + 8 * g + j))).sum

theorem Operands.intGroup_toInt (k g : Nat) : o.intGroup k i c g = ((List.range 8).map fun j =>
    (BitVec.ofNat 8 (elemOf 8 o.a (i * k + 8 * g + j))).toInt * (BitVec.ofNat 8 (elemOf 8 o.b (c * k + 8 * g + j))).toInt).sum := by
  simp only [Operands.intGroup, signedOf_eq_toInt (show 0 < 8 by decide)]

/-- A group of INT8 products is added to an INT32 accumulator. -/
def Operands.intStep (o : Operands) (k i c : Nat) (acc : Nat × Bool) (g : Nat) : Nat × Bool :=
  let r := clampInt 32 (signedOf 32 acc.1 + o.intGroup k i c g)
  (bitsOf 32 r.1, acc.2 || r.2)

/-- The accumulator of an INT32 element after `g` groups. -/
def Operands.intAfter (o : Operands) (k i c acc g : Nat) : Nat × Bool := (List.range g).foldl (o.intStep k i c) (acc, false)

theorem Operands.intElem_eq (k acc : Nat) : o.intElem k i c acc = o.intAfter k i c acc (k / 8) := by
  simp only [Operands.intElem, groupStepInt, ← List.sum_eq_foldl]
  rfl

theorem Operands.intAfter_succ (k acc g : Nat) : signedOf 32 (o.intAfter k i c acc (g + 1)).1 =
    max (-2 ^ 31) (min (2 ^ 31 - 1) (signedOf 32 (o.intAfter k i c acc g).1 + ((List.range 8).map fun j =>
      (BitVec.ofNat 8 (elemOf 8 o.a (i * k + 8 * g + j))).toInt * (BitVec.ofNat 8 (elemOf 8 o.b (c * k + 8 * g + j))).toInt).sum)) := by
  rw [← Operands.intGroup_toInt, Operands.intAfter, foldl_range_succ]
  exact signedOf_clamped 31 _

theorem Operands.intAfter_lt (k acc g : Nat) (hacc : acc < 2 ^ 32) : (o.intAfter k i c acc g).1 < 2 ^ 32 := by
  cases g with
  | zero => exact hacc
  | succ g =>
    rw [Operands.intAfter, foldl_range_succ]
    exact bitsOf_lt 32 _

theorem MatCmd.compute_int (hk : q.kind ≠ .mzero) (hf : q.fmt = 4) : ∃ sat, q.compute o old =
    ([BitVec.ofNat 2048 (packed 32 (tileCells.map fun x =>
      (o.intAfter q.k x.1 x.2.1 (elemOf 32 (old q.tile).toNat x.2.2) (q.k / 8)).1))], sat) := by
  refine ⟨(tileCells.map fun x => o.intElem q.k x.1 x.2.1 (elemOf 32 (old q.tile).toNat x.2.2)).any Prod.snd, ?_⟩
  simp only [MatCmd.compute, if_neg hk, hf, if_neg (show ¬ 4 = 5 by decide), if_true, ← Operands.intElem_eq]
  rw [List.map_map]
  rfl

/-! ### Floating point (R223) -/

/-- The accumulator of an FP32 element after `g` groups. -/
def Operands.floatAfter (o : Operands) (fmt k i c acc g : Nat) : Nat :=
  (List.range g).foldl (fun acc g =>
    let ps := (List.range 8).map fun j =>
      ((opFmt fmt).value (elemOf (opWidth fmt) o.a (i * k + 8 * g + j))).mul
        ((opFmt fmt).value (elemOf (opWidth fmt) o.b (c * k + 8 * g + j)))
    let blk (v r : Nat) : Fp := if fmt = 3 then blockScale (elemOf 8 v (r * (k / 8) + g)) else .fin false 1 0
    groupStep acc ps [blk o.blkA i, blk o.blkB c, bf16.value o.bandA, bf16.value o.bandB]) acc

theorem Operands.floatAfter_lt (fmt k acc g : Nat) (hacc : acc < 2 ^ 32) : o.floatAfter fmt k i c acc g < 2 ^ 32 := by
  cases g with
  | zero => exact hacc
  | succ g =>
    rw [Operands.floatAfter, foldl_range_succ]
    exact fp32_fits.code 0 _

theorem MatCmd.compute_float (hk : q.kind ≠ .mzero) (hf : q.fmt < 4) : q.compute o old =
    ([BitVec.ofNat 2048 (packed 32 (tileCells.map fun x =>
      o.floatAfter q.fmt q.k x.1 x.2.1 (elemOf 32 (old q.tile).toNat x.2.2) (q.k / 8)))], false) := by
  simp only [MatCmd.compute, if_neg hk, if_neg (show ¬ q.fmt = 5 by omega), if_neg (show ¬ q.fmt = 4 by omega)]
  rfl

/-! ### Modular sums (R239) -/

/-- A modular element is the sum's remainder. -/
theorem Operands.modElem_eq {m k acc : Nat} (hm : 0 < m) (hlt : m < 2 ^ 62) (hacc : acc < 2 ^ 64) :
    o.modElem m (2 ^ 128 / m) k i c acc =
      (acc + ((List.range k).map fun j => elemOf 64 o.a (i * k + j) * elemOf 64 o.b (c * k + j)).sum) % m := by
  have hsmall {x : Nat} (hx : x < 2 ^ 64) : barrett m (2 ^ 128 / m) x = x % m := barrett_eq hm (by omega)
  rw [Operands.modElem]
  generalize hn : (List.range k) = l
  clear hn
  induction l using List.reverseRecOn with
  | nil => simp only [List.foldl_nil, List.map_nil, List.sum_nil, Nat.add_zero, hsmall hacc]
  | append_singleton l j ih =>
    have ha : elemOf 64 o.a (i * k + j) % m < 2 ^ 62 := (Nat.mod_lt _ hm).trans hlt
    have hb : elemOf 64 o.b (c * k + j) % m < 2 ^ 62 := (Nat.mod_lt _ hm).trans hlt
    have hprod : elemOf 64 o.a (i * k + j) % m * (elemOf 64 o.b (c * k + j) % m) < 2 ^ 62 * 2 ^ 62 := Nat.mul_lt_mul'' ha hb
    have hsum : (acc + (l.map fun j => elemOf 64 o.a (i * k + j) * elemOf 64 o.b (c * k + j)).sum) % m < 2 ^ 62 :=
      (Nat.mod_lt _ hm).trans hlt
    rw [List.foldl_append, ih, List.foldl_cons, List.foldl_nil, hsmall (elemOf_lt _ _ _), hsmall (elemOf_lt _ _ _),
      barrett_eq hm (by omega), List.map_append, List.sum_append, List.map_singleton, List.sum_singleton, ← Nat.add_assoc,
      Nat.add_comm (_ % m * _)]
    exact (Nat.ModEq.add (Nat.mod_modEq _ _) (Nat.ModEq.mul (Nat.mod_modEq _ _) (Nat.mod_modEq _ _)))

theorem ofNat_low {n : Nat} (a b : BitVec n) : BitVec.ofNat n (a.toNat + 2 ^ n * b.toNat) = a := by
  apply BitVec.eq_of_toNat_eq
  rw [BitVec.toNat_ofNat, Nat.add_mul_mod_self_left, Nat.mod_eq_of_lt a.isLt]

theorem div_low {n : Nat} (a b : BitVec n) : (a.toNat + 2 ^ n * b.toNat) / 2 ^ n = b.toNat := by
  rw [Nat.add_mul_div_left _ _ (Nat.two_pow_pos n), Nat.div_eq_of_lt a.isLt, Nat.zero_add]

/-- The bits of a pair of tiles. -/
def pairBits (a b : Tile) : Nat := a.toNat + 2 ^ 2048 * b.toNat

/-- An element of a pair of tiles (R239). -/
def pairElem (a b : Tile) (i c : Nat) : Nat :=
  if i < 4 then (a.extractLsb' (64 * (8 * i + c)) 64).toNat else (b.extractLsb' (64 * (8 * (i - 4) + c)) 64).toNat

theorem elemOf_add (w v j n : Nat) : elemOf w v (j + n) = elemOf w (v / 2 ^ (w * n)) j := by
  rw [elemOf, elemOf, Nat.mul_add, Nat.add_comm, pow_add, Nat.div_div_eq_div_mul]

theorem pairElem_eq (v : Nat) (hc : c < 8) (hi : i < 8) :
    pairElem (BitVec.ofNat 2048 v) (BitVec.ofNat 2048 (v / 2 ^ 2048)) i c = elemOf 64 v (8 * i + c) := by
  unfold pairElem
  split
  · exact extract_ofNat v (by omega)
  · have hshift := elemOf_add 64 v (8 * (i - 4) + c) 32
    rw [show 8 * (i - 4) + c + 32 = 8 * i + c by omega, show 64 * 32 = 2048 from rfl] at hshift
    rw [extract_ofNat _ (by omega), hshift]

theorem pairElem_bits (a b : Tile) (hc : c < 8) (hi : i < 8) : pairElem a b i c = elemOf 64 (pairBits a b) (8 * i + c) := by
  rw [← pairElem_eq _ hc hi, pairBits, ofNat_low, div_low, BitVec.ofNat_toNat, BitVec.setWidth_eq]

theorem MatCmd.compute_mod (hk : q.kind ≠ .mzero) (hf : q.fmt = 5) : ∃ v, v = packed 64 (tileCells.map fun x =>
      o.modElem q.q q.mu q.k x.1 x.2.1 (elemOf 64 (pairBits (old q.tile) (old (q.tile + 1))) x.2.2)) ∧
    q.compute o old = ([BitVec.ofNat 2048 v, BitVec.ofNat 2048 (v / 2 ^ 2048)], false) := by
  refine ⟨_, rfl, ?_⟩
  simp only [MatCmd.compute, if_neg hk, hf, if_true]
  rfl

/-! ### What a command computes -/

theorem matrixSums (q : MatCmd) (o : Operands) (old : Nat → Tile) (hk : q.kind ≠ .mzero) :
      let op (w v n : Nat) : Nat := v / 2 ^ (w * n) % 2 ^ w
      (∀ i < 8, ∀ c < 8, q.fmt = 4 → ∃ (r : Tile) (sat : Bool) (acc : Nat → Int), q.compute o old = ([r], sat) ∧
        acc 0 = ((old q.tile).extractLsb' (32 * (8 * i + c)) 32).toInt ∧
        (∀ g < q.k / 8, acc (g + 1) = Max.max (-2 ^ 31) (Min.min (2 ^ 31 - 1) (acc g + ((List.range 8).map fun j =>
          (BitVec.ofNat 8 (op 8 o.a (i * q.k + 8 * g + j))).toInt * (BitVec.ofNat 8 (op 8 o.b (c * q.k + 8 * g + j))).toInt).sum))) ∧
        (r.extractLsb' (32 * (8 * i + c)) 32).toInt = acc (q.k / 8)) ∧
      (∀ i < 8, ∀ c < 8, q.fmt < 4 → ∃ (r : Tile) (acc : Nat → Nat), q.compute o old = ([r], false) ∧
        acc 0 = ((old q.tile).extractLsb' (32 * (8 * i + c)) 32).toNat ∧
        (∀ g < q.k / 8,
          let v (n : Nat) : Fp := (opFmt q.fmt).value n
          let ps := (List.range 8).map fun j =>
            (v (op (opWidth q.fmt) o.a (i * q.k + 8 * g + j))).mul (v (op (opWidth q.fmt) o.b (c * q.k + 8 * g + j)))
          let blk (b n : Nat) : Fp := if q.fmt = 3 then blockScale (op 8 b (n * (q.k / 8) + g)) else .fin false 1 0
          acc (g + 1) = (fp32.code 0 ((fp32.value (acc g)).add 0 (((((exactSum ps).mul (blk o.blkA i)).mul (blk o.blkB c)).mul
            (bf16.value o.bandA)).mul (bf16.value o.bandB)))).1) ∧
        (r.extractLsb' (32 * (8 * i + c)) 32).toNat = acc (q.k / 8)) ∧
      (∀ i < 8, ∀ c < 8, q.fmt = 5 → 3 ≤ q.q → q.q < 2 ^ 62 → q.mu = 2 ^ 128 / q.q → ∃ lo hi : Tile, q.compute o old = ([lo, hi], false) ∧
        let el (a b : Tile) : Nat := if i < 4 then (a.extractLsb' (64 * (8 * i + c)) 64).toNat else (b.extractLsb' (64 * (8 * (i - 4) + c)) 64).toNat
        el lo hi = (el (old q.tile) (old (q.tile + 1)) +
          ((List.range q.k).map fun j => op 64 o.a (i * q.k + j) * op 64 o.b (c * q.k + j)).sum) % q.q) := by
  refine ⟨fun i hi c hc hf => ?_, fun i hi c hc hf => ?_, fun i hi c hc hf h3 hlt hmu => ?_⟩
  · obtain ⟨sat, hcomp⟩ := MatCmd.compute_int (o := o) (old := old) hk hf
    have hold : (elemOf 32 (old q.tile).toNat (8 * i + c)) < 2 ^ 32 := elemOf_lt _ _ _
    refine ⟨_, sat, fun g => signedOf 32 (o.intAfter q.k i c (elemOf 32 (old q.tile).toNat (8 * i + c)) g).1, hcomp, ?_,
      fun g _ => o.intAfter_succ q.k _ g, ?_⟩
    · rw [← toInt_signedOf (by decide), extract_elemOf]
      rfl
    · rw [← toInt_signedOf (by decide), extract_ofNat _ (by omega), cell_elem _ _ hi hc, Nat.mod_eq_of_lt (o.intAfter_lt _ _ _ hold)]
  · have hold : (elemOf 32 (old q.tile).toNat (8 * i + c)) < 2 ^ 32 := elemOf_lt _ _ _
    refine ⟨_, fun g => o.floatAfter q.fmt q.k i c (elemOf 32 (old q.tile).toNat (8 * i + c)) g, MatCmd.compute_float hk hf,
      (extract_elemOf _ _ _).symm, fun g _ => ?_, ?_⟩
    · exact foldl_range_succ _ _ g
    · rw [extract_ofNat _ (by omega), cell_elem _ _ hi hc, Nat.mod_eq_of_lt (o.floatAfter_lt _ _ _ _ hold)]
  · obtain ⟨v, hv, hcomp⟩ := MatCmd.compute_mod (o := o) (old := old) hk hf
    refine ⟨_, _, hcomp, ?_⟩
    change pairElem _ _ i c = (pairElem _ _ i c + _) % q.q
    have hmod : o.modElem q.q q.mu q.k i c (elemOf 64 (pairBits (old q.tile) (old (q.tile + 1))) (8 * i + c)) =
        (elemOf 64 (pairBits (old q.tile) (old (q.tile + 1))) (8 * i + c) +
          ((List.range q.k).map fun j => elemOf 64 o.a (i * q.k + j) * elemOf 64 o.b (c * q.k + j)).sum) % q.q := by
      rw [hmu]
      exact o.modElem_eq (by omega) hlt (elemOf_lt _ _ _)
    have hsmall : o.modElem q.q q.mu q.k i c (elemOf 64 (pairBits (old q.tile) (old (q.tile + 1))) (8 * i + c)) < 2 ^ 64 := by
      rw [hmod]
      exact (Nat.mod_lt _ (by omega)).trans (by omega)
    rw [pairElem_eq v hc hi, pairElem_bits _ _ hc hi, hv, cell_elem 64 _ hi hc, Nat.mod_eq_of_lt hsmall, hmod]
    rfl

end Sys2Proof.Machine
end

section
/-! PROOFS. The matrix engine's steps. An arithmetic start leaves one command in flight (`State.startMat_starts`), whose results are
`MatCmd.compute` of its operands. -/

namespace Sys2Proof.Machine

variable {s u : State} {c : Nat} {q : MatCmd}

/-! ### The engine of a core -/

theorem State.upMat_core_self (f : MatEngine → MatEngine) : (s.upMat c f).core c = { s.core c with matrix := f (s.core c).matrix } :=
  State.upCore_core_self _ _ _

theorem State.upMat_matrix (f : MatEngine → MatEngine) : ((s.upMat c f).core c).matrix = f (s.core c).matrix := by
  rw [State.upMat_core_self]

theorem State.upMat_core_other {n : Nat} (f : MatEngine → MatEngine) (hn : n ≠ c) : (s.upMat c f).core n = s.core n :=
  State.upCore_core_other _ _ hn

/-- With an empty queue there is nothing to start. -/
theorem State.kickMat_idle (hq : (s.core c).matrix.queue = []) : s.kickMat c = s := by
  simp only [State.kickMat, hq]

/-- The engine's oldest entry, when no command in flight uses one. -/
theorem MatEngine.entry_first {e : MatEngine} {l : Latched} {rest : List Latched} (hf : e.flight = []) (hl : e.latch = l :: rest) :
    e.entry = some (l, 0) := by
  simp [MatEngine.entry, hf, hl]

/-- The entry that a command's arithmetic reads. -/
def State.matEntry (s : State) (c : Nat) (q : MatCmd) : Option Latched :=
  if q.kind = .mmr then (s.core c).matrix.latch[q.place]? else none

/-- The tiles of a core. -/
def State.tiles (s : State) (c n : Nat) : Tile := ((s.core c).accs.find n).getD 0

theorem State.runMat_eq (hchk : q.chk = false) : s.runMat c q =
    { q with
      result := (q.compute (q.operands (s.matEntry c q)) (s.tiles c)).1
      sat := (q.compute (q.operands (s.matEntry c q)) (s.tiles c)).2
      send := q.forward c (q.operands (s.matEntry c q)) (s.matEntry c q)
      check := none } := by
  simp only [State.runMat, hchk, Bool.false_eq_true, if_false]
  rfl

/-! ### The arithmetic starts (R228, R233, R234) -/

/-- A state in which a command's arithmetic has started: it is alone in flight, and the rest of its core and the memory are as they
were. -/
structure State.Started (s u : State) (c : Nat) (q : MatCmd) : Prop where
  queue : (u.core c).matrix.queue = []
  flight : (u.core c).matrix.flight = [q]
  accs : (u.core c).accs = (s.core c).accs
  mem : u.mem = s.mem

/-- A command that is alone in flight with its operands there has its result, and completes 4 cyc after its arithmetic. -/
theorem State.matReady_runs (hf : (s.core c).matrix.flight = [q]) (hq : (s.core c).matrix.queue = []) (hleft : q.left = [])
    (hres : q.result = []) (hmet : q.met = none) : s.Started (s.matReady c q.id) c (s.runMat c q) ∧
      coming (s.matReady c q.id) (max q.done s.cyc + 4) (.matrixCommandComplete c q.id) := by
  have hfind : (s.core c).matrix.flight.find? (fun x => x.id == q.id) = some q := by simp [hf]
  have hcore : (((s.upMatCmd c q.id fun _ => s.runMat c q).upMat c fun m => { m with ePrev := max q.done s.cyc }).core c) =
      { s.core c with matrix := { (s.core c).matrix with queue := [], flight := [s.runMat c q], ePrev := max q.done s.cyc } } := by
    rw [State.upMat_core_self, State.upMatCmd, State.upMat_core_self]
    simp only [hf, hq, List.map_nil, List.map_cons, if_true]
  have hready : s.matReady c q.id = (((s.upMatCmd c q.id fun _ => s.runMat c q).upMat c fun m =>
      { m with ePrev := max q.done s.cyc }).post (max q.done s.cyc + 4) 8 (.matrixCommandComplete c q.id)).kickMat c := by
    simp only [State.matReady, hfind, hleft, hres, hmet, List.isEmpty_nil, Bool.not_true, Bool.or_self, Bool.false_eq_true, if_false]
  rw [State.kickMat_idle (by rw [State.post_core, hcore])] at hready
  rw [hready]
  refine ⟨⟨?_, ?_, ?_, rfl⟩, State.post_coming _ _ _⟩ <;> rw [State.post_core, hcore]

/-- A command as its arithmetic starts, with the place of the entry that it uses. -/
def MatCmd.starting (q : MatCmd) (s : State) (l : Option (Latched × Nat)) : MatCmd :=
  { q with done := s.cyc + q.cycles, place := match l with | some (_, i) => i | none => 0 }

/-- The state in which a command has gone from the queue into flight. -/
def State.movesMat (s : State) (c : Nat) (q : MatCmd) (l : Option (Latched × Nat)) : State :=
  (s.upMat c fun m => { m with queue := [] }).upMat c fun m =>
    { m with flight := m.flight ++ [q.starting s l], ePrev := s.cyc + q.cycles }

/-- A command whose entry, if it uses one, fits it starts. -/
theorem State.startMat_starts {l : Option (Latched × Nat)} (hf : (s.core c).matrix.flight = []) (hw : (s.core c).matrix.wants = [])
    (hleft : q.left = []) (hres : q.result = []) (hmet : q.met = none) (hfit : ∀ e, l = some e → e.1.fmt = q.fmt ∧ e.1.k = q.k) :
    s.Started (s.startMat c q [] l) c (s.runMat c (q.starting s l)) ∧
      coming (s.startMat c q [] l) (s.cyc + q.cycles + 4) (.matrixCommandComplete c q.id) := by
  have hcore : (s.movesMat c q l).core c = { s.core c with matrix := { (s.core c).matrix with
      queue := [], flight := [q.starting s l], ePrev := s.cyc + q.cycles } } := by
    rw [State.movesMat, State.upMat_core_self, State.upMat_core_self]
    simp only [hf, List.nil_append]
  have hrun : (s.movesMat c q l).runMat c (q.starting s l) = s.runMat c (q.starting s l) := by
    simp only [State.runMat, hcore]
  have hgood : (match l with | some (l, _) => l.fmt != q.fmt || l.k != q.k | none => false) = false := by
    cases l with
    | none => rfl
    | some e =>
      obtain ⟨hfmt, hk⟩ := hfit e rfl
      simp [hfmt, hk]
  have hstart : s.startMat c q [] l = (s.movesMat c q l).matReady c q.id := by
    simp only [State.startMat, hw]
    exact (if_neg fun h => Bool.false_ne_true (hgood.symm.trans h)).trans rfl
  obtain ⟨hstarted, hcoming⟩ := State.matReady_runs (s := s.movesMat c q l) (c := c) (q := q.starting s l) (by rw [hcore]) (by rw [hcore]) hleft hres hmet
  rw [hrun] at hstarted
  rw [show max (q.starting s l).done (s.movesMat c q l).cyc = s.cyc + q.cycles from Nat.max_eq_left (Nat.le_add_right _ _)] at hcoming
  obtain ⟨hqueue, hflight, haccs, hmem⟩ := hstarted
  rw [hstart]
  exact ⟨⟨hqueue, hflight, haccs.trans (by rw [hcore]), hmem⟩, hcoming⟩

/-- The head command's arithmetic starts once its time has come (R228); an MMR's reads the oldest entry of the latch (R237). -/
theorem execMatrixArithmeticStart_starts {l : Option (Latched × Nat)} (hq : (s.core c).matrix.queue = [q])
    (hf : (s.core c).matrix.flight = []) (htime : q.effect + (if q.kind = .mzero then 4 else 16) ≤ s.cyc)
    (hprev : (s.core c).matrix.ePrev ≤ s.cyc)
    (hl : if q.kind = .mmr then (∃ e, (s.core c).matrix.entry = some e ∧ l = some e) else l = none) :
    exec (.matrixArithmeticStart c) s = .next (s.startMat c q [] l) := by
  have hnow : ¬ (s.cyc < q.effect + (if q.kind = .mzero then 4 else 16) ∨ s.cyc < (s.core c).matrix.ePrev ∨
      ((s.core c).matrix.flight.any fun q => q.result.isEmpty) = true) := by
    rw [hf]
    simp only [List.any_nil, Bool.false_eq_true, or_false]
    omega
  change execMatrixArithmeticStart c s = _
  simp only [execMatrixArithmeticStart, hq, if_neg hnow]
  split
  · next hk =>
    rw [if_pos hk] at hl
    obtain ⟨e, he, rfl⟩ := hl
    simp only [he]
  · next hk =>
    rw [if_neg hk] at hl
    rw [hl]

/-- MZERO's tile is zero. -/
theorem State.runMat_mzero (hk : q.kind = .mzero) (hchk : q.chk = false) :
    (s.runMat c q).result = [0] ∧ (s.runMat c q).send = none ∧ (s.runMat c q).check = none := by
  rw [State.runMat_eq hchk]
  refine ⟨?_, ?_, rfl⟩
  · simp only [MatCmd.compute, hk, if_true]
  · simp only [MatCmd.forward, hk]

theorem mzeroStarts (hq : (s.core c).matrix.queue = [q]) (hf : (s.core c).matrix.flight = []) (hw : (s.core c).matrix.wants = [])
    (hk : q.kind = .mzero) (hchk : q.chk = false) (hleft : q.left = []) (hres : q.result = []) (hmet : q.met = none)
    (htime : q.effect + 4 ≤ s.cyc) (hprev : (s.core c).matrix.ePrev ≤ s.cyc) :
    ∃ u q', exec (.matrixArithmeticStart c) s = .next u ∧ (u.core c).matrix.queue = [] ∧ (u.core c).matrix.flight = [q'] ∧
      q'.id = q.id ∧ q'.tile = q.tile ∧ q'.result = [0] ∧ q'.send = none ∧ q'.check = none ∧
      coming u (s.cyc + 4) (.matrixCommandComplete c q.id) ∧ (u.core c).accs = (s.core c).accs ∧ u.mem = s.mem := by
  have hne : q.kind ≠ .mmr := by rw [hk]; decide
  have hzero : q.cycles = 0 := if_pos hk
  obtain ⟨⟨hqueue, hflight, haccs, hmem⟩, hcoming⟩ := State.startMat_starts (l := none) hf hw hleft hres hmet (fun _ h => by cases h)
  obtain ⟨hresult, hsend, hcheck⟩ := State.runMat_mzero (s := s) (c := c) (q := q.starting s none) hk hchk
  rw [hzero, Nat.add_zero] at hcoming
  exact ⟨_, _, execMatrixArithmeticStart_starts hq hf (by rw [if_pos hk]; exact htime) hprev (if_neg hne ▸ rfl), hqueue, hflight, rfl, rfl,
    hresult, hsend, hcheck, hcoming, haccs, hmem⟩

theorem productStarts {e : Option Latched} (hq : (s.core c).matrix.queue = [q]) (hf : (s.core c).matrix.flight = [])
    (hw : (s.core c).matrix.wants = []) (hk : q.kind ≠ .mzero) (hchk : q.chk = false) (hleft : q.left = []) (hres : q.result = [])
    (hmet : q.met = none) (htime : q.effect + 16 ≤ s.cyc) (hprev : (s.core c).matrix.ePrev ≤ s.cyc) (hnone : q.kind ≠ .mmr → e = none)
    (hsome : q.kind = .mmr → ∃ l rest, (s.core c).matrix.latch = l :: rest ∧ e = some l ∧ l.fmt = q.fmt ∧ l.k = q.k) :
    let o := q.operands e
    ∃ u q', exec (.matrixArithmeticStart c) s = .next u ∧ (u.core c).matrix.queue = [] ∧ (u.core c).matrix.flight = [q'] ∧
      q'.id = q.id ∧ q'.tile = q.tile ∧ q'.check = none ∧
      (q'.result, q'.sat) = q.compute o (fun n => ((s.core c).accs.find n).getD 0) ∧
      q'.send = q.forward c o e ∧
      coming u (s.cyc + q.cycles + 4) (.matrixCommandComplete c q.id) ∧ (u.core c).accs = (s.core c).accs ∧ u.mem = s.mem := by
  intro o
  obtain ⟨l, hl, hfit, hentry⟩ : ∃ l : Option (Latched × Nat),
      (if q.kind = .mmr then (∃ e, (s.core c).matrix.entry = some e ∧ l = some e) else l = none) ∧
      (∀ e, l = some e → e.1.fmt = q.fmt ∧ e.1.k = q.k) ∧ s.matEntry c (q.starting s l) = e := by
    by_cases hm : q.kind = .mmr
    · obtain ⟨l, rest, hlatch, rfl, hfmt, hkk⟩ := hsome hm
      refine ⟨some (l, 0), ?_, fun e he => ?_, ?_⟩
      · rw [if_pos hm]
        exact ⟨_, MatEngine.entry_first hf hlatch, rfl⟩
      · cases he
        exact ⟨hfmt, hkk⟩
      · rw [State.matEntry, hlatch]
        exact if_pos hm
    · rw [hnone hm]
      exact ⟨none, by rw [if_neg hm], fun _ h => (by cases h), if_neg hm⟩
  obtain ⟨⟨hqueue, hflight, haccs, hmem⟩, hcoming⟩ := State.startMat_starts hf hw hleft hres hmet hfit
  rw [State.runMat_eq (q := q.starting s l) hchk, hentry] at hflight
  exact ⟨_, _, execMatrixArithmeticStart_starts hq hf (by rw [if_neg hk]; exact htime) hprev hl, hqueue, hflight, rfl, rfl, rfl, rfl, rfl,
    hcoming, haccs, hmem⟩

end Sys2Proof.Machine
end

section
/-! PROOFS. One core changes. `OnCore s u c x` says that from `s` to `u` core `c` has become `x`, and that the other cores, the time,
the memory, the requests and the cancel notices are as they were; the engines' steps keep it. -/

namespace Sys2Proof.Machine

/-- From `s` to `u` core `c` has become `x`; the agenda aside, what an engine's step leaves alone is as it was. -/
structure OnCore (s u : State) (c : Nat) (x : Core) : Prop where
  core : u.core c = x
  others : ∀ n, n ≠ c → u.core n = s.core n
  cyc : u.cyc = s.cyc
  mem : u.mem = s.mem
  reqs : u.reqs = s.reqs
  cancels : u.cancels = s.cancels

/-- The slot that an identifier names holds its thread. -/
structure Core.Holds (x : Core) (i : Tid) (t : Thread) : Prop where
  gen : (x.slot i.slot).gen = i.gen
  thread : (x.slot i.slot).thread = some t

variable {s u : State} {c k : Nat} {x : Core} {i : Tid} {t : Thread} {g : Region}

theorem State.holds_of_threadOf (ht : s.threadOf i = some t) : (s.core i.core).Holds i t := by
  simp only [State.threadOf] at ht
  split at ht
  · next hgen => exact ⟨hgen, ht⟩
  · cases ht

theorem Core.Holds.upSlot (h : x.Holds i t) (f : Thread → Thread) :
    (x.upSlot i.slot fun sl => { sl with thread := sl.thread.map f }).Holds i (f t) := by
  refine ⟨?_, ?_⟩ <;> rw [Core.upSlot_slot_self]
  · exact h.gen
  · exact congrArg (Option.map f) h.thread

theorem Core.Holds.congr {y : Core} (h : x.Holds i t) (hslots : y.slots = x.slots) : y.Holds i t := by
  have hslot : y.slot i.slot = x.slot i.slot := by rw [Core.slot, hslots]; rfl
  exact ⟨hslot ▸ h.gen, hslot ▸ h.thread⟩

namespace OnCore

theorem refl : OnCore s s c (s.core c) := ⟨rfl, fun _ _ => rfl, rfl, rfl, rfl, rfl⟩

theorem upCore (h : OnCore s u c x) (f : Core → Core) : OnCore s (u.upCore c f) c (f x) :=
  ⟨(State.upCore_core_self _ _ _).trans (congrArg f h.core), fun _ hn => (State.upCore_core_other _ _ hn).trans (h.others _ hn), h.cyc,
    h.mem, h.reqs, h.cancels⟩

theorem upMat (h : OnCore s u c x) (f : MatEngine → MatEngine) : OnCore s (u.upMat c f) c { x with matrix := f x.matrix } := h.upCore _

theorem post (h : OnCore s u c x) (time rank : Nat) (ev : Instr) : OnCore s (u.post time rank ev) c x :=
  ⟨h.core, h.others, h.cyc, h.mem, h.reqs, h.cancels⟩

theorem threadOf (h : OnCore s u c x) (hi : i.core = c) (hx : x.Holds i t) : u.threadOf i = some t := by
  rw [State.threadOf, hi, h.core]
  exact (if_pos hx.gen).trans hx.thread

theorem thread (h : OnCore s u c x) (hx : x.Holds i t) : u.thread c i.slot = some t := by
  rw [State.thread, h.core, hx.thread]

theorem upTid (h : OnCore s u c x) (hi : i.core = c) (hx : x.Holds i t) (f : Thread → Thread) :
    OnCore s (u.upTid i f) c (x.upSlot i.slot fun sl => { sl with thread := sl.thread.map f }) := by
  rw [State.upTid_of_live (h.threadOf hi hx), hi]
  exact h.upCore _

theorem regionCancelled (h : OnCore s u c x) (howner : x.owner = (s.core c).owner) (g : Region) :
    u.regionCancelled c g = s.regionCancelled c g :=
  State.regionCancelled_congr (h.core ▸ howner) h.cancels h.cyc h.mem g

theorem kickMat (h : OnCore s u c x) (n : Nat) : OnCore s (u.kickMat n) c x := by
  unfold State.kickMat
  dsimp only
  split
  · exact h
  · exact h.post _ _ _

end OnCore

/-! ### A thread goes on -/

theorem State.kick_other {n : Nat} (hn : n ≠ c) : (s.kick c).core n = s.core n := by
  unfold State.kick
  split
  · rfl
  · split
    · split
      · rfl
      · exact (State.post_core _ _ _ _).trans (State.upCore_core_other _ _ hn)
    · exact (State.post_core _ _ _ _).trans (State.upCore_core_other _ _ hn)

theorem State.resumeAt_other {n : Nat} (pc : Word) (hn : n ≠ c) : (s.resumeAt c k pc).core n = s.core n := by
  have hup : (s.upThread c k fun t => { t with pc := pc }).core n = s.core n := State.upThread_core_other _ _ _ hn
  unfold State.resumeAt State.wake
  split
  · exact hup
  · split
    · unfold State.enter
      split
      · exact hup
      · rw [State.kick_other hn, State.upThread_core_other _ _ _ hn, State.upCore_core_other _ _ hn, hup]
    · exact (State.post_core _ _ _ _).trans ((State.upThread_core_other _ _ _ hn).trans hup)

/-- A thread whose core is `x` goes on: its slot apart, and what counts who is powered, its core is as it was. -/
theorem OnCore.resumeAt (h : OnCore s u c x) (hx : x.Holds i t) (hw : (winBanks t.win).any (fun b => x.retain.contains b) = false)
    (pc : Word) : (u.resumeAt c i.slot pc).thread c i.slot = some ({ t with pc := pc } : Thread).entered ∧
      (∃ slots retain at?, (u.resumeAt c i.slot pc).core c = { x with slots := slots, retain := retain, issueAt := at? }) ∧
      (∀ n, n ≠ c → (u.resumeAt c i.slot pc).core n = s.core n) ∧ (u.resumeAt c i.slot pc).mem = s.mem := by
  have hwarm : warm u c t := by rw [warm, h.core]; exact hw
  refine ⟨State.resumeAt_thread pc (h.thread hx) hwarm, ?_, fun n hn => (State.resumeAt_other pc hn).trans (h.others n hn),
    (State.resumeAt_mem _ _ _).trans h.mem⟩
  rw [← h.core]
  exact State.resumeAt_core pc (h.thread hx) hwarm

end Sys2Proof.Machine
end

section
/-! PROOFS. Matrix commands complete (R228) and the ring's entries go on (R238). A commit is one change of its core
(`commits_onCore`); what follows it, the thread's return or a forward, is said of the state that it leaves. -/

namespace Sys2Proof.Machine

variable {s u : State} {c : Nat} {q : MatCmd} {x : Core} {th : Thread} {l : Latched}

/-! ### Tiles that a command writes -/

/-- Tiles written one after the other. -/
def putTiles (base : Nat) (l : List (Tile × Nat)) (m : Map Tile) : Map Tile := l.foldl (fun m e => m.put (base + e.2) e.1) m

theorem putTiles_find (base : Nat) (l : List Tile) (o : Nat) (m : Map Tile) (n : Nat) :
    (putTiles base (l.zipIdx o) m).find n =
      if base + o ≤ n ∧ n < base + o + l.length then l[n - (base + o)]? else m.find n := by
  induction l generalizing o m with
  | nil => rw [if_neg (by simp)]; rfl
  | cons v l ih =>
    have hstep : putTiles base ((v :: l).zipIdx o) m = putTiles base (l.zipIdx (o + 1)) (m.put (base + o) v) := rfl
    rw [hstep, ih, List.length_cons]
    rcases Nat.lt_trichotomy n (base + o) with hlt | rfl | hgt
    · rw [if_neg (by omega), if_neg (by omega), Map.find_put_other _ _ (by omega)]
    · rw [if_neg (by omega), if_pos (by omega), Map.find_put_self, Nat.sub_self]
      rfl
    · rw [Map.find_put_other _ _ (by omega), show n - (base + o) = n - (base + (o + 1)) + 1 by omega, List.getElem?_cons_succ]
      by_cases hin : n < base + o + (l.length + 1)
      · rw [if_pos (by omega), if_pos (by omega)]
      · rw [if_neg (by omega), if_neg (by omega)]

/-- A core's tiles after a command. -/
def MatCmd.written (q : MatCmd) (m : Map Tile) : Map Tile := putTiles q.tile q.result.zipIdx m

theorem MatCmd.written_at {i : Nat} {v : Tile} (m : Map Tile) (hv : q.result[i]? = some v) : (q.written m).find (q.tile + i) = some v := by
  obtain ⟨hlt, -⟩ := List.getElem?_eq_some_iff.1 hv
  rw [MatCmd.written, putTiles_find, if_pos (by omega), Nat.add_zero, Nat.add_sub_cancel_left, hv]

theorem MatCmd.written_elsewhere {n : Nat} (m : Map Tile) (hn : n < q.tile ∨ q.tile + q.result.length ≤ n) :
    (q.written m).find n = m.find n := by
  rw [MatCmd.written, putTiles_find, if_neg (by omega)]

/-! ### A commit (R228, R245) -/

/-- A thread whose command has committed. -/
def MatCmd.past (q : MatCmd) (th : Thread) : Thread :=
  { (if q.sat then { th with fmt := fmtSetSat th.fmt } else th) with pc := q.npc }

theorem MatCmd.past_region : (q.past th).region = th.region := by
  rw [MatCmd.past]
  split <;> rfl

theorem MatCmd.past_win : (q.past th).win = th.win := by
  rw [MatCmd.past]
  split <;> rfl

theorem MatCmd.past_status : (q.past th).status = th.status := by
  rw [MatCmd.past]
  split <;> rfl

theorem MatCmd.past_fmt : (q.sat = false → (q.past th).fmt = th.fmt) ∧ (q.sat = true → (q.past th).fmt.getLsbD 16 = true) := by
  refine ⟨fun h => ?_, fun h => ?_⟩
  · rw [MatCmd.past, h]
    rfl
  · rw [MatCmd.past, h]
    simp [fmtSetSat]

/-- Whether a thread is warm depends on its window alone. -/
theorem warm_of_win {t v : Thread} (hwin : v.win = t.win) (hw : warm s c t) : warm s c v := by
  rw [warm, hwin]
  exact hw

/-- A matrix engine in which a command has committed. -/
def MatEngine.commits (m : MatEngine) (id : Nat) : MatEngine :=
  { m with flight := m.flight.map fun x => if x.id = id then { x with committed := true } else x }

/-- What a commit changes. -/
def State.commits (s : State) (c : Nat) (q : MatCmd) : State :=
  (((q.result.zipIdx.foldl (fun s e => s.setA c (q.tile + e.2) e.1) s).setSat q.tid q.sat).upMat c fun m => m.commits q.id).upTid q.tid
    fun th => { th with pc := q.npc }

/-- A core after a commit: its tiles, its engine and its thread have changed. -/
structure Core.Committed (y x : Core) (q : MatCmd) (th : Thread) : Prop where
  accs : x.accs = q.written y.accs
  matrix : x.matrix = y.matrix.commits q.id
  thread : x.Holds q.tid (q.past th)
  regs : x.regs = y.regs
  owner : x.owner = y.owner
  retain : x.retain = y.retain

theorem foldl_setA_onCore (l : List (Tile × Nat)) (h : OnCore s u c x) :
    OnCore s (l.foldl (fun s e => s.setA c (q.tile + e.2) e.1) u) c { x with accs := putTiles q.tile l x.accs } := by
  induction l generalizing u x with
  | nil => exact h
  | cons e l ih => exact ih (x := { x with accs := x.accs.put (q.tile + e.2) e.1 }) (h.upCore _)

theorem commits_onCore (hlive : s.threadOf q.tid = some th) (hc : q.tid.core = c) :
    ∃ x, OnCore s (s.commits c q) c x ∧ (s.core c).Committed x q th := by
  have hholds : (s.core c).Holds q.tid th := hc ▸ State.holds_of_threadOf hlive
  have htiles := foldl_setA_onCore (q := q) q.result.zipIdx (OnCore.refl (s := s) (c := c))
  have hthread : ({ s.core c with accs := q.written (s.core c).accs } : Core).Holds q.tid th := hholds.congr rfl
  cases hsat : q.sat with
  | false =>
    have hcommit := (htiles.upMat fun m => m.commits q.id).upTid hc (hthread.congr rfl) fun th => { th with pc := q.npc }
    rw [State.commits, hsat]
    refine ⟨_, hcommit, rfl, rfl, ?_, rfl, rfl, rfl⟩
    rw [MatCmd.past, hsat]
    exact Core.Holds.upSlot (Core.Holds.congr hthread (by rfl)) fun th => { th with pc := q.npc }
  | true =>
    have hflag := htiles.upTid hc hthread fun th => { th with fmt := fmtSetSat th.fmt }
    have hflagged := hthread.upSlot fun th => { th with fmt := fmtSetSat th.fmt }
    have hcommit := (hflag.upMat fun m => m.commits q.id).upTid hc (hflagged.congr rfl) fun th => { th with pc := q.npc }
    rw [State.commits, hsat]
    refine ⟨_, hcommit, rfl, rfl, ?_, rfl, rfl, rfl⟩
    rw [MatCmd.past, hsat]
    exact Core.Holds.upSlot (Core.Holds.congr hflagged (by rfl)) fun th => { th with pc := q.npc }

@[simp] theorem State.upTid_agenda (i : Tid) (f : Thread → Thread) : (s.upTid i f).agenda = s.agenda := by
  unfold State.upTid
  split <;> rfl

theorem State.commits_agenda : (s.commits c q).agenda = s.agenda := by
  have hsat (u : State) : (u.setSat q.tid q.sat).agenda = u.agenda := by
    unfold State.setSat
    split
    · exact State.upTid_agenda _ _
    · rfl
  rw [State.commits, State.upTid_agenda]
  exact (hsat _).trans (foldl_same State.agenda (f := fun s (e : Tile × Nat) => s.setA c (q.tile + e.2) e.1) (fun _ _ => rfl) _)

/-- Where the thread of a command lives and is not cancelled, it is what follows that acts. -/
theorem State.matReturn_runs (body : State → State) (h : OnCore s u c x) (hc : q.tid.core = c) (hx : x.Holds q.tid th)
    (howner : x.owner = (s.core c).owner) (hcan : s.regionCancelled c th.region = false) : u.matReturn q body = body u := by
  have hnot : u.regionCancelled q.tid.core th.region = false := by rw [hc, h.regionCancelled howner, hcan]
  simp only [State.matReturn, h.threadOf hc hx, hnot, Bool.false_eq_true, if_false]

/-- Where no command in flight has a forward left, there is none to start. -/
theorem State.tryForward_idle {n : Nat} (hf : (s.core n).matrix.flight = []) : s.tryForward n = s := by
  simp only [State.tryForward, hf, State.tryForwards, List.find?_nil]

section
variable (hlive : s.threadOf q.tid = some th) (hc : q.tid.core = c) (hcan : s.regionCancelled c th.region = false)
include hlive hc hcan

theorem commitMat_eq : s.commitMat c q = if q.kind = .mmr then ((s.commits c q).upMat c fun m => m.unlatch q.place).tryForward (predecessor c)
    else s.commits c q := by
  obtain ⟨x, hon, -, -, hthread, -, howner, -⟩ := commits_onCore hlive hc
  have hreturn : (s.commits c q).matReturn q id = s.commits c q := State.matReturn_runs id hon hc hthread howner (by rw [q.past_region, hcan])
  exact congrArg (fun u : State => if q.kind = .mmr then (u.upMat c fun m => m.unlatch q.place).tryForward (predecessor c) else u) hreturn

/-- A core after a commit, when its command is alone in flight: an MMR's entry has left the latch. -/
theorem commitMat_onCore (hf : (s.core c).matrix.flight = [q])
    (hpred : q.kind = .mmr → predecessor c ≠ c ∧ (s.core (predecessor c)).matrix.flight = []) :
    ∃ x q', OnCore s (s.commitMat c q) c x ∧ x.accs = q.written (s.core c).accs ∧ x.matrix.flight = [q'] ∧ q'.id = q.id ∧
      x.matrix.latch = (if q.kind = .mmr then (s.core c).matrix.latch.eraseIdx q.place else (s.core c).matrix.latch) ∧
      x.Holds q.tid (q.past th) ∧ x.regs = (s.core c).regs ∧ x.owner = (s.core c).owner ∧ x.retain = (s.core c).retain := by
  obtain ⟨x, hon, haccs, hmatrix, hthread, hregs, howner, hretain⟩ := commits_onCore hlive hc
  have hflight : x.matrix.flight = [{ q with committed := true }] := by
    rw [hmatrix, MatEngine.commits, hf, List.map_singleton, if_pos rfl]
  have hlatch : x.matrix.latch = (s.core c).matrix.latch := by rw [hmatrix]; rfl
  rw [commitMat_eq hlive hc hcan]
  split
  · next hk =>
    obtain ⟨hne, hidle⟩ := hpred hk
    have hunlatch := hon.upMat fun m => m.unlatch q.place
    rw [State.tryForward_idle (by rw [hunlatch.others _ hne, hidle])]
    refine ⟨_, { q with committed := true }, hunlatch, haccs, ?_, rfl, ?_, hthread.congr rfl, hregs, howner, hretain⟩
    · simp only [MatEngine.unlatch, hflight, List.map_singleton, Nat.lt_irrefl, if_false]
    · simp only [MatEngine.unlatch, hlatch]
  · exact ⟨x, _, hon, haccs, hflight, rfl, hlatch, hthread, hregs, howner, hretain⟩

end

/-! ### A command leaves its engine (R228) -/

/-- With no access on its way, no MCFG waits. -/
theorem State.retryMatCfg_idle (hr : s.reqs = []) : s.retryMatCfg c = s := by
  rw [State.retryMatCfg, hr]
  rfl

theorem State.dropMat_onCore {id : Nat} (h : OnCore s u c x) (hr : s.reqs = []) :
    OnCore s (u.dropMat c id) c { x with matrix := { x.matrix with flight := x.matrix.flight.filter fun q => q.id != id } } := by
  have hup := h.upMat fun m => { m with flight := m.flight.filter fun q => q.id != id }
  rw [State.dropMat, State.retryMatCfg_idle (hup.reqs.trans hr)]
  exact hup.kickMat c

/-- A command that is alone in flight is done: its engine is empty, and its thread goes on. -/
theorem State.matDone_lives {q' : MatCmd} (h : OnCore s u c x) (hr : s.reqs = []) (hc : q.tid.core = c) (hx : x.Holds q.tid th)
    (howner : x.owner = (s.core c).owner) (hcan : s.regionCancelled c th.region = false) (hretain : x.retain = (s.core c).retain)
    (hw : warm s c th) (hf : x.matrix.flight = [q']) (hid : q'.id = q.id) :
    (u.matDone c q).thread c q.tid.slot = some ({ th with pc := q.npc } : Thread).entered ∧
      ((u.matDone c q).core c).accs = x.accs ∧ ((u.matDone c q).core c).matrix = { x.matrix with flight := [] } ∧
      ((u.matDone c q).core c).regs = x.regs ∧ (∀ n, n ≠ c → (u.matDone c q).core n = s.core n) ∧ (u.matDone c q).mem = s.mem := by
  have hdrop := State.dropMat_onCore (id := q.id) h hr
  have hempty : x.matrix.flight.filter (fun q' => q'.id != q.id) = [] := by simp [hf, hid]
  rw [hempty] at hdrop
  have hdone : u.matDone c q = (u.dropMat c q.id).resumeAt c q.tid.slot q.npc :=
    State.matReturn_runs _ hdrop hc (hx.congr rfl) howner hcan
  obtain ⟨hthread, ⟨_, _, _, hcore⟩, hothers, hmem⟩ := hdrop.resumeAt (hx.congr rfl) (hretain ▸ hw) q.npc
  rw [hdone]
  refine ⟨hthread, ?_, ?_, ?_, hothers, hmem⟩ <;> rw [hcore]

/-! ### Completion (R228, R238) -/

theorem matrixCommandCompletes (hf : (s.core c).matrix.flight = [q]) (hr : s.reqs = []) (hcheck : q.check = none)
    (hcom : q.committed = false) (hsend : q.send = none) (hc : q.tid.core = c) (hlive : s.threadOf q.tid = some th)
    (hcan : s.regionCancelled c th.region = false) (hw : warm s c th)
    (hpred : q.kind = .mmr → predecessor c ≠ c ∧ (s.core (predecessor c)).matrix.flight = []) :
    ∃ u w, exec (.matrixCommandComplete c q.id) s = .next u ∧
      (∀ i v, q.result[i]? = some v → (u.core c).accs.find (q.tile + i) = some v) ∧
      (∀ n, (n < q.tile ∨ q.tile + q.result.length ≤ n) → (u.core c).accs.find n = (s.core c).accs.find n) ∧
      (u.core c).matrix.flight = [] ∧
      (u.core c).matrix.latch = (if q.kind = .mmr then (s.core c).matrix.latch.eraseIdx q.place else (s.core c).matrix.latch) ∧
      u.thread c q.tid.slot = some w ∧ w.status = .ready ∧ w.pc = q.npc ∧
      (q.sat = false → w.fmt = th.fmt) ∧ (q.sat = true → w.fmt.getLsbD 16 = true) ∧
      (u.core c).regs = (s.core c).regs ∧ u.mem = s.mem := by
  obtain ⟨x, q', hon, haccs, hflight, hid, hlatch, hthread, hregs, howner, hretain⟩ := commitMat_onCore hlive hc hcan hf hpred
  obtain ⟨hgoes, haccs', hmatrix, hregs', -, hmem⟩ := State.matDone_lives hon hr hc hthread howner (by rw [q.past_region, hcan]) hretain
    (warm_of_win q.past_win hw) hflight hid
  have hexec : exec (.matrixCommandComplete c q.id) s = .next ((s.commitMat c q).matDone c q) := by
    have hfind : (s.core c).matrix.flight.find? (fun x => x.id == q.id) = some q := by simp [hf]
    change execMatrixCommandComplete c q.id s = _
    simp only [execMatrixCommandComplete, hfind, hcheck, hcom, hsend, Bool.false_eq_true, if_false]
  obtain ⟨hplain, hsat⟩ := q.past_fmt (th := th)
  refine ⟨_, _, hexec, fun i v hv => ?_, fun n hn => ?_, ?_, ?_, hgoes, rfl, rfl, hplain, hsat, hregs'.trans hregs, hmem⟩
  · rw [haccs', haccs, MatCmd.written_at _ hv]
  · rw [haccs', haccs, MatCmd.written_elsewhere _ hn]
  · rw [hmatrix]
  · rw [hmatrix, ← hlatch]

/-- A matrix engine of which a command's entry is on its way. -/
def MatEngine.sends (m : MatEngine) (id : Nat) : MatEngine :=
  { m with flight := m.flight.map fun x => if x.id = id then { x with going := true } else x }

/-- The state in which an entry is on its way to the next core, whose latch keeps a place for it. -/
def State.forwards (s : State) (c id : Nat) (l : Latched) : State :=
  ((s.upMat c fun m => m.sends id).upMat (successor c) fun m => { m with coming := m.coming + 1 }).after l.cycles 8 (.ringForward c id)

theorem State.after_core (d rank : Nat) (ev : Instr) (n : Nat) : (s.after d rank ev).core n = s.core n := rfl

theorem State.forwards_core_self (id : Nat) (l : Latched) (hsucc : successor c ≠ c) :
    (s.forwards c id l).core c = { s.core c with matrix := (s.core c).matrix.sends id } := by
  rw [State.forwards, State.after_core, State.upMat_core_other _ hsucc.symm, State.upMat_core_self]

theorem State.forwards_matrix_next (id : Nat) (l : Latched) (hsucc : successor c ≠ c) :
    ((s.forwards c id l).core (successor c)).matrix =
      { (s.core (successor c)).matrix with coming := (s.core (successor c)).matrix.coming + 1 } := by
  rw [State.forwards, State.after_core, State.upMat_matrix, State.upMat_core_other _ hsucc]

theorem State.forwards_coming (id : Nat) (l : Latched) : coming (s.forwards c id l) (s.cyc + l.cycles) (.ringForward c id) :=
  State.after_coming _ _ _

/-- The first forward that waits starts when the next core's latch has room. -/
theorem State.tryForward_starts (hf : (s.core c).matrix.flight = [q]) (hcom : q.committed = true) (hsend : q.send = some l)
    (hgo : q.going = false) (hctx : s.ctxOf (successor c) = q.ctx) : s.tryForward c =
      if 2 ≤ (s.core (successor c)).matrix.latch.length + (s.core (successor c)).matrix.coming then s else s.forwards c q.id l := by
  have hfind : (s.core c).matrix.flight.find? (fun q => q.committed && q.send.isSome) = some q := by simp [hf, hcom, hsend]
  have hlen : (s.core c).matrix.flight.length = 1 := by rw [hf]; rfl
  simp only [State.tryForward, hlen, State.tryForwards, hfind, hgo, Bool.false_eq_true, if_false, hctx, ne_eq, not_true_eq_false, hsend]
  rfl

theorem matrixRingCommits (hf : (s.core c).matrix.flight = [q]) (hcheck : q.check = none)
    (hcom : q.committed = false) (hgo : q.going = false) (hsend : q.send = some l) (hk : q.kind = .mring) (hc : q.tid.core = c)
    (hsucc : successor c ≠ c) (hlive : s.threadOf q.tid = some th) (hcan : s.regionCancelled c th.region = false)
    (hctx : s.ctxOf (successor c) = q.ctx) :
    let n := (s.core (successor c)).matrix
    ∃ u w, exec (.matrixCommandComplete c q.id) s = .next u ∧
      (∀ i v, q.result[i]? = some v → (u.core c).accs.find (q.tile + i) = some v) ∧
      u.thread c q.tid.slot = some w ∧ w.status = th.status ∧ w.pc = q.npc ∧ u.mem = s.mem ∧
      (n.latch.length + n.coming < 2 → coming u (s.cyc + l.cycles) (.ringForward c q.id) ∧
        (u.core (successor c)).matrix.coming = n.coming + 1 ∧ (u.core c).matrix.flight = [{ q with committed := true, going := true }]) ∧
      (2 ≤ n.latch.length + n.coming → (u.core (successor c)).matrix = n ∧
        (u.core c).matrix.flight = [{ q with committed := true }] ∧ u.agenda = s.agenda) := by
  intro n
  obtain ⟨x, hon, haccs, hmatrix, hthread, -, -, -⟩ := commits_onCore hlive hc
  have hnotmmr : q.kind ≠ .mmr := by rw [hk]; decide
  have hcommit : s.commitMat c q = s.commits c q := (commitMat_eq hlive hc hcan).trans (if_neg hnotmmr)
  have hexec : exec (.matrixCommandComplete c q.id) s = .next ((s.commits c q).tryForward c) := by
    have hfind : (s.core c).matrix.flight.find? (fun x => x.id == q.id) = some q := by simp [hf]
    change execMatrixCommandComplete c q.id s = _
    simp only [execMatrixCommandComplete, hfind, hcheck, hcom, hsend, Bool.false_eq_true, if_false, hcommit]
  have hflight : x.matrix.flight = [{ q with committed := true }] := by
    rw [hmatrix, MatEngine.commits, hf, List.map_singleton, if_pos rfl]
  have hnext : (s.commits c q).core (successor c) = s.core (successor c) := hon.others _ hsucc
  have htry := State.tryForward_starts (s := s.commits c q) (c := c) (q := { q with committed := true }) (by rw [hon.core, hflight]) rfl
    hsend hgo (by rw [State.ctxOf, hnext]; exact hctx)
  rw [hnext] at htry
  rw [hexec, htry]
  by_cases hroom : 2 ≤ n.latch.length + n.coming
  · refine ⟨_, q.past th, by rw [if_pos hroom], fun i v hv => ?_, hon.thread hthread, q.past_status, rfl, hon.mem, fun h => by omega,
      fun _ => ⟨?_, ?_, State.commits_agenda⟩⟩
    · rw [hon.core, haccs, MatCmd.written_at _ hv]
    · rw [hnext]
    · rw [hon.core, hflight]
  · have hself := State.forwards_core_self (s := s.commits c q) q.id l hsucc
    have hcoming := State.forwards_coming (s := s.commits c q) (c := c) q.id l
    rw [hon.core] at hself
    rw [hon.cyc] at hcoming
    refine ⟨(s.commits c q).forwards c q.id l, q.past th, by rw [if_neg hroom], fun i v hv => ?_, ?_, q.past_status, rfl, hon.mem,
      fun _ => ⟨hcoming, ?_, ?_⟩, fun h => absurd h hroom⟩
    · rw [hself, haccs, MatCmd.written_at _ hv]
    · rw [State.thread, hself]
      exact hthread.thread
    · rw [State.forwards_matrix_next q.id l hsucc, hnext]
    · rw [hself]
      simp only [MatEngine.sends, hflight, List.map_singleton, if_true]

/-! ### An entry arrives (R238) -/

theorem State.upMat_slots {n : Nat} (f : MatEngine → MatEngine) : ((s.upMat c f).core n).slots = (s.core n).slots := by
  rw [State.upMat, State.upCore_core]
  split
  · next hn => rw [hn]
  · rfl

theorem State.threadOf_slots {i : Tid} (hslots : (u.core i.core).slots = (s.core i.core).slots) : u.threadOf i = s.threadOf i := by
  simp only [State.threadOf, Core.slot, hslots]
  rfl

theorem State.kickMat_core (n m : Nat) : (s.kickMat n).core m = s.core m := by
  unfold State.kickMat
  dsimp only
  split <;> rfl

/-- The state in which an entry has reached the next core (R246). -/
def State.takesEntry (s : State) (c : Nat) (q : MatCmd) (l : Latched) : State :=
  s.upMat (successor c) fun m =>
    { m with latch := if s.ctxOf (successor c) = q.ctx then m.latch ++ [l] else m.latch, coming := m.coming - 1 }

theorem ringEntryArrives (hf : (s.core c).matrix.flight = [q]) (hsend : q.send = some l) (hr : s.reqs = []) (hsucc : successor c ≠ c)
    (hlive : s.threadOf q.tid = none ∨
      q.tid.core = c ∧ ∃ th, s.threadOf q.tid = some th ∧ s.regionCancelled c th.region = false ∧ warm s c th) :
    ∃ u, exec (.ringForward c q.id) s = .next u ∧
      (u.core (successor c)).matrix.latch = (if s.ctxOf (successor c) = q.ctx then (s.core (successor c)).matrix.latch ++ [l]
        else (s.core (successor c)).matrix.latch) ∧
      (u.core (successor c)).matrix.coming = (s.core (successor c)).matrix.coming - 1 ∧ (u.core c).matrix.flight = [] ∧ u.mem = s.mem ∧
      (∀ th, s.threadOf q.tid = some th → ∃ w, u.thread c q.tid.slot = some w ∧ w.status = .ready ∧ w.pc = q.npc) := by
  have hfind : (s.core c).matrix.flight.find? (fun x => x.id == q.id) = some q := by simp [hf]
  have hexec : exec (.ringForward c q.id) s =
      .next ((((s.takesEntry c q l).matDone c q).kickMat (successor c)).tryForward c) := by
    change execRingForward c q.id s = _
    simp only [execRingForward, hfind, hsend]
    rfl
  have hself : (s.takesEntry c q l).core c = s.core c := State.upMat_core_other _ hsucc.symm
  have hnext : ((s.takesEntry c q l).core (successor c)).matrix = { (s.core (successor c)).matrix with
      latch := if s.ctxOf (successor c) = q.ctx then (s.core (successor c)).matrix.latch ++ [l] else (s.core (successor c)).matrix.latch
      coming := (s.core (successor c)).matrix.coming - 1 } := State.upMat_matrix _
  have hflight : ((s.takesEntry c q l).core c).matrix.flight = [q] := by rw [hself, hf]
  obtain ⟨hempty, hothers, hmem, hgoes⟩ : (((s.takesEntry c q l).matDone c q).core c).matrix.flight = [] ∧
      ((s.takesEntry c q l).matDone c q).core (successor c) = (s.takesEntry c q l).core (successor c) ∧
      ((s.takesEntry c q l).matDone c q).mem = s.mem ∧ (∀ th, s.threadOf q.tid = some th →
        ∃ w, ((s.takesEntry c q l).matDone c q).thread c q.tid.slot = some w ∧ w.status = .ready ∧ w.pc = q.npc) := by
    rcases hlive with hgone | ⟨hc, th, hth, hcan, hw⟩
    · have hdrop := State.dropMat_onCore (id := q.id) (OnCore.refl (s := s.takesEntry c q l) (c := c)) hr
      have hslots : (((s.takesEntry c q l).dropMat c q.id).core q.tid.core).slots = (s.core q.tid.core).slots := by
        by_cases hc : q.tid.core = c
        · rw [hc, hdrop.core, hself]
        · rw [hdrop.others _ hc, State.takesEntry, State.upMat_slots]
      have hdone : (s.takesEntry c q l).matDone c q = (s.takesEntry c q l).dropMat c q.id := by
        simp only [State.matDone, State.matReturn, State.threadOf_slots hslots, hgone]
      rw [hdone]
      refine ⟨?_, hdrop.others _ hsucc, hdrop.mem, fun th hth => by rw [hgone] at hth; cases hth⟩
      rw [hdrop.core]
      simp [hflight]
    · have hholds : ((s.takesEntry c q l).core c).Holds q.tid th := by
        rw [hself, ← hc]
        exact State.holds_of_threadOf hth
      have hcan' : (s.takesEntry c q l).regionCancelled c th.region = false := by
        exact (State.regionCancelled_congr (s := s) (u := s.takesEntry c q l) (by rw [hself]) rfl rfl rfl th.region).trans hcan
      have hw' : warm (s.takesEntry c q l) c th := by
        rw [warm, hself]
        exact hw
      obtain ⟨hthread, -, hmatrix, -, hothers, hmem⟩ := State.matDone_lives (OnCore.refl (s := s.takesEntry c q l)) hr hc hholds rfl hcan' rfl
        hw' hflight rfl
      refine ⟨by rw [hmatrix], hothers _ hsucc, hmem, fun th' hth' => ?_⟩
      exact ⟨_, hthread, rfl, rfl⟩
  have hidle : ((((s.takesEntry c q l).matDone c q).kickMat (successor c)).core c).matrix.flight = [] := by
    rw [State.kickMat_core, hempty]
  rw [State.tryForward_idle hidle] at hexec
  refine ⟨_, hexec, ?_, ?_, ?_, ?_, ?_⟩
  · rw [State.kickMat_core, hothers, hnext]
  · rw [State.kickMat_core, hothers, hnext]
  · exact hidle
  · rw [(OnCore.refl.kickMat (c := c) (successor c)).mem, hmem]
  · intro th hth
    rw [State.thread, State.kickMat_core]
    exact hgoes th hth

end Sys2Proof.Machine
end

section
/-! PROOFS. Matrix commands join their queue (R228, R232), and MQRY answers (R244). A command's entry is one change of its core, its
thread parked and a start on the agenda (`State.enterMat_joins`); that its operand reads are sent leaves all of that (`State.Sends`). -/

namespace Sys2Proof.Machine

variable {s u w : State} {h : Hand} {t : Thread} {q : MatCmd} {c : Nat}

/-! ### Requests are sent -/

/-- From `s` to `u` requests have been sent: keys have been used, and steps have been added to the agenda. -/
structure State.Sends (s u : State) : Prop where
  core : ∀ n, ∃ keys, u.core n = { s.core n with keys := keys }
  coming : ∀ time ev, coming s time ev → coming u time ev
  mem : u.mem = s.mem

namespace State.Sends

theorem refl : s.Sends s := ⟨fun _ => ⟨_, rfl⟩, fun _ _ h => h, rfl⟩

theorem trans (h : s.Sends u) (h' : u.Sends w) : s.Sends w := by
  refine ⟨fun n => ?_, fun time ev hc => h'.coming time ev (h.coming time ev hc), h'.mem.trans h.mem⟩
  obtain ⟨_, hu⟩ := h.core n
  obtain ⟨_, hw⟩ := h'.core n
  rw [hw, hu]
  exact ⟨_, rfl⟩

/-- A change of the requests, the caches or the clusters. -/
theorem of_same (hcores : u.cores = s.cores) (hsys : u.sys = s.sys) (hagenda : u.agenda = s.agenda) (hmem : u.mem = s.mem) : s.Sends u := by
  refine ⟨fun n => ⟨(s.core n).keys, ?_⟩, fun _ _ ⟨rank, hr⟩ => ⟨rank, hagenda ▸ hr⟩, hmem⟩
  rw [State.core, hcores, hsys]
  rfl

theorem post (s : State) (time rank : Nat) (ev : Instr) : s.Sends (s.post time rank ev) :=
  ⟨fun _ => ⟨_, rfl⟩, fun _ _ hc => State.post_coming_old _ _ _ hc, rfl⟩

theorem upReq (s : State) (n : Nat) (f : Req → Req) : s.Sends (s.upReq n f) := of_same rfl rfl rfl rfl

theorem addReq (s : State) (r : Req) : s.Sends (s.addReq r).2 := of_same rfl rfl rfl rfl

theorem foldl {α : Type} {f : State → α → State} (hf : ∀ (u : State) a, u.Sends (f u a)) (l : List α) : s.Sends (l.foldl f s) := by
  induction l generalizing s with
  | nil => exact refl
  | cons a l ih => exact (hf s a).trans ih

theorem useKey (s : State) (c : Nat) (n : KeyName) : s.Sends (s.useKey c n) := by
  refine ⟨fun m => ?_, fun _ _ hc => hc, rfl⟩
  rw [State.useKey, State.upCore_core]
  split
  · next hm => exact ⟨_, by rw [hm]⟩
  · exact ⟨_, rfl⟩

theorem sendDirty (s : State) (core : Nat) (l : CLine) (ws : List Nat) (acq : Option Tid) : s.Sends (s.sendDirty core l ws acq) := by
  unfold State.sendDirty
  split
  · exact refl
  · exact (addReq s _).trans (post _ _ _ _)

theorem flushLine (s : State) (core line : Nat) : s.Sends (s.flushLine core line) := by
  unfold State.flushLine
  exact (foldl (fun u l => sendDirty u core l _ none) _).trans (of_same rfl rfl rfl rfl)

theorem noteLine (s : State) (n : Nat) (r : Req) : s.Sends (s.noteLine n r) := by
  unfold State.noteLine
  split
  · exact refl
  · exact of_same rfl rfl rfl rfl

theorem go (s : State) (n : Nat) : s.Sends (s.go n) := by
  unfold State.go
  split
  · exact refl
  · next r _ =>
    have hflush : s.Sends (if r.flushes then r.lines.foldl (fun s l => s.flushLine r.core l) s else s) := by
      split
      · exact foldl (fun u l => flushLine u r.core l) _
      · exact refl
    refine hflush.trans ?_
    generalize (if r.flushes then r.lines.foldl (fun s l => s.flushLine r.core l) s else s) = u
    dsimp only
    split
    · exact upReq u n _
    · split
      · exact (upReq u n _).trans (post _ _ _ _)
      · refine (upReq u n fun r => { r with stage := .sent, lat := r.time }).trans ?_
        split
        · exact of_same rfl rfl rfl rfl
        · exact (noteLine _ n r).trans (post _ _ _ _)

theorem send (s : State) (n : Nat) (key : KeyName) : s.Sends (s.send n key) := by
  unfold State.send
  split
  · exact refl
  · split
    · exact go s n
    · split
      · exact (useKey s _ key).trans (go _ n)
      · exact (upReq s n _).trans (post _ _ _ _)

theorem fetchMat (s : State) (core : Nat) (q : MatCmd) : s.Sends (s.fetchMat core q) :=
  foldl (fun u _ => (addReq u _).trans (send _ _ _)) _

end State.Sends

/-! ### A command joins the queue (R228) -/

/-- The cycles before a command's arithmetic may start. -/
def MatCmd.lag (q : MatCmd) : Nat := if q.kind = .mzero then 4 else 16

/-- A command as it enters the queue. -/
def MatCmd.entering (q : MatCmd) (now : Nat) : MatCmd := { q with effect := now, left := List.range q.pieces.length }

/-- The state in which a command stands in the queue and its thread is parked. -/
def State.queuesMat (s : State) (c : Nat) (q : MatCmd) : State :=
  (((s.upMat c fun m => { m with queue := m.queue ++ [q.entering s.cyc] }).park c q.tid.slot .engine (.matrix q.id)).post
    (max (s.cyc + q.lag) (s.core c).matrix.ePrev) 8 (.matrixArithmeticStart c))

theorem State.enterMat_eq : s.enterMat c q = (s.queuesMat c q).fetchMat c (q.entering s.cyc) := rfl

theorem State.queuesMat_core : ∃ slots, (s.queuesMat c q).core c =
    { s.core c with matrix := { (s.core c).matrix with queue := (s.core c).matrix.queue ++ [q.entering s.cyc] }, slots := slots } := by
  obtain ⟨slots, hpark⟩ := State.park_slots (s := s.upMat c fun m => { m with queue := m.queue ++ [q.entering s.cyc] }) (c := c)
    (k := q.tid.slot) .engine (.matrix q.id) c
  rw [State.upMat_core_self] at hpark
  exact ⟨slots, hpark⟩

theorem State.queuesMat_thread (ht : s.thread c q.tid.slot = some t) : ∃ v, (s.queuesMat c q).thread c q.tid.slot = some v ∧
    v.status = .parked .engine (.matrix q.id) ∧ v.pc = t.pc := by
  have hqueued : (s.upMat c fun m => { m with queue := m.queue ++ [q.entering s.cyc] }).thread c q.tid.slot = some t := by
    rw [State.thread, State.upMat_core_self]
    exact ht
  exact ⟨_, State.park_thread .engine (.matrix q.id) hqueued, rfl, rfl⟩

theorem State.enterMat_joins (ht : s.thread c q.tid.slot = some t) :
    ∃ v, ((s.enterMat c q).core c).matrix.queue = (s.core c).matrix.queue ++ [q.entering s.cyc] ∧
      (s.enterMat c q).thread c q.tid.slot = some v ∧ v.status = .parked .engine (.matrix q.id) ∧ v.pc = t.pc ∧
      coming (s.enterMat c q) (max (s.cyc + q.lag) (s.core c).matrix.ePrev) (.matrixArithmeticStart c) ∧
      ((s.enterMat c q).core c).accs = (s.core c).accs ∧ (s.enterMat c q).mem = s.mem := by
  obtain ⟨v, hthread, hstatus, hpc⟩ := State.queuesMat_thread ht
  obtain ⟨_, hqueues⟩ := State.queuesMat_core (s := s) (c := c) (q := q)
  have hsends := State.Sends.fetchMat (s.queuesMat c q) c (q.entering s.cyc)
  obtain ⟨_, hcore⟩ := hsends.core c
  have hslot : ((s.queuesMat c q).fetchMat c (q.entering s.cyc)).thread c q.tid.slot = some v := by
    rw [State.thread, hcore]
    exact hthread
  rw [hqueues] at hcore
  rw [State.enterMat_eq]
  refine ⟨v, ?_, hslot, hstatus, hpc, hsends.coming _ _ (State.post_coming _ _ _), ?_, hsends.mem.trans (State.park_mem _ _)⟩ <;> rw [hcore]

/-- A command that finds room in the queue. -/
theorem Cx.submitMat_enters {x : Cx} (hlen : (s.core x.core).matrix.queue.length < 2) (hw : (s.core x.core).matrix.wants = []) :
    x.submitMat s q = .next (s.fresh.2.enterMat x.core { q with id := s.serial, effect := s.cyc }) :=
  if_pos ⟨hlen, hw⟩

theorem begun_fresh_thread (ht : s.thread h.core h.slot = some t) : (begun s h).fresh.2.thread h.core h.slot = some t.issuing :=
  begun_thread_self ht

/-- A command at issue that finds room joins its queue, and its thread parks. -/
theorem submitMat_begun {k : Kind} (hi : Issues s k h t) (hq : q.tid = (cxAt s h t).tid (begun s h))
    (hlen : (s.core h.core).matrix.queue.length < 2) (hw : (s.core h.core).matrix.wants = []) :
    ∃ u q' v, (cxAt s h t).submitMat (begun s h) q = .next u ∧ (u.core h.core).matrix.queue = (s.core h.core).matrix.queue ++ [q'] ∧
      q' = { q with id := s.serial, effect := s.cyc, left := List.range q.pieces.length } ∧
      u.thread h.core h.slot = some v ∧ v.status = .parked .engine (.matrix s.serial) ∧ v.pc = t.pc ∧
      coming u (max (s.cyc + q.lag) (s.core h.core).matrix.ePrev) (.matrixArithmeticStart h.core) ∧
      (u.core h.core).accs = (s.core h.core).accs ∧ u.mem = s.mem := by
  have hmatrix : ((begun s h).fresh.2.core h.core).matrix = (s.core h.core).matrix := begun_core_matrix _
  have hslot : q.tid.slot = h.slot := congrArg Tid.slot hq
  have haccs : ((begun s h).fresh.2.core h.core).accs = (s.core h.core).accs := begun_core_accs _
  obtain ⟨v, hqueue, hthread, hstatus, hpc, hcoming, haccs', hmem⟩ := State.enterMat_joins (s := (begun s h).fresh.2) (c := h.core)
    (q := { q with id := s.serial, effect := s.cyc }) (t := t.issuing)
    (hslot.symm ▸ begun_fresh_thread hi.live)
  rw [hmatrix] at hqueue hcoming
  rw [hslot] at hthread
  exact ⟨_, _, v, Cx.submitMat_enters (by rw [begun_core_matrix]; exact hlen) (by rw [begun_core_matrix]; exact hw), hqueue, rfl, hthread,
    hstatus, hpc, hcoming, haccs'.trans haccs, hmem⟩

/-! ### Issue (R232) -/

theorem exec_matForm {i : Instr} {kind : MatKind} {chk : Bool} {d a : Reg} {b : Option Reg} (hf : matForm i = some (kind, chk, d, a, b)) :
    kind ≠ .mzero ∧ ∃ m : Mod, m.check = chk ∧ exec i s = issueMat kind m d a b s := by
  unfold matForm at hf
  split at hf
  all_goals cases hf
  exacts [⟨by decide, _, rfl, rfl⟩, ⟨by decide, _, rfl, rfl⟩, ⟨by decide, _, rfl, rfl⟩, ⟨by decide, _, rfl, rfl⟩]

/-- A product that its configuration and its ranges let, and that no earlier access holds back, is submitted. -/
theorem issueMat_runs {kind : MatKind} {m : Mod} {d a : Reg} {b : Option Reg} {k : Nat} {cfg : List Word} {pa pb : Word}
    (hi : Issues s (matKind s kind d a b) h t) (hcfg : cfg = ((s.core h.core).matrix.cfg.find (t.fmt.extractLsb' 0 3).toNat).getD [])
    (hpa : pa = regOf s h t a) (hsome : ∀ x, b = some x → pb = regOf s h t x) (hnone : b = none → pb = 0)
    (hk : kOf cfg (s.core h.core).matrix.lc = some k) (htakes : kind.takes (fieldOf cfg 0 0 4) = true) (hok : kOk k = true)
    (hring : (kind.ring && decide (4096 < k * opWidth (fieldOf cfg 0 0 4))) = false)
    (hevent : (cxOf h t).matEvent (begun s h) kind pa pb ((cxOf h t).matRanges kind (fieldOf cfg 0 0 4) k pa pb) = none)
    (hheld : (begun s h).heldBack ((cxOf h t).tid (begun s h)) false = false)
    (hconf : (cxOf h t).matConflicts (begun s h) ((cxOf h t).matRanges kind (fieldOf cfg 0 0 4) k pa pb) = false) :
    issueMat kind m d a b s =
      (cxAt s h t).submitMat (begun s h) ((cxAt s h t).matCapture (begun s h) kind m.check d cfg k pa pb) := by
  have hcfg' : ((cxAt s h t).res.matCfg.find (fmtTag (cxAt s h t).th.fmt)).getD [] = cfg := hcfg.symm
  have hlc : kOf cfg (cxAt s h t).res.matLc = some k := hk
  have hform : (!kind.takes (fieldOf cfg 0 0 4) || !kOk k || (kind.ring && decide (4096 < k * opWidth (fieldOf cfg 0 0 4)))) = false := by
    rw [htakes, hok, hring]
    rfl
  have hgood : ((begun s h).heldBack ((cxAt s h t).tid (begun s h)) false || (cxAt s h t).matConflicts (begun s h)
      ((cxAt s h t).matRanges kind (fieldOf cfg 0 0 4) k pa pb)) = false := Bool.or_eq_false_iff.2 ⟨hheld, hconf⟩
  have hevent' : (cxAt s h t).matEvent (begun s h) kind pa pb ((cxAt s h t).matRanges kind (fieldOf cfg 0 0 4) k pa pb) = none := hevent
  rw [issueMat]
  refine (issue_runs (k := matKind s kind d a b) hi _).trans ?_
  subst hpa
  cases b with
  | none =>
    obtain rfl := hnone rfl
    simp only [hcfg', begun_regOf, hlc, hform, hevent', hgood, Bool.false_eq_true, if_false]
  | some b =>
    obtain rfl := hsome b rfl
    simp only [hcfg', begun_regOf, hlc, hform, hevent', hgood, Bool.false_eq_true, if_false]

/-- MZERO's check of th.band is the one that it has. -/
theorem execMzero_runs {d : Reg} (hi : Issues s { names := { a := [rn d] }, big := false } h t) : exec (.mzero d) s =
    if t.band.toNat % 2 ≠ 0 then .next ((begun s h).trap h.core h.slot 0x02 t.band t.pc 0 false)
    else (cxAt s h t).submitMat (begun s h) { (cxAt s h t).matCapture (begun s h) .mzero false d [] 0 0 0 with cfg := 8 } :=
  issue_runs hi _

/-! ### MQRY (R235, R244) -/

theorem latchWord_cons {ls rest : List Latched} {l : Latched} (hl : ls = l :: rest) :
    latchWord c ls = BitVec.ofNat 64 (ls.length + 4 * localIndex c + 64 * l.origin + 1024 * l.hop) := by
  rw [hl]
  rfl

theorem latchWord_nil : latchWord c [] = BitVec.ofNat 64 (4 * localIndex c) := by
  simp [latchWord]

theorem execMqry_runs {d : Reg} {code : BitVec 4} (hi : Issues s { smallKind [d] with bad := decide (9 < code.toNat) } h t) :
    exec (.mqry d code) s = .next (retires s h t d
      (if code.toNat < 8 then wordOf (((s.core h.core).matrix.cfg.find code.toNat).getD []) 0
        else if code.toNat = 8 then latchWord h.core (s.core h.core).matrix.latch else BitVec.ofNat 64 (s.core h.core).matrix.checks)) := by
  rw [← begun_core_matrix (h := h)]
  exact issueRet_runs hi

/-! ### The obligation -/

/-- Settles O48: issue is `issueMat_runs` and `submitMat_begun`; the arithmetic starts by `mzeroStarts` and `productStarts`, and sums by
`matrixSums`; completion, commit and forward are one change of the engine's core each. -/
theorem matrixCommandsJoinAndComplete : Obligations.MatrixCommandsJoinAndComplete := by
  unfold Obligations.MatrixCommandsJoinAndComplete
  refine ⟨⟨?_, ?_⟩, ?_, ?_, ?_, ?_, ?_, ?_, ?_⟩
  · intro s h t i kind chk d a b k hf hi e cfg fmt pa pb hk htakes hok hring rs hevent hheld hconf hlen hw
    obtain ⟨hkind, m, hm, hexec⟩ := exec_matForm (s := s) hf
    have hruns := issueMat_runs (m := m) (pb := pb) hi rfl rfl (fun x hx => by simp only [pb, hx]) (fun hx => by simp only [pb, hx])
      hk htakes hok hring hevent hheld hconf
    obtain ⟨u, q, v, hsubmit, hqueue, rfl, hthread, hstatus, hpc, hcoming, haccs, hmem⟩ := submitMat_begun
      (q := (cxAt s h t).matCapture (begun s h) kind m.check d cfg k pa pb) hi rfl hlen hw
    have hlag : ((cxAt s h t).matCapture (begun s h) kind m.check d cfg k pa pb).lag = 16 := if_neg hkind
    rw [hlag] at hcoming
    exact ⟨u, _, v, hexec.trans (hruns.trans hsubmit), hqueue, rfl, rfl, hm, rfl, rfl, rfl, rfl, rfl, hthread, hstatus, hpc, hcoming, haccs, hmem⟩
  · intro s h t d hi e
    refine ⟨fun hodd => (execMzero_runs hi).trans (if_pos hodd), fun heven hlen hw => ?_⟩
    obtain ⟨u, q, v, hsubmit, hqueue, rfl, hthread, hstatus, hpc, hcoming, haccs, hmem⟩ := submitMat_begun
      (q := { (cxAt s h t).matCapture (begun s h) .mzero false d [] 0 0 0 with cfg := 8 }) hi rfl hlen hw
    exact ⟨u, _, v, (execMzero_runs hi).trans ((if_neg (not_not.2 heven)).trans hsubmit), hqueue, rfl, rfl, rfl, hthread, hstatus, hcoming, hmem⟩
  · intro s c q hq hf hw hk hchk hleft hres hmet htime hprev
    exact mzeroStarts hq hf hw hk hchk hleft hres hmet htime hprev
  · intro s c q e hq hf hw hk hchk hleft hres hmet htime hprev hnone hsome
    exact productStarts hq hf hw hk hchk hleft hres hmet htime hprev hnone hsome
  · exact fun q o old hk => matrixSums q o old hk
  · intro s c q th hf hr hcheck hcom hsend hc hlive hcan hw hpred
    exact matrixCommandCompletes hf hr hcheck hcom hsend hc hlive hcan hw hpred
  · intro s c q l th hf hcheck hcom hgo hsend hk hc hsucc hlive hcan hctx
    exact matrixRingCommits hf hcheck hcom hgo hsend hk hc hsucc hlive hcan hctx
  · intro s c q l hf hsend hr hsucc hlive
    exact ringEntryArrives hf hsend hr hsucc hlive
  · intro s h t d code hi e n
    have hruns := execMqry_runs hi
    refine ⟨fun hn => ?_, fun hn l rest hl => ?_, fun hn hl => ?_, fun hn => ?_⟩
    · rw [hruns, if_pos hn]
    · rw [hruns, if_neg (by omega), if_pos hn, latchWord_cons hl]
    · rw [hruns, if_neg (by omega), if_pos hn, show (s.core h.core).matrix.latch = [] from hl, latchWord_nil]
    · rw [hruns, if_neg (by omega), if_neg (by omega)]

end Sys2Proof.Machine
end

section
/-! PROOFS. Lanes of the vector engine (R248, R253 to R259). Every lane of a result is an element of `packed` (`VIn.map_lane`), so that
each operation's clause is what it does to one element. -/

namespace Sys2Proof.Machine

variable {x : VIn} {r r' w j : Nat}

/-! ### Lane by lane (R248) -/

theorem VIn.map_lane (f : Nat → Nat → Nat → Nat) (old : Nat) (hj : j < 512 / w) : elemOf w (x.map w f old) j =
    if x.act j then f (elemOf w x.a j) (elemOf w x.b j) (elemOf w x.d j) % 2 ^ w else elemOf w old j := by
  rw [VIn.map, elemOf_packed_range w _ hj]
  split
  · rfl
  · exact elemOf_mod _ _ _

/-- A lane-wise operation whose results fit their lane. -/
theorem VIn.map_lane_of_lt {f : Nat → Nat → Nat → Nat} (old : Nat) (hj : j < 512 / w)
    (hf : f (elemOf w x.a j) (elemOf w x.b j) (elemOf w x.d j) < 2 ^ w) : elemOf w (x.map w f old) j =
    if x.act j then f (elemOf w x.a j) (elemOf w x.b j) (elemOf w x.d j) else elemOf w old j := by
  rw [VIn.map_lane f old hj, Nat.mod_eq_of_lt hf]

/-! ### Integer lanes -/

/-- A lane-wise integer operation on two lanes. -/
theorem IOp.apply_toNat (op : IOp) (a b : Word) : op.apply a.toNat b.toNat = (match op with
    | .add => a + b | .sub => a - b | .mul => a * b | .shl => a <<< (b.toNat % 64) | .shr => a >>> (b.toNat % 64)
    | .and => a &&& b | .or => a ||| b | .xor => a ^^^ b : Word).toNat := by
  cases op <;> simp only [IOp.apply, BitVec.ofNat_toNat, BitVec.setWidth_eq]

/-! ### Modular lanes (R257) -/

theorem reduce_eq {q n : Nat} (hq : 0 < q) (hn : n < 2 ^ 128) : reduce q n = n % q := barrett_eq hq hn

theorem reduce_word {q n : Nat} (hq : 0 < q) (hn : n < 2 ^ 64) : reduce q n = n % q := reduce_eq hq (by omega)

section
variable {q : Nat} (hq : 0 < q) (hlt : q < 2 ^ 64)
include hq hlt

theorem addMod_eq {a b : Nat} (ha : a < 2 ^ 64) (hb : b < 2 ^ 64) : addMod q a b = (a % q + b % q) % q := by
  have := Nat.mod_lt a hq
  have := Nat.mod_lt b hq
  rw [addMod, reduce_word hq ha, reduce_word hq hb, reduce_eq hq (by omega)]

theorem subMod_eq {a b : Nat} (ha : a < 2 ^ 64) (hb : b < 2 ^ 64) : subMod q a b = (a % q + (q - b % q)) % q := by
  have := Nat.mod_lt a hq
  rw [subMod, reduce_word hq ha, reduce_word hq hb, reduce_eq hq (by omega)]

theorem mulMod_eq {a b : Nat} (ha : a < 2 ^ 64) (hb : b < 2 ^ 64) : mulMod q a b = a * b % q := by
  have hprod : a % q * (b % q) < 2 ^ 64 * 2 ^ 64 := Nat.mul_lt_mul'' ((Nat.mod_lt a hq).trans hlt) ((Nat.mod_lt b hq).trans hlt)
  rw [mulMod, reduce_word hq ha, reduce_word hq hb, reduce_eq hq (by omega), ← Nat.mul_mod]

theorem mod_lt_word (n : Nat) : n % q < 2 ^ 64 := (Nat.mod_lt n hq).trans hlt

theorem powMod_eq {a : Nat} (ha : a < 2 ^ 64) (n : Nat) : powMod q a n = a ^ n % q := by
  induction n with
  | zero => exact reduce_word hq (by decide)
  | succ n ih =>
    rw [powMod, ih, mulMod_eq hq hlt (mod_lt_word hq hlt _) ha, Nat.mod_mul_mod, pow_succ]

/-- Lanes of the modular operations. -/
theorem modularLanes (x : VIn) (hx : x.q = q) (hj : j < 8) :
    elemOf 64 (x.map 64 (fun a b _ => addMod x.q a b) x.d) j =
      (if x.act j then (elemOf 64 x.a j % q + elemOf 64 x.b j % q) % q else elemOf 64 x.d j) ∧
    elemOf 64 (x.map 64 (fun a b _ => subMod x.q a b) x.d) j =
      (if x.act j then (elemOf 64 x.a j % q + (q - elemOf 64 x.b j % q)) % q else elemOf 64 x.d j) ∧
    elemOf 64 (x.map 64 (fun a b _ => mulMod x.q a b) x.d) j =
      (if x.act j then elemOf 64 x.a j % q * (elemOf 64 x.b j % q) % q else elemOf 64 x.d j) := by
  subst hx
  have ha := elemOf_lt 64 x.a j
  have hb := elemOf_lt 64 x.b j
  refine ⟨?_, ?_, ?_⟩ <;> rw [VIn.map_lane _ _ hj]
  · rw [addMod_eq hq hlt ha hb, Nat.mod_eq_of_lt (mod_lt_word hq hlt _)]
  · rw [subMod_eq hq hlt ha hb, Nat.mod_eq_of_lt (mod_lt_word hq hlt _)]
  · rw [mulMod_eq hq hlt ha hb, Nat.mod_eq_of_lt (mod_lt_word hq hlt _), ← Nat.mul_mod]

/-- Lanes of the butterflies: a sum and a difference of products. -/
theorem butterflyLanes (x : VIn) (hx : x.q = q) (hj : j < 8) :
    elemOf 64 (x.map 64 (fun a b z => addMod x.q z (mulMod x.q b a)) x.d) j =
      (if x.act j then (elemOf 64 x.d j % q + elemOf 64 x.b j * elemOf 64 x.a j % q) % q else elemOf 64 x.d j) ∧
    elemOf 64 (x.map 64 (fun a b z => subMod x.q z (mulMod x.q b a)) x.a) j =
      (if x.act j then (elemOf 64 x.d j % q + (q - elemOf 64 x.b j * elemOf 64 x.a j % q)) % q else elemOf 64 x.a j) ∧
    elemOf 64 (x.map 64 (fun a _ z => addMod x.q z a) x.d) j =
      (if x.act j then (elemOf 64 x.d j % q + elemOf 64 x.a j) % q else elemOf 64 x.d j) ∧
    elemOf 64 (x.map 64 (fun a b z => mulMod x.q (subMod x.q z a) b) x.a) j =
      (if x.act j then (elemOf 64 x.d j % q + (q - elemOf 64 x.a j % q)) % q * elemOf 64 x.b j % q else elemOf 64 x.a j) := by
  subst hx
  have ha := elemOf_lt 64 x.a j
  have hb := elemOf_lt 64 x.b j
  have hd := elemOf_lt 64 x.d j
  have hprod := mulMod_eq hq hlt hb ha
  have hprod' := mod_lt_word hq hlt (elemOf 64 x.b j * elemOf 64 x.a j)
  refine ⟨?_, ?_, ?_, ?_⟩ <;> rw [VIn.map_lane _ _ hj]
  · rw [hprod, addMod_eq hq hlt hd hprod', Nat.mod_mod, Nat.mod_eq_of_lt (mod_lt_word hq hlt _)]
  · rw [hprod, subMod_eq hq hlt hd hprod', Nat.mod_mod, Nat.mod_eq_of_lt (mod_lt_word hq hlt _)]
  · rw [addMod_eq hq hlt hd ha, Nat.mod_eq_of_lt (mod_lt_word hq hlt _), Nat.add_mod_mod]
  · rw [subMod_eq hq hlt hd ha, mulMod_eq hq hlt (mod_lt_word hq hlt _) hb, Nat.mod_eq_of_lt (mod_lt_word hq hlt _)]

theorem twiddleLanes (x : VIn) (hx : x.q = q) (w0 w1 : Word) (hj : j < 8) :
    elemOf 64 (packed 64 ((List.range 8).map fun j => if x.act j then mulMod x.q w0.toNat (powMod x.q w1.toNat j) else elemOf 64 x.d j)) j =
      if x.act j then w0.toNat * w1.toNat ^ j % q else elemOf 64 x.d j := by
  subst hx
  have hpow := powMod_eq hq hlt w1.isLt j
  rw [elemOf_packed_range 64 _ hj]
  split
  · rw [hpow, mulMod_eq hq hlt w0.isLt (mod_lt_word hq hlt _), Nat.mod_eq_of_lt (mod_lt_word hq hlt _), Nat.mul_mod_mod]
  · exact elemOf_mod _ _ _

end

/-- A modulus within its limits is positive. -/
theorem modulusOk_pos {q : Nat} (hok : modulusOk (BitVec.ofNat 64 q) = true) (hlt : q < 2 ^ 64) : 0 < q := by
  rcases Nat.eq_zero_or_pos q with rfl | h
  · cases hok
  · exact h

end Sys2Proof.Machine
end

section
/-! PROOFS. Floating-point lanes, comparisons, reductions, moves and conversions (R217, R219, R254, R255, R258, R259). -/

namespace Sys2Proof.Machine

variable {x : VIn} {j : Nat}

/-! ### Floating-point lanes (R217) -/

theorem laneFmt_fits (half : Bool) : (laneFmt half).Fits := by
  cases half
  · exact fp32_fits
  · exact bf16_fits

/-- Flipping the highest bit adds it. -/
theorem xor_two_pow (k n : Nat) (hn : n < 2 ^ (k + 1)) : n ^^^ 2 ^ k = (n + 2 ^ k) % 2 ^ (k + 1) := by
  apply Nat.eq_of_testBit_eq
  intro i
  rw [Nat.testBit_xor, Nat.testBit_two_pow, Nat.testBit_mod_two_pow, Nat.add_comm n]
  rcases Nat.lt_trichotomy i k with hlt | rfl | hgt
  · rw [Nat.testBit_two_pow_add_gt hlt, decide_eq_false hlt.ne', decide_eq_true (show i < k + 1 by omega), Bool.xor_false, Bool.true_and]
  · rw [Nat.testBit_two_pow_add_eq, decide_eq_true rfl, decide_eq_true (Nat.lt_succ_self i), Bool.xor_true, Bool.true_and]
  · have hzero : n.testBit i = false := Nat.testBit_lt_two_pow (hn.trans_le (Nat.pow_le_pow_right (by decide) hgt))
    rw [hzero, decide_eq_false hgt.ne, decide_eq_false (by omega)]
    rfl

theorem FOp.apply_lt (op : FOp) {f : Fmt} (hf : f.Fits) (rm : Nat) {a b z : Nat} (ha : a < 2 ^ f.width) (hb : b < 2 ^ f.width) :
    op.apply f rm a b z < 2 ^ f.width := by
  have hpow : 2 ^ (f.width - 1) < 2 ^ f.width := Nat.pow_lt_pow_right (by decide) (Nat.sub_lt hf.pos Nat.one_pos)
  cases op with
  | add | sub | mul | fma => exact hf.code _ _
  | min =>
    simp only [FOp.apply, Fmt.min]
    split
    · exact hf.nan
    · split <;> assumption
  | max =>
    simp only [FOp.apply, Fmt.max]
    split
    · exact hf.nan
    · split <;> assumption
  | abs => exact (Nat.mod_lt _ (Nat.two_pow_pos _)).trans hpow
  | neg => exact Nat.xor_lt_two_pow ha hpow

theorem floatLanes (x : VIn) (op : FOp) (half : Bool) (hj : j < 512 / (laneFmt half).width) :
    elemOf (laneFmt half).width (x.map (laneFmt half).width (op.apply (laneFmt half) x.rm) x.d) j =
      if x.act j then op.apply (laneFmt half) x.rm (elemOf (laneFmt half).width x.a j) (elemOf (laneFmt half).width x.b j)
        (elemOf (laneFmt half).width x.d j) else elemOf (laneFmt half).width x.d j :=
  VIn.map_lane_of_lt _ hj (FOp.apply_lt op (laneFmt_fits half) x.rm (elemOf_lt _ _ _) (elemOf_lt _ _ _))

/-! ### Comparisons (R254) -/

theorem testBit_eq_elemOf (n j : Nat) : n.testBit j = decide (elemOf 1 n j = 1) := by
  rw [Nat.testBit_eq_decide_div_mod_eq, elemOf, Nat.one_mul, pow_one]

/-- A bit of a list of bits. -/
theorem testBit_packed_range {n j : Nat} (p : Nat → Bool) (hj : j < n) :
    (packed 1 ((List.range n).map fun j => if p j then 1 else 0)).testBit j = p j := by
  rw [testBit_eq_elemOf, elemOf_packed_range 1 _ hj]
  cases p j <;> rfl

/-- A bit above a number of `k` bits. -/
theorem testBit_top (b : Bool) {n k j : Nat} (hn : n < 2 ^ k) (hj : j ≤ k) :
    (n + if b then 2 ^ k else 0).testBit j = if j = k then b else n.testBit j := by
  have hk : n.testBit k = false := Nat.testBit_lt_two_pow hn
  rcases Nat.eq_or_lt_of_le hj with rfl | hlt
  · cases b with
    | false => rw [if_neg Bool.false_ne_true, Nat.add_zero, if_pos rfl, hk]
    | true => rw [if_pos rfl, if_pos rfl, Nat.add_comm, Nat.testBit_two_pow_add_eq, hk]; rfl
  · rw [if_neg hlt.ne]
    cases b with
    | false => rfl
    | true => rw [if_pos rfl, Nat.add_comm, Nat.testBit_two_pow_add_gt hlt]

/-- The bits of a comparison's lanes. -/
def VIn.holds (x : VIn) (r : Rel) (half : Bool) (j : Nat) : Bool :=
  x.act j && r.holds ((laneFmt half).value (elemOf (laneFmt half).width x.a j)) ((laneFmt half).value (elemOf (laneFmt half).width x.b j))

theorem compare_bit (x : VIn) (r : Rel) (half : Bool) (hj : j < 64) : (x.compare r half).getLsbD j =
    if j = 63 then half else decide (j < 512 / (laneFmt half).width) && x.holds r half j := by
  have hlanes : 512 / (laneFmt half).width ≤ 32 := by cases half <;> decide
  have hcompare : x.compare r half = BitVec.ofNat 64
      (packed 1 ((List.range (512 / (laneFmt half).width)).map fun j => if x.holds r half j then 1 else 0) + if half then 2 ^ 63 else 0) := rfl
  have hlow : packed 1 ((List.range (512 / (laneFmt half).width)).map fun j => if x.holds r half j then 1 else 0) <
      2 ^ (512 / (laneFmt half).width) := by
    refine (packed_lt 1 _).trans_eq ?_
    simp
  have hbit : (packed 1 ((List.range (512 / (laneFmt half).width)).map fun j => if x.holds r half j then 1 else 0)).testBit j =
      (decide (j < 512 / (laneFmt half).width) && x.holds r half j) := by
    by_cases hin : j < 512 / (laneFmt half).width
    · rw [testBit_packed_range _ hin, decide_eq_true hin, Bool.true_and]
    · rw [Nat.testBit_lt_two_pow (hlow.trans_le (Nat.pow_le_pow_right (by decide) (Nat.le_of_not_lt hin))), decide_eq_false hin, Bool.false_and]
  have hsmall := hlow.trans_le (Nat.pow_le_pow_right (by decide) (show 512 / (laneFmt half).width ≤ 63 by omega))
  rw [hcompare, BitVec.getLsbD_ofNat, decide_eq_true hj, Bool.true_and, testBit_top half hsmall (by omega), hbit]

/-! ### Reductions (R219, R255) -/

/-- One level of the pairwise tree, over lanes. -/
def pairLevel (op : Nat → Nat → Nat) (g : Nat → Nat) (j : Nat) : Nat := op (g (2 * j)) (g (2 * j + 1))

theorem treeOf_sixteen (op : Nat → Nat → Nat) (g : Nat → Nat) :
    treeOf op ((List.range 16).map g) = pairLevel op (pairLevel op (pairLevel op (pairLevel op g))) 0 := rfl

theorem treeOf_thirtytwo (op : Nat → Nat → Nat) (g : Nat → Nat) :
    treeOf op ((List.range 32).map g) = pairLevel op (pairLevel op (pairLevel op (pairLevel op (pairLevel op g)))) 0 := rfl

/-- The lane that a reduction takes. -/
def VIn.redLane (x : VIn) (k : Red) (half : Bool) (j : Nat) : Nat :=
  if x.act j then (if half then elemOf (laneFmt half).width x.a j * 65536 else elemOf (laneFmt half).width x.a j) else k.identity

theorem reduce_full (x : VIn) (k : Red) : x.reduce k false = treeOf (k.step x.rm) ((List.range 16).map (x.redLane k false)) := rfl

theorem reduce_half (x : VIn) (k : Red) :
    x.reduce k true = (bf16.code x.rm (fp32.value (treeOf (k.step x.rm) ((List.range 32).map (x.redLane k true))))).1 := rfl

/-! ### Codes of a format's values (R203) -/

/-- The exponent of a format's smallest magnitude. -/
def Fmt.low (f : Fmt) : Int := 1 - f.bias - f.mant

theorem Fmt.code_fin (f : Fmt) (rm : Nat) (neg : Bool) {m : Nat} (hm : m ≠ 0) (e : Int) :
    (f.code rm (.fin neg m e)).1 = f.signed neg (f.roundMag rm neg m e).1 := by
  cases m with
  | zero => exact absurd rfl hm
  | succ m => rfl

/-- A code for a result whose last place is worth `2 ^ q`. -/
theorem Fmt.roundMag_at (f : Fmt) (rm : Nat) (neg : Bool) {m : Nat} {e q : Int} (hq : Max.max ((m.log2 : Int) + e - f.mant) f.low = q) :
    f.roundMag rm neg m e =
      let c := (q - f.low).toNat * 2 ^ f.mant + (if q ≤ e then m * 2 ^ (e - q).toNat else roundShift rm neg m (q - e).toNat)
      if c ≤ f.big then (c, false)
      else match f.inf with
        | none => (f.big, true)
        | some i => (if rm = 0 ∨ (rm = 2 ∧ !neg) ∨ (rm = 3 ∧ neg) then i else f.big, false) := by
  subst hq
  rfl

/-- A magnitude that a format holds is not rounded. -/
theorem Fmt.roundMag_exact (f : Fmt) (rm : Nat) (neg : Bool) {m : Nat} {e : Int} (he : Max.max ((m.log2 : Int) + e - f.mant) f.low = e)
    (hbig : (e - f.low).toNat * 2 ^ f.mant + m ≤ f.big) : (f.roundMag rm neg m e).1 = (e - f.low).toNat * 2 ^ f.mant + m := by
  rw [f.roundMag_at rm neg he]
  simp only [Int.le_refl, if_true, Int.sub_self, Int.toNat_zero, pow_zero, Nat.mul_one, if_pos hbig]

/-- The magnitude of a code, as its value has it. -/
theorem Fmt.value_cases (f : Fmt) (c : Nat) : f.value c =
    if f.big < c % 2 ^ (f.width - 1) then (if f.inf = some (c % 2 ^ (f.width - 1)) then .inf (c.testBit (f.width - 1)) else .nan)
    else if c % 2 ^ (f.width - 1) / 2 ^ f.mant = 0 then .fin (c.testBit (f.width - 1)) (c % 2 ^ (f.width - 1)) f.low
    else .fin (c.testBit (f.width - 1)) (2 ^ f.mant + c % 2 ^ (f.width - 1) % 2 ^ f.mant)
      (f.low + ((c % 2 ^ (f.width - 1) / 2 ^ f.mant : Nat) - 1)) := rfl

/-- A code is its sign and its magnitude. -/
theorem Fmt.Fits.signed_mod {f : Fmt} (hf : f.Fits) {c : Nat} (hc : c < 2 ^ f.width) :
    f.signed (c.testBit (f.width - 1)) (c % 2 ^ (f.width - 1)) = c := by
  have hpow : 2 ^ f.width = 2 * 2 ^ (f.width - 1) := by rw [← pow_succ', Nat.sub_add_cancel hf.pos]
  have hdiv : c / 2 ^ (f.width - 1) < 2 := Nat.div_lt_of_lt_mul (by rw [Nat.mul_comm, ← hpow]; exact hc)
  have hsplit := Nat.div_add_mod c (2 ^ (f.width - 1))
  simp only [Fmt.signed, Nat.testBit_eq_decide_div_mod_eq, decide_eq_true_eq, Nat.mod_eq_of_lt hdiv]
  generalize c / 2 ^ (f.width - 1) = k at *
  split
  · next h1 => rw [h1, Nat.mul_one] at hsplit; exact hsplit
  · next h1 => rw [show k = 0 by omega, Nat.mul_zero, Nat.zero_add] at hsplit; exact hsplit

/-- A code that is no NaN is the code of its value. -/
theorem Fmt.Fits.code_value {f : Fmt} (hf : f.Fits) (rm : Nat) {c : Nat} (hnan : f.value c ≠ .nan) (hc : c < 2 ^ f.width) :
    (f.code rm (f.value c)).1 = c := by
  have hsigned := hf.signed_mod hc
  rw [f.value_cases] at hnan ⊢
  generalize c.testBit (f.width - 1) = neg at *
  generalize c % 2 ^ (f.width - 1) = m at *
  by_cases hbig : f.big < m
  · rw [if_pos hbig] at hnan ⊢
    by_cases hinf : f.inf = some m
    · rw [if_pos hinf]
      simp only [Fmt.code, hinf, hsigned]
    · exact absurd (if_neg hinf) hnan
  · rw [if_neg hbig]
    split
    · next hsub =>
      rcases Nat.eq_zero_or_pos m with rfl | hpos
      · exact hsigned
      · have hlt : m < 2 ^ f.mant := by
          rcases Nat.div_eq_zero_iff.1 hsub with h | h
          · exact absurd h (Nat.two_pow_pos _).ne'
          · exact h
        have hlog : m.log2 < f.mant := (Nat.log2_lt hpos.ne').2 hlt
        rw [f.code_fin rm neg hpos.ne', f.roundMag_exact rm neg (by omega) (by rw [Int.sub_self]; simpa using hbig), Int.sub_self]
        simpa using hsigned
    · next hnorm =>
      have hdiv := Nat.div_add_mod m (2 ^ f.mant)
      have hrem := Nat.mod_lt m (Nat.two_pow_pos f.mant)
      have hlog : (2 ^ f.mant + m % 2 ^ f.mant).log2 = f.mant := by
        apply Nat.le_antisymm
        · exact Nat.le_of_lt_succ ((Nat.log2_lt (by omega)).2 (by rw [Nat.succ_eq_add_one, pow_succ]; omega))
        · exact (Nat.le_log2 (by omega)).2 (by omega)
      generalize m / 2 ^ f.mant = x at *
      have hcode : (f.low + ((x : Nat) - 1) - f.low).toNat * 2 ^ f.mant + (2 ^ f.mant + m % 2 ^ f.mant) = m := by
        have hx : (f.low + ((x : Nat) - 1) - f.low).toNat = x - 1 := by omega
        obtain ⟨k, hk⟩ := Nat.exists_eq_succ_of_ne_zero hnorm
        rw [hx, hk, Nat.succ_sub_one, ← Nat.add_assoc, ← Nat.succ_mul, ← hk, Nat.mul_comm, hdiv]
      rw [f.code_fin rm neg (by omega), f.roundMag_exact rm neg (by rw [hlog]; omega) (by rw [hcode]; omega), hcode, hsigned]

/-! ### Moves (R258) -/

/-- The width of the elements that a mask selects. -/
def maskWidth (k : Word) : Nat := if k.getLsbD 63 then 16 else 32

theorem selectLanes (x : VIn) (k : Word) (hj : j < 512 / maskWidth k) : elemOf (maskWidth k) (x.select k) j =
    if k.getLsbD j then elemOf (maskWidth k) x.a j else elemOf (maskWidth k) x.d j := by
  have hlane := elemOf_packed_range (maskWidth k)
    (fun j => if k.getLsbD j then elemOf (maskWidth k) x.a j else elemOf (maskWidth k) x.d j) hj
  refine Eq.trans hlane ?_
  split <;> exact elemOf_mod _ _ _

theorem shuffleLanes (x : VIn) (hj : j < 16) : elemOf 32 x.shuffle j = elemOf 32 x.a (elemOf 32 x.b j % 16) := by
  rw [VIn.shuffle, elemOf_packed_range 32 _ hj, elemOf_mod]

theorem broadcastLanes (x : VIn) (k : Word) (hj : j < 8) : elemOf 64 (x.map 64 (fun _ _ _ => k.toNat) x.d) j =
    if x.act j then k.toNat else elemOf 64 x.d j := VIn.map_lane_of_lt (f := fun _ _ _ => k.toNat) _ hj k.isLt

theorem insertLanes (x : VIn) (k : Word) (i : Nat) (hj : j < 8) :
    elemOf 64 (packed 64 ((List.range 8).map fun j => if j = i then k.toNat else elemOf 64 x.d j)) j =
      if j = i then k.toNat else elemOf 64 x.d j := by
  rw [elemOf_packed_range 64 _ hj]
  split
  · exact Nat.mod_eq_of_lt k.isLt
  · exact elemOf_mod _ _ _

/-! ### Conversions (R259) -/

/-- The results of a conversion fit a register. -/
theorem cvtOf_shape (rm : Nat) {sel : Nat} (hsel : sel < 16) :
    (cvtOf rm sel).n = (if sel < 12 then 16 else 8) ∧ (cvtOf rm sel).dst * (cvtOf rm sel).n ≤ 512 := by
  interval_cases sel <;> exact ⟨rfl, by simp [cvtOf]⟩

/-- The elements that a conversion writes. -/
def VIn.converted (x : VIn) (c : Cvt) : Nat :=
  packed c.dst ((List.range c.n).map fun j => if x.act j then (c.f (elemOf c.src x.a j)).1 else elemOf c.dst x.d j)

theorem convert_d (x : VIn) (sel : Nat) : (x.convert sel).d = some (x.converted (cvtOf x.rm sel) +
    if x.all then 0 else x.d / 2 ^ ((cvtOf x.rm sel).dst * (cvtOf x.rm sel).n) * 2 ^ ((cvtOf x.rm sel).dst * (cvtOf x.rm sel).n)) := by
  simp only [VIn.convert, List.map_map]
  rfl

theorem convert_sat (x : VIn) (sel : Nat) : (x.convert sel).sat =
    (List.range (cvtOf x.rm sel).n).any fun j => x.act j && ((cvtOf x.rm sel).f (elemOf (cvtOf x.rm sel).src x.a j)).2 := List.any_map

theorem converted_lt (x : VIn) (c : Cvt) : x.converted c < 2 ^ (c.dst * c.n) := by
  refine (packed_lt _ _).trans_eq ?_
  simp

theorem converted_lane (x : VIn) (c : Cvt) (hj : j < c.n) : elemOf c.dst (x.converted c) j =
    if x.act j then (c.f (elemOf c.src x.a j)).1 % 2 ^ c.dst else elemOf c.dst x.d j := by
  rw [VIn.converted, elemOf_packed_range _ _ hj]
  split
  · rfl
  · exact elemOf_mod _ _ _

/-- Bits below a multiple of a power of two. -/
theorem add_mul_two_pow {n m : Nat} (v : Nat) (hn : n < 2 ^ m) : (n + v * 2 ^ m) % 2 ^ m = n ∧ (n + v * 2 ^ m) / 2 ^ m = v := by
  constructor
  · rw [Nat.add_mul_mod_self_right, Nat.mod_eq_of_lt hn]
  · rw [Nat.add_mul_div_right _ _ (Nat.two_pow_pos m), Nat.div_eq_of_lt hn, Nat.zero_add]

theorem convertLanes (x : VIn) {sel r : Nat} (hsel : sel < 16) (hd : x.d < 2 ^ 512) (hr : (x.convert sel).d = some r) :
    r < 2 ^ 512 ∧
    (∀ j < (cvtOf x.rm sel).n, elemOf (cvtOf x.rm sel).dst r j = if x.act j then
      ((cvtOf x.rm sel).f (elemOf (cvtOf x.rm sel).src x.a j)).1 % 2 ^ (cvtOf x.rm sel).dst else elemOf (cvtOf x.rm sel).dst x.d j) ∧
    r / 2 ^ ((cvtOf x.rm sel).dst * (cvtOf x.rm sel).n) = if x.all then 0 else x.d / 2 ^ ((cvtOf x.rm sel).dst * (cvtOf x.rm sel).n) := by
  obtain ⟨-, hfit⟩ := cvtOf_shape x.rm hsel
  have hlt := converted_lt x (cvtOf x.rm sel)
  have hlane (j : Nat) := converted_lane (j := j) x (cvtOf x.rm sel)
  rw [convert_d, Option.some.injEq] at hr
  generalize cvtOf x.rm sel = c at *
  obtain ⟨v, hv, hvlt⟩ : ∃ v, (if x.all then 0 else x.d / 2 ^ (c.dst * c.n)) = v ∧ v < 2 ^ (512 - c.dst * c.n) := by
    refine ⟨_, rfl, ?_⟩
    split
    · exact Nat.two_pow_pos _
    · refine Nat.div_lt_of_lt_mul ?_
      rwa [← pow_add, Nat.add_sub_cancel' hfit]
  have hsum : r = x.converted c + v * 2 ^ (c.dst * c.n) := by
    rw [← hr, ← hv]
    split
    · rw [Nat.zero_mul]
    · rfl
  obtain ⟨hmod, hdiv⟩ := add_mul_two_pow v hlt
  rw [hv, hsum]
  refine ⟨?_, fun j hj => ?_, hdiv⟩
  · have htop : 2 ^ (512 - c.dst * c.n) * 2 ^ (c.dst * c.n) = 2 ^ 512 := by rw [← pow_add, Nat.sub_add_cancel hfit]
    have hmul := Nat.mul_le_mul_right (2 ^ (c.dst * c.n)) (Nat.succ_le_of_lt hvlt)
    rw [Nat.succ_mul, htop] at hmul
    omega
  · rw [← hlane j hj, ← elemOf_mod_two_pow (n := c.dst * c.n) (Nat.mul_le_mul_left _ hj), hmod]

end Sys2Proof.Machine
end

section
/-! PROOFS. Special functions (R218). A value rounded toward zero is a quotient by a power of two (`fp32_truncates`), which undoes the
quarter that marks an inexact approximation; the bounds on 1/x and 1/√x are those of the integer quotient and of the integer square root. -/

namespace Sys2Proof.Machine

variable {rm c m : Nat} {a : Bool} {e : Int}

/-! ### Lanes -/

theorem codeAbove_lt (rm : Nat) (neg : Bool) (m : Nat) (e : Int) (exact : Bool) : fp32.codeAbove rm neg m e exact < 2 ^ 32 :=
  fp32_fits.code _ _

theorem ite_lt_of_lt {p : Prop} [Decidable p] {u v n : Nat} (hu : u < n) (hv : v < n) : (if p then u else v) < n := by
  split <;> assumption

theorem exp2_lt (rm c : Nat) : fp32.exp2 rm c < 2 ^ 32 := by
  unfold Fmt.exp2
  split
  · exact fp32_fits.nan
  · split
    · exact Nat.two_pow_pos _
    · exact fp32_fits.code _ _
  · exact fp32_fits.code _ _
  · exact ite_lt_of_lt (fp32_fits.code _ _) (ite_lt_of_lt (fp32_fits.code _ _) (ite_lt_of_lt (fp32_fits.code _ _) (codeAbove_lt _ _ _ _ _)))

theorem rcp_lt (rm c : Nat) : fp32.rcp rm c < 2 ^ 32 := by
  unfold Fmt.rcp
  split
  · exact fp32_fits.nan
  · exact fp32_fits.signed _ (Nat.two_pow_pos _)
  · exact fp32_fits.code _ _
  · exact codeAbove_lt _ _ _ _ _

theorem rsq_lt (rm c : Nat) : fp32.rsq rm c < 2 ^ 32 := by
  unfold Fmt.rsq
  split
  · exact fp32_fits.nan
  · split
    · exact fp32_fits.nan
    · exact Nat.two_pow_pos _
  · exact fp32_fits.code _ _
  · split
    · exact fp32_fits.nan
    · exact codeAbove_lt _ _ _ _ _

/-! ### Special values -/

theorem fp32_inf (neg : Bool) (rm : Nat) : (fp32.code rm (.inf neg)).1 = if neg then 0xFF800000 else 0x7F800000 := by
  cases neg <;> rfl

theorem fp32_one (hrm : rm < 4) : (fp32.code rm (.fin false 1 0)).1 = 0x3F800000 := by
  interval_cases rm <;> decide

theorem value_inf : fp32.value 0x7F800000 = .inf false := by decide

theorem value_negInf : fp32.value 0xFF800000 = .inf true := by decide

theorem value_zero : fp32.value 0 = .fin false 0 (-149) := by decide

theorem value_negZero : fp32.value 0x80000000 = .fin true 0 (-149) := by decide

theorem exp2_special (hrm : rm < 4) : fp32.exp2 rm 0x7F800000 = 0x7F800000 ∧ fp32.exp2 rm 0xFF800000 = 0 ∧
    fp32.exp2 rm 0 = 0x3F800000 ∧ fp32.exp2 rm 0x80000000 = 0x3F800000 := by
  simp only [Fmt.exp2, value_inf, value_negInf, value_zero, value_negZero, fp32_inf, fp32_one hrm, if_true, Bool.false_eq_true, if_false,
    and_self]

theorem rcp_special : fp32.rcp rm 0x7F800000 = 0 ∧ fp32.rcp rm 0xFF800000 = 0x80000000 ∧ fp32.rcp rm 0 = 0x7F800000 ∧
    fp32.rcp rm 0x80000000 = 0xFF800000 := by
  simp only [Fmt.rcp, value_inf, value_negInf, value_zero, value_negZero, fp32_inf, if_true, Bool.false_eq_true, if_false, and_true]
  decide

theorem rsq_special : fp32.rsq rm 0x7F800000 = 0 ∧ fp32.rsq rm 0xFF800000 = fp32.nan ∧ fp32.rsq rm 0 = 0x7F800000 ∧
    fp32.rsq rm 0x80000000 = 0xFF800000 := by
  simp only [Fmt.rsq, value_inf, value_negInf, value_zero, value_negZero, fp32_inf, if_true, Bool.false_eq_true, if_false, and_self]

theorem special_nan (hc : fp32.value c = .nan) : fp32.exp2 rm c = fp32.nan ∧ fp32.rcp rm c = fp32.nan ∧ fp32.rsq rm c = fp32.nan := by
  simp only [Fmt.exp2, Fmt.rcp, Fmt.rsq, hc, and_self]

/-- 2^n at an integer n. -/
theorem exp2_integer {n : Int} (hc : fp32.value c = .fin a m e) (hn : scaled a m e (-160) = n * 2 ^ 160) (hlo : -300 ≤ n) (hhi : n < 200) :
    fp32.exp2 rm c = (fp32.code rm (.fin false 1 n)).1 := by
  cases m with
  | zero =>
    have hzero : n = 0 := by
      have hs : scaled a 0 e (-160) = 0 := by cases a <;> simp [scaled]
      rw [hs] at hn
      omega
    simp only [Fmt.exp2, hc, hzero]
  | succ m =>
    have hdiv : n * 2 ^ 160 / 2 ^ 160 = n := Int.mul_ediv_cancel n (by decide)
    have hmod : n * 2 ^ 160 % 2 ^ 160 = 0 := Int.mul_emod_left n _
    simp only [Fmt.exp2, hc, hn, hdiv, hmod, Int.toNat_zero, if_neg (show ¬ 200 ≤ n by omega), if_neg (show ¬ n < -300 by omega), if_true]

/-! ### Rounding toward zero (R215) -/

/-- A finite value of FP32 and its bounds. -/
theorem fp32_value_bounds (hc : fp32.value c = .fin a m e) : m < 2 ^ 24 ∧ -149 ≤ e ∧ e ≤ 104 := by
  rw [fp32.value_cases] at hc
  change (if 0x7F7FFFFF < c % 2 ^ 31 then _ else if c % 2 ^ 31 / 2 ^ 23 = 0 then
    Fp.fin (c.testBit 31) (c % 2 ^ 31) (-149) else .fin (c.testBit 31) (2 ^ 23 + c % 2 ^ 31 % 2 ^ 23) (-149 + ((c % 2 ^ 31 / 2 ^ 23 : Nat) - 1))) = _
    at hc
  by_cases hbig : 0x7F7FFFFF < c % 2 ^ 31
  · rw [if_pos hbig] at hc
    by_cases hinf : fp32.inf = some (c % 2 ^ (fp32.width - 1))
    · rw [if_pos hinf] at hc
      cases hc
    · rw [if_neg hinf] at hc
      cases hc
  · rw [if_neg hbig] at hc
    split at hc <;> (simp only [Fp.fin.injEq] at hc; omega)

/-- A magnitude rounded toward zero is its quotient by a power of two. -/
theorem roundMag_toward_zero (a : Bool) {M : Nat} (E : Int) (hM : 2 ^ 24 ≤ M) : ∃ k sh : Nat, M.log2 ≤ sh + 23 ∧ E + sh = (k : Int) - 149 ∧
    M / 2 ^ sh < 2 ^ 24 ∧ (k = 0 ∨ 2 ^ 23 ≤ M / 2 ^ sh) ∧ ((k : Int) ≤ max 0 (M.log2 + E + 126)) ∧
    (fp32.roundMag 1 a M E).1 = if k * 2 ^ 23 + M / 2 ^ sh ≤ 0x7F7FFFFF then k * 2 ^ 23 + M / 2 ^ sh else 0x7F7FFFFF := by
  have hlow : fp32.low = -149 := rfl
  have hlog : 24 ≤ M.log2 := (Nat.le_log2 (by omega)).2 hM
  obtain ⟨k, hk⟩ : ∃ k : Nat, max ((M.log2 : Int) + E - 23) (-149) = (k : Int) - 149 :=
    ⟨(max ((M.log2 : Int) + E - 23) (-149) + 149).toNat, by omega⟩
  obtain ⟨sh, hsh⟩ : ∃ sh : Nat, E + sh = (k : Int) - 149 := ⟨((k : Int) - 149 - E).toNat, by omega⟩
  have hself : M < 2 ^ (M.log2 + 1) := Nat.lt_log2_self
  have hbelow : 2 ^ M.log2 ≤ M := Nat.log2_self_le (by omega)
  have hn : M / 2 ^ sh < 2 ^ 24 := by
    refine Nat.div_lt_of_lt_mul (hself.trans_le ?_)
    rw [← pow_add]
    exact Nat.pow_le_pow_right (by decide) (by omega)
  have hround : (fp32.roundMag 1 a M E).1 =
      if k * 2 ^ 23 + M / 2 ^ sh ≤ 0x7F7FFFFF then k * 2 ^ 23 + M / 2 ^ sh else 0x7F7FFFFF := by
    have hshift : ((k : Int) - 149 - E).toNat = sh := by omega
    have hscale : ((k : Int) - 149 - -149).toNat = k := by omega
    rw [fp32.roundMag_at 1 a hk, hlow, hscale, if_neg (show ¬ (k : Int) - 149 ≤ E by omega), hshift]
    simp only [roundShift, Nat.reduceEqDiff, if_false, Bool.toNat_false, Nat.add_zero]
    change (if k * 2 ^ 23 + M / 2 ^ sh ≤ 0x7F7FFFFF then _ else _ : Nat × Bool).1 = _
    split
    · rfl
    · rfl
  refine ⟨k, sh, by omega, hsh, hn, ?_, by omega, hround⟩
  rcases Nat.eq_zero_or_pos k with h0 | hpos
  · exact .inl h0
  · refine .inr ((Nat.le_div_iff_mul_le (Nat.two_pow_pos sh)).2 ?_)
    rw [← pow_add]
    exact (Nat.pow_le_pow_right (by decide) (by omega)).trans hbelow

theorem signed_magnitude (a : Bool) {n : Nat} (hn : n < 2 ^ 31) : fp32.signed a n % 2 ^ 31 = n ∧ (fp32.signed a n).testBit 31 = a := by
  cases a with
  | false => exact ⟨Nat.mod_eq_of_lt hn, Nat.testBit_lt_two_pow hn⟩
  | true =>
    have hsigned : fp32.signed true n = 2 ^ 31 + n := rfl
    rw [hsigned, Nat.testBit_two_pow_add_eq, Nat.testBit_lt_two_pow hn]
    exact ⟨by omega, rfl⟩

/-- The value of a code whose last place is worth `2 ^ (k - 149)`. -/
theorem value_signed (a : Bool) {k n : Nat} (hn : n < 2 ^ 24) (hk : k = 0 ∨ 2 ^ 23 ≤ n) (hbig : k * 2 ^ 23 + n ≤ 0x7F7FFFFF) :
    fp32.value (fp32.signed a (k * 2 ^ 23 + n)) = .fin a n ((k : Int) - 149) := by
  obtain ⟨hmod, hbit⟩ := signed_magnitude a (show k * 2 ^ 23 + n < 2 ^ 31 by omega)
  have hmod' : fp32.signed a (k * 2 ^ 23 + n) % 2 ^ (fp32.width - 1) = k * 2 ^ 23 + n := hmod
  have hbit' : (fp32.signed a (k * 2 ^ 23 + n)).testBit (fp32.width - 1) = a := hbit
  rw [fp32.value_cases, hmod', hbit', if_neg (show ¬ fp32.big < k * 2 ^ 23 + n from Nat.not_lt.2 hbig)]
  change (if (k * 2 ^ 23 + n) / 2 ^ 23 = 0 then Fp.fin a (k * 2 ^ 23 + n) (-149)
    else .fin a (2 ^ 23 + (k * 2 ^ 23 + n) % 2 ^ 23) (-149 + (((k * 2 ^ 23 + n) / 2 ^ 23 : Nat) - 1))) = _
  split <;> (simp only [Fp.fin.injEq, true_and]; omega)

/-- A value rounded toward zero that does not overflow is its magnitude's quotient by a power of two. -/
theorem fp32_truncates (a : Bool) {M : Nat} (E : Int) (hM : 2 ^ 24 ≤ M) : ∃ sh : Nat, M.log2 ≤ sh + 23 ∧
    ((fp32.code 1 (.fin a M E)).1 % 2 ^ 31 < 0x7F7FFFFF → fp32.value (fp32.code 1 (.fin a M E)).1 = .fin a (M / 2 ^ sh) (E + sh)) ∧
    (M.log2 + E ≤ 100 → (fp32.code 1 (.fin a M E)).1 % 2 ^ 31 < 0x7F7FFFFF) := by
  obtain ⟨k, sh, hsh, hq, hn, hk, hkmax, hround⟩ := roundMag_toward_zero a E hM
  refine ⟨sh, hsh, ?_⟩
  rw [fp32.code_fin 1 a (by omega), hround, hq]
  by_cases hbig : k * 2 ^ 23 + M / 2 ^ sh ≤ 0x7F7FFFFF
  · rw [if_pos hbig]
    obtain ⟨hmod, -⟩ := signed_magnitude a (show k * 2 ^ 23 + M / 2 ^ sh < 2 ^ 31 by omega)
    exact ⟨fun _ => value_signed a hn hk hbig, fun hsmall => by rw [hmod]; omega⟩
  · rw [if_neg hbig]
    obtain ⟨hmod, -⟩ := signed_magnitude a (show 0x7F7FFFFF < 2 ^ 31 by decide)
    rw [hmod]
    exact ⟨fun h => absurd h (Nat.lt_irrefl _), fun hsmall => by omega⟩

/-! ### 1/x (R218) -/

/-- A quarter marks an inexact approximation, and is lost by a shift of two places or more. -/
theorem quarter_shift (t sh : Nat) (exact : Bool) (hsh : 2 ≤ sh) : (4 * t + (!exact).toNat) / 2 ^ sh = t / 2 ^ (sh - 2) := by
  obtain ⟨sh, rfl⟩ := Nat.exists_eq_add_of_le' hsh
  have hbit : (!exact).toNat ≤ 1 := Bool.toNat_le _
  rw [Nat.add_sub_cancel, Nat.add_comm sh, pow_add, ← Nat.div_div_eq_div_mul, show (4 * t + (!exact).toNat) / 2 ^ 2 = t by omega]

/-- A quotient rounded down, as a bound on rationals. -/
theorem quotient_bounds {n d : Nat} (hd : 0 < d) (k : Nat) (hn : n = 2 ^ k / d) : (n : ℚ) * d / 2 ^ k ≤ 1 ∧ 1 < ((n : ℚ) + 1) * d / 2 ^ k := by
  have hlow : n * d ≤ 2 ^ k := hn ▸ Nat.div_mul_le_self _ _
  have hhigh : 2 ^ k < (n + 1) * d := by
    rw [hn, Nat.succ_mul]
    exact Nat.lt_div_mul_add hd
  have hpos : (0 : ℚ) < 2 ^ k := by positivity
  rw [div_le_one hpos, one_lt_div hpos]
  exact ⟨by exact_mod_cast hlow, by exact_mod_cast hhigh⟩

theorem zpow_sub_eq {k l : Nat} {z : Int} (hz : z = (k : Int) - l) : (2 : ℚ) ^ z = 2 ^ k / 2 ^ l := by
  rw [hz, zpow_sub₀ two_ne_zero, zpow_natCast, zpow_natCast]

theorem rcp_toward_zero (hc : fp32.value c = .fin a m e) (hm : 0 < m) (hsmall : fp32.rcp 1 c % 2 ^ 31 < 0x7F7FFFFF) :
    ∃ (m' : Nat) (e' : Int), fp32.value (fp32.rcp 1 c) = .fin a m' e' ∧
      (m' : ℚ) * m * 2 ^ (e + e') ≤ 1 ∧ 1 < ((m' : ℚ) + 1) * m * 2 ^ (e + e') := by
  obtain ⟨hlt, -, -⟩ := fp32_value_bounds hc
  have hrcp : fp32.rcp 1 c = (fp32.code 1 (.fin a (4 * (2 ^ 64 / m) + (!(2 ^ 64 % m == 0)).toNat) (-64 - e - 2))).1 := by
    obtain ⟨m, rfl⟩ := Nat.exists_eq_succ_of_ne_zero hm.ne'
    simp only [Fmt.rcp, hc]
    rfl
  have hquot : 2 ^ 40 ≤ 2 ^ 64 / m := by
    refine (Nat.le_div_iff_mul_le hm).2 ?_
    omega
  rw [hrcp] at hsmall ⊢
  generalize hM : 4 * (2 ^ 64 / m) + (!(2 ^ 64 % m == 0)).toNat = M at hsmall ⊢
  obtain ⟨hbig, hlog⟩ : 2 ^ 24 ≤ M ∧ 42 ≤ M.log2 := by
    generalize 2 ^ 64 / m = t at hquot hM
    exact ⟨by omega, (Nat.le_log2 (by omega)).2 (by omega)⟩
  obtain ⟨sh, hsh, hvalue, -⟩ := fp32_truncates a (-64 - e - 2) hbig
  have hn : M / 2 ^ sh = 2 ^ 64 / (m * 2 ^ (sh - 2)) := by
    rw [← hM, quarter_shift _ _ _ (by omega), Nat.div_div_eq_div_mul]
  have hpow : (2 : ℚ) ^ (e + (-64 - e - 2 + sh)) = 2 ^ (sh - 2) / 2 ^ 64 := zpow_sub_eq (by omega)
  obtain ⟨hlow, hhigh⟩ := quotient_bounds (Nat.mul_pos hm (Nat.two_pow_pos (sh - 2))) 64 hn
  refine ⟨_, _, hvalue hsmall, ?_⟩
  rw [hpow]
  push_cast at hlow hhigh
  constructor
  · convert hlow using 1
    ring
  · convert hhigh using 1
    ring

/-! ### 1/√x (R218) -/

/-- The digits of an integer square root that are still to be found keep its bounds. -/
theorem isqrt_bounds {n : Nat} (b : Nat) {r : Nat} (hlow : r * r ≤ n) (hhigh : n < (r + 2 ^ b) * (r + 2 ^ b)) :
    isqrt n b r * isqrt n b r ≤ n ∧ n < (isqrt n b r + 1) * (isqrt n b r + 1) := by
  induction b generalizing r with
  | zero => exact ⟨hlow, hhigh⟩
  | succ b ih =>
    rw [isqrt]
    split
    next hle =>
      refine ih hle ?_
      rwa [Nat.add_assoc, ← Nat.two_mul, ← Nat.pow_succ']
    next hgt => exact ih hlow (Nat.lt_of_not_le hgt)

/-- An integer root of a quotient, shifted, as a bound on rationals. -/
theorem root_bounds {s n d : Nat} (k l : Nat) (hd : 0 < d) (hlow : s * s ≤ 2 ^ l / d) (hhigh : 2 ^ l / d < (s + 1) * (s + 1))
    (hn : n = s / 2 ^ k) :
    (n : ℚ) * n * d * (2 ^ k * 2 ^ k) / 2 ^ l ≤ 1 ∧ 1 < ((n : ℚ) + 1) * (n + 1) * d * (2 ^ k * 2 ^ k) / 2 ^ l := by
  have hs : n * 2 ^ k ≤ s := hn ▸ Nat.div_mul_le_self _ _
  have hs' : s + 1 ≤ (n + 1) * 2 ^ k := by
    rw [hn, Nat.succ_mul]
    exact Nat.lt_div_mul_add (Nat.two_pow_pos k)
  have hpos : (0 : ℚ) < 2 ^ l := by positivity
  have hle : n * 2 ^ k * (n * 2 ^ k) * d ≤ 2 ^ l :=
    (Nat.mul_le_mul_right _ (Nat.mul_le_mul hs hs)).trans ((Nat.le_div_iff_mul_le hd).1 hlow)
  have hgt : 2 ^ l < (n + 1) * 2 ^ k * ((n + 1) * 2 ^ k) * d :=
    ((Nat.div_lt_iff_lt_mul hd).1 hhigh).trans_le (Nat.mul_le_mul_right _ (Nat.mul_le_mul hs' hs'))
  rw [div_le_one hpos, one_lt_div hpos]
  constructor
  · calc (n : ℚ) * n * d * (2 ^ k * 2 ^ k) = n * 2 ^ k * (n * 2 ^ k) * d := by ring
      _ ≤ 2 ^ l := by exact_mod_cast hle
  · calc (2 : ℚ) ^ l < (n + 1) * 2 ^ k * ((n + 1) * 2 ^ k) * d := by exact_mod_cast hgt
      _ = _ := by ring

/-- The radicand with an even exponent. -/
def evenMantissa (m : Nat) (e : Int) : Nat := if e % 2 = 0 then m else 2 * m

/-- The even exponent of a radicand. -/
def evenExponent (e : Int) : Int := if e % 2 = 0 then e else e - 1

theorem rsq_eq (hc : fp32.value c = .fin false m e) (hm : 0 < m) : ∃ exact : Bool,
    fp32.rsq 1 c = fp32.codeAbove 1 false (isqrt (2 ^ 128 / evenMantissa m e) 65 0) (-64 - evenExponent e / 2) exact := by
  obtain ⟨m, rfl⟩ := Nat.exists_eq_succ_of_ne_zero hm.ne'
  simp only [Fmt.rsq, hc, if_false, Bool.false_eq_true, evenMantissa, evenExponent, Nat.succ_eq_add_one]
  generalize isqrt _ 65 0 = q
  exact ⟨_, rfl⟩

theorem even_scale (m : Nat) (e : Int) (k : Nat) :
    (m : ℚ) * 2 ^ (e + 2 * (-64 - evenExponent e / 2 - 2 + (k + 2 : Nat))) = evenMantissa m e * (2 ^ k * 2 ^ k) / 2 ^ 128 := by
  unfold evenMantissa evenExponent
  split
  next heven =>
    rw [zpow_sub_eq (k := k + k) (l := 128) (by omega), pow_add]
    ring
  next hodd =>
    rw [zpow_sub_eq (k := k + k + 1) (l := 128) (by omega), pow_succ, pow_add]
    push_cast
    ring

theorem rsq_toward_zero (hc : fp32.value c = .fin false m e) (hm : 0 < m) :
    ∃ (m' : Nat) (e' : Int), fp32.value (fp32.rsq 1 c) = .fin false m' e' ∧
      (m' : ℚ) * m' * m * 2 ^ (e + 2 * e') ≤ 1 ∧ 1 < ((m' : ℚ) + 1) * (m' + 1) * m * 2 ^ (e + 2 * e') := by
  obtain ⟨hlt, hlo, -⟩ := fp32_value_bounds hc
  obtain ⟨exact, hrsq⟩ := rsq_eq hc hm
  have hexp : -150 ≤ evenExponent e := by
    unfold evenExponent
    split <;> omega
  obtain ⟨hd, hdlt⟩ : 0 < evenMantissa m e ∧ evenMantissa m e < 2 ^ 25 := by
    unfold evenMantissa
    split <;> omega
  have hscale := even_scale m e
  generalize evenMantissa m e = d at hrsq hd hdlt hscale
  obtain ⟨hlow, hhigh⟩ := isqrt_bounds (n := 2 ^ 128 / d) 65 (r := 0) (Nat.zero_le _)
    ((Nat.div_le_self _ _).trans_lt (by norm_num))
  have hroot : 2 ^ 51 ≤ isqrt (2 ^ 128 / d) 65 0 := by
    have hquot : 2 ^ 102 ≤ 2 ^ 128 / d := (Nat.le_div_iff_mul_le hd).2 (by omega)
    by_contra hless
    have hsq : (isqrt (2 ^ 128 / d) 65 0 + 1) * (isqrt (2 ^ 128 / d) 65 0 + 1) ≤ 2 ^ 51 * 2 ^ 51 :=
      Nat.mul_le_mul (by omega) (by omega)
    omega
  have hroot' : isqrt (2 ^ 128 / d) 65 0 ≤ 2 ^ 64 := by
    by_contra hmore
    have hsq : (2 ^ 64 + 1) * (2 ^ 64 + 1) ≤ isqrt (2 ^ 128 / d) 65 0 * isqrt (2 ^ 128 / d) 65 0 :=
      Nat.mul_le_mul (by omega) (by omega)
    have := Nat.div_le_self (2 ^ 128) d
    omega
  generalize isqrt (2 ^ 128 / d) 65 0 = s at hlow hhigh hroot hroot' hrsq
  have hbit : (!exact).toNat ≤ 1 := Bool.toNat_le _
  have hlog : 53 ≤ (4 * s + (!exact).toNat).log2 := (Nat.le_log2 (by omega)).2 (by omega)
  have hlog' : (4 * s + (!exact).toNat).log2 < 67 := (Nat.log2_lt (by omega)).2 (by omega)
  obtain ⟨sh, hsh, hvalue, hover⟩ := fp32_truncates false (M := 4 * s + (!exact).toNat) (-64 - evenExponent e / 2 - 2) (by omega)
  obtain ⟨k, rfl⟩ : ∃ k, sh = k + 2 := ⟨sh - 2, by omega⟩
  obtain ⟨hle, hgt⟩ := root_bounds k 128 hd hlow hhigh rfl
  rw [quarter_shift _ _ _ (by omega), Nat.add_sub_cancel] at hvalue
  rw [hrsq, Fmt.codeAbove]
  refine ⟨_, _, hvalue (hover (by omega)), ?_⟩
  rw [mul_assoc _ (m : ℚ), mul_assoc _ (m : ℚ), hscale]
  constructor
  · convert hle using 1
    ring
  · convert hgt using 1
    ring

theorem rsq_negative (hc : fp32.value c = .fin true m e) (hm : 0 < m) : fp32.rsq 1 c = fp32.nan := by
  obtain ⟨m, rfl⟩ := Nat.exists_eq_succ_of_ne_zero hm.ne'
  simp only [Fmt.rsq, hc, if_true]

end Sys2Proof.Machine
end

section
/-! PROOFS. The vector engine starts a command (R249, R253). The head of an idle engine's queue goes into flight alone
(`execVectorCommandStart_starts`); there it is `VecCmd.ran` of the registers that it reads, and `VIn.map_lane` says what a lane holds. -/

namespace Sys2Proof.Machine

variable {s : State} {c : Nat} {q : VecCmd} {x : VIn}

/-! ### A command's results -/

/-- A register among a command's results. -/
def putResult (n : Nat) (v : Option Nat) (m : Map VReg) : Map VReg :=
  match v with
  | some v => m.put n (BitVec.ofNat 512 v)
  | none => m

theorem putResult_find_other {n k : Nat} (v : Option Nat) (m : Map VReg) (h : v = none ∨ n ≠ k) : (putResult n v m).find k = m.find k := by
  cases v with
  | none => rfl
  | some v => exact Map.find_put_other _ _ (h.resolve_left (by simp)).symm

/-- What is among the results was put there. -/
theorem mem_putResult {n : Nat} {v : Option Nat} {m : Map VReg} {e : Nat × VReg} (h : e ∈ putResult n v m) :
    e.1 = n ∧ v ≠ none ∨ e.1 ∈ m.map Prod.fst := by
  cases v with
  | none => exact .inr (List.mem_map_of_mem h)
  | some v =>
    rcases (Map.mem_keys_put m n e.1 (BitVec.ofNat 512 v)).1 (List.mem_map_of_mem h) with hn | hm
    · exact .inl ⟨hn, by simp⟩
    · exact .inr hm

/-- A command's view of a core's registers. -/
def VecCmd.view (q : VecCmd) (y : Core) : VIn :=
  { d := ((y.vregs.find q.d).getD 0).toNat, a := ((y.vregs.find q.a).getD 0).toNat, b := ((y.vregs.find q.b).getD 0).toNat, ws := q.args
    act := activeLane q.mask, all := q.mask.isNone, rm := q.rm, q := q.modulus.toNat }

/-- A command that has started, with its results. -/
def VecCmd.ran (q : VecCmd) (o : VOut) : VecCmd :=
  { q with started := true, result := putResult q.a o.a (putResult q.d o.d []), sresult := o.w, sat := o.sat }

theorem VecCmd.ran_d {o : VOut} {r : Nat} (hd : o.d = some r) (h : o.a = none ∨ q.a ≠ q.d) :
    (q.ran o).result.find q.d = some (BitVec.ofNat 512 r) := by
  rw [VecCmd.ran, putResult_find_other _ _ h, hd]
  exact Map.find_put_self _ _ _

theorem VecCmd.ran_a {o : VOut} {r : Nat} (ha : o.a = some r) : (q.ran o).result.find q.a = some (BitVec.ofNat 512 r) := by
  rw [VecCmd.ran, ha]
  exact Map.find_put_self _ _ _

theorem VecCmd.ran_only {o : VOut} {e : Nat × VReg} (h : e ∈ (q.ran o).result) : e.1 = q.d ∧ o.d ≠ none ∨ e.1 = q.a ∧ o.a ≠ none := by
  rcases mem_putResult h with ha | hd
  · exact .inr ha
  · obtain ⟨e', he', hkey⟩ := List.mem_map.1 hd
    rcases mem_putResult he' with hd' | hnil
    · exact .inl (hkey ▸ hd')
    · cases hnil

/-! ### A start (R249) -/

/-- The state in which a command occupies its unit. -/
def State.occupies (s : State) (c : Nat) (q : VecCmd) : State :=
  (s.upCore c fun y => { y with vector := { y.vector with free := y.vector.free.put q.op.timing.1 (s.cyc + q.op.timing.2.1) } }).after
    q.op.timing.2.1 8 (.vectorCommandStart c)

theorem State.occupies_core : (s.occupies c q).core c = { s.core c with
    vector := { (s.core c).vector with free := (s.core c).vector.free.put q.op.timing.1 (s.cyc + q.op.timing.2.1) } } := by
  rw [State.occupies, State.after, State.post_core, State.upCore_core_self]

/-- The state in which a command with no memory lanes has started. -/
def State.startsVec (s : State) (c : Nat) (q : VecCmd) : State :=
  ((s.occupies c q).upVec c q.id fun p => p.ran ((q.view (s.core c)).run q.op)).after q.op.timing.2.2 8 (.vectorResultWrite c q.id)

theorem State.startVec_eq (hl : q.lanes = 0) : s.startVec c q = s.startsVec c q := by
  have hregs : q.view (s.core c) = q.view ((s.occupies c q).core c) := by
    rw [State.occupies_core]
    rfl
  rw [State.startsVec, hregs]
  change (if q.lanes ≠ 0 then _ else _) = _
  rw [if_neg (not_not.2 hl)]
  rfl

theorem State.startsVec_core (hf : (s.core c).vector.flight = [q]) : (s.startsVec c q).core c = { s.core c with
    vector := { (s.core c).vector with
      free := (s.core c).vector.free.put q.op.timing.1 (s.cyc + q.op.timing.2.1)
      flight := [q.ran ((q.view (s.core c)).run q.op)] } } := by
  rw [State.startsVec, State.after, State.post_core, State.upVec, State.upCore_core_self, State.occupies_core]
  simp only [hf, List.map_singleton, if_true]

/-- The state in which the head of a queue has gone into flight. -/
def State.takesVec (s : State) (c : Nat) (q : VecCmd) : State :=
  s.upCore c fun y => { y with vector := { y.vector with queue := [], flight := y.vector.flight ++ [q] } }

theorem State.takesVec_core (hf : (s.core c).vector.flight = []) :
    (s.takesVec c q).core c = { s.core c with vector := { (s.core c).vector with queue := [], flight := [q] } } := by
  rw [State.takesVec, State.upCore_core_self, hf]
  rfl

theorem State.acceptVec_empty {n : Nat} (hq : (s.core c).vector.queue = []) : s.acceptVec c n = s := by
  cases n with
  | zero => rfl
  | succ n => simp only [State.acceptVec, hq]

theorem State.acceptVec_takes {n : Nat} (hq : (s.core c).vector.queue = [q]) (hf : (s.core c).vector.flight = []) (htime : q.effect < s.cyc) :
    s.acceptVec c (n + 1) = s.takesVec c q := by
  have hnow : ¬ (16 ≤ (s.core c).vector.flight.length ∨ s.cyc < q.effect + 1) := by
    rw [hf, List.length_nil]
    omega
  simp only [State.acceptVec, hq, if_neg hnow]
  exact State.acceptVec_empty (s := s.takesVec c q) (by rw [State.takesVec_core hf])

/-- Where every command in flight has started, none starts. -/
theorem State.startAll_started {n : Nat} (hf : (s.core c).vector.flight = [q]) (hs : q.started = true) : s.startAll c n = s := by
  cases n with
  | zero => rfl
  | succ n => simp only [State.startAll, hf, State.nextVec, hs, Bool.not_true, Bool.false_and, Bool.false_eq_true, if_false]

theorem State.startAll_starts {n : Nat} (hf : (s.core c).vector.flight = [q]) (hs : q.started = false) (hl : q.lanes = 0)
    (hfree : ((s.core c).vector.free.find q.op.timing.1).getD 0 ≤ s.cyc) : s.startAll c (n + 1) = s.startsVec c q := by
  have hnext : s.nextVec c [] (s.core c).vector.flight = some q := by
    rw [hf, State.nextVec, hs, decide_eq_true hfree]
    rfl
  simp only [State.startAll, hnext, State.startVec_eq hl]
  exact State.startAll_started (by rw [State.startsVec_core hf]) rfl

theorem execVectorCommandStart_starts (hq : (s.core c).vector.queue = [q]) (hf : (s.core c).vector.flight = [])
    (hw : (s.core c).vector.wants = []) (htime : q.effect < s.cyc) (hs : q.started = false) (hl : q.lanes = 0)
    (hfree : ((s.core c).vector.free.find q.op.timing.1).getD 0 ≤ s.cyc) :
    exec (.vectorCommandStart c) s = .next ((s.takesVec c q).startsVec c q) := by
  have hcore := State.takesVec_core (q := q) hf
  have hnone : ((s.takesVec c q).core c).vector.wants.length = 0 := by rw [hcore, hw]; rfl
  change execVectorCommandStart c s = _
  simp only [execVectorCommandStart, State.acceptVec_takes hq hf htime, hnone, State.grantVec]
  rw [State.startAll_starts (by rw [hcore]) hs hl (by rw [hcore]; exact hfree)]

theorem vectorCommandStarts (hq : (s.core c).vector.queue = [q]) (hf : (s.core c).vector.flight = [])
    (hw : (s.core c).vector.wants = []) (htime : q.effect < s.cyc) (hs : q.started = false) (hl : q.lanes = 0)
    (hfree : ((s.core c).vector.free.find q.op.timing.1).getD 0 ≤ s.cyc) :
    ∃ u, exec (.vectorCommandStart c) s = .next u ∧ (u.core c).vector.queue = [] ∧
      (u.core c).vector.flight = [q.ran ((q.view (s.core c)).run q.op)] ∧
      coming u (s.cyc + q.op.timing.2.2) (.vectorResultWrite c q.id) ∧ (u.core c).vregs = (s.core c).vregs ∧ u.mem = s.mem := by
  have htakes := State.takesVec_core (q := q) hf
  have hstarts := State.startsVec_core (s := s.takesVec c q) (c := c) (q := q) (by rw [htakes])
  have hview : q.view ((s.takesVec c q).core c) = q.view (s.core c) := by rw [htakes]; rfl
  rw [hview] at hstarts
  refine ⟨_, execVectorCommandStart_starts hq hf hw htime hs hl hfree, ?_, ?_, State.after_coming _ _ _, ?_, rfl⟩
  · rw [hstarts, htakes]
  · rw [hstarts]
  · rw [hstarts, htakes]

/-! ### Integer lanes (R254) -/

/-- A lane of an integer command's result. -/
theorem ran_int_lane (v : Nat → VReg) {o : IOp} {mask : Option Word} {j : Nat} (hx : ∀ j, x.act j = activeLane mask j)
    (hd : x.d = (v q.d).toNat) (ha : x.a = (v q.a).toNat) (hb : x.b = (v q.b).toNat) (hj : j < 8) :
    (BitVec.ofNat 512 (x.map 64 (fun a b _ => o.apply a b) x.d)).extractLsb' (64 * j) 64 =
      if activeLane mask j then (match o with
        | .add => (v q.a).extractLsb' (64 * j) 64 + (v q.b).extractLsb' (64 * j) 64
        | .sub => (v q.a).extractLsb' (64 * j) 64 - (v q.b).extractLsb' (64 * j) 64
        | .mul => (v q.a).extractLsb' (64 * j) 64 * (v q.b).extractLsb' (64 * j) 64
        | .shl => (v q.a).extractLsb' (64 * j) 64 <<< (((v q.b).extractLsb' (64 * j) 64).toNat % 64)
        | .shr => (v q.a).extractLsb' (64 * j) 64 >>> (((v q.b).extractLsb' (64 * j) 64).toNat % 64)
        | .and => (v q.a).extractLsb' (64 * j) 64 &&& (v q.b).extractLsb' (64 * j) 64
        | .or => (v q.a).extractLsb' (64 * j) 64 ||| (v q.b).extractLsb' (64 * j) 64
        | .xor => (v q.a).extractLsb' (64 * j) 64 ^^^ (v q.b).extractLsb' (64 * j) 64)
      else (v q.d).extractLsb' (64 * j) 64 := by
  have hlane (n : Nat) : elemOf 64 (v n).toNat j = ((v n).extractLsb' (64 * j) 64).toNat := (extract_elemOf _ _ _).symm
  refine BitVec.eq_of_toNat_eq ?_
  rw [extract_ofNat _ (by omega), VIn.map_lane _ _ (show j < 512 / 64 by omega), hx, hd, ha, hb, hlane, hlane, hlane]
  by_cases hact : activeLane mask j = true
  · rw [if_pos hact, if_pos hact]
    refine (Nat.mod_eq_of_lt ?_).trans (IOp.apply_toNat o _ _)
    rw [IOp.apply_toNat]
    exact BitVec.isLt _
  · rw [if_neg hact, if_neg hact]

end Sys2Proof.Machine
end

section
/-! PROOFS. The vector engine writes a result (R252, R253). What lets threads go on leaves the registers and the engine alone
(`State.dropVec_path`), so that a result's registers are those that it names. -/

namespace Sys2Proof.Machine

variable {s : State} {c : Nat} {q : VecCmd} {x : Core} {th : Thread}

/-! ### Steps that leave the registers and the vector engine alone -/

/-- What a vector command reads and writes: the scalar and the vector registers, and the engine. -/
def Core.path (x : Core) : Map Word × Map VReg × VecEngine := (x.regs, x.vregs, x.vector)

theorem State.upCore_path (c : Nat) (f : Core → Core) (hf : ∀ x, (f x).path = x.path) (n : Nat) :
    ((s.upCore c f).core n).path = (s.core n).path := by
  rw [State.upCore_core]
  split
  · next hn => rw [hf, hn]
  · rfl

theorem State.upThread_path (c k : Nat) (f : Thread → Thread) (n : Nat) : ((s.upThread c k f).core n).path = (s.core n).path := by
  obtain ⟨_, hcore⟩ := s.upThread_core c k f n
  rw [hcore]
  rfl

theorem State.kick_path (c n : Nat) : ((s.kick c).core n).path = (s.core n).path := by
  by_cases hn : n = c
  · obtain ⟨_, hcore⟩ := State.kick_core (s := s) c
    rw [hn, hcore]
    rfl
  · rw [State.kick_other hn]

theorem State.enter_path (c k n : Nat) : ((s.enter c k).core n).path = (s.core n).path := by
  unfold State.enter
  split
  · rfl
  · rw [State.kick_path, State.upThread_path]
    refine State.upCore_path c _ ?_ n
    exact fun _ => rfl

theorem State.wake_path (c k n : Nat) : ((s.wake c k).core n).path = (s.core n).path := by
  unfold State.wake
  split
  · rfl
  · split
    · exact State.enter_path _ _ _
    · exact State.upThread_path _ _ _ _

theorem State.poke_path (t : Tid) (n : Nat) : ((s.poke t).core n).path = (s.core n).path := by
  unfold State.poke
  split
  · split
    · rfl
    · rfl
    · split
      · rfl
      · exact State.wake_path _ _ _
    · rfl
  · rfl

theorem State.pokeCore_path (c n : Nat) : ((s.pokeCore c).core n).path = (s.core n).path :=
  foldl_same (fun u => (u.core n).path) (fun _ _ => State.poke_path _ _) _

theorem State.accessDone_path (id n : Nat) : ((s.accessDone id).core n).path = (s.core n).path := by
  have hmergers (u : State) : (u.pokeMergers.core n).path = (u.core n).path := by
    refine foldl_same (fun u => (u.core n).path) (fun u e => ?_) _
    split
    · split
      · exact State.poke_path _ _
      · rfl
    · rfl
  rw [State.accessDone, hmergers]
  refine foldl_same (fun u => (u.core n).path) (fun u d => foldl_same (fun u => (u.core n).path) (fun u e =>
    foldl_same (fun u => (u.core n).path) (fun u p => ?_) _) _) _
  split
  · rw [State.postAll_core]
  · rfl

/-- Without a command its engine is as it was, and so are the registers. -/
theorem State.dropVec_path (id : Nat) : ((s.dropVec c id).core c).path = ((s.core c).regs, (s.core c).vregs,
    { (s.core c).vector with flight := (s.core c).vector.flight.filter fun q => q.id != id }) := by
  have hpoked : ((((s.upCore c fun x => { x with vector := { x.vector with flight := x.vector.flight.filter fun q => q.id != id } }).kickVec
      c).pokeCore c).core c).path = ((s.core c).regs, (s.core c).vregs,
        { (s.core c).vector with flight := (s.core c).vector.flight.filter fun q => q.id != id }) := by
    rw [State.pokeCore_path, State.kickVec, State.after, State.post_core, State.upCore_core_self]
    rfl
  rw [State.dropVec, State.accessDone_path]
  dsimp only
  split
  · split
    · exact hpoked
    · rw [State.poke_path, hpoked]
  · exact hpoked

/-! ### Results are written (R252) -/

/-- Registers written one after the other. -/
def putAll (l : List (Nat × VReg)) (m : Map VReg) : Map VReg := l.foldl (fun m e => m.put e.1 e.2) m

/-- The scalar registers after a command. -/
def VecCmd.scalars (q : VecCmd) (m : Map Word) : Map Word :=
  match q.scalar with
  | some n => m.put n q.sresult
  | none => m

/-- The state in which a command's destinations are written. -/
def State.writesVec (s : State) (c : Nat) (q : VecCmd) : State :=
  match q.scalar with
  | some n => (q.result.foldl (fun s e => s.setV c e.1 e.2) s).upCore c fun x => { x with regs := x.regs.put n q.sresult }
  | none => q.result.foldl (fun s e => s.setV c e.1 e.2) s

theorem foldl_setV_onCore {u : State} (l : List (Nat × VReg)) (h : OnCore s u c x) :
    OnCore s (l.foldl (fun s e => s.setV c e.1 e.2) u) c { x with vregs := putAll l x.vregs } := by
  induction l generalizing u x with
  | nil => exact h
  | cons e l ih => exact ih (x := { x with vregs := x.vregs.put e.1 e.2 }) (h.upCore _)

theorem State.writesVec_onCore :
    OnCore s (s.writesVec c q) c { s.core c with vregs := putAll q.result (s.core c).vregs, regs := q.scalars (s.core c).regs } := by
  have hwrites := foldl_setV_onCore q.result (OnCore.refl (s := s) (c := c))
  unfold State.writesVec VecCmd.scalars
  split
  · exact hwrites.upCore _
  · exact hwrites

theorem vecCmd_of_flight (hf : (s.core c).vector.flight = [q]) : s.vecCmd c q.id = some q := by
  simp [State.vecCmd, hf]

/-- A command leaves its engine, after a change of its core's registers. -/
theorem State.dropVec_done {u : State} (h : OnCore s u c x) (hf : x.vector.flight = [q]) :
    ((u.dropVec c q.id).core c).vregs = x.vregs ∧ ((u.dropVec c q.id).core c).regs = x.regs ∧
      ((u.dropVec c q.id).core c).vector.flight = [] ∧ (u.dropVec c q.id).mem = s.mem := by
  have hpath := State.dropVec_path (s := u) (c := c) q.id
  rw [h.core, hf] at hpath
  obtain ⟨hregs, hrest⟩ := Prod.mk.inj hpath
  obtain ⟨hvregs, hvector⟩ := Prod.mk.inj hrest
  refine ⟨hvregs, hregs, ?_, (State.dropVec_mem _ _).trans h.mem⟩
  rw [hvector]
  simp

theorem vectorResultWrites (hf : (s.core c).vector.flight = [q]) (hlive : s.threadOf q.home = some th) (hsat : q.sat = false) :
    ∃ u, exec (.vectorResultWrite c q.id) s = .next u ∧ (u.core c).vregs = putAll q.result (s.core c).vregs ∧
      (u.core c).regs = q.scalars (s.core c).regs ∧ (u.core c).vector.flight = [] ∧ u.mem = s.mem := by
  refine ⟨(s.writesVec c q).dropVec c q.id, ?_, State.dropVec_done State.writesVec_onCore hf⟩
  change execVectorResultWrite c q.id s = _
  simp only [execVectorResultWrite, vecCmd_of_flight hf, hlive, Option.isSome_some, if_true, State.setSat, hsat, Bool.false_eq_true, if_false]
  rfl

theorem vectorResultLost (hf : (s.core c).vector.flight = [q]) (hgone : s.threadOf q.home = none) :
    ∃ u, exec (.vectorResultWrite c q.id) s = .next u ∧ (u.core c).vregs = (s.core c).vregs ∧ (u.core c).regs = (s.core c).regs ∧
      (u.core c).vector.flight = [] ∧ u.mem = s.mem := by
  refine ⟨s.dropVec c q.id, ?_, State.dropVec_done OnCore.refl hf⟩
  change execVectorResultWrite c q.id s = _
  simp only [execVectorResultWrite, vecCmd_of_flight hf, hgone, Option.isSome_none, Bool.false_eq_true, if_false]

end Sys2Proof.Machine
end

section
/-! PROOFS. Vector instructions issue (R249, R250). A command that finds room joins its queue and its thread goes on
(`submitVec_joins`); without room the thread parks (`submitVec_parks`). What an instruction captures is said of the three forms. -/

namespace Sys2Proof.Machine

variable {s : State} {h : Hand} {t : Thread} {i : Instr} {q : VecCmd} {m : Mod} {k : Option Reg} {d a b : Reg} {loads : Bool}

/-! ### A command is submitted -/

/-- A command as its thread submits it. -/
def VecCmd.submitted (q : VecCmd) (s : State) : VecCmd := { q with id := s.serial, effect := s.cyc }

/-- The state in which a command stands in the queue. -/
def State.queuesVec (s : State) (h : Hand) (q : VecCmd) : State := (begun s h).fresh.2.enterVec h.core (q.submitted s)

theorem State.queuesVec_core : (s.queuesVec h q).core h.core = { (begun s h).core h.core with
    vector := { (s.core h.core).vector with queue := (s.core h.core).vector.queue ++ [q.submitted s] } } := by
  rw [← begun_core_vector (h := h), State.queuesVec, State.enterVec, State.after, State.post_core, State.upCore_core_self]
  rfl

/-- A command that has joined its queue, while its thread has gone on. -/
structure Joins (s u : State) (h : Hand) (t w : Thread) (q : VecCmd) : Prop where
  queue : (u.core h.core).vector.queue = (s.core h.core).vector.queue ++ [q.submitted s]
  start : coming u (s.cyc + 1) (.vectorCommandStart h.core)
  live : u.thread h.core h.slot = some w
  pc : w.pc = stepPc t.pc h.len
  status : w.status = t.status
  regs : (u.core h.core).regs = (s.core h.core).regs
  vregs : (u.core h.core).vregs = (s.core h.core).vregs
  mem : u.mem = s.mem

theorem submitVec_joins (ht : s.thread h.core h.slot = some t) (q : VecCmd) (hlen : (s.core h.core).vector.queue.length < 2)
    (hw : (s.core h.core).vector.wants = []) : ∃ u w, (cxAt s h t).submitVec (begun s h) q = .next u ∧ Joins s u h t w q := by
  have hroom : ((begun s h).core h.core).vector.queue.length < 2 ∧ ((begun s h).core h.core).vector.wants = [] := by
    rw [begun_core_vector]
    exact ⟨hlen, hw⟩
  have hthread : (s.queuesVec h q).thread h.core h.slot = some t.issuing := by
    rw [State.thread, State.queuesVec_core]
    exact begun_thread_self ht
  obtain ⟨_, hcore⟩ := passes_core (b := s.queuesVec h q) (h := h) (t := t) h.core
  rw [State.queuesVec_core] at hcore
  refine ⟨passes (s.queuesVec h q) h t, _, if_pos hroom, ?_, State.after_coming _ _ _, passes_thread hthread, rfl, rfl, ?_, ?_, rfl⟩
  · rw [hcore]
  · rw [hcore]
    exact begun_core_regs _
  · rw [hcore]
    exact begun_core_vregs _

/-- A command that waits for an entry. -/
def State.wantsVec (s : State) (h : Hand) (q : VecCmd) : State :=
  (begun s h).fresh.2.upCore h.core fun y =>
    { y with vector := { y.vector with wants := insertWant (fun e => (e.effect, e.tid.slot)) (q.submitted s) y.vector.wants } }

theorem State.wantsVec_core : ∃ wants, (s.wantsVec h q).core h.core = { (begun s h).core h.core with
    vector := { (s.core h.core).vector with wants := wants } } := by
  rw [← begun_core_vector (h := h)]
  exact ⟨_, State.upCore_core_self _ _ _⟩

theorem submitVec_parks (ht : s.thread h.core h.slot = some t) (q : VecCmd)
    (hfull : 2 ≤ (s.core h.core).vector.queue.length ∨ (s.core h.core).vector.wants ≠ []) :
    ∃ u w, (cxAt s h t).submitVec (begun s h) q = .next u ∧ u.thread h.core h.slot = some w ∧
      w.status = .parked .queue (.queue s.serial) ∧ w.pc = t.pc ∧ (u.core h.core).vector.queue = (s.core h.core).vector.queue := by
  have hroom : ¬ (((begun s h).core h.core).vector.queue.length < 2 ∧ ((begun s h).core h.core).vector.wants = []) := by
    rw [begun_core_vector]
    exact fun hr => hfull.elim (Nat.not_le.2 hr.1) fun hne => hne hr.2
  obtain ⟨_, hwants⟩ := State.wantsVec_core (s := s) (h := h) (q := q)
  have hthread : (s.wantsVec h q).thread h.core h.slot = some t.issuing := by
    rw [State.thread, hwants]
    exact begun_thread_self ht
  have hrestarts : ((s.wantsVec h q).upThread h.core h.slot fun u => { u with restart := t.restart }).thread h.core h.slot =
      some { t.issuing with restart := t.restart } := by
    rw [State.upThread_thread_self, hthread]
    rfl
  refine ⟨(cxAt s h t).queued (s.wantsVec h q) s.serial, _, if_neg hroom, State.park_thread _ _ hrestarts, rfl, rfl, ?_⟩
  obtain ⟨_, hpark⟩ := State.park_slots (s := (s.wantsVec h q).upThread h.core h.slot fun u => { u with restart := t.restart }) (c := h.core)
    (k := h.slot) .queue (.queue s.serial) h.core
  obtain ⟨_, hup⟩ := (s.wantsVec h q).upThread_core h.core h.slot (fun u => { u with restart := t.restart }) h.core
  change ((((s.wantsVec h q).upThread h.core h.slot fun u => { u with restart := t.restart }).park h.core h.slot .queue
    (.queue s.serial)).core h.core).vector.queue = _
  rw [hpark, hup, hwants]

/-! ### Instructions that touch no memory (R250, R257) -/

theorem vecCapture_mask (f : VForm) (op : VOp) (d a b : Reg) (args : List Word) :
    ((cxAt s h t).vecCapture (begun s h) f op d a b args).mask = f.mask.map (regOf s h t) := by
  simp only [Cx.vecCapture, begun_regOf]

/-- What a vector instruction captures. -/
def VIssue.captures (v : VIssue) (s : State) (x : Cx) : VecCmd :=
  x.vecCapture s v.form v.op v.d v.a v.b (v.args.map fun r => x.w s (rn r))

/-- What a vector instruction does as it issues. -/
def VIssue.body (v : VIssue) (s : State) (x : Cx) : Out :=
  if v.modular then (if modulusOk (v.captures s x).modulus then x.submitVec s (v.captures s x) else x.perm s 9)
  else x.submitVec s (v.captures s x)

theorem exec_vectorForm {v : VIssue} (hf : vectorForm i = some v) : exec i s = issue v.kind s v.body := by
  unfold vectorForm at hf
  split at hf
  all_goals cases hf
  all_goals rfl

theorem captures_args (v : VIssue) : (v.captures (begun s h) (cxAt s h t)).args = v.args.map (regOf s h t) :=
  List.map_congr_left fun r _ => begun_regOf r

theorem captures_mask (v : VIssue) : (v.captures (begun s h) (cxAt s h t)).mask = v.form.mask.map (regOf s h t) :=
  vecCapture_mask v.form v.op v.d v.a v.b _

theorem exec_vectorForm_submits {v : VIssue} (hf : vectorForm i = some v) (hi : Issues s v.kind h t)
    (hmod : v.modular = false ∨ modulusOk (((s.core h.core).vector.lc.find 0).getD 0) = true) :
    exec i s = (cxAt s h t).submitVec (begun s h) (v.captures (begun s h) (cxAt s h t)) := by
  rw [exec_vectorForm hf, issue_runs hi, VIssue.body]
  split
  next hm =>
    have hok : modulusOk (v.captures (begun s h) (cxAt s h t)).modulus = true := hmod.resolve_left (by simp [hm])
    rw [if_pos hok]
  next => rfl

/-! ### Memory instructions (R260, R261) -/

/-- The operation of a memory form. -/
theorem exec_lineForm {imm : Imm} (hf : lineForm i = some (loads, m, k, d, a, imm)) : ∃ f : VForm, f.mask = k ∧
    f.kind = { names := { w := ([a] ++ k.toList).map rn, v := [rn d] }, report := [.vector], big := false } ∧
    exec i s = issueLine f (if loads then .ld else .st) m d a imm.toInt s := by
  unfold lineForm at hf
  split at hf
  all_goals cases hf
  all_goals exact ⟨_, rfl, rfl, rfl⟩

theorem exec_eachForm (hf : eachForm i = some (loads, m, k, d, a, b)) : ∃ f : VForm, f.mask = k ∧
    f.kind = { names := { w := ([a] ++ k.toList).map rn, v := [rn d, rn b] }, report := [.vector], big := false } ∧
    exec i s = issueEach f (if loads then .gth else .sct) m d a b s := by
  unfold eachForm at hf
  split at hf
  all_goals cases hf
  all_goals exact ⟨_, rfl, rfl, rfl⟩

/-- An instruction without release has its effect at once (R115). -/
theorem Cx.releasing_none {x : Cx} {body : State → Out} (hm : m.release = false) : x.releasing s m body = body s := by
  simp only [Cx.releasing, hm, Bool.not_false, if_true]

/-- An instruction with no pending restart index runs from its first lane (R183). -/
theorem Cx.restartLane_none {x : Cx} (n : Nat) (hr : x.th.restart = none) : x.restartLane n = 0 := by
  rw [Cx.restartLane, hr]

/-- The pointer of lane 0, once its checks are passed (R261). -/
theorem Cx.laneChecks_pass {x : Cx} {base : Word} {delta : Int} {lanes : List Nat} (body : Word → Out)
    (hok : ∀ lo hi : Nat, lanes.head? = some lo → lanes.getLast? = some hi →
      sideRange base (delta + 4 * lo) (delta + 4 * hi + 3) = none ∧ ((offsetOf base : Int) + delta) % 8 = 0) :
    x.laneChecks s base delta lanes body = body (if lanes = [] then base else base + BitVec.ofInt 64 delta) := by
  cases lanes with
  | nil => rfl
  | cons lo rest =>
    obtain ⟨hi, hlast⟩ := Option.isSome_iff_exists.1 (List.getLast?_isSome.2 (List.cons_ne_nil lo rest))
    obtain ⟨hrange, halign⟩ := hok lo hi rfl hlast
    simp only [Cx.laneChecks, List.head?_cons, hlast, hrange, halign, ne_eq, not_true_eq_false, if_false, reduceCtorEq]
    rfl

/-- What VLD and VST capture. -/
def Cx.lineCapture (x : Cx) (s : State) (f : VForm) (op : VOp) (m : Mod) (d : Reg) (p : Word) : VecCmd :=
  { x.vecCapture s f op d 0 0 [] with lanes := 16, base := 0, args := [p], relaxed := m.relaxed, acq := acqOf m }

theorem lineCapture_mask (f : VForm) (op : VOp) (p : Word) :
    ((cxAt s h t).lineCapture (begun s h) f op m d p).mask = f.mask.map (regOf s h t) := vecCapture_mask f op d 0 0 []

theorem issueLine_submits {f : VForm} {op : VOp} {imm : Int} (hi : Issues s f.kind h t) (hr : t.restart = none) (hm : m.release = false)
    (hok : ∀ lo hi : Nat, ((List.range 16).filter (activeLane (f.mask.map (regOf s h t)))).head? = some lo →
      ((List.range 16).filter (activeLane (f.mask.map (regOf s h t)))).getLast? = some hi →
      sideRange (regOf s h t a) (64 * imm + 4 * lo) (64 * imm + 4 * hi + 3) = none ∧ ((offsetOf (regOf s h t a) : Int) + 64 * imm) % 8 = 0) :
    issueLine f op m d a imm s = (cxAt s h t).submitVec (begun s h) ((cxAt s h t).lineCapture (begun s h) f op m d
      (if (List.range 16).filter (activeLane (f.mask.map (regOf s h t))) = [] then regOf s h t a
        else regOf s h t a + BitVec.ofInt 64 (64 * imm))) := by
  have hlane : (cxAt s h t).restartLane 16 = 0 := Cx.restartLane_none 16 hr
  have hlanes : ((List.range 16).filter fun j => decide (0 ≤ j) && activeLane ((cxAt s h t).vecCapture (begun s h) f op d 0 0 []).mask j) =
      (List.range 16).filter (activeLane (f.mask.map (regOf s h t))) := by
    simp only [vecCapture_mask, Nat.zero_le, decide_true, Bool.true_and]
  rw [issueLine, issue_runs hi]
  dsimp only
  rw [hlane, hlanes, begun_regOf, Cx.laneChecks_pass _ hok, Cx.releasing_none hm]
  rfl

/-- What VGTH and VSCT capture. -/
def Cx.eachCapture (x : Cx) (s : State) (f : VForm) (op : VOp) (m : Mod) (d b : Reg) (p : Word) : VecCmd :=
  { x.vecCapture s f op d 0 b [p] with lanes := 8, base := 0, relaxed := m.relaxed, acq := acqOf m }

theorem eachCapture_mask (f : VForm) (op : VOp) (p : Word) :
    ((cxAt s h t).eachCapture (begun s h) f op m d b p).mask = f.mask.map (regOf s h t) := vecCapture_mask f op d 0 b [p]

theorem issueEach_submits {f : VForm} {op : VOp} (hi : Issues s f.kind h t) (hr : t.restart = none) (hm : m.release = false) :
    issueEach f op m d a b s =
      (cxAt s h t).submitVec (begun s h) ((cxAt s h t).eachCapture (begun s h) f op m d b (regOf s h t a)) := by
  have hlane : (cxAt s h t).restartLane 8 = 0 := Cx.restartLane_none 8 hr
  rw [issueEach, issue_runs hi]
  dsimp only
  rw [hlane, begun_regOf, Cx.releasing_none hm]
  rfl

end Sys2Proof.Machine
end

section
/-! PROOFS. Vector instructions settle: issue, the engine's two steps, and the lanes of each operation. -/

namespace Sys2Proof.Machine

variable {s : State} {c : Nat} {q : VecCmd} {th : Thread} {x : VIn} {r : Nat} {w0 w1 : Word} {ws : List Word}

/-! ### An engine's step and its results -/

/-- The result of an integer command (R254). -/
theorem ran_int (y : Core) {o : IOp} (hop : q.op = .int o) : (q.ran ((q.view y).run q.op)).result =
    [(q.d, BitVec.ofNat 512 ((q.view y).map 64 (fun a b _ => o.apply a b) (q.view y).d))] := by
  rw [hop]
  rfl

theorem vectorResultOne {n : Nat} {v : VReg} (hf : (s.core c).vector.flight = [q]) (hlive : s.threadOf q.home = some th)
    (hsat : q.sat = false) (hr : q.result = [(n, v)]) (hscalar : q.scalar = none) :
    ∃ u, exec (.vectorResultWrite c q.id) s = .next u ∧
      (u.core c).vregs.find n = some v ∧ (∀ k, k ≠ n → (u.core c).vregs.find k = (s.core c).vregs.find k) ∧
      (u.core c).regs = (s.core c).regs ∧ (u.core c).vector.flight = [] ∧ u.mem = s.mem := by
  obtain ⟨u, hexec, hvregs, hregs, hflight, hmem⟩ := vectorResultWrites hf hlive hsat
  rw [hr] at hvregs
  rw [VecCmd.scalars, hscalar] at hregs
  refine ⟨u, hexec, ?_, fun k hk => ?_, hregs, hflight, hmem⟩
  · rw [hvregs]
    exact Map.find_put_self _ _ _
  · rw [hvregs]
    exact Map.find_put_other _ _ hk

theorem vectorResultScalar {n : Nat} (hf : (s.core c).vector.flight = [q]) (hlive : s.threadOf q.home = some th)
    (hsat : q.sat = false) (hr : q.result = []) (hscalar : q.scalar = some n) :
    ∃ u, exec (.vectorResultWrite c q.id) s = .next u ∧
      (u.core c).regs.find n = some q.sresult ∧ (∀ k, k ≠ n → (u.core c).regs.find k = (s.core c).regs.find k) ∧
      (u.core c).vregs = (s.core c).vregs ∧ (u.core c).vector.flight = [] ∧ u.mem = s.mem := by
  obtain ⟨u, hexec, hvregs, hregs, hflight, hmem⟩ := vectorResultWrites hf hlive hsat
  rw [hr] at hvregs
  rw [VecCmd.scalars, hscalar] at hregs
  refine ⟨u, hexec, ?_, fun k hk => ?_, hvregs, hflight, hmem⟩
  · rw [hregs]
    exact Map.find_put_self _ _ _
  · rw [hregs]
    exact Map.find_put_other _ _ hk

theorem vectorResultTwo {n n' : Nat} {v v' : VReg} (hf : (s.core c).vector.flight = [q]) (hlive : s.threadOf q.home = some th)
    (hsat : q.sat = false) (hr : q.result = [(n, v), (n', v')]) (hne : n ≠ n') (hscalar : q.scalar = none) :
    ∃ u, exec (.vectorResultWrite c q.id) s = .next u ∧
      (u.core c).vregs.find n = some v ∧ (u.core c).vregs.find n' = some v' ∧
      (∀ k, k ≠ n → k ≠ n' → (u.core c).vregs.find k = (s.core c).vregs.find k) ∧
      (u.core c).regs = (s.core c).regs ∧ (u.core c).vector.flight = [] ∧ u.mem = s.mem := by
  obtain ⟨u, hexec, hvregs, hregs, hflight, hmem⟩ := vectorResultWrites hf hlive hsat
  rw [hr] at hvregs
  rw [VecCmd.scalars, hscalar] at hregs
  have hputs : (u.core c).vregs = ((s.core c).vregs.put n v).put n' v' := hvregs
  refine ⟨u, hexec, ?_, ?_, fun k hk hk' => ?_, hregs, hflight, hmem⟩
  · rw [hputs, Map.find_put_other _ _ hne, Map.find_put_self]
  · rw [hputs, Map.find_put_self]
  · rw [hputs, Map.find_put_other _ _ hk', Map.find_put_other _ _ hk]

/-! ### Floating-point lanes (R217, R219, R254, R255) -/

theorem Fmt.flip_eq (half : Bool) {n : Nat} (hn : n < 2 ^ (laneFmt half).width) :
    (laneFmt half).flip n = (n + 2 ^ ((laneFmt half).width - 1)) % 2 ^ (laneFmt half).width := by
  cases half
  · exact xor_two_pow 31 n hn
  · exact xor_two_pow 15 n hn

/-- A reduction is a tree of pairs over its lanes. -/
theorem reduce_pairs (x : VIn) (k : Red) (half : Bool) {op : Nat → Nat → Nat} {lane : Nat → Nat} (hop : ∀ u v, op u v = k.step x.rm u v)
    (hlane : ∀ j, lane j = x.redLane k half j) :
    (half = false → x.reduce k half = pairLevel op (pairLevel op (pairLevel op (pairLevel op lane))) 0) ∧
    (half = true → x.reduce k half =
      (bf16.code x.rm (fp32.value (pairLevel op (pairLevel op (pairLevel op (pairLevel op (pairLevel op lane)))) 0))).1) := by
  obtain rfl : op = k.step x.rm := funext fun u => funext fun v => hop u v
  obtain rfl : lane = x.redLane k half := funext hlane
  constructor
  · rintro rfl
    rw [reduce_full, treeOf_sixteen]
  · rintro rfl
    rw [reduce_half, treeOf_thirtytwo]

theorem floatClauses (x : VIn) (half : Bool) (r : Nat) :
    let f : Fmt := if half then bf16 else fp32
    let w := f.width
    let el (v j : Nat) : Nat := v / 2 ^ (w * j) % 2 ^ w
    let val (v j : Nat) : Fp := f.value (el v j)
    let one (y : Fp) : Nat := (f.code x.rm y).1
    let nans (j : Nat) : Bool := (val x.a j).isNan || (val x.b j).isNan
    let less (j : Nat) : Bool := (val x.a j).before (val x.b j)
    (∀ op, (x.run (.float op half)).d = some r → ∀ j < 512 / w, el r j = if x.act j then (match op with
      | .add => one ((val x.a j).add x.rm (val x.b j)) | .sub => one ((val x.a j).add x.rm (val x.b j).neg)
      | .mul => one ((val x.a j).mul (val x.b j)) | .fma => one (((val x.a j).mul (val x.b j)).add x.rm (val x.d j))
      | .min => if nans j then f.nan else if less j then el x.a j else el x.b j
      | .max => if nans j then f.nan else if less j then el x.b j else el x.a j
      | .abs => el x.a j % 2 ^ (w - 1) | .neg => (el x.a j + 2 ^ (w - 1)) % 2 ^ w) else el x.d j) ∧
    (∀ k, ∀ j < 64, (x.run (.cmp k half)).w.getLsbD j =
      if j = 63 then half else decide (j < 512 / w) && x.act j && (match k with
        | .eq => (val x.a j).eq (val x.b j) | .lt => (val x.a j).lt (val x.b j)
        | .le => (val x.a j).lt (val x.b j) || (val x.a j).eq (val x.b j))) := by
  intro f w el val one nans less
  refine ⟨fun op hr j hj => ?_, fun k j hj => ?_⟩
  · obtain rfl := Option.some.inj hr
    refine (floatLanes x op half hj).trans ?_
    by_cases hact : x.act j = true
    · rw [if_pos hact, if_pos hact]
      cases op with
      | neg => exact Fmt.flip_eq half (elemOf_lt _ _ _)
      | _ => rfl
    · rw [if_neg hact, if_neg hact]
      rfl
  · refine (compare_bit x k half hj).trans ?_
    rw [VIn.holds, ← Bool.and_assoc]
    cases k <;> rfl

theorem reductionClauses (x : VIn) (half : Bool) (r : Nat) :
    let f : Fmt := if half then bf16 else fp32
    let w := f.width
    let el (v j : Nat) : Nat := v / 2 ^ (w * j) % 2 ^ w
    ∀ k, (x.run (.red k half)).d = some r →
      let op (u v : Nat) : Nat := match k with
        | .sum => (fp32.code x.rm ((fp32.value u).add x.rm (fp32.value v))).1
        | .max => if (fp32.value u).isNan || (fp32.value v).isNan then fp32.nan else if (fp32.value u).before (fp32.value v) then v else u
        | .min => if (fp32.value u).isNan || (fp32.value v).isNan then fp32.nan else if (fp32.value u).before (fp32.value v) then u else v
      let none' : Nat := match k with | .sum => 0x80000000 | .max => 0xFF800000 | .min => 0x7F800000
      let lane (j : Nat) : Nat := if x.act j then (if half then 65536 * el x.a j else el x.a j) else none'
      let up (g : Nat → Nat) (j : Nat) : Nat := op (g (2 * j)) (g (2 * j + 1))
      (half = false → r = up (up (up (up lane))) 0) ∧
      (half = true → r = (bf16.code x.rm (fp32.value (up (up (up (up (up lane)))) 0))).1) := by
  intro f w el k hr op none' lane up
  obtain rfl := Option.some.inj hr
  have hop (u v : Nat) : op u v = k.step x.rm u v := by cases k <;> rfl
  have hlane (j : Nat) : lane j = x.redLane k half j := by
    change (if x.act j then (if half then 65536 * el x.a j else el x.a j) else none') = _
    rw [Nat.mul_comm 65536]
    cases k <;> rfl
  exact reduce_pairs x k half hop hlane

/-! ### Operands -/

theorem select_operand (hws : x.ws = w0 :: ws) (hr : (x.run .sel).d = some r) : r = x.select w0 := by
  have hsel : x.select (x.ws.getD 0 0) = r := Option.some.inj hr
  rw [← hsel, hws, List.getD_cons_zero]

theorem broadcast_operand {op : VOp} (hop : op = .bcast ∨ op = .movvAll) (hws : x.ws = w0 :: ws) (hr : (x.run op).d = some r) :
    r = x.map 64 (fun _ _ _ => w0.toNat) x.d := by
  have hmap : x.map 64 (fun _ _ _ => (x.ws.getD 0 0).toNat) x.d = r := by
    rcases hop with rfl | rfl <;> exact Option.some.inj hr
  rw [← hmap, hws, List.getD_cons_zero]

theorem insert_operand {i : Nat} (hws : x.ws = w0 :: ws) (hr : (x.run (.movv i)).d = some r) :
    r = packed 64 ((List.range 8).map fun j => if j = i then w0.toNat else elemOf 64 x.d j) := by
  have hput : packed 64 ((List.range 8).map fun j => if j = i then (x.ws.getD 0 0).toNat else elemOf 64 x.d j) = r := Option.some.inj hr
  rw [← hput, hws, List.getD_cons_zero]

theorem twiddle_operands (hws : x.ws = w0 :: ws) (hhead : ∀ i, ws.head? = some i → i = w1) (hne : ws ≠ [])
    (hr : (x.run .twid).d = some r) : r = packed 64 ((List.range 8).map fun j =>
      if x.act j then mulMod x.q w0.toNat (powMod x.q w1.toNat j) else elemOf 64 x.d j) := by
  obtain ⟨i, rest, rfl⟩ := List.exists_cons_of_ne_nil hne
  obtain rfl := hhead i rfl
  have hput : packed 64 ((List.range 8).map fun j => if x.act j then mulMod x.q (x.ws.getD 0 0).toNat (powMod x.q (x.ws.getD 1 0).toNat j)
    else elemOf 64 x.d j) = r := Option.some.inj hr
  rw [← hput, hws, List.getD_cons_zero, List.getD_cons_succ, List.getD_cons_zero]

theorem moveClauses (x : VIn) (k : Word) (r : Nat) (ws : List Word) (hws : x.ws = k :: ws) :
    ((x.run .sel).d = some r → ∀ j < 512 / maskWidth k, elemOf (maskWidth k) r j =
      if k.getLsbD j then elemOf (maskWidth k) x.a j else elemOf (maskWidth k) x.d j) ∧
    ((x.run .shuf).d = some r → ∀ j < 16, elemOf 32 r j = elemOf 32 x.a (elemOf 32 x.b j % 16)) ∧
    ((x.run .bcast).d = some r → ∀ j < 8, elemOf 64 r j = if x.act j then k.toNat else elemOf 64 x.d j) ∧
    ((x.run .movvAll).d = some r → ∀ j < 8, elemOf 64 r j = if x.act j then k.toNat else elemOf 64 x.d j) ∧
    (∀ i < 8, (x.run (.movv i)).d = some r → ∀ j < 8, elemOf 64 r j = if j = i then k.toNat else elemOf 64 x.d j) := by
  refine ⟨fun hr j hj => ?_, fun hr j hj => ?_, fun hr j hj => ?_, fun hr j hj => ?_, fun i _ hr j hj => ?_⟩
  · rw [select_operand hws hr]
    exact selectLanes x k hj
  · rw [← Option.some.inj hr]
    exact shuffleLanes x hj
  · rw [broadcast_operand (.inl rfl) hws hr]
    exact broadcastLanes x k hj
  · rw [broadcast_operand (.inr rfl) hws hr]
    exact broadcastLanes x k hj
  · rw [insert_operand hws hr]
    exact insertLanes x k i hj

theorem specialLanes (x : VIn) (r : Nat) :
    ((x.run .exp2).d = some r → ∀ j < 16, elemOf 32 r j = if x.act j then fp32.exp2 x.rm (elemOf 32 x.a j) else elemOf 32 x.d j) ∧
    ((x.run .rcp).d = some r → ∀ j < 16, elemOf 32 r j = if x.act j then fp32.rcp x.rm (elemOf 32 x.a j) else elemOf 32 x.d j) ∧
    ((x.run .rsq).d = some r → ∀ j < 16, elemOf 32 r j = if x.act j then fp32.rsq x.rm (elemOf 32 x.a j) else elemOf 32 x.d j) := by
  refine ⟨fun hr j hj => ?_, fun hr j hj => ?_, fun hr j hj => ?_⟩ <;> rw [← Option.some.inj hr]
  · exact VIn.map_lane_of_lt (f := fun a _ _ => fp32.exp2 x.rm a) x.d hj (exp2_lt _ _)
  · exact VIn.map_lane_of_lt (f := fun a _ _ => fp32.rcp x.rm a) x.d hj (rcp_lt _ _)
  · exact VIn.map_lane_of_lt (f := fun a _ _ => fp32.rsq x.rm a) x.d hj (rsq_lt _ _)

/-! ### The obligation -/

/-- Settles O47: instructions issue by `submitVec_joins` and `submitVec_parks`, the engine's steps are `vectorCommandStarts` and
`vectorResultWrites`, and the lanes of an operation are those of `VIn.map_lane`. -/
theorem vectorInstructionsJoinAndWriteTheirLanes : Obligations.VectorInstructionsJoinAndWriteTheirLanes := by
  unfold Obligations.VectorInstructionsJoinAndWriteTheirLanes
  refine ⟨⟨?_, ?_, ?_⟩, ?_, ?_, ?_, ?_, ?_, ?_, ?_, ?_, ?_, ?_, ?_, ?_⟩
  · intro s h t i v hf hi e lc hmod
    have hexec := exec_vectorForm_submits hf hi hmod
    refine ⟨fun hlen hw => ?_, fun hfull => ?_⟩
    · obtain ⟨u, w, hsubmit, hqueue, hstart, hlive, hpc, hstatus, hregs, hvregs, hmem⟩ := submitVec_joins hi.live
        (v.captures (begun s h) (cxAt s h t)) hlen hw
      refine ⟨u, _, w, hexec.trans hsubmit, hqueue, rfl, rfl, rfl, rfl, rfl, rfl, captures_args v, captures_mask v, rfl, rfl, begun_tid, rfl, rfl,
        rfl, hstart, hlive, hpc, hstatus, hregs, hvregs, hmem⟩
    · obtain ⟨u, w, hsubmit, hlive, hstatus, hpc, hqueue⟩ := submitVec_parks hi.live (v.captures (begun s h) (cxAt s h t)) hfull
      exact ⟨u, w, hexec.trans hsubmit, hlive, hstatus, hpc, hqueue⟩
  · intro s h t i loads m k d a imm hf hi hr hm e mask lanes base delta hok hlen hw
    obtain ⟨f, rfl, hkind, hexec⟩ := exec_lineForm (s := s) hf
    obtain ⟨u, w, hsubmit, hqueue, hstart, hlive, hpc, hstatus, -, -, hmem⟩ := submitVec_joins hi.live ((cxAt s h t).lineCapture (begun s h) f
      (if loads then .ld else .st) m d (if lanes = [] then base else base + BitVec.ofInt 64 delta)) hlen hw
    have hmask := lineCapture_mask (s := s) (h := h) (t := t) (m := m) (d := d) f (if loads then .ld else .st)
      (if lanes = [] then base else base + BitVec.ofInt 64 delta)
    exact ⟨u, _, w, hexec.trans ((issueLine_submits (hkind ▸ hi) hr hm hok).trans hsubmit), hqueue, rfl, rfl, rfl,
      hmask, rfl, rfl, hlive, hpc, hstatus, hstart, hmem⟩
  · intro s h t i loads m k d a b hf hi hr hm e hlen hw
    obtain ⟨f, rfl, hkind, hexec⟩ := exec_eachForm (s := s) hf
    obtain ⟨u, w, hsubmit, hqueue, hstart, hlive, hpc, hstatus, -, -, hmem⟩ := submitVec_joins hi.live ((cxAt s h t).eachCapture (begun s h) f
      (if loads then .gth else .sct) m d b (regOf s h t a)) hlen hw
    have hmask := eachCapture_mask (s := s) (h := h) (t := t) (m := m) (d := d) (b := b) f (if loads then .gth else .sct) (regOf s h t a)
    exact ⟨u, _, w, hexec.trans ((issueEach_submits (hkind ▸ hi) hr hm).trans hsubmit), hqueue, rfl, rfl, rfl,
      hmask, rfl, rfl, hlive, hpc, hstatus, hstart, hmem⟩
  · intro s c q hq hf hw htime hs hl hfree
    obtain ⟨u, hexec, hqueue, hflight, hcoming, hvregs, hmem⟩ := vectorCommandStarts hq hf hw htime hs hl hfree
    refine ⟨u, _, hexec, hqueue, hflight, rfl, rfl, rfl, rfl, rfl, hcoming, hvregs, hmem,
      ⟨rfl, rfl, fun r hr hd => VecCmd.ran_d hr hd, fun r hr => VecCmd.ran_a hr, fun e he => VecCmd.ran_only he⟩, fun o hop => ?_⟩
    exact ⟨_, ran_int (s.core c) hop, fun j hj => ran_int_lane (fun n => ((s.core c).vregs.find n).getD 0) (fun _ => rfl) rfl rfl rfl hj⟩
  · intro s c q th hf hlive hsat
    exact ⟨fun n v hr hscalar => vectorResultOne hf hlive hsat hr hscalar, fun n hr hscalar => vectorResultScalar hf hlive hsat hr hscalar,
      fun n v n' v' hr hne hscalar => vectorResultTwo hf hlive hsat hr hne hscalar⟩
  · exact fun s c q hf hgone => vectorResultLost hf hgone
  · intro x r hq hlt _ _ _ el
    refine ⟨fun hr j hj => ?_, fun hr j hj => ?_, fun hr j hj => ?_⟩ <;> obtain ⟨hadd, hsub, hmul⟩ := modularLanes hq hlt x rfl hj <;>
      obtain rfl := Option.some.inj hr
    exacts [hadd, hsub, hmul]
  · intro x r r' w0 w1 ws hok hlt _ _ _ hws hhead el p z
    have hq := modulusOk_pos hok hlt
    refine ⟨fun hr hr' j hj => ?_, fun hr hr' j hj => ?_, fun hr hne j hj => ?_⟩
    · obtain ⟨hsum, hdiff, -, -⟩ := butterflyLanes hq hlt x rfl hj
      obtain rfl := Option.some.inj hr
      obtain rfl := Option.some.inj hr'
      exact ⟨hsum, hdiff⟩
    · obtain ⟨-, -, hsum, hdiff⟩ := butterflyLanes hq hlt x rfl hj
      obtain rfl := Option.some.inj hr
      obtain rfl := Option.some.inj hr'
      exact ⟨hsum, hdiff⟩
    · obtain rfl := twiddle_operands hws hhead hne hr
      exact twiddleLanes hq hlt x rfl w0 w1 hj
  · intro x half r _ _ _ f w el val one nans less
    obtain ⟨hlanes, hcompare⟩ := floatClauses x half r
    exact ⟨hlanes, hcompare, reductionClauses x half r, fun c hnan hc => (laneFmt_fits half).code_value x.rm hnan hc⟩
  · exact fun x k r ws _ _ _ hws => moveClauses x k r ws hws
  · intro x i _ _
    exact (BitVec.toNat_ofNat _ _).trans (elemOf_mod 64 x.a i)
  · intro x sel r hsel hd _ hr c el
    obtain ⟨hr512, hlanes, hhigh⟩ := convertLanes x hsel hd hr
    obtain ⟨hn, -⟩ := cvtOf_shape x.rm hsel
    exact ⟨hn, hr512, hlanes, hhigh, convert_sat x sel⟩
  · exact fun x r _ _ => specialLanes x r
  · intro rm hrm
    exact ⟨exp2_special hrm, rcp_special, rsq_special, fun c _ hnan => special_nan hnan,
      fun c a m e n hc hn hlo hhi => exp2_integer hc hn hlo hhi⟩
  · intro c a m e hc hm
    refine ⟨rcp_toward_zero hc hm, ?_, ?_⟩
    · rintro rfl
      exact rsq_toward_zero hc hm
    · rintro rfl
      exact rsq_negative hc hm

end Sys2Proof.Machine
end
